-- ==== Sys2Proof/Word.lean ====
section
/-! DEFINITION. The words of the module: a 64-bit register (R533), a byte of memory, the two fronds and the
privilege levels (R10), register fields as places in a word, and the sparse tables that hold registers and
memory. Nothing here depends on a choice of the spec's that a test could show wrong. -/

namespace Sys2Proof

/-- A register is 64 bits wide (R533). -/
abbrev Word := BitVec 64

/-- A byte of memory. -/
abbrev Byte := BitVec 8

/-- A table that lists some keys and gives every other key a default; keys rise strictly in its canonical form. -/
abbrev Sparse (α : Type) := List (Nat × α)

/-- The two compute dies of a module (R14). -/
inductive Frond where
  | A
  | B
  deriving DecidableEq, Repr

/-- Frond A is 0 and frond B is 1 wherever the spec numbers them. -/
def Frond.idx : Frond → Nat
  | .A => 0
  | .B => 1

/-- Frond number 0 is A; any other is B. -/
def Frond.at (n : Nat) : Frond := if n = 0 then .A else .B

/-- The other frond. -/
def Frond.other : Frond → Frond
  | .A => .B
  | .B => .A

/-- The privilege levels of R10, L0 the most privileged. -/
inductive Level where
  | L0
  | L1
  | L2
  deriving DecidableEq, Repr

/-- L0 is 0, L1 is 1, L2 is 2. -/
def Level.num : Level → Nat
  | .L0 => 0
  | .L1 => 1
  | .L2 => 2

/-- A register field: its page, the register's byte offset in the page, the strides of an indexed register, and
the bits `[hi:lo]`. -/
structure Field where
  page : Nat
  off : Nat
  stride : Nat
  stride2 : Nat
  hi : Nat
  lo : Nat
  deriving DecidableEq, Repr

/-- The key of a register: its page number times 4,096 plus its offset (R530 without the base). -/
def Field.key (f : Field) : Nat := f.page * 4096 + f.off

/-- The field's width in bits. -/
def Field.width (f : Field) : Nat := f.hi + 1 - f.lo

/-- The same field on page `p`. -/
def Field.pg (f : Field) (p : Nat) : Field := ⟨p, f.off, f.stride, f.stride2, f.hi, f.lo⟩

/-- The field of register `n` of an indexed group. -/
def Field.i (f : Field) (n : Nat) : Field := ⟨f.page, f.off + f.stride * n, 0, f.stride2, f.hi, f.lo⟩

/-- The field of register `n, m` of a doubly indexed group. -/
def Field.ij (f : Field) (n m : Nat) : Field :=
  ⟨f.page, f.off + f.stride * n + f.stride2 * m, 0, 0, f.hi, f.lo⟩

/-- The access codes of R10. -/
inductive Access where
  | rw
  | ro
  | wo
  | w1c
  | w1s
  | rw0
  deriving DecidableEq, Repr

/-- One field of a register table: its bits, access code, Reset value, the static clamp on writes and whether the
table marks it "L0 only" (R11). -/
structure FieldSpec where
  hi : Nat
  lo : Nat
  acc : Access
  rst : Nat
  clamp : Option (Nat × Nat)
  l0 : Bool
  deriving DecidableEq, Repr

/-- One row of a register table: the offset, the strides and counts of an indexed group, and the fields. -/
structure RegRow where
  base : Nat
  s1 : Nat
  n1 : Nat
  s2 : Nat
  n2 : Nat
  fields : List FieldSpec
  deriving DecidableEq, Repr

end Sys2Proof
end

