-- ==== Sys2Proof/Syntax.lean ====
section
/-! DEFINITION. The commands: everything that acts on the module from outside or comes due inside it, one
constructor for each row of spec/opcode_table.json. A register write carries its requester and level; an event
carries what was measured, received or decided outside the model. Values are as the spec's registers hold them
unless a docstring says otherwise. -/

namespace Sys2Proof

/-- Who reaches a register page (R531). -/
inductive ReqKind where
  | steward
  | power
  | core (f : Frond) (n : Fin 8)
  | host (slot : Fin 64)
  /-- A relayed record, on the session of the pod steward that it names (R293). -/
  | relay (slot : Fin 64)
  deriving DecidableEq, Repr

/-- A requester and the privilege level it carries (R10, R531). -/
structure Req where
  kind : ReqKind
  level : Level
  deriving DecidableEq, Repr

/-- The interrupt controllers (R481). -/
inductive Ctl where
  | fic (f : Frond)
  | pic
  deriving DecidableEq, Repr

/-- The faults of a converter (R323). -/
inductive ConvFault where
  | oc
  | ot
  | switch
  deriving DecidableEq, Repr

/-- What a write to the schedule names (R313). -/
inductive GrTarget where
  | entry (n : Fin 64)
  | start
  | timebase
  deriving DecidableEq, Repr

/-- The coefficient and structure registers of a loop slot but for LS_CASC (R328). -/
inductive LoopReg where
  | cfg
  | kpi
  | kdf
  | kff
  | outlim
  | sp
  deriving DecidableEq, Repr

/-- Where a sample instant comes from (R394, R395): the n-th enabled SWEEP entry of the table, a SWEEP entry that
fired at a mark, the master's own timer, or the backstop. -/
inductive SweepSource where
  | table
  | late
  | free
  | backstop
  deriving DecidableEq, Repr

/-- One unit's block of a READ (R389): whether its CRC held on some attempt, 16 cell voltages (0.1 mV), 4
thermistors (signed 0.1 degrees C), the block voltage (mV) and the shunt current (signed mA). -/
structure GcsBlock where
  unit : Fin 7
  ok : Bool
  cells : List (BitVec 16)
  therm : List (BitVec 16)
  blockMv : BitVec 16
  shunt : BitVec 32
  deriving DecidableEq, Repr


/-- What the PWC measures in one period of LS3 (R300, R334), in the units of the registers: FC efficiency (0.01 %), IB
voltage (mV), bus voltage (0.1 V) and current (signed mA), FC IB-side current (signed 0.01 A) and temperature (signed
0.25 degrees C), stack voltage (0.1 V), BC IB-side current (signed 0.01 A, positive toward the IB) and temperature, and
the BC phases that run. -/
structure PowerSample where
  eff : BitVec 16
  ibMv : BitVec 16
  busV : BitVec 16
  busI : BitVec 16
  fcI : BitVec 16
  fcTemp : BitVec 16
  stackV : BitVec 16
  bcI : BitVec 16
  bcTemp : BitVec 16
  bcOn : Fin 13
  deriving DecidableEq, Repr

/-- Who makes an access that is checked by a domain or by its own rules (R216, R229): a control core, an engine or a
tile of a context, a remote module through a port of a frond, a host session. -/
inductive Accessor where
  | core (f : Frond) (n : Fin 8)
  | engine (f : Frond) (ctx : BitVec 16)
  | tile (f : Frond) (ctx : BitVec 16)
  | remote (module : BitVec 6) (f : Frond)
  | host (slot : Fin 64)
  deriving DecidableEq, Repr

/-- A read of `n` bytes or a write of bytes, which may carry poison. -/
inductive MemOp where
  | read (n : Nat)
  | write (data : List (BitVec 8)) (poison : Bool)
  deriving DecidableEq, Repr

/-- What is found as a word or block is read (R137, R140, R145): nothing wrong, an error corrected (in symbol `sym`), an
uncorrectable error, or a command/address parity error of HBM, after which the retry finds nothing wrong.
(DESIGN CHOICE, log 5) -/
inductive Ecc where
  | clean
  | corrected (sym : Fin 36)
  | bad
  | parity
  deriving DecidableEq, Repr

/-- What a calibration of one array measures (R82): whether its verification held, whether every gain lies within 0.75 to
1.25 and every offset within ±64 LSB (R102), and the worst residual offset (1/64 LSB), gain (0.001 %) and noise
(1/64 LSB). -/
structure CalResult where
  verified : Bool
  inRange : Bool
  offset : BitVec 16
  gain : BitVec 16
  noise : BitVec 16
  deriving DecidableEq, Repr

/-- A Henyr transaction: the header of R253 and its data; `len` is LEN + 1 of a transaction that carries no data of that
length. -/
structure Txn where
  opc : BitVec 8
  dest : BitVec 6
  src : BitVec 6
  srcFrond : Frond
  trk : BitVec 15
  gen : BitVec 12
  issue : BitVec 16
  len : BitVec 13
  age : BitVec 8
  addr : BitVec 44
  dl : Bool
  esc : Bool
  status : BitVec 4
  aop : BitVec 4
  afmt : BitVec 2
  coll : BitVec 8
  aux : BitVec 32
  h3 : BitVec 64
  data : List (BitVec 8)
  deriving DecidableEq, Repr

/-- A flit as it arrives (R237, R238): the symbols that FEC corrected, whether its codeword could be corrected, and its 256
bytes, which the FEC has delivered. (DESIGN CHOICE, log 5) -/
structure Flit where
  symbols : BitVec 16
  fecOk : Bool
  bytes : List (BitVec 8)
  deriving DecidableEq, Repr

/-- A remote access of a control core (R252): a load of `n` bytes, a store, an AMO of 8 or 4 bytes with its AOP, operand and,
for CAS, the new value, or an LR or SC. -/
inductive RemoteOp where
  | load (n : BitVec 7)
  | store (data : List (BitVec 8))
  | amo (wide : Bool) (aop : BitVec 4) (operand new : BitVec 64)
  | reserve
  deriving DecidableEq, Repr

/-- A collective segment (R265, R266): its sender, the slot identity, the run (descending or ascending), the step, the first
element within the run, what the sender's slot holds in OP, FMT_IN, N and MEMBERS, the elements as FP32 patterns, and the
poisoned 64-byte blocks among them. -/
structure Seg where
  src : BitVec 6
  coll : BitVec 8
  down : Bool
  step : BitVec 16
  first : BitVec 40
  op : BitVec 2
  fmt : BitVec 2
  count : BitVec 40
  members : BitVec 64
  number : BitVec 32
  age : BitVec 8
  data : List (BitVec 32)
  poison : List (BitVec 10)
  deriving DecidableEq, Repr

/-- What a start-up step, or a phase of a chip reset, finds (R466, R509, R510): whether fuse sense, the ROM digest or the IB
is good; fronds that fail self-test; the rate that each stack trains at (3: none); whether the frond bridge
trains. (DESIGN CHOICE, log 5) -/
structure Training where
  ok : Bool
  lbistBad : List Frond
  rates : List (BitVec 2)
  bridge : Bool
  deriving DecidableEq, Repr

/-- What an IPv6 frame carries (R274): an ICMPv6 message by its type, a UDP datagram by its destination, or anything
else. -/
inductive Ip6 where
  | icmp (typ : BitVec 8)
  | udp (dst : BitVec 128) (port : BitVec 16)
  | other
  deriving DecidableEq, Repr

/-- A Brynir frame that arrives (R278, R279): over UDP or Ethernet, its UDP destination port, and its bytes: header, payload
and tag as they are on the wire. -/
structure BFrame where
  udp : Bool
  port : BitVec 16
  bytes : List (BitVec 8)
  deriving DecidableEq, Repr

/-- An INIT that arrives (R282): the host's MAC, transport, IPv6 address and UDP destination port, the payload, and the
identity-key signature of T with which the steward answers it. (DESIGN CHOICE, log 5) -/
structure InitReq where
  mac : BitVec 48
  udp : Bool
  ip : BitVec 128
  port : BitVec 16
  payload : List (BitVec 8)
  sig : List (BitVec 8)
  deriving DecidableEq, Repr


/-- The commands of the module, one for each row of the opcode table, in the table's order.
(DESIGN CHOICE, log 5; DESIGN CHOICE, log 73) -/
inductive Instr where
  /-- ALWAYS_ON_COME_UP (R508): The always-on supply has been valid for 5 ms with RST_N high: MOD_ID is latched, POWER_CYCLES increments, always-on SRAM regions are checked and start-up begins at step 1. -/
  | alwaysOnComeUp (modId : BitVec 6) (dumpOk faultOk : Bool)
  /-- STARTUP_STEP_COMPLETE (R509): A start-up step ends and the next one begins, including image checks, configuration loads, training and calibration. -/
  | startupStepComplete (res : Training)
  /-- STARTUP_BUS_WAIT_END (R509): In step 4 the bus has been within 700–880 V with both HVIL loops closed for 1 s: LS0 and LS2 close and the IB soft-starts. -/
  | startupBusWaitEnd
  /-- RUNTIME_READY_TIMEOUT (R510): The runtime has not written READY 8.0 s after booting: RT_STATE becomes FAILED. -/
  | runtimeReadyTimeout
  /-- FW_RT_READY (R509): The runtime writes FW_RT.READY: RT_STATE becomes RUNNING, event 0x0005 is recorded, and a pending runtime handover may proceed. -/
  | fwRtReady (r : Req)
  /-- ENTER_BUFFERED (R24): Every condition of R24 becomes true in BUS_ONLY: the module enters BUFFERED, or GRID_RESPONSE when a schedule is enabled and due. -/
  | enterBuffered
  /-- BUS_OUT_OF_RANGE (R25): The bus lies outside 650–900 V for 20 µs: RIDE_THROUGH from BUFFERED or GRID_RESPONSE, or an immediate stop with cause 8 from BUS_ONLY. -/
  | busOutOfRange (ibEnergyHolds : Bool)
  /-- BUS_RETURN (R25): The bus has lain within 700–880 V for 1 s with both HVIL loops closed: the module leaves RIDE_THROUGH for its previous mode and P_set ramps from 0 W. -/
  | busReturn
  /-- HVIL_LOOP_OPEN (R551): A bus HVIL loop has read open for 10 µs; in BUFFERED or GRID_RESPONSE the module enters RIDE_THROUGH. -/
  | hvilLoopOpen (b : Bool)
  /-- HVIL_LOOP_CLOSE (R551): A bus HVIL loop has read closed for 100 ms. -/
  | hvilLoopClose (b : Bool)
  /-- RST_N_LOW (R559): RST_N has been held low for 20 µs: the power stages shut down in hardware, all logic resets, and the module enters STANDBY. -/
  | rstNLow
  /-- AUTONOMOUS_WRAP (R34): The phase accumulator passes 2^32: the phase restarts at 0, the step number advances and step-start work is done. -/
  | autonomousWrap
  /-- ENERGY_RECONCILE (R379): The PWC reconciles priced activity against measured IB energy at a step start, or 1 s after the previous reconciliation. -/
  | energyReconcile
  /-- EXPECTED_MARK_MISS (R42): In LOCKED the phase passes WIN after a wrap with no mark of the active source: a MISS is counted and the state enters HOLDOVER. -/
  | expectedMarkMiss
  /-- ACTIVE_SOURCE_LAPSE (R36): The active source delivers no mark within two periods in use and stops being active. -/
  | activeSourceLapse
  /-- STEP_IN_EDGE (R59): A STEP_IN edge of the configured polarity has held IN_FILTER ticks and is timestamped as a PIN mark. -/
  | stepInEdge (rising : Bool)
  /-- PHASE_CTRL_COMMIT (R49): Writing COMMIT requests that the shadow table be applied at the next step start. -/
  | phaseCtrlCommit (r : Req)
  /-- PHASE_CTRL_REACQUIRE (R35): Writing REACQUIRE makes the next accepted mark enter ACQUIRE with no history. -/
  | phaseCtrlReacquire (r : Req)
  /-- PHASE_CTRL_FORCE_FREE (R35): Writing FORCE_FREE moves the phase unit to FREE at once. -/
  | phaseCtrlForceFree (r : Req)
  /-- PHASE_CTRL_PROF_CLEAR (R54): Writing PROF_CLEAR clears every bin, PROF_STEPS and PROF_PERIOD and raises PROF_CLEARED. -/
  | phaseCtrlProfClear (r : Req)
  /-- PHASE_STEP_SET_WRITE (R43): A write of PHASE_STEP_SET holds a step number to take effect at the next step start. -/
  | phaseStepSetWrite (r : Req) (value : BitVec 32)
  /-- PHASE_EVENT_FIRE (R45): An event-table entry that has fallen due leaves the firing queue, one per tick, and performs its action. -/
  | phaseEventFire
  /-- SEGMENT_START (R50): The phase reaches a valid segment's START, changing the preferred point and re-evaluating the arbiter. -/
  | segmentStart
  /-- PHASE_BROADCAST (R55): Every 64 ns the phase unit sends phase, step, lock state and PROF_VALID to both fronds, and a failed check sets BCAST_A or BCAST_B. -/
  | phaseBroadcast (goodA goodB : Bool)
  /-- FROND_COPY_INVALID (R56): No good broadcast reaches a frond for 1 ms, so its phase copy is marked invalid. -/
  | frondCopyInvalid (f : Frond)
  /-- STEP_OUT_PULSE_END (R59): OUT_WIDTH µs after the latest request, STEP_OUT returns low. -/
  | stepOutPulseEnd
  /-- ARRAY_TEMP_SAMPLE (R88): Each 1 ms array sensor sample can set TEMP_TRIG and queue the array, or mark it STALE under R81. -/
  | arrayTempSample (f : Frond) (t : Fin 132) (a : Fin 5) (temp : BitVec 16) (inRange : Bool)
  /-- ACAL_INTERVAL_EXPIRE (R86): The rotation timer expires and triggers a rotation unless PHASE_ONLY is 1. -/
  | acalIntervalExpire (f : Frond)
  /-- SPARE_ROTATION (R86): A held or fresh trigger finds the spare READY, and the spare takes the target's slot at its next evaluation boundary. -/
  | spareRotation (f : Frond) (t : Fin 132)
  /-- SPARE_COPY_DONE (R84): The 513-cycle copy of the target's banks to the spare completes, and the spare enters CAL. -/
  | spareCopyDone (f : Frond) (t : Fin 132) (parity : Bool)
  /-- SPARE_CAL_DONE (R82): A 1.6 ms array calibration ends in pass (READY, CAL_TEMP recorded) or fail (FAIL, CAL_FAIL). -/
  | spareCalDone (f : Frond) (t : Fin 132) (res : CalResult)
  /-- ROT_TIMEOUT (R102): A held rotation trigger has waited more than 10 s, so ROT_TIMEOUT is set. -/
  | rotTimeout (f : Frond) (t : Fin 132)
  /-- IN_PLACE_CALIBRATION (R89): A tile without a spare calibrates a queued array on its own slot once a calibration window opens or SELFTEST_FORCE is 1. -/
  | inPlaceCalibration (f : Frond) (t : Fin 132) (slot : Fin 4) (res : CalResult)
  /-- ACAL_FULL_CAL_REQ (R89): Writing FULL_CAL_REQ requests a gated full calibration of every array of the frond. -/
  | acalFullCalReq (r : Req) (f : Frond)
  /-- FULL_CALIBRATION_DONE (R83): A full calibration ends: failing arrays are retried or fenced and tiles with fewer than four healthy arrays are fenced. -/
  | fullCalibrationDone (f : Frond) (bad : List (Fin 132 × Fin 5))
  /-- ACAL_BIST_REQ (R90): Writing BIST_REQ makes each tile self-test its spare before its next COPY, or each slot in a window. -/
  | acalBistReq (r : Req) (f : Frond)
  /-- ARRAY_BIST_DONE (R90): A 2 ms array self-test ends, and a failing array is fenced. -/
  | arrayBistDone (f : Frond) (t : Fin 132) (a : Fin 5) (ok : Bool)
  /-- TILE_RECAL_DONE (R100): The full calibration of an unfenced tile ends, so the tile enters SPARE or stays FENCED. -/
  | tileRecalDone (f : Frond) (t : Fin 132) (bad : List (Fin 5))
  /-- TMAP_ENTRY_WRITE (R101): An L0 write binds a logical tile to a physical tile, or is ignored with MAP_BUSY or MAP_BAD. -/
  | tmapEntryWrite (r : Req) (f : Frond) (t : Fin 128) (value : BitVec 64)
  /-- TILE_OP_ISSUE (R103): The sequencer issues the next op word, executing SEQ and MARK ops or queueing others, and stalls when the queue is full. -/
  | tileOpIssue (f : Frond) (t : Fin 132)
  /-- TILE_OP_RETIRE (R106): An op retires: its writes become visible and its SIG adds to the tile counter. -/
  | tileOpRetire (f : Frond) (t : Fin 132) (q : Fin 9)
  /-- ARRAY_LOAD (R114): A LOAD moves a bank image from a store into the named inactive bank. -/
  | arrayLoad (f : Frond) (t : Fin 132) (slot : Fin 4)
  /-- ARRAY_EVAL (R114): An EVAL evaluates N input vectors on the named slots in SET, ACC or FINAL mode. -/
  | arrayEval (f : Frond) (t : Fin 132)
  /-- ARRAY_SWAP (R66): A SWAP makes the inactive bank active at the slot's next evaluation boundary, waiting for an incomplete load. -/
  | arraySwap (f : Frond) (t : Fin 132)
  /-- ARRAY_DRAIN (R115): A DRAIN writes accumulator entries in FINAL layout and clears them. -/
  | arrayDrain (f : Frond) (t : Fin 132)
  /-- DMU_MM (R116): An MM computes C = A × B or C + A × B into a DMU accumulator. -/
  | dmuMm (f : Frond) (t : Fin 132)
  /-- DMU_STORE (R116): A STORE writes an accumulator in the chosen format and optionally clears it. -/
  | dmuStore (f : Frond) (t : Fin 132)
  /-- DMU_ZERO (R116): A ZERO clears a DMU accumulator. -/
  | dmuZero (f : Frond) (t : Fin 132)
  /-- VEC_CVT (R118): The vector unit converts SA to FMT_OUT, including to and from block formats. -/
  | vecCvt (f : Frond) (t : Fin 132)
  /-- VEC_ADD (R118): The vector unit computes SA + SB elementwise. -/
  | vecAdd (f : Frond) (t : Fin 132)
  /-- VEC_SUB (R118): The vector unit computes SA − SB elementwise. -/
  | vecSub (f : Frond) (t : Fin 132)
  /-- VEC_MUL (R118): The vector unit computes SA × SB elementwise. -/
  | vecMul (f : Frond) (t : Fin 132)
  /-- VEC_FMA (R118): The vector unit computes SA × SB + DST with one rounding. -/
  | vecFma (f : Frond) (t : Fin 132)
  /-- VEC_MIN (R118): The vector unit computes minimumNumber(SA, SB). -/
  | vecMin (f : Frond) (t : Fin 132)
  /-- VEC_MAX (R118): The vector unit computes maximumNumber(SA, SB). -/
  | vecMax (f : Frond) (t : Fin 132)
  /-- VEC_ABS (R118): The vector unit computes |SA|. -/
  | vecAbs (f : Frond) (t : Fin 132)
  /-- VEC_NEG (R118): The vector unit computes −SA. -/
  | vecNeg (f : Frond) (t : Fin 132)
  /-- VEC_DIV (R118): The vector unit computes SA / SB, correctly rounded. -/
  | vecDiv (f : Frond) (t : Fin 132)
  /-- VEC_SQRT (R118): The vector unit computes the square root of SA, correctly rounded. -/
  | vecSqrt (f : Frond) (t : Fin 132)
  /-- VEC_EXP (R95): The vector unit computes exp within its error bound. -/
  | vecExp (f : Frond) (t : Fin 132)
  /-- VEC_LOG (R95): The vector unit computes log within its error bound. -/
  | vecLog (f : Frond) (t : Fin 132)
  /-- VEC_RSQRT (R95): The vector unit computes rsqrt within its error bound. -/
  | vecRsqrt (f : Frond) (t : Fin 132)
  /-- VEC_SIN (R95): The vector unit computes sin within its error bound. -/
  | vecSin (f : Frond) (t : Fin 132)
  /-- VEC_COS (R95): The vector unit computes cos within its error bound. -/
  | vecCos (f : Frond) (t : Fin 132)
  /-- VEC_TANH (R95): The vector unit computes tanh within its error bound. -/
  | vecTanh (f : Frond) (t : Fin 132)
  /-- VEC_SIGMOID (R95): The vector unit computes sigmoid within its error bound. -/
  | vecSigmoid (f : Frond) (t : Fin 132)
  /-- VEC_RELU (R118): The vector unit computes max(SA, +0), propagating NaN. -/
  | vecRelu (f : Frond) (t : Fin 132)
  /-- VEC_GELU_T (R118): The vector unit computes the tanh form of GELU within 4 ULP. -/
  | vecGeluT (f : Frond) (t : Fin 132)
  /-- VEC_SILU (R118): The vector unit computes x × sigmoid(x) within 4 ULP. -/
  | vecSilu (f : Frond) (t : Fin 132)
  /-- VEC_RSUM (R119): The vector unit writes the sum of each row in the fixed lane-and-tree order. -/
  | vecRsum (f : Frond) (t : Fin 132)
  /-- VEC_RMAX (R119): The vector unit writes the largest element of each row. -/
  | vecRmax (f : Frond) (t : Fin 132)
  /-- VEC_RMIN (R119): The vector unit writes the smallest element of each row. -/
  | vecRmin (f : Frond) (t : Fin 132)
  /-- VEC_RAMAX (R119): The vector unit writes the largest magnitude of each row. -/
  | vecRamax (f : Frond) (t : Fin 132)
  /-- VEC_RSUMSQ (R119): The vector unit writes the sum of squares of each row. -/
  | vecRsumsq (f : Frond) (t : Fin 132)
  /-- LMOVE_COPY (R120): The local mover copies rows between the tile's own stores. -/
  | lmoveCopy (f : Frond) (t : Fin 132)
  /-- LMOVE_FILL (R120): The local mover writes a 64-bit pattern over rows in the tile's stores. -/
  | lmoveFill (f : Frond) (t : Fin 132)
  /-- SEQ_NOP (R120): The sequencer does nothing. -/
  | seqNop (f : Frond) (t : Fin 132)
  /-- SEQ_END (R112): END holds issue until every issued op has retired. -/
  | seqEnd (f : Frond) (t : Fin 132)
  /-- PROGRAM_END (R112): Every op issued before END has retired: the tile returns to IDLE and the LAUNCH can complete. -/
  | programEnd (f : Frond) (t : Fin 132)
  /-- SEQ_LI (R120): The sequencer loads a 64-bit immediate into S[D]. -/
  | seqLi (f : Frond) (t : Fin 132)
  /-- SEQ_ALU_ADD (R120): ALU F = ADD: S[D] ← S[A] + B. -/
  | seqAluAdd (f : Frond) (t : Fin 132)
  /-- SEQ_ALU_SUB (R120): ALU F = SUB: S[D] ← S[A] − B. -/
  | seqAluSub (f : Frond) (t : Fin 132)
  /-- SEQ_ALU_MUL (R120): ALU F = MUL: S[D] ← the low 64 bits of S[A] × B. -/
  | seqAluMul (f : Frond) (t : Fin 132)
  /-- SEQ_ALU_AND (R120): ALU F = AND: S[D] ← S[A] AND B. -/
  | seqAluAnd (f : Frond) (t : Fin 132)
  /-- SEQ_ALU_OR (R120): ALU F = OR: S[D] ← S[A] OR B. -/
  | seqAluOr (f : Frond) (t : Fin 132)
  /-- SEQ_ALU_XOR (R120): ALU F = XOR: S[D] ← S[A] XOR B. -/
  | seqAluXor (f : Frond) (t : Fin 132)
  /-- SEQ_ALU_SHL (R120): ALU F = SHL: shift left, count modulo 64. -/
  | seqAluShl (f : Frond) (t : Fin 132)
  /-- SEQ_ALU_SHR (R120): ALU F = SHR: logical shift right, count modulo 64. -/
  | seqAluShr (f : Frond) (t : Fin 132)
  /-- SEQ_ALU_SAR (R120): ALU F = SAR: arithmetic shift right, count modulo 64. -/
  | seqAluSar (f : Frond) (t : Fin 132)
  /-- SEQ_ALU_MIN (R120): ALU F = MIN: signed minimum. -/
  | seqAluMin (f : Frond) (t : Fin 132)
  /-- SEQ_ALU_MAX (R120): ALU F = MAX: signed maximum. -/
  | seqAluMax (f : Frond) (t : Fin 132)
  /-- SEQ_ALU_MINU (R120): ALU F = MINU: unsigned minimum. -/
  | seqAluMinu (f : Frond) (t : Fin 132)
  /-- SEQ_ALU_MAXU (R120): ALU F = MAXU: unsigned maximum. -/
  | seqAluMaxu (f : Frond) (t : Fin 132)
  /-- SEQ_ALU_SLT (R120): ALU F = SLT: 1 when S[A] < B signed, else 0. -/
  | seqAluSlt (f : Frond) (t : Fin 132)
  /-- SEQ_ALU_SLTU (R120): ALU F = SLTU: 1 when S[A] < B unsigned, else 0. -/
  | seqAluSltu (f : Frond) (t : Fin 132)
  /-- SEQ_ALU_EQ (R120): ALU F = EQ: 1 when S[A] = B, else 0. -/
  | seqAluEq (f : Frond) (t : Fin 132)
  /-- SEQ_AMOV (R120): The sequencer sets or adds to an address register modulo 2^24. -/
  | seqAmov (f : Frond) (t : Fin 132)
  /-- SEQ_LOOP (R121): The sequencer starts a hardware loop over the next L op words, or faults with LOOP_NEST. -/
  | seqLoop (f : Frond) (t : Fin 132)
  /-- SEQ_BR (R121): The sequencer branches relative to PC when the condition holds, ending any loops it leaves. -/
  | seqBr (f : Frond) (t : Fin 132)
  /-- SEQ_WAIT (R110): The sequencer holds issue until a tile counter reaches a threshold, optionally subtracting it. -/
  | seqWait (f : Frond) (t : Fin 132)
  /-- TILE_COUNTER_WAIT_MET (R110): An awaited tile counter meets its threshold, which releases a WAIT or a WT queue head. -/
  | tileCounterWaitMet (f : Frond) (t : Fin 132)
  /-- SEQ_CSET (R120): The sequencer sets a tile counter. -/
  | seqCset (f : Frond) (t : Fin 132)
  /-- SEQ_CADD (R120): The sequencer adds to a tile counter. -/
  | seqCadd (f : Frond) (t : Fin 132)
  /-- SEQ_SIGNAL (R122): The sequencer adds to a module signal counter through the protection domain, or faults with PROT. -/
  | seqSignal (f : Frond) (t : Fin 132)
  /-- SEQ_PWAIT (R122): The sequencer holds issue until the frond phase copy reaches an angle. -/
  | seqPwait (f : Frond) (t : Fin 132)
  /-- TILE_PHASE_WAIT_MET (R122): The frond phase copy reaches the angle that a PWAIT awaits, and issue resumes. -/
  | tilePhaseWaitMet (f : Frond) (t : Fin 132)
  /-- SEQ_SREAD (R120): The sequencer reads a counter, phase, step, cycle count, context ID or logical tile into S[D]. -/
  | seqSread (f : Frond) (t : Fin 132)
  /-- MARK_STEP (R123): The sequencer delivers a LOCAL step mark to the phase unit. -/
  | markStep (f : Frond) (t : Fin 132)
  /-- MARK_TAG (R123): The sequencer sets the energy tag, or faults with TAG_BAD. -/
  | markTag (f : Frond) (t : Fin 132)
  /-- TILE_COUNTER_WINDOW_WRITE (R125): A 64-bit tile-window write to a counter offset adds its low 32 bits to the tile counter. -/
  | tileCounterWindowWrite (who : Accessor) (f : Frond) (t : Fin 128) (n : Fin 16) (data : BitVec 64)
  /-- TILE_WINDOW_ACCESS (R135): An external access reaches a tile store through the tile window, with read-modify-write for sub-beat access. -/
  | tileWindowAccess (who : Accessor) (f : Frond) (t : Fin 128) (off : BitVec 24) (op : MemOp) (e : Ecc)
  /-- STORE_SCRUB (R138): Store scrub reads a beat in an idle cycle and corrects or poisons it, setting LATE when the period cannot be met. -/
  | storeScrub (f : Frond) (t : Fin 132) (off : BitVec 24) (e : Ecc) (late : Bool)
  /-- HBM_READ_REQUEST (R146): A controller serves a 64-byte read, correcting, logging or returning poison. -/
  | hbmReadRequest (who : Accessor) (addr : BitVec 44) (e : Ecc)
  /-- HBM_WRITE_REQUEST (R147): A controller writes a whole block or performs a read-modify-write, carrying poison. -/
  | hbmWriteRequest (who : Accessor) (addr : BitVec 44) (data : List (BitVec 8)) (poison : Bool) (e : Ecc)
  /-- NMU_REDUCE_WRITE (R158): A near-memory unit applies ADD, MAX or MIN atomically to each block of a reduce-on-write. -/
  | nmuReduceWrite (who : Accessor) (addr : BitVec 44) (fmt : BitVec 2) (red : BitVec 2) (data : List (BitVec 8))
  /-- HBM_SCRUB_BLOCK (R148): HBM scrub reads a block, writing back corrections or poisoning an uncorrectable block. -/
  | hbmScrubBlock (addr : BitVec 44) (e : Ecc) (passEnd : Bool)
  /-- PAGE_RETIRE_DONE (R150): The copy of a retired page to its pool target completes and the page is redirected. -/
  | pageRetireDone (f : Frond) (found : List (Fin 64 × Ecc))
  /-- HBMF_RET_ADD_WRITE (R152): An L0 write of a page number retires that page, or sets RETIRE_FULL or RESTORE_BAD. -/
  | hbmfRetAddWrite (r : Req) (f : Frond) (value : BitVec 64)
  /-- HBMF_FENCE_WRITE (R154): An L0 write fences the named pseudo-channels until the next chip reset. -/
  | hbmfFenceWrite (r : Req) (f : Frond) (hi : Bool) (value : BitVec 64)
  /-- REFRESH_INTERVAL (R156): A refresh interval elapses, raising the credit and issuing postponed, per-bank or pulled-in refreshes. -/
  | refreshInterval (stack : Fin 8) (pc : Fin 32) (tempC : BitVec 8)
  /-- BRIDGE_FLIT_RETRY (R144): A frond-bridge flit fails its CRC and is retried, and 16 consecutive failures set BRIDGE_FAIL. -/
  | bridgeFlitRetry (f : Frond) (good : Bool)
  /-- HBM_TEST_RELEASE (R163): Writing RELEASE withdraws the test region from service. -/
  | hbmTestRelease (r : Req) (f : Frond)
  /-- HBM_TEST_START (R163): Writing START arms the memory test, which waits for a test window unless SELFTEST_FORCE is 1. -/
  | hbmTestStart (r : Req) (f : Frond)
  /-- HBM_TEST_RUN (R163): A test window opens and the memory test runs, or resumes after a pause. -/
  | hbmTestRun (f : Frond)
  /-- HBM_TEST_DONE (R163): The memory test ends, failing pages become candidates and soft repair runs when enabled. -/
  | hbmTestDone (f : Frond) (fails : List (BitVec 27)) (soft : List (Fin 4))
  /-- HBM_TEST_RETURN (R163): Clearing RELEASE in IDLE, RELEASED or DONE returns the region zeroed; in other states the clear is ignored. -/
  | hbmTestReturn (r : Req) (f : Frond)
  /-- MOVE_COPY (R178): A move engine runs a 5-D strided copy, with optional reduce on write. -/
  | moveCopy (f : Frond) (n : Fin 44)
  /-- MOVE_TRANSPOSE (R178): A move engine runs a 5-D copy that exchanges dimensions 0 and 1. -/
  | moveTranspose (f : Frond) (n : Fin 44)
  /-- MOVE_PACK (R180): A move engine packs BLK4 or BLK8 weights into array-layout bank images. -/
  | movePack (f : Frond) (n : Fin 44)
  /-- MOVE_FILL (R178): A move engine writes a 64-bit pattern over the destination shape. -/
  | moveFill (f : Frond) (n : Fin 44)
  /-- CODEC_CONVERT (R181): A codec engine converts between number formats exactly as VEC CVT does. -/
  | codecConvert (f : Frond) (n : Fin 44)
  /-- CODEC_PACK (R181): A codec engine converts to BLK4 or BLK8 and packs to array layout. -/
  | codecPack (f : Frond) (n : Fin 44)
  /-- COMPRESS (R183): A codec engine compresses into a chunked stream and writes the byte count to RES. -/
  | compress (f : Frond) (n : Fin 44)
  /-- DECOMPRESS (R183): A codec engine decodes a compressed stream, or fails with DATA_BAD or CAP_SHORT. -/
  | decompress (f : Frond) (n : Fin 44)
  /-- GATHER (R184): A gather/scatter engine gathers indexed table rows into the dense side. -/
  | gather (f : Frond) (n : Fin 44)
  /-- SCATTER (R185): A gather/scatter engine scatters dense elements to indexed table rows. -/
  | scatter (f : Frond) (n : Fin 44)
  /-- SCATTER_ADD (R185): A gather/scatter engine reduce-adds dense elements into HBM table rows. -/
  | scatterAdd (f : Frond) (n : Fin 44)
  /-- SORT (R186): A sort/select engine runs a stable LSD radix sort of keys and values. -/
  | sort (f : Frond) (n : Fin 44)
  /-- TOPK (R186): A sort/select engine selects the K largest or smallest of each row with their indices. -/
  | topk (f : Frond) (n : Fin 44)
  /-- HIST (R186): A sort/select engine counts elements into bins plus below, above and NaN counts. -/
  | hist (f : Frond) (n : Fin 44)
  /-- STENCIL_APPLY (R187): A stencil engine applies a masked 27-point stencil in ascending point order. -/
  | stencilApply (f : Frond) (n : Fin 44)
  /-- GEMM (R188): An FP64 matrix engine computes C ← A × B, C + A × B or C − A × B. -/
  | gemm (f : Frond) (n : Fin 44)
  /-- GENERATE (R189): A random engine produces Philox4x32-10 outputs as UINT32, UNIFORM or NORMAL. -/
  | generate (f : Frond) (n : Fin 44)
  /-- ENCRYPT (R190): A crypto engine encrypts with AES-256-GCM and writes the tag. -/
  | encrypt (f : Frond) (n : Fin 44)
  /-- DECRYPT (R190): A crypto engine decrypts with AES-256-GCM, zeroing DST and failing with TAG_BAD on a mismatch. -/
  | decrypt (f : Frond) (n : Fin 44)
  /-- DESCRIPTOR_COMPLETE (R172): Every write of a descriptor is visible and its write group is zero, so SIG_VALUE is added to its target. -/
  | descriptorComplete (f : Frond) (n : Fin 44)
  /-- ENG_WATCHDOG_EXPIRE (R176): A running descriptor completes no access for ENG_WDOG.MS: it ends with WATCHDOG and WDOG is set. -/
  | engWatchdogExpire (f : Frond) (n : Fin 44)
  /-- CRYPTO_KEY_COMMIT (R198): Writing COMMIT loads the four key words and DOMAIN into SLOT and zeroes the words. -/
  | cryptoKeyCommit (r : Req) (f : Frond)
  /-- CRYPTO_KEY_CLEAR (R198): Writing CLEAR empties SLOT and zeroes its key. -/
  | cryptoKeyClear (r : Req) (f : Frond)
  /-- CORE_RESET (R197): CORE_CTRL.RESET resets a control core, empties its interrupt stack and applies LM_SIZE. -/
  | coreReset (r : Req) (f : Frond) (c : Fin 8)
  /-- CORE_LOAD_POISON (R197): A control-core load returns poison or hits an uncorrectable L2 line, raising a load access fault and setting CORE_ERR. -/
  | coreLoadPoison (f : Frond) (c : Fin 8) (addr : BitVec 50) (poison dirty : Bool)
  /-- CORE_REMOTE_ACCESS (R252): A control core issues a remote READ, WRITE or ATOMIC to another module's address. -/
  | coreRemoteAccess (f : Frond) (core : Fin 8) (addr : BitVec 50) (op : RemoteOp)
  /-- CTX_ALLOC (R202): ALLOC on a FREE context with a valid ring and a BUILT partition makes it IDLE with a new generation. -/
  | ctxAlloc (r : Req)
  /-- CTX_FREE (R202): FREE on an IDLE or STOPPED context with nothing outstanding returns it to FREE. -/
  | ctxFree (r : Req)
  /-- CTX_STOP (R202): STOP stops dispatch from the context while outstanding items continue. -/
  | ctxStop (r : Req)
  /-- CTX_START (R202): START resumes dispatch of a STOPPED context. -/
  | ctxStart (r : Req)
  /-- CTX_RESET (R462): RESET begins a context reset: the ring empties and the context's tiles, descriptors and tracker entries are stopped or freed. -/
  | ctxReset (r : Req)
  /-- CTX_CFG_WRITE (R202): A write of CTX_CFG changes PRIO and WEIGHT at once and PART only in allowed states, else CMD_REJECT. -/
  | ctxCfgWrite (r : Req) (value : BitVec 64)
  /-- DISPATCH_DECISION (R222): Each 4 ns the dispatcher takes the head item of the highest-priority READY context by weighted round robin. -/
  | dispatchDecision (f : Frond)
  /-- ENGINE_ITEM (R170): An ENGINE item's descriptor is sent to an engine queue, or waits for room. -/
  | engineItem (c : BitVec 16)
  /-- LAUNCH (R207): A LAUNCH is checked and waits for its tiles, with a tile reservation. -/
  | launch (c : BitVec 16)
  /-- LAUNCH_START (R207): Every named tile is IDLE, so all the programs start in the same tile cycle. -/
  | launchStart (c : BitVec 16)
  /-- LAUNCH_COMPLETE (R206): Every named tile has ended its program, so the LAUNCH's W1 signal is added. -/
  | launchComplete (c : BitVec 16)
  /-- WAIT (R208): A WAIT item tests a signal counter and blocks the head until met. -/
  | wait (c : BitVec 16)
  /-- WAIT_ITEM_MET (R208): An awaited counter meets a WAIT, optionally subtracting VALUE, and the head moves on. -/
  | waitItemMet (c : BitVec 16)
  /-- WAIT_TIMEOUT (R208): A WAIT or PHASE_WAIT has been at the head for TIMEOUT_US and faults with WAIT_TIMEOUT. -/
  | waitTimeout (c : BitVec 16)
  /-- SIGNAL_ITEM_ADD (R209): A SIGNAL ADD item adds to its target through the domain. -/
  | signalItemAdd (c : BitVec 16)
  /-- SIGNAL_ITEM_ADD_AFTER (R209): A SIGNAL ADD_AFTER item adds once every earlier item has completed. -/
  | signalItemAddAfter (c : BitVec 16)
  /-- SIGNAL_ITEM_REGISTER (R209): A SIGNAL REGISTER item records the context as a producer of a counter, or faults PROD_FULL. -/
  | signalItemRegister (c : BitVec 16)
  /-- SIGNAL_ITEM_UNREGISTER (R209): A SIGNAL UNREGISTER item removes a producer registration. -/
  | signalItemUnregister (c : BitVec 16)
  /-- FENCE_CONTEXT (R210): A FENCE CONTEXT item blocks until every earlier item has completed. -/
  | fenceContext (c : BitVec 16)
  /-- FENCE_EPOCH (R210): A FENCE EPOCH item blocks until the pending protection-epoch fence has completed. -/
  | fenceEpoch (c : BitVec 16)
  /-- MARK_ITEM (R211): A MARK item delivers a LOCAL step mark, after earlier items when AFTER is 1. -/
  | markItem (c : BitVec 16)
  /-- PHASE_WAIT (R212): A PHASE_WAIT item blocks until the phase, and optionally the step, reaches the given value. -/
  | phaseWait (c : BitVec 16)
  /-- ITEM_CONDITION_MET (R206): An awaited completion, epoch end or phase angle satisfies a blocked head item, which moves on. -/
  | itemConditionMet (c : BitVec 16)
  /-- SUBMISSION_WINDOW_WRITE (R216): A 64-byte write into a submission slot appends the item to the ring or is rejected with a reason. -/
  | submissionWindowWrite (who : Accessor) (off : BitVec 32) (data : List (BitVec 8))
  /-- SIGNAL_COUNTER_ADD (R219): A write to the add region adds to a signal counter. -/
  | signalCounterAdd (who : Accessor) (n : Fin 131072) (data : BitVec 64)
  /-- SIGNAL_COUNTER_SET (R219): A write to the set region sets a signal counter. -/
  | signalCounterSet (who : Accessor) (n : Fin 131072) (data : BitVec 64)
  /-- SIGNAL_COUNTER_EXTERNAL (R221): A write to the third region sets or clears a counter's EXTERNAL bit. -/
  | signalCounterExternal (who : Accessor) (n : Fin 131072) (data : BitVec 64)
  /-- PART_BUILD (R224): BUILD checks a partition definition, remaps tiles, clears counters, zeroes stores and assigns engines. -/
  | partBuild (r : Req) (p : Fin 64)
  /-- PART_BUILD_COMPLETE (R224): A build or rebuild waiting on a spare's calibration or an epoch fence completes or fails with CAL_TIMEOUT. -/
  | partBuildComplete (p : Fin 64) (ready : Bool)
  /-- PART_REBUILD (R225): REBUILD repeats the build steps of a BUILT partition, or fails with BUSY. -/
  | partRebuild (r : Req) (p : Fin 64)
  /-- PART_FREE (R225): FREE releases a partition with no bound context, or fails with BUSY. -/
  | partFree (r : Req) (p : Fin 64)
  /-- PART_CFG_WRITE (R235): Writes to PART_CFG or PART_ENG are ignored outside FREE and set BUILD_FAIL. -/
  | partCfgWrite (r : Req) (p : Fin 64) (eng : Bool) (value : BitVec 64)
  /-- PROT_EPOCH_ADVANCE (R231): ADVANCE makes staged windows active, advances EPOCH and holds new accesses of changed domains. -/
  | protEpochAdvance (r : Req)
  /-- EPOCH_FENCE_COMPLETE (R231): Every old-epoch access of changed domains has ended, so held accesses are rechecked and PENDING clears. -/
  | epochFenceComplete
  /-- FLIT_RECEIVE (R238): A flit is received, and one failing FEC or CRC is discarded with a NAK. -/
  | flitReceive (port : Fin 24) (flit : Flit)
  /-- NAK_RECEIVE (R238): A NAK makes the sender replay from the named SEQ, with 16 replays of one flit causing RETRAIN. -/
  | nakReceive (port : Fin 24) (seq : BitVec 12)
  /-- PEER_TRAINING_START (R243): The link peer starts training, so the port enters RETRAIN. -/
  | peerTrainingStart (port : Fin 24)
  /-- PORT_TRAINING_DONE (R242): Training ends in UP_X4, UP_X2 with LANE_DEGRADE, or DOWN, with RETRAIN_FAIL after three failures. -/
  | portTrainingDone (port : Fin 24) (lanes : BitVec 4) (peerMod : BitVec 6) (peerPort : BitVec 5) (keysMatch : Bool)
  /-- PORT_TRAINING_RETRY (R241): A DOWN port with EN = 1 retries training every 1 s. -/
  | portTrainingRetry (port : Fin 24)
  /-- REJOIN_WAIT_END (R244): TRK_TIMEOUT_MS after reaching UP a port joins request routing. -/
  | rejoinWaitEnd (port : Fin 24)
  /-- LPORT_CMD_RETRAIN (R243): LPORT_CMD = RETRAIN makes the port retrain. -/
  | lportCmdRetrain (r : Req) (port : Fin 24)
  /-- LPORT_CMD_TEST (R245): LPORT_CMD = TEST requests a port test, which waits for its gate. -/
  | lportCmdTest (r : Req) (port : Fin 24)
  /-- PORT_TEST_START (R245): The port leaves routing, drains, signals TEST and runs PRBS once the gate allows. -/
  | portTestStart (port : Fin 24)
  /-- PORT_TEST_DONE (R245): The PRBS test ends, and the port retrains on a pass or is fenced on a fail. -/
  | portTestDone (port : Fin 24) (errors : BitVec 32) (pass : Bool)
  /-- ROUTER_FORWARD (R248): A transaction at a router chooses its output port and VC, or is discarded as unroutable or aged. -/
  | routerForward (port : Fin 24) (t : Txn)
  /-- READ (R254): A destination admits and performs a remote READ and returns READ_RESP. -/
  | read (port : Fin 24) (t : Txn)
  /-- WRITE (R255): A destination admits and performs a posted remote WRITE and returns WDONE once it is visible. -/
  | write (port : Fin 24) (t : Txn)
  /-- ATOMIC (R256): A destination applies an AOP to an aligned location and returns the old value. -/
  | atomic (port : Fin 24) (t : Txn)
  /-- REDUCE_WRITE (R254): A destination applies a posted reduce write through the near-memory units. -/
  | reduceWrite (port : Fin 24) (t : Txn)
  /-- READ_RESP (R260): A matching READ_RESP completes a tracker entry, or is dropped as late. -/
  | readResp (f : Frond) (t : Txn)
  /-- ATOMIC_RESP (R260): A matching ATOMIC_RESP returns the old value to the requester. -/
  | atomicResp (f : Frond) (t : Txn)
  /-- WDONE (R255): A WDONE lowers its write-group count and reports any remote store failure. -/
  | wdone (f : Frond) (t : Txn)
  /-- LINK_MARK_RECEIVE (R270): A MARK from an admitted source reaches the phase unit as a LINK mark, less its offset. -/
  | linkMarkReceive (src : BitVec 6) (step : BitVec 32) (offset : BitVec 32)
  /-- RELAY (R269): A module checks a RELAY from the steward and performs the carried register access or submission. -/
  | relay (port : Fin 24) (t : Txn) (tagOk : Bool) (seq : BitVec 64)
  /-- RELAY_RESP (R293): The steward returns a RELAY_RESP to the host as REG_RESP under the original TAG. -/
  | relayResp (f : Frond) (t : Txn)
  /-- PING (R271): A module answers a PING with PING_RESP. -/
  | ping (port : Fin 24) (t : Txn)
  /-- PING_RESP (R271): A PING_RESP records RTT_NS and sets DONE. -/
  | pingResp (f : Frond) (t : Txn)
  /-- TRACKER_TIMEOUT (R261): A tracker entry gets no response in TRK_TIMEOUT_MS, so the entry is freed and the requester fails with REMOTE. -/
  | trackerTimeout (f : Frond) (trk : BitVec 15)
  /-- WRITE_GROUP_TIMEOUT (R261): A write group with a non-zero count gets no WDONE for TRK_TIMEOUT_MS and times out. -/
  | writeGroupTimeout (f : Frond) (group : BitVec 8)
  /-- COLL_ARM (R264): ARM checks SRC and DST against the domain and arms a collective slot. -/
  | collArm (r : Req) (slot : Fin 16)
  /-- COLL_ABORT (R267): ABORT ends a collective slot in FAILED. -/
  | collAbort (r : Req) (slot : Fin 16)
  /-- COLL_SLOT_START (R264): An armed slot's trigger counter meets VALUE and the slot enters RUN. -/
  | collSlotStart (slot : Fin 16)
  /-- COLL_SEG (R266): An incoming collective segment is combined in flight and forwarded, or written to DST. -/
  | collSeg (port : Fin 24) (seg : Seg)
  /-- COLL_CREDIT (R265): Buffer credit from the successor lets the slot send its next segment. -/
  | collCredit (slot : Fin 16) (down : Bool) (n : BitVec 8)
  /-- COLL_SLOT_DONE (R264): The last collective step completes, so the slot enters DONE and adds its COLL_DONE signal. -/
  | collSlotDone (slot : Fin 16)
  /-- COLL_SLOT_TIMEOUT (R267): A slot hears nothing for COLL_TIMEOUT_MS and fails, faulting CTX with LINK_PARTITION. -/
  | collSlotTimeout (slot : Fin 16)
  /-- LINK_PING_START (R271): Writing LINK_PING.START sends a PING to TARGET. -/
  | linkPingStart (r : Req) (target : BitVec 6)
  /-- LINK_RELAY_KEY_COMMIT (R269): COMMIT loads the pod relay key, zeroes the words and resets the relay sequence. -/
  | linkRelayKeyCommit (r : Req)
  /-- HOST_PRSNT_CHANGE (R553): HOST_PRSNT_N falling lets the host port train, and reading high keeps it DOWN. -/
  | hostPrsntChange (present : Bool)
  /-- LPRSNT_CHANGE (R553): A port's LPRSNTn_N reading high keeps it DOWN with no training attempts. -/
  | lprsntChange (port : Fin 24) (present : Bool)
  /-- HOST_LINK_TRAINING_DONE (R275): Host-port training reaches a mode, and events 0x8001 and 0x8002 are recorded. -/
  | hostLinkTrainingDone (mode : BitVec 2) (lanes : BitVec 8)
  /-- HOST_LINK_DROP (R275): The host link drops and retrains within 500 ms while sessions survive. -/
  | hostLinkDrop
  /-- ETH_FRAME_RECEIVE (R276): A received Ethernet frame is dropped, buffered or served, and PFC pauses are sent at XOFF_KB. -/
  | ethFrameReceive (len : BitVec 16) (prio : Fin 8) (fcsOk : Bool) (vid : Option (BitVec 12)) (etype : BitVec 16) (ip6 : Ip6) (uncorr : BitVec 16)
  /-- PFC_PAUSE_RECEIVE (R276): A peer PFC pause stops transmission on that priority when RX_EN allows. -/
  | pfcPauseReceive (prio : Fin 8) (on : Bool)
  /-- ICMPV6_REQUEST (R274): An ICMPv6 Neighbor Solicitation or Echo Request is answered. -/
  | icmpv6Request (echo : Bool) (target : BitVec 128) (data : List (BitVec 8))
  /-- PTP_EVENT_MESSAGE (R277): A PTP event message is timestamped and the servo disciplines PTP_TIME, changing state or stepping the time. -/
  | ptpEventMessage (egress sync : Bool) (domain : BitVec 8) (offset : BitVec 32) (slew : BitVec 16)
  /-- PTP_SYNC_TIMEOUT (R277): No Sync arrives for 3 s and PTP enters HOLDOVER. -/
  | ptpSyncTimeout
  /-- BRYNIR_FRAME_RECEIVE (R284): A Brynir frame is authenticated, decrypted and placed in sequence, or dropped with AUTH_FAIL. -/
  | brynirFrameReceive (fr : BFrame)
  /-- INIT (R282): A handshake INIT is checked against the key table and answered with ACCEPT or REFUSE, or queued. -/
  | init (q : InitReq)
  /-- CONFIRM (R282): A verified CONFIRM opens the session and derives the direction keys. -/
  | confirm (session : BitVec 16) (payload : List (BitVec 8))
  /-- HANDSHAKE_TIMEOUT (R282): CONFIRM does not arrive within 1 s, so the handshake is discarded and the slot is FREE. -/
  | handshakeTimeout
  /-- SESSION_ACK (R283): An ACK frame updates acknowledgements and may trigger SACK retransmission. -/
  | sessionAck (fr : BFrame)
  /-- SESSION_CLOSE (R283): A CLOSE frame is acknowledged and the session closes. -/
  | sessionClose (slot : Fin 64)
  /-- ACK_DELAY_EXPIRE (R285): ACK_DELAY_US after the first unacknowledged frame, the module acknowledges. -/
  | ackDelayExpire (slot : Fin 64)
  /-- RETRANSMIT_TIMEOUT (R286): An unacknowledged frame reaches RTO and is retransmitted, or the session fails after RETRIES. -/
  | retransmitTimeout (slot : Fin 64) (seq : BitVec 32)
  /-- SESSION_IDLE_TIMEOUT (R283): No authenticated frame arrives for IDLE_S and the session closes as FAILED. -/
  | sessionIdleTimeout (slot : Fin 64)
  /-- HSESS_CMD_CLOSE (R283): HSESS_CMD = CLOSE closes the selected session as FAILED. -/
  | hsessCmdClose (r : Req)
  /-- ATTEST (R522): An ATTEST request is answered within 20 ms with the identity or a signed report. -/
  | attest (slot : Fin 64) (sig : List (BitVec 8)) (sigLen : BitVec 16)
  /-- REG_READ (R290): A REG_READ record reads consecutive registers at the session's level, relayed when MOD names another module. -/
  | regRead (slot : Fin 64)
  /-- REG_WRITE (R290): A REG_WRITE record writes consecutive registers at the session's level, relayed when MOD names another module. -/
  | regWrite (slot : Fin 64)
  /-- SUBMIT (R291): A SUBMIT record submits 1–22 items to one context as a contiguous run. -/
  | submit (slot : Fin 64)
  /-- DATA_WRITE (R292): A DATA_WRITE record writes local memory, with poison and optional reduce, and answers once visible. -/
  | dataWrite (slot : Fin 64)
  /-- DATA_READ (R292): A DATA_READ record returns local memory with its POISON_MAP. -/
  | dataRead (slot : Fin 64)
  /-- MARK_FRAME (R294): A MARK frame from an L0 or L1 session reaches the phase unit as a HOST mark. -/
  | markFrame (slot : Fin 64)
  /-- RELAY_TIMEOUT (R293): A relayed record gets no answer in TRK_TIMEOUT_MS and is answered with TIMEOUT. -/
  | relayTimeout (slot : Fin 64) (tag : BitVec 13)
  /-- DRAW_SETPOINT_UPDATE (R308): Every 1 ms P_tgt is formed from source and trim and P_set moves toward it within the slew. -/
  | drawSetpointUpdate (m : PowerSample)
  /-- FALLBACK_ENTRY (R305): The IB stays out of band for GUARD_US, or the BC stays at a limit for 1 ms, so IB fallback is entered. -/
  | fallbackEntry
  /-- FALLBACK_EXIT (R305): Ten consecutive LS3 tests pass at least 10 ms after entry, so draw control resumes. -/
  | fallbackExit
  /-- EXPORT_STOP (R312): The bus rises above 860 V during export, so export stops and P_set is loaded with 0 W. -/
  | exportStop
  /-- EXPORT_RESUME (R312): The bus has stayed at or below 850 V for 1 s, so export may resume through the slew. -/
  | exportResume
  /-- FEED_FORWARD_UPDATE (R316): Every 1 µs the feed-forward term i_ff is computed and fed to LS1. -/
  | feedForwardUpdate (fcOut : Int) (ibMv : Nat)
  /-- FF_RAMP_END (R318): k reaches GAIN, entering ON, or falls to 0, entering OFF. -/
  | ffRampEnd
  /-- FC_FAULT (R323): An FC over-current, over-temperature or switch fault stops the FC and begins an orderly or immediate stop. -/
  | fcFault (k : ConvFault)
  /-- BC_FAULT (R323): A BC fault stops the BC, leading to BUS_ONLY, or to an immediate stop in RIDE_THROUGH. -/
  | bcFault (k : ConvFault)
  /-- BC_PHASE_FENCE (R301): A BC phase fails its checks and is fenced, derating the BC by 1/12. -/
  | bcPhaseFence (p : Fin 12)
  /-- IB_OUT_OF_RANGE (R324): The IB lies outside 44–54 V for 20 µs, so both converters stop and an immediate stop begins. -/
  | ibOutOfRange
  /-- PWR_CTRL_STOP (R325): Writing PWR_CTRL.STOP begins an orderly stop with cause 3. -/
  | pwrCtrlStop (r : Req)
  /-- STOP_DRAIN_END (R325): DRAIN_MS ends, and the rails stop in reverse start order. -/
  | stopDrainEnd
  /-- STOP_COMPLETE (R325): The rails are down: FC and BC stop, contactors open, units sleep, the pack is RELEASED and the module enters STANDBY. -/
  | stopComplete
  /-- PWR_CTRL_WRITE (R312): A PWR_CTRL write commands or permits BUS_ONLY, changes REVERSE_EN or P_MIN, or switches feed-forward and SOC trim. -/
  | pwrCtrlWrite (r : Req) (value : BitVec 64)
  /-- GR_ENABLE (R313): Writing EN = 1 to a well-formed schedule enables it and clears GR_DEV, or leaves EN 0 with BAD. -/
  | grEnable (r : Req) (timebase : Bool)
  /-- GR_CANCEL (R314): Writing EN = 0 cancels the schedule and returns to BUFFERED, recording 0x1031 with P0 = 1. -/
  | grCancel (r : Req)
  /-- GR_ENTRY_WRITE (R313): A write to entries, GR_START or TIMEBASE while EN is 1 is ignored and sets BAD. -/
  | grEntryWrite (r : Req) (t : GrTarget) (value : BitVec 64)
  /-- GRID_RESPONSE_ENTRY (R314): With EN = 1 in BUFFERED, the start time passes and the module enters GRID_RESPONSE. -/
  | gridResponseEntry
  /-- GR_ENTRY_IN_FORCE (R313): A schedule entry's time arrives and its DRAW becomes P_src. -/
  | grEntryInForce (n : Fin 64)
  /-- GR_SCHEDULE_END (R314): The LAST entry's time arrives, so EN clears, DONE is set and the module returns to BUFFERED unless suspended. -/
  | grScheduleEnd
  /-- LOOP_SLOT_PERIOD (R327): A loop slot samples 192 ns before its output instant and writes its output each period. -/
  | loopSlotPeriod (slot : Fin 16) (sample : BitVec 32)
  /-- LS_MODE_WRITE (R328): A write of LS_STATE.MODE changes a slot's mode bumplessly, or is rejected for LS0–LS4 outside STANDBY. -/
  | lsModeWrite (r : Req) (slot : Fin 16) (mode : BitVec 2)
  /-- LS_COEF_WRITE (R328): A coefficient or structure write to a CLOSED slot is ignored with COEF_REJECT. -/
  | lsCoefWrite (r : Req) (slot : Fin 16) (which : LoopReg) (value : BitVec 64)
  /-- LS_CASC_WRITE (R330): A cascade write is applied, or rejected for a bad source or cycle. -/
  | lsCascWrite (r : Req) (slot : Fin 16) (value : BitVec 64)
  /-- RAIL_CMD_WRITE (R337): An L0 write of RAIL_CMD for a REGISTER rail queues a command, or sets REJECT. -/
  | railCmdWrite (r : Req) (rail : Fin 12) (slew : BitVec 8) (target : BitVec 16)
  /-- RAIL_PWM_PERIOD (R336): At each PWM boundary the rail latches commands, steps its reference and tests completion, steps, braking and protections. -/
  | railPwmPeriod (rail : Fin 12) (vSense : BitVec 16) (current : BitVec 16) (temp : BitVec 16)
  /-- RAIL_COMP_WRITE (R344): An L0 write of the open compensator's coefficients is taken, or rejected when active or a swap is pending. -/
  | railCompWrite (r : Req) (rail : Fin 12) (comp1 kdf : Bool) (value : BitVec 64)
  /-- RAIL_SWAP (R345): Writing SWAP requests a compensator handover at the next PWM boundary. -/
  | railSwap (r : Req) (rail : Fin 12)
  /-- PHASE_BALANCE (R346): Every 100 µs each ON phase's trim moves one step toward balance, and shed decisions are made. -/
  | phaseBalance (rail : Fin 12) (currents temps : List (BitVec 16))
  /-- SHED_COMPLETE (R347): A phase's duty has ramped to 0 over 8 PWM periods and its switches turn off. -/
  | shedComplete (rail : Fin 12)
  /-- SHED_INHIBIT_END (R348): 100 µs after a shed abort, SHED_INH clears. -/
  | shedInhibitEnd (rail : Fin 12)
  /-- GUARD_PREADD (R349): At the guard band before a segment start the rail stops shedding and adds every healthy phase. -/
  | guardPreadd (rail : Fin 12)
  /-- BRAKE_END (R351): The output returns within 1.5 %, or 2 µs pass, and normal PWM resumes. -/
  | brakeEnd (rail : Fin 12)
  /-- BRAKE_REARM (R351): 5 µs after a brake ends, braking is rearmed. -/
  | brakeRearm (rail : Fin 12)
  /-- SENSE_LOST (R352): Remote and local readings differ by more than 6 % for 5 µs, so the rail switches to local sense and falls to SAFE. -/
  | senseLost (rail : Fin 12)
  /-- RAIL_SENSE_RETRY (R352): Writing SENSE_RETRY starts a 1 ms check of the remote sense lines. -/
  | railSenseRetry (r : Req) (rail : Fin 12)
  /-- SENSE_RETRY_RESULT (R352): After 1 ms the rail returns to remote sense, or stays local. -/
  | senseRetryResult (rail : Fin 12) (good : Bool)
  /-- RAIL_OV (R353): The output exceeds the OV limit for 2 µs, so the rail and its trackers stop. -/
  | railOv (rail : Fin 12)
  /-- RAIL_UV (R353): The output is below the UV limit for 20 µs, or healthy phases fall below MIN_PH, so the rail and its trackers stop. -/
  | railUv (rail : Fin 12)
  /-- RAIL_OC (R353): The rail current stays above its limit for 20 µs despite throttling, so the rail and its trackers stop. -/
  | railOc (rail : Fin 12)
  /-- PHASE_PEAK_LIMIT (R353): A phase's peak current ends its cycle early, and 16 consecutive such cycles fence it. -/
  | phasePeakLimit (rail : Fin 12) (phase : Fin 48) (consecutive : Bool)
  /-- PHASE_OT_FENCE (R353): A phase above 125 °C is fenced. -/
  | phaseOtFence (rail : Fin 12) (phase : Fin 48)
  /-- RAIL_PH_FENCE_WRITE (R354): An L0 write of RAIL_PH_p.FENCE fences or returns a phase. -/
  | railPhFenceWrite (r : Req) (rail : Fin 12) (phase : Fin 48) (fence : Bool)
  /-- SENSE_CHECK_START (R355): A periodic current-sense check sheds one phase, once its gate allows. -/
  | senseCheckStart (rail : Fin 12) (phase : Fin 48)
  /-- SENSE_CHECK_RESULT (R355): After 1 ms the check compares currents, restores the phase and may set CHECK_FAIL. -/
  | senseCheckResult (rail : Fin 12) (rise : BitVec 16)
  /-- RAIL_START_STAGE (R357): A start stage begins when every rail of the previous stage has PGOOD, and the master ramps with its slaves. -/
  | railStartStage (stage : Fin 4)
  /-- PGOOD_SET (R356): A rail's output has held 95 % of target for PGOOD_US, so PGOOD is set. -/
  | pgoodSet (rail : Fin 12)
  /-- RAIL_START_FAIL (R357): A rail lacks PGOOD 2 ms after its ramp, so START_FAIL is set and the rails stop. -/
  | railStartFail (rail : Fin 12)
  /-- RAIL_STOP_STAGE (R358): A stop stage begins once the previous stage is below 10 %, and the master ramps to 0 V. -/
  | railStopStage (stage : Fin 4)
  /-- LAST_FAULT_FLASH_WRITE (R360): Within 10 ms of a rail fault or phase fence the last-fault record is written to flash. -/
  | lastFaultFlashWrite
  /-- RAIL_LF_CLEAR (R360): Writing RAIL_LF_CMD.CLEAR clears the last-fault record in SRAM and flash. -/
  | railLfClear (r : Req)
  /-- RAIL_PEAK_CLR (R359): Writing PEAK_CLR restarts all held rail peaks. -/
  | railPeakClr (r : Req)
  /-- ARBITER_EVALUATION (R364): Every 100 µs, and at segment starts and OP_PREF, the arbiter sets each frond's grant to its lowest limit. -/
  | arbiterEvaluation
  /-- RAISE_TIMEOUT (R365): A raise has not completed 1 ms after its command, so VC is commanded back and GRANT_TIMEOUT is set. -/
  | raiseTimeout (f : Frond)
  /-- FAST_HOLD_END (R370): HOLD_US after a fast throttle, the FAST_HOLD limit lifts. -/
  | fastHoldEnd (f : Frond)
  /-- RAIL_FAST_THROTTLE (R367): A rail's 2 µs current average exceeds its limit, so its class is throttled to FAST_LVL within 500 ns. -/
  | railFastThrottle (rail : Fin 12) (avg : BitVec 16)
  /-- MODULE_FAST_LIMIT (R368): The 20 µs IB load exceeds the module limit, so compute on both fronds is throttled to FAST_LVL. -/
  | moduleFastLimit (load : Nat)
  /-- FAST_THROTTLE_RELEASE (R369): A fast throttle lifts one level every RELEASE_US while its average stays below 95 %. -/
  | fastThrottleRelease (src : Option (Fin 12))
  /-- BUDGET_ALLOCATION (R373): Every 100 µs the allocator forms B and divides it among the classes and fronds. -/
  | budgetAllocation (elapsedUs : Nat)
  /-- TEMP_MAX_THROTTLE (R377): A frond or HBM sensor reaches its maximum, so the class goes to its deepest throttle with TEMP_MAX. -/
  | tempMaxThrottle (f : Frond) (hbm : Bool) (tempC : BitVec 8)
  /-- ATTR_FIT_REQ (R380): Writing FIT_REQ starts collecting a coefficient-fit window. -/
  | attrFitReq (r : Req)
  /-- SWEEP_SAMPLE_SEND (R393): 200 µs before a sweep instant from the table, free timer or backstop, the master sends SAMPLE from both ports. -/
  | sweepSampleSend (src : SweepSource)
  /-- SWEEP_READ_SEND (R396): 250 µs after the instant the master sends READ around the ring, or from both ends. -/
  | sweepReadSend
  /-- SWEEP_READ_RETURN (R396): The READ returns, so readings are published, cross-checked and passed to the estimator. -/
  | sweepReadReturn (blocks : List GcsBlock) (stackMv : Nat)
  /-- CHAIN_FRAME_RESEND (R391): A chain frame returns bad or late and is resent up to twice. -/
  | chainFrameResend (crc gaveUp : Bool)
  /-- CHAIN_ALERT (R397): An ALERT or loss of carrier locates a break, so the ring is read from both ends. -/
  | chainAlert (position : Fin 8) (readsFit : Bool)
  /-- MONITORING_TIMEOUT (R398): Monitoring of every unit has not returned 1 s after two breaks, so the contactor opens and the pack is FAULT. -/
  | monitoringTimeout
  /-- CARRIER_RETURN (R399): Carrier returns on every link, so the ring is re-enumerated and a matching ring restored. -/
  | carrierReturn (units : BitVec 8) (serials : List (BitVec 64))
  /-- ENUM (R392): ENUM addresses the units and times each hop, or fails with ENUM_FAIL. -/
  | enum (units : BitVec 8) (returned : Bool) (stackMv : Nat) (serials : List (BitVec 64))
  /-- ENUM_RETRY (R392): A failed enumeration is retried once per second. -/
  | enumRetry
  /-- BALANCE_GROUP_CHANGE (R400): Every ALT_MS the bleed group alternates and BAL_SET is sent. -/
  | balanceGroupChange
  /-- OW_REQ (R403): Writing OW_REQ requests an open-wire test at the next gap. -/
  | owReq (r : Req)
  /-- OPEN_WIRE_TEST (R404): An open-wire test starts in a gap with at least 2.5 ms left, or in an open window. -/
  | openWireTest
  /-- OPEN_WIRE_RESULT (R404): After 2.1 ms lines are flagged, marked suspect or confirmed, and sinks removed. -/
  | openWireResult (flagged : List (Fin 119))
  /-- WAKE (R406): WAKE from a sleeping unit asserts WAKE_N, latches CHAIN_WAKE and records 0x3040. -/
  | wake (unit : Fin 7) (cause : BitVec 4)
  /-- PACK_CMD_WAKE_CLR (R406): Writing WAKE_CLR releases WAKE_N. -/
  | packCmdWakeClr (r : Req)
  /-- PRECHARGE_DONE (R408): The stack-side voltage reaches 2 % of the cell sum, so the positive contactor closes. -/
  | prechargeDone (reversed : Bool)
  /-- PRECHARGE_PATH_OPEN (R408): 20 ms after the positive contactor closes the precharge path opens and the pack goes ONLINE. -/
  | prechargePathOpen
  /-- PRECHARGE_TIMEOUT (R408): Precharge exceeds 500 ms, so all three open and the pack is FAULT. -/
  | prechargeTimeout
  /-- CONTACTOR_OPEN (R409): Once stack current is below 1 A, or 20 ms after the BC stop, the contactors open. -/
  | contactorOpen
  /-- WELD_CHECK (R409): 1 s after opening, a stack voltage above 60 V sets WELDED and WELD. -/
  | weldCheck (stackMv : Nat)
  /-- PACK_HVIL_OPEN (R410): The pack HVIL opens: the BC stops within 10 µs, contactors open and the event is handled as pack removal. -/
  | packHvilOpen
  /-- PRSNT_N_RISE (R410): PRSNT_N rises: the pack is ABSENT, readings are dropped and the FC takes the load. -/
  | prsntNRise
  /-- PRSNT_N_FALL (R411): PRSNT_N falls and the insertion sequence begins with DETECT. -/
  | prsntNFall
  /-- INSERTION_DEBOUNCE_END (R411): After 100 ms debounce with HVIL closed, ENUM, free sweeps, open-wire test, limit test and precharge follow. -/
  | insertionDebounceEnd
  /-- PACK_CMD_RELEASE (R412): Writing RELEASE enters BUS_ONLY, opens the contactors and puts the units to sleep. -/
  | packCmdRelease (r : Req)
  /-- PACK_CMD_ACCEPT (R411): Writing ACCEPT reruns the insertion sequence from DETECT, or from ENUM for a RELEASED pack. -/
  | packCmdAccept (r : Req)
  /-- PACK_CMD_CLR_LIMIT (R386): Writing CLR_LIMIT clears a limit while every reading lies inside its warning level. -/
  | packCmdClrLimit (r : Req)
  /-- CHAIN_FW_START (R414): Writing START begins a GCS firmware update, one unit at a time. -/
  | chainFwStart (r : Req)
  /-- GCS_FW_SWITCH (R414): After a sweep with at least 3.5 ms to spare, FW_SWITCH is sent to the unit being updated. -/
  | gcsFwSwitch (roomUs : Nat)
  /-- GCS_FW_RESTART_DONE (R414): The unit restarts, is re-enumerated and version-checked, and the update moves on or stops with FW_FAIL. -/
  | gcsFwRestartDone (ok : Bool) (version : BitVec 16)
  /-- CHARGE_INTEGRATE (R419): Every 10 µs the counted current is integrated into each cell's charge. -/
  | chargeIntegrate (bcUa tapUa : Int)
  /-- UNCERTAINTY_GROWTH (R420): Once per second each cell's uncertainty grows with counted charge and offset. -/
  | uncertaintyGrowth
  /-- PACK_FIGURES_UPDATE (R421): Every 1 ms SOC, SOC_MIN, SOC_MAX, U, reserve and allowance are derived. -/
  | packFiguresUpdate
  /-- REST_RECOGNISED (R425): Current and temperature have held still for 600 s, so the pack is at rest. -/
  | restRecognised
  /-- OCV_COMMIT (R423): Writing OCV_CMD.COMMIT accepts the shadow OCV table, or keeps the active one with TABLE_BAD. -/
  | ocvCommit (r : Req)
  /-- REST_WINDOW_DUE (R430): A scheduled, retry, forced or requested window's due time arrives. -/
  | restWindowDue
  /-- REST_WINDOW_TIMEOUT (R433): DUR_S passes without a rest reading, so the window ends TIMEOUT and a retry falls due. -/
  | restWindowTimeout
  /-- EST_CMD_ABORT_REST (R433): Writing ABORT_REST abandons the rest window. -/
  | estCmdAbortRest (r : Req)
  /-- EST_CMD_REST_NOW (R434): Writing REST_NOW makes a requested window fall due. -/
  | estCmdRestNow (r : Req)
  /-- EST_CMD_CAPTURE (R440): Writing CAPTURE fills the 34-word restore block in one update. -/
  | estCmdCapture (r : Req)
  /-- EST_CMD_RESTORE (R440): Writing RESTORE tests the restore block and applies it whole or not at all. -/
  | estCmdRestore (r : Req)
  /-- EST_CTRL_WRITE (R430): A POLICY change restarts the rest schedule, or stops windows under NO_REST. -/
  | estCtrlWrite (r : Req) (policy : BitVec 2)
  /-- COLLECTOR_LATCH (R446): An unmasked ERR_STATUS bit latches and reaches its collector, which records FIRST and applies the bit's reactions. -/
  | collectorLatch
  /-- FCOL_SELF_CHECK_LOST (R454): A frond collector misses its self-check report for 100 µs, setting FCOL_LOST. -/
  | fcolSelfCheckLost (f : Frond)
  /-- FROND_TEMP_FENCE (R454): A frond sensor reaches 110 °C, or a sensor or HBM stack stays hot for 1 s, and the frond is fenced. -/
  | frondTempFence (f : Frond)
  /-- MFS_WRITE (R446): A write of 1 to an MFS bit clears it and its class field only while the source pin is deasserted. -/
  | mfsWrite (r : Req) (value : BitVec 64)
  /-- FFS_WRITE (R446): A write of 1 to an FFS bit clears it and its class field only while the source pin is deasserted. -/
  | ffsWrite (r : Req) (f : Frond) (value : BitVec 64)
  /-- ERR_MASK_WRITE (R443): An L0 write of ERR_MASK masks bits, but never an FE bit. -/
  | errMaskWrite (r : Req) (page : BitVec 16) (value : BitVec 64)
  /-- ERR_INJECT_WRITE (R452): An L0 write arms an injected error for the checker of that bit. -/
  | errInjectWrite (r : Req) (page : BitVec 16) (value : BitVec 64)
  /-- MCOL_PIN_ASSERT (R450): Writing ASSERT drives FAULT_N low for PULSE_US. -/
  | mcolPinAssert (r : Req)
  /-- MCOL_PIN_RELEASE (R450): Writing RELEASE releases a held FAULT_N. -/
  | mcolPinRelease (r : Req)
  /-- FAULT_N_PULSE_END (R450): The FAULT_N pulse ends and the pin holds or releases per HOLD. -/
  | faultNPulseEnd
  /-- ALIVE_TOGGLE (R451): Every 500 µs ALIVE toggles while the collector is healthy with no FE held. -/
  | aliveToggle
  /-- COLLECTOR_SELF_CHECK (R451): Every 100 µs the module collector checks itself, stopping or resuming ALIVE. -/
  | collectorSelfCheck (ok : Bool)
  /-- HANG_SCAN (R456): Every 1 ms the hang unit builds the wait-for graph and reports persistent cycles and orphans. -/
  | hangScan
  /-- CONTEXT_RESET_COMPLETE (R462): Every tile and engine has released the context: producers clear, the generation advances and the context is IDLE. -/
  | contextResetComplete (ctx : BitVec 16)
  /-- CONTEXT_RESET_TILE_TIMEOUT (R462): A tile has not stopped within 1 ms, so a partition reset is performed. -/
  | contextResetTileTimeout (ctx : BitVec 16)
  /-- RST_CMD_ENGINE (R464): RST_CMD = ENGINE starts an engine reset. -/
  | rstCmdEngine (r : Req) (target : BitVec 16)
  /-- ENGINE_RESET_COMPLETE (R464): The engine's accesses have returned or timed out, so it advances GEN and returns IDLE. -/
  | engineResetComplete (f : Frond) (n : Fin 44)
  /-- ENGINE_RESET_TIMEOUT (R464): The engine is not IDLE 2 ms after the request, so it is fenced and STEP_FAIL is set. -/
  | engineResetTimeout (f : Frond) (n : Fin 44)
  /-- RST_CMD_PARTITION (R465): RST_CMD = PARTITION starts a partition reset. -/
  | rstCmdPartition (r : Req) (target : BitVec 16)
  /-- PARTITION_RESET_COMPLETE (R465): The partition's contexts and engines are reset, its tiles cleared and it is rebuilt. -/
  | partitionResetComplete (p : Fin 64)
  /-- RST_CMD_CHIP (R466): RST_CMD = CHIP at L0 starts a chip reset, or a power-cycle request past CHIP_MAX. -/
  | rstCmdChip (r : Req)
  /-- CHIP_RESET_PHASE_DONE (R466): A phase of the chip-reset sequence completes and the next begins. -/
  | chipResetPhaseDone (res : Training)
  /-- RST_CMD_POWER_CYCLE (R478): RST_CMD = POWER_CYCLE at L0 starts a power-cycle request. -/
  | rstCmdPowerCycle (r : Req)
  /-- RECOVERY_STEP_OVERRUN (R467): A recovery step exceeds its maximum time and the next step up is performed. -/
  | recoveryStepOverrun (step : BitVec 3) (target : BitVec 16)
  /-- POWER_CYCLE_IBI (R478): From STANDBY the module sends IBI POWER_CYCLE every 1 s until PC_ACK. -/
  | powerCycleIbi
  /-- TRAY_STOP (R477): The tray writes STOP, beginning an orderly stop with cause 4. -/
  | trayStop
  /-- TRAY_CHIP_RESET (R477): The tray writes CHIP_RESET, starting a chip reset. -/
  | trayChipReset
  /-- TRAY_PC_ACK (R477): The tray writes PC_ACK, acknowledging a power-cycle request. -/
  | trayPcAck
  /-- TRAY_FAULT_RELEASE (R477): The tray writes FAULT_RELEASE, releasing a held FAULT_N. -/
  | trayFaultRelease
  /-- TRAY_READ_STATUS (R477): The tray reads the 1-byte STATUS. -/
  | trayReadStatus
  /-- TRAY_READ_MFS (R477): The tray reads MFS [31:0]. -/
  | trayReadMfs
  /-- I3C_SETDASA (R557): The tray assigns the dynamic address from the static address 0x2D. -/
  | i3cSetdasa (addr : BitVec 7)
  /-- I3C_ENTDAA (R557): The module takes part in dynamic address assignment by provisional ID. -/
  | i3cEntdaa (addr : BitVec 7)
  /-- I3C_RSTDAA (R557): The module drops its dynamic address. -/
  | i3cRstdaa
  /-- I3C_ENEC (R557): The module enables the named events, such as IBIs. -/
  | i3cEnec (mask : BitVec 8)
  /-- I3C_DISEC (R557): The module disables the named events. -/
  | i3cDisec (mask : BitVec 8)
  /-- I3C_GETPID (R557): The module returns its 48-bit provisional ID. -/
  | i3cGetpid
  /-- I3C_GETBCR (R557): The module returns its BCR. -/
  | i3cGetbcr
  /-- I3C_GETDCR (R557): The module returns its DCR. -/
  | i3cGetdcr
  /-- I3C_GETSTATUS (R557): The module returns its I3C status. -/
  | i3cGetstatus
  /-- DUMP_CAPTURE (R475): A crash dump is captured into always-on SRAM, on command or at a reset, power cycle or stop. -/
  | dumpCapture (r : Req)
  /-- DUMP_CAPTURE_DONE (R475): Capture completes within 20 ms and the flush to the oldest flash slot begins. -/
  | dumpCaptureDone
  /-- DUMP_FLASH_WRITE_DONE (R475): The dump reaches flash, or FLASH_FAIL is set. -/
  | dumpFlashWriteDone (ok : Bool)
  /-- DUMP_FLUSH (R475): Writing FLUSH writes the SRAM dump to flash. -/
  | dumpFlush (r : Req)
  /-- DUMP_ERASE (R475): Writing ERASE erases all flash dump slots. -/
  | dumpErase (r : Req)
  /-- DUMP_DATA_READ (R535): A read of DUMP_DATA returns a word and advances OFFSET. -/
  | dumpDataRead (r : Req)
  /-- IRQ_LINE_CHANGE (R483): A source line's filtered level changes, making it pending or not, and presentation is updated. -/
  | irqLineChange (c : Ctl) (src : Fin 1024) (level : Bool)
  /-- FIC_PEND_SET (R484): A PEND_SET write makes sources pending as one edge each. -/
  | ficPendSet (r : Req) (c : Ctl) (word : Fin 16) (bits : BitVec 64)
  /-- FIC_PEND_CLR (R484): A PEND_CLR write clears pending sources whose line is low. -/
  | ficPendClr (r : Req) (c : Ctl) (word : Fin 16) (bits : BitVec 64)
  /-- IRQ_CLAIM (R486): A core takes a presented request, jumps to its vector and the source is pushed active, or the claim is spurious. -/
  | irqClaim (c : Ctl) (target : Fin 8)
  /-- FIC_EOI (R488): An EOI naming the top of stack pops it, otherwise sets EOI_BAD. -/
  | ficEoi (r : Req) (c : Ctl) (target : Fin 8) (id : BitVec 10)
  /-- MOD_GROUP_RELEASE (R489): A moderation group's count or TIME_US is reached and its held sources are released. -/
  | modGroupRelease (c : Ctl) (group : Fin 32)
  /-- WFI_RELEASE (R490): A held source's target enters WFI, so the group releases at once. -/
  | wfiRelease (c : Ctl) (target : Fin 8)
  /-- MIRROR_BLOCK_WRITE (R500): 128 records waiting, or 1 s after the oldest, a block is written to the flash ring. -/
  | mirrorBlockWrite (ok : Bool)
  /-- REC_FREEZE (R501): Writing FREEZE records 0xF001 and diverts records to the holding buffer. -/
  | recFreeze (r : Req) (alsoUnfreeze : Bool)
  /-- REC_UNFREEZE (R501): Writing UNFREEZE appends held records and records 0xF002. -/
  | recUnfreeze (r : Req)
  /-- FREEZE_TIMEOUT (R501): A freeze ends 10 s after it began. -/
  | freezeTimeout
  /-- REC_RD_SEL_WRITE (R502): A write of REC_RD_SEL starts loading a record from SRAM or flash. -/
  | recRdSelWrite (r : Req) (flash : Bool) (index : BitVec 48)
  /-- REC_RD_LOAD_DONE (R502): The record is loaded into REC_RD_W0–W3, or GONE is set. -/
  | recRdLoadDone (r : Req)
  /-- REC_CLR_NONCE_REQ (R503): Writing NONCE_REQ makes the steward write a fresh nonce valid for 60 s. -/
  | recClrNonceReq (r : Req)
  /-- REC_CLR_PTR_RESET (R503): Writing PTR_RESET restarts the authorisation word pointer. -/
  | recClrPtrReset (r : Req)
  /-- REC_AUTH_DATA_WRITE (R503): A write of REC_AUTH_DATA takes the next authorisation word. -/
  | recAuthDataWrite (r : Req) (word : BitVec 64)
  /-- REC_CLR_VERIFY (R503): Writing VERIFY starts verification of the authorisation block. -/
  | recClrVerify (r : Req)
  /-- REC_CLR_RESULT (R503): Within 50 ms the result is written, and on OK 0xF010 is recorded and erasure begins. -/
  | recClrResult
  /-- REC_CLEAR_ERASE_DONE (R503): Every older record in scope is erased within 2 s. -/
  | recClearEraseDone
  /-- NONCE_EXPIRE (R503): A recorder-clear or fuse nonce expires after 60 s. -/
  | nonceExpire (fuse : Bool)
  /-- CFG_PTR_RESET (R515): Writing CFG_CMD.PTR_RESET restarts the configuration buffer pointer. -/
  | cfgPtrReset (r : Req)
  /-- CFG_COMMIT (R515): Writing COMMIT checks the buffer and starts its flash write. -/
  | cfgCommit (r : Req)
  /-- CFG_FLASH_WRITE_DONE (R515): Within 200 ms the block is stored, CFG_WR_STATUS is set and 0x0021 is recorded. -/
  | cfgFlashWriteDone (ok : Bool)
  /-- CFG_READ (R515): Writing READ fills the buffer from the stored block. -/
  | cfgRead (r : Req)
  /-- CFG_ERASE (R515): Writing ERASE removes the stored block so ROM defaults apply next. -/
  | cfgErase (r : Req)
  /-- CFG_DATA_ACCESS (R535): An access to CFG_DATA reads or writes the buffer word and advances CFG_PTR. -/
  | cfgDataAccess (r : Req) (write : Option (BitVec 64))
  /-- FW_LOAD (R523): LOAD copies an image from HBM into the inactive slot and verifies it. -/
  | fwLoad (r : Req)
  /-- FW_OPEN (R523): OPEN erases the inactive slot for appending. -/
  | fwOpen (r : Req)
  /-- FW_APPEND (R523): APPEND adds FW_BUF_CNT bytes from the buffer. -/
  | fwAppend (r : Req)
  /-- FW_CLOSE (R523): CLOSE verifies the appended image. -/
  | fwClose (r : Req)
  /-- FW_STAGING_DONE (R523): Verification ends in STAGED or FAILED. -/
  | fwStagingDone (written : Bool)
  /-- FW_ACTIVATE (R524): ACTIVATE makes the staged slot preferred as TRIAL and waits for the unit's safe point. -/
  | fwActivate (r : Req)
  /-- FW_SAFE_POINT (R524): The unit reaches its safe point and hands over to the new image. -/
  | fwSafePoint
  /-- FW_READY_TIMEOUT (R525): The unit is not ready in time after handover and reverts to its previous slot. -/
  | fwReadyTimeout
  /-- FW_CONFIRM (R525): CONFIRM makes the TRIAL image permanent. -/
  | fwConfirm (r : Req)
  /-- FW_ABORT (R523): ABORT abandons the firmware operation in progress. -/
  | fwAbort (r : Req)
  /-- FUSE_NONCE_REQ (R519): Writing NONCE_REQ makes the steward write a fuse nonce. -/
  | fuseNonceReq (r : Req)
  /-- FUSE_PTR_RESET (R519): Writing PTR_RESET restarts the fuse authorisation pointer. -/
  | fusePtrReset (r : Req)
  /-- FUSE_AUTH_DATA_WRITE (R519): A write of FUSE_AUTH_DATA takes the next block word. -/
  | fuseAuthDataWrite (r : Req) (word : BitVec 64)
  /-- FUSE_EXECUTE (R520): Writing EXECUTE verifies the signed fuse command and programs or refuses it. -/
  | fuseExecute (r : Req)
  /-- FUSE_OP_DONE (R520): Within 500 ms the fuse op completes, is read back and records 0x0040 or 0x0041. -/
  | fuseOpDone (good : Bool)
  /-- DBG_UNLOCK_WRITE (R526): An L0 write of UNLOCK opens debug unless DEBUG_CLOSED, recording 0x0050. -/
  | dbgUnlockWrite (r : Req) (value : Bool)
  /-- REGISTER_WRITE (R534): A write to a register without its own row updates each field under its access code and level checks. -/
  | registerWrite (r : Req) (addr : BitVec 44) (bytes : BitVec 7) (value : BitVec 64)
  /-- ACCESS_CLASS_WRITE (R542): An L0 write of ACCESS_CLASS changes a page's class unless FIXED. -/
  | accessClassWrite (r : Req) (page : BitVec 16) (value : BitVec 64)
  /-- BLK_CTRL_ENABLE (R545): A write of BLK_CTRL.ENABLE disables or enables an engine, core or port. -/
  | blkCtrlEnable (r : Req) (page : BitVec 16) (on : Bool)
  /-- BLK_CTRL_FENCE_SET (R545): An L0 write of FENCE = 1 fences the tile, engine, core, port, stack or frond. -/
  | blkCtrlFenceSet (r : Req) (page : BitVec 16)
  /-- BLK_CTRL_FENCE_CLEAR (R545): An L0 write of FENCE = 0 returns the unit as its chapter allows. -/
  | blkCtrlFenceClear (r : Req) (page : BitVec 16)
  /-- BLK_CTRL_RESET_REQ (R545): Writing RESET_REQ resets the unit, as a partition, engine or core reset or a retrain. -/
  | blkCtrlResetReq (r : Req) (page : BitVec 16)
  /-- BLK_CTRL_CFG_LOCK (R546): Writing CFG_LOCK makes the page's RW fields and ACCESS_CLASS L0-only. -/
  | blkCtrlCfgLock (r : Req) (page : BitVec 16)
  /-- PACK_HVIL_CLOSE (R410): The pack HVIL loop reads closed for 100 ms, which lets an insertion sequence that waits at its debounce step go on. -/
  | packHvilClose
  /-- ALWAYS_ON_POWER_LOSS (R29): Both the bus auxiliary supply and the pack auxiliary tap are lost, so the always-on domain and the whole module lose power, keeping only what flash holds. -/
  | alwaysOnPowerLoss
  /-- STANDBY_BUS_RETURN (R25): In STANDBY with the always-on domain powered, the bus returns within 700–880 V, the cores wake and start-up runs again toward BUS_ONLY. -/
  | standbyBusReturn
  /-- ESCAPE_VC_TIMEOUT (R248): A response or collective segment that finds no A-channel credit on any MASK port for ESC_NS moves to the ESC bundle on an escape VC. -/
  | escapeVcTimeout (n : BitVec 16)
  /-- PHASE_INVALID_TIMEOUT (R470): A PHASE_WAIT item or PWAIT has waited 10 ms on an invalid frond phase copy, so its context faults with PHASE_INVALID. -/
  | phaseInvalidTimeout (ctx : BitVec 16)
  /-- BAL_SET_TIMEOUT (R400): A unit that has received no BAL_SET for 3 × ALT_MS stops all bleeding. -/
  | balSetTimeout (unit : Fin 7)
  /-- SWEEP_SAMPLE_INSTANT (R393): The announced countdown expires and every unit samples its cells, thermistors and shunt with the BC current sensor, and bleeding resumes 20 µs later. -/
  | sweepSampleInstant (bcMa : Int)
  /-- SLEEP_CHECK (R406): Every WAKE_S a sleeping unit samples its cells and thermistors against the sleep limits, and a cell at or below UV_WARN makes the master open the auxiliary tap. -/
  | sleepCheck (unit : Fin 7) (minMv maxMv : Nat) (minC maxC : Int) (unitFault : Bool)
  deriving DecidableEq, Repr

end Sys2Proof
end

