-- ==== Sys2Proof/Decode.lean ====
section
/-! DEFINITION. The command that a table word spells. This hardware has no instruction encoding: the opcode table gives no
row any bits, so no word spells a command. -/

namespace Sys2Proof

/-- The command that `nbits` bits `w` spell: none, since no row of the table has bits. (DESIGN CHOICE, log 3) -/
def decodeTableWord (_nbits _w : Nat) : Option Instr := none

end Sys2Proof
end

