-- ==== Sys2Proof/Machine/Sparse.lean ====
section
/-! DEFINITION. Reading and writing a sparse table, the bits of a field in a word, and small arithmetic that the
rest of the machine shares. -/

namespace Sys2Proof

/-- The entry at `k`; a key the table does not list reads as `d k`. -/
def Sparse.get {α : Type} (d : Nat → α) : Sparse α → Nat → α
  | [], k => d k
  | (k', v) :: t, k => if k = k' then v else Sparse.get d t k

/-- The table without key `k`. -/
def Sparse.erase {α : Type} : Sparse α → Nat → Sparse α
  | [], _ => []
  | (k', v) :: t, k => if k = k' then Sparse.erase t k else (k', v) :: Sparse.erase t k

/-- The table with `(k, v)` put in before the first larger key. -/
def Sparse.insert {α : Type} : Sparse α → Nat → α → Sparse α
  | [], k, v => [(k, v)]
  | (k', v') :: t, k, v => if k < k' then (k, v) :: (k', v') :: t else (k', v') :: Sparse.insert t k v

/-- The table with `v` at `k`: the entry goes away when `v` is what an unlisted key reads as. -/
def Sparse.set {α : Type} [DecidableEq α] (d : Nat → α) (m : Sparse α) (k : Nat) (v : α) : Sparse α :=
  if v = d k then Sparse.erase m k else Sparse.insert (Sparse.erase m k) k v

/-- Every key of the table is above `b`, keys rise strictly, and no entry equals the default of its key. -/
def Sparse.wfAbove {α : Type} [DecidableEq α] (d : Nat → α) : Option Nat → Sparse α → Bool
  | _, [] => true
  | b, (k, v) :: t =>
    (match b with | none => true | some n => decide (n < k)) && decide (v ≠ d k) && Sparse.wfAbove d (some k) t

/-- The canonical form of a sparse table. -/
def Sparse.wf {α : Type} [DecidableEq α] (d : Nat → α) (m : Sparse α) : Bool := Sparse.wfAbove d none m

/-- The bits of the field, as a number. -/
def Field.get (f : Field) (w : Word) : Nat := (w.extractLsb' f.lo f.width).toNat

/-- The word with ones at the field's bits. -/
def Field.mask (f : Field) : Word := ((BitVec.allOnes f.width).setWidth 64) <<< f.lo

/-- The word with the field set to `v`, modulo its width; its other bits stay. -/
def Field.put (f : Field) (w : Word) (v : Nat) : Word :=
  (w &&& ~~~ f.mask) ||| (((BitVec.ofNat f.width v).setWidth 64) <<< f.lo)

/-- The number within `[lo, hi]` nearest to `v`. -/
def clampNat (lo hi v : Nat) : Nat := if v < lo then lo else if hi < v then hi else v

/-- The integer within `[lo, hi]` nearest to `v`. -/
def clampInt (lo hi v : Int) : Int := if v < lo then lo else if hi < v then hi else v

/-- A counter that stays at its largest value. -/
def satAdd (width a b : Nat) : Nat := if 2 ^ width ≤ a + b then 2 ^ width - 1 else a + b

/-- Two's complement of an integer in `w` bits. -/
def intBits (w : Nat) (v : Int) : Nat := (v % (2 ^ w : Int)).toNat

/-- The signed reading of a `w`-bit number. -/
def bitsInt (w n : Nat) : Int := if n < 2 ^ (w - 1) then (n : Int) else (n : Int) - (2 ^ w : Int)

/-- Bit `i` of a number. -/
def bitOf (n i : Nat) : Bool := n.testBit i

/-- The number with bit `i` set. -/
def setBitN (n i : Nat) : Nat := n ||| (1 <<< i)

/-- The number with bit `i` clear. -/
def clrBitN (n i : Nat) : Nat := if n.testBit i then n - (1 <<< i) else n

/-- A Boolean as the bit 0 or 1. -/
def b2n (b : Bool) : Nat := if b then 1 else 0

/-- The lowest element of a list that meets `p`, in the list's order. -/
def firstWhere {α : Type} (p : α → Bool) : List α → Option α
  | [] => none
  | a :: t => if p a then some a else firstWhere p t

end Sys2Proof
end

