-- ==== Sys2Proof/Machine/Operands.lean ====
section
/-! DEFINITION. The number formats of operands and their arithmetic: Q4.28 and Q8.40 of the loop engine and the
rails' compensators (R327, R343). -/

namespace Sys2Proof.Machine

/-- Round to nearest, ties to even, of `v / 2^k` (R327). -/
def rneShift (v : Int) (k : Nat) : Int :=
  let q := v / (2 ^ k : Int)
  let r := v % (2 ^ k : Int)
  if 2 * r < 2 ^ k then q else if 2 * r > 2 ^ k then q + 1 else if q % 2 = 0 then q else q + 1

/-- Round to nearest, ties to even, of `n / d` for a positive `d`. -/
def rneDiv (n : Int) (d : Nat) : Int :=
  let q := n / (d : Int)
  let r := n % (d : Int)
  if 2 * r < d then q else if 2 * r > d then q + 1 else if q % 2 = 0 then q else q + 1

/-- 1.0 in Q4.28. -/
def q28 : Int := 2 ^ 28

/-- A value within the range of a signed number of `w` bits. -/
def satBits (w : Nat) (v : Int) : Int := clampInt (-(2 ^ (w - 1) : Int)) (2 ^ (w - 1) - 1) v

/-- A product of two Q4.28 numbers in Q8.40, 48 bits (R327). -/
def qMul (a b : Int) : Int := satBits 48 (rneShift (a * b) 16)

/-- A product of a Q4.28 and a Q8.40 number in Q8.40, 48 bits. -/
def qMul40 (a b : Int) : Int := satBits 48 (rneShift (a * b) 28)

/-- The coefficients of a slot or compensator, Q4.28 (R327). -/
structure LawCoef where
  kp : Int
  ki : Int
  kd : Int
  kf : Int
  kff : Int
  outMin : Int
  outMax : Int
  deriving DecidableEq, Repr

/-- What the law carries from period to period: integrator and derivative in Q8.40, the last error, and whether the
last output lay at a limit. -/
structure LawMem where
  integ : Int
  deriv : Int
  ePrev : Int
  atLim : Bool
  deriving DecidableEq, Repr

/-- One period's result: the new memory, the output, and the three sticky conditions. -/
structure LawOut where
  mem : LawMem
  out : Int
  satAcc : Bool
  satInt : Bool
  satOut : Bool
  deriving DecidableEq, Repr

/-- The law of R327 for error `e` and feed-forward `ff`, both Q4.28. -/
def loopLaw (c : LawCoef) (m : LawMem) (e ff : Int) : LawOut :=
  let p := qMul c.kp e
  let iRaw := m.integ + qMul c.ki e
  let i := if m.atLim then m.integ else clampInt (c.outMin * 2 ^ 12) (c.outMax * 2 ^ 12) (satBits 48 iRaw)
  let kdTerm := qMul c.kd (satBits 32 (e - m.ePrev))
  let dIn := satBits 48 (kdTerm - m.deriv)
  let d := satBits 48 (m.deriv + qMul40 c.kf dIn)
  let f := qMul c.kff ff
  let u1 := satBits 48 (p + i)
  let u2 := satBits 48 (u1 + d)
  let u := satBits 48 (u2 + f)
  let raw := rneShift u 12
  let out := clampInt c.outMin c.outMax raw
  { mem := { integ := i, deriv := d, ePrev := e, atLim := out == c.outMin || out == c.outMax }
    out := out
    satAcc := satBits 48 iRaw != iRaw || dIn != kdTerm - m.deriv || d != m.deriv + qMul40 c.kf dIn
      || u1 != p + i || u2 != u1 + d || u != u2 + f
    satInt := !m.atLim && i != satBits 48 iRaw
    satOut := out != raw }

/-- The memory from which the law's first output equals `out`: the derivative is 0 and the previous error is the
present one (R303, R345). -/
def bumpless (c : LawCoef) (out e ff : Int) : LawMem :=
  { integ := out * 2 ^ 12 - qMul c.kp e - qMul c.kff ff, deriv := 0, ePrev := e, atLim := true }

end Sys2Proof.Machine
end

