-- ==== Sys2Proof/Config.lean ====
section
/-! DEFINITION. The values that the spec leaves open: constants without a body, so that nothing can be proved of
them. Each is named in notes/assumptions. -/

namespace Sys2Proof

/-- Free values, one for each draw. (DESIGN CHOICE, log 6) -/
opaque Config.freeNat : Nat → Nat

/-- The factory OCV table in ROM (R423): entry e's voltage in 0.1 mV at 2e and its uncertainty in 0.01 % at 2e + 1.
(DESIGN CHOICE, log 54) -/
opaque Config.romOcv : Nat → Nat

/-- The temperature points of the factory OCV table, 0.1 degrees C. (DESIGN CHOICE, log 54) -/
opaque Config.romOcvTemp : Nat → Int

/-- The parameter with which event 0x3003 names its cause (R408-R410): the spec gives the causes no numbers.
(DESIGN CHOICE, log 53) -/
opaque Config.contactorCause : Nat → Nat

/-- A charge or a growth of uncertainty over an effective capacity of 0 (R419, R420). (DESIGN CHOICE, log 54) -/
opaque Config.noCapacity : Int → Nat

/-- Tininess is detected before rounding: IEEE 754-2019 leaves it to the implementation (R131). (DESIGN CHOICE, log 20) -/
opaque Config.tinyBefore : Bool

/-- Gain, in 2^-15, and offset, in 1/16 LSB, of a conversion (R73), by the number of the calibration that measured them and
range × 128 + column: the spec gives neither their values nor their resolution. (DESIGN CHOICE, log 23) -/
opaque Config.arrayGain : Nat → Nat → Nat

/-- (DESIGN CHOICE, log 23) -/
opaque Config.arrayOffset : Nat → Nat → Int

/-- The frond (0, 1) on which signal counter n lies: the spec does not say (R144, R219). (DESIGN CHOICE, log 28) -/
opaque Config.counterFrond : Nat → Fin 2

/-- A free pattern for a NORMAL output, by u1 and u2 in 2^-24 and the member of the pair: the same on every module (R189).
(DESIGN CHOICE, log 30) -/
opaque Config.normalDraw : Nat → Nat → Bool → Nat

/-- The length of the next chunk that COMPRESS takes from the bytes left, and the code length of a symbol for a chunk: the
spec lets the engine choose them, by its input alone (R182, R183). (DESIGN CHOICE, log 30) -/
opaque Config.chunkLen : List Nat → Nat

/-- (DESIGN CHOICE, log 30) -/
opaque Config.codeLen : List Nat → Nat → Nat

/-- The image that a firmware slot (2 × unit + slot) leaves manufacture with, as bytes (R516). (DESIGN CHOICE, log 63) -/
opaque Config.flashImage : Nat → List Nat

/-- Byte i of the digest that a report gives for entry e while a ROM default block or no image stands behind it (R522).
(DESIGN CHOICE, log 48) -/
opaque Config.romDigest : Nat → Nat → Nat

/-- The hash that places a flow on a port: source module, source frond, ADDR[43:12], port (R248). (DESIGN CHOICE, log 37) -/
opaque Config.linkHash : Nat → Nat → Nat → Nat → Nat

/-- The segments of a run beyond one that a collective slot has buffers for (R265). (DESIGN CHOICE, log 40) -/
opaque Config.collBuffer : Nat

/-- What the spec leaves open of an IPv6 header that the port sends: 0 its traffic class and flow label, 1 its hop limit
(R278). (DESIGN CHOICE, log 42) -/
opaque Config.ip6Open : Nat → Nat

/-- Byte i of the module's Falcon-1024 identity public key, which its fused seed determines (R521). (DESIGN CHOICE, log 48) -/
opaque Config.identityKey : Nat → Nat

/-- The endorsement of that key in flash: 0 its length, 1 + i its byte i (R521). (DESIGN CHOICE, log 48) -/
opaque Config.endorsement : Nat → Nat

/-- What the spec leaves open of the I3C identity: 0 bits [47:32] of the provisional ID, 1 the bits of the BCR but [2:1],
2 the DCR (R557). (PRESUMED, log 72) -/
opaque Config.i3cOpen : Nat → Nat

end Sys2Proof
end

