-- ==== Sys2Proof/Machine/Floats.lean ====
section
/-! DEFINITION. The floating-point formats of R126 and their arithmetic: decoding, exact operations on decoded values,
one rounding into a format with the exception flags, conversions (R128, R129, R131). -/

namespace Sys2Proof.Machine

/-- A binary format: exponent and fraction bits, bias, and whether it has infinities and NaN as IEEE 754 has (0), NaN
as S.1111.111 only (1), or neither (2). -/
structure Fmt where
  eb : Nat
  mb : Nat
  bias : Nat
  kind : Nat
  deriving DecidableEq, Repr

def fp32 : Fmt := ⟨8, 23, 127, 0⟩

def fp64 : Fmt := ⟨11, 52, 1023, 0⟩

def bf16 : Fmt := ⟨8, 7, 127, 0⟩

def fp16 : Fmt := ⟨5, 10, 15, 0⟩

def e4m3 : Fmt := ⟨4, 3, 7, 1⟩

def e5m2 : Fmt := ⟨5, 2, 15, 0⟩

def e2m3 : Fmt := ⟨2, 3, 1, 2⟩

def e3m2 : Fmt := ⟨3, 2, 3, 2⟩

def e2m1 : Fmt := ⟨2, 1, 1, 2⟩

/-- A decoded value: NaN (signalling or not), infinity, or m × 2^e with a sign, of which a zero keeps its sign. -/
inductive FV where
  | nan (signal : Bool)
  | inf (neg : Bool)
  | fin (neg : Bool) (m : Nat) (e : Int)
  deriving DecidableEq, Repr

/-- Width of a format in bits. -/
def Fmt.width (f : Fmt) : Nat := 1 + f.eb + f.mb

/-- The value of a bit pattern. (PRESUMED, log 13) -/
def Fmt.decode (f : Fmt) (b : Nat) : FV :=
  let man := b % 2 ^ f.mb
  let ex := b / 2 ^ f.mb % 2 ^ f.eb
  let neg := bitOf b (f.eb + f.mb)
  let top := 2 ^ f.eb - 1
  if f.kind = 0 ∧ ex = top then
    if man = 0 then .inf neg else .nan (!bitOf b (f.mb - 1))
  else if f.kind = 1 ∧ ex = top ∧ man = 2 ^ f.mb - 1 then .nan false
  else if ex = 0 then .fin neg man (1 - (f.bias : Int) - (f.mb : Int))
  else .fin neg (2 ^ f.mb + man) ((ex : Int) - (f.bias : Int) - (f.mb : Int))

/-- The canonical NaN (R128). -/
def Fmt.nanBits (f : Fmt) : Nat :=
  if f.kind = 1 then 2 ^ (f.eb + f.mb) - 1 else (2 ^ f.eb - 1) * 2 ^ f.mb + 2 ^ (f.mb - 1)

/-- The largest finite magnitude, as a bit pattern. -/
def Fmt.maxBits (f : Fmt) : Nat :=
  if f.kind = 0 then (2 ^ f.eb - 1) * 2 ^ f.mb - 1
  else if f.kind = 1 then 2 ^ (f.eb + f.mb) - 2
  else 2 ^ (f.eb + f.mb) - 1

/-- The sign bit. -/
def Fmt.sign (f : Fmt) (neg : Bool) : Nat := if neg then 2 ^ (f.eb + f.mb) else 0

def Fmt.infBits (f : Fmt) (neg : Bool) : Nat := f.sign neg + (2 ^ f.eb - 1) * 2 ^ f.mb

/-- Exception flags as in VEC_FLAGS: NV, DZ, OF, UF, NX. -/
def flNV : Nat := 16

def flDZ : Nat := 8

def flOF : Nat := 4

def flUF : Nat := 2

def flNX : Nat := 1

/-- The number of bits of a number. -/
def bitLen (m : Nat) : Nat := if m = 0 then 0 else Nat.log2 m + 1

/-- Whether the discarded part rounds the magnitude up: rounding code of R128, sign, lowest kept bit, remainder of
2^k. -/
def roundsUp (rnd : Nat) (neg : Bool) (q r k : Nat) : Bool :=
  match rnd with
  | 0 => decide (2 ^ k < 2 * r) || (2 * r == 2 ^ k && q % 2 == 1)
  | 1 => false
  | 2 => !neg && r != 0
  | _ => neg && r != 0

/-- m × 2^e rounded to a multiple of 2^q: the multiple and whether it is inexact. -/
def roundAt (rnd : Nat) (neg : Bool) (m : Nat) (e q : Int) : Nat × Bool :=
  if q ≤ e then (m * 2 ^ (e - q).toNat, false)
  else
    let k := (q - e).toNat
    let a := m / 2 ^ k
    let r := m % 2 ^ k
    (if roundsUp rnd neg a r k then a + 1 else a, r != 0)

/-- The result of an overflow in a format (R129), saturating or not. (DEDUCED, log 19) -/
def Fmt.overflow (f : Fmt) (rnd : Nat) (sat neg : Bool) : Nat :=
  if sat || f.kind == 2 then f.sign neg + f.maxBits
  else if f.kind = 1 then f.nanBits
  else if rnd = 0 || (rnd == 2 && !neg) || (rnd == 3 && neg) then f.infBits neg
  else f.sign neg + f.maxBits

/-- ± m × 2^e rounded once into the format, with its flags. (PRESUMED, log 13; DESIGN CHOICE, log 20) -/
def Fmt.round (f : Fmt) (rnd : Nat) (sat neg : Bool) (m : Nat) (e : Int) : Nat × Nat :=
  if m = 0 then (f.sign neg, 0)
  else
    let lead := e + (bitLen m : Int) - 1
    let emin := 1 - (f.bias : Int)
    let q := max (lead - (f.mb : Int)) (emin - (f.mb : Int))
    let r := roundAt rnd neg m e q
    let pat := if r.1 < 2 ^ f.mb then r.1
      else if r.1 = 2 ^ (f.mb + 1) then (q + 1 + (f.mb : Int) + (f.bias : Int)).toNat * 2 ^ f.mb
      else (q + (f.mb : Int) + (f.bias : Int)).toNat * 2 ^ f.mb + (r.1 - 2 ^ f.mb)
    if f.maxBits < pat then (f.overflow rnd sat neg, flOF + flNX)
    else
      let free := roundAt rnd neg m e (lead - (f.mb : Int))
      let tiny := if Config.tinyBefore then decide (lead < emin)
        else decide (lead < emin - 1) || (lead == emin - 1 && decide (free.1 < 2 ^ (f.mb + 1)))
      (f.sign neg + pat, (if r.2 then flNX else 0) + (if r.2 && tiny then flUF else 0))

/-- A decoded value rounded once into the format (R128, R129). -/
def Fmt.encode (f : Fmt) (rnd : Nat) (sat : Bool) (v : FV) : Nat × Nat :=
  match v with
  | .nan g => (f.nanBits, if g then flNV else 0)
  | .inf neg => if f.kind = 0 then (f.infBits neg, 0) else (f.overflow rnd sat neg, flOF + flNX)
  | .fin neg m e => f.round rnd sat neg m e

/-- A signed integer times 2^e. -/
def fvInt (v : Int) (e : Int) : FV := .fin (decide (v < 0)) v.natAbs e

/-- The signed significand of a finite value. -/
def sInt (neg : Bool) (m : Nat) : Int := if neg then -(m : Int) else (m : Int)

/-- The sum of two finite values, exact; an exact zero sum is +0, or -0 in RDN, and the common sign when both are zero
of one sign. -/
def finAdd (rnd : Nat) (n1 : Bool) (m1 : Nat) (e1 : Int) (n2 : Bool) (m2 : Nat) (e2 : Int) : FV :=
  let e := min e1 e2
  let v := sInt n1 m1 * 2 ^ (e1 - e).toNat + sInt n2 m2 * 2 ^ (e2 - e).toNat
  if v = 0 then .fin (if n1 == n2 then n1 else rnd == 3) 0 0 else fvInt v e

/-- NV of the NaNs among operands. -/
def nvOf : FV → Nat
  | .nan true => flNV
  | _ => 0

/-- Exact addition, with NV for a signalling NaN or infinities of opposite sign (R131). -/
def fvAdd (rnd : Nat) (a b : FV) : FV × Nat :=
  match a, b with
  | .nan g, b => (.nan false, (if g then flNV else 0) ||| nvOf b)
  | a, .nan g => (.nan false, (if g then flNV else 0) ||| nvOf a)
  | .inf x, .inf y => if x == y then (.inf x, 0) else (.nan false, flNV)
  | .inf x, _ => (.inf x, 0)
  | _, .inf y => (.inf y, 0)
  | .fin n1 m1 e1, .fin n2 m2 e2 => (finAdd rnd n1 m1 e1 n2 m2 e2, 0)

/-- Negation. -/
def fvNeg : FV → FV
  | .nan g => .nan g
  | .inf n => .inf (!n)
  | .fin n m e => .fin (!n) m e

/-- Magnitude. -/
def fvAbs : FV → FV
  | .nan g => .nan g
  | .inf _ => .inf false
  | .fin _ m e => .fin false m e

/-- The sign of a value. -/
def fvSign : FV → Bool
  | .nan _ => false
  | .inf n => n
  | .fin n _ _ => n

/-- A value is a zero. -/
def fvZero : FV → Bool
  | .fin _ 0 _ => true
  | _ => false

/-- A value is a NaN. -/
def fvNan : FV → Bool
  | .nan _ => true
  | _ => false

/-- Exact multiplication. -/
def fvMul (a b : FV) : FV × Nat :=
  match a, b with
  | .nan g, b => (.nan false, (if g then flNV else 0) ||| nvOf b)
  | a, .nan g => (.nan false, (if g then flNV else 0) ||| nvOf a)
  | .inf x, b => if fvZero b then (.nan false, flNV) else (.inf (x != fvSign b), 0)
  | a, .inf y => if fvZero a then (.nan false, flNV) else (.inf (y != fvSign a), 0)
  | .fin n1 m1 e1, .fin n2 m2 e2 => (.fin (n1 != n2) (m1 * m2) (e1 + e2), 0)

/-- a × b + c, exact. -/
def fvFma (rnd : Nat) (a b c : FV) : FV × Nat :=
  let p := fvMul a b
  let r := fvAdd rnd p.1 c
  (r.1, p.2 ||| r.2 ||| nvOf c)

/-- a / b to `p` more bits than the quotient's format needs, with a sticky bit in the lowest place. -/
def fvDiv (p : Nat) (a b : FV) : FV × Nat :=
  match a, b with
  | .nan g, b => (.nan false, (if g then flNV else 0) ||| nvOf b)
  | a, .nan g => (.nan false, (if g then flNV else 0) ||| nvOf a)
  | .inf _, .inf _ => (.nan false, flNV)
  | .inf x, b => (.inf (x != fvSign b), 0)
  | a, .inf y => (.fin (y != fvSign a) 0 0, 0)
  | .fin n1 m1 e1, .fin n2 m2 e2 =>
    if m2 = 0 then
      if m1 = 0 then (.nan false, flNV) else (.inf (n1 != n2), flDZ)
    else
      let k := p + bitLen m2 + 2
      let q := m1 * 2 ^ k / m2
      let st := b2n (m1 * 2 ^ k % m2 != 0)
      (.fin (n1 != n2) (2 * q + st) (e1 - e2 - (k : Int) - 1), 0)

/-- The integer square root, by Newton's iteration from above with `fuel` steps. -/
def isqrtFrom : Nat → Nat → Nat → Nat
  | 0, _, x => x
  | fuel + 1, n, x =>
    let y := (x + n / x) / 2
    if x ≤ y then x else isqrtFrom fuel n y

def isqrt (n : Nat) : Nat := if n = 0 then 0 else isqrtFrom (bitLen n + 8) n (2 ^ ((bitLen n + 1) / 2))

/-- √a with `p` bits of result and a sticky bit. -/
def fvSqrt (p : Nat) (a : FV) : FV × Nat :=
  match a with
  | .nan g => (.nan false, if g then flNV else 0)
  | .inf n => if n then (.nan false, flNV) else (.inf false, 0)
  | .fin n m e =>
    if m = 0 then (.fin n 0 0, 0)
    else if n then (.nan false, flNV)
    else
      let k := 2 * p + 2 + (if e % 2 = 0 then 0 else 1)
      let v := m * 2 ^ k
      let r := isqrt v
      (.fin false (2 * r + b2n (r * r != v)) ((e - (k : Int)) / 2 - 1), 0)

/-- a < b for values that are not NaN, -0 below +0 (minimumNumber and maximumNumber of IEEE 754-2019). -/
def fvLt (a b : FV) : Bool :=
  match a, b with
  | .inf x, .inf y => x && !y
  | .inf x, _ => x
  | _, .inf y => !y
  | .fin n1 m1 e1, .fin n2 m2 e2 =>
    let e := min e1 e2
    let x := sInt n1 m1 * 2 ^ (e1 - e).toNat
    let y := sInt n2 m2 * 2 ^ (e2 - e).toNat
    if x = 0 ∧ y = 0 then n1 && !n2 else decide (x < y)
  | _, _ => false

/-- minimumNumber, and maximumNumber when `big`. -/
def fvMinMax (big : Bool) (a b : FV) : FV × Nat :=
  let nv := nvOf a ||| nvOf b
  if fvNan a then (if fvNan b then .nan false else b, nv)
  else if fvNan b then (a, nv)
  else if big then (if fvLt a b then b else a, nv)
  else (if fvLt b a then b else a, nv)

/-- An exact value rounded to an integer and saturated to [lo, hi] (R129): NaN gives 0 and NV, saturation OF. -/
def fvToInt (rnd : Nat) (lo hi : Int) (v : FV) : Int × Nat :=
  match v with
  | .nan _ => (0, flNV)
  | .inf n => (if n then lo else hi, flOF)
  | .fin n m e =>
    let r := roundAt rnd n m e 0
    let x := sInt n r.1
    let y := clampInt lo hi x
    (y, if y = x then (if r.2 then flNX else 0) else flOF)

/-! ### The format codes (R126) -/

/-- The element format of a floating format code. -/
def fmtOf (c : Nat) : Option Fmt :=
  match c with
  | 0 => some fp32 | 1 => some fp64 | 2 => some bf16 | 3 => some fp16 | 4 => some e4m3 | 5 => some e5m2
  | 6 => some e4m3 | 7 => some e5m2 | 8 => some e2m3 | 9 => some e3m2 | 10 => some e2m1
  | _ => none

/-- The format is a block format: MX or BLK. -/
def isBlock (c : Nat) : Bool := (decide (6 ≤ c) && decide (c ≤ 10)) || c == 13 || c == 14

/-- Bits of an element of the format. -/
def elemBits (c : Nat) : Nat :=
  match c with
  | 0 => 32 | 1 => 64 | 2 => 16 | 3 => 16 | 8 => 6 | 9 => 6 | 10 => 4 | 12 => 32 | 13 => 4
  | _ => 8

/-- The value of an element pattern, without its block scale. -/
def elemVal (c b : Nat) : FV :=
  match fmtOf c with
  | some f => f.decode b
  | none => fvInt (bitsInt (elemBits c) b) 0

/-- A value times 2^k. -/
def fvScale (k : Int) : FV → FV
  | .fin n m e => .fin n m (e + k)
  | v => v

/-- A block element's value: times its E8M0 scale, NaN under scale 0xFF (R127). -/
def blockVal (c b scale : Nat) : FV :=
  if scale = 255 then .nan false else fvScale ((scale : Int) - 127) (elemVal c b)

/-- The largest exponent of an element format (R130). -/
def blockEmax (c : Nat) : Int :=
  match c with
  | 6 => 8 | 7 => 15 | 8 => 2 | 9 => 4 | 10 => 2 | 13 => 2 | _ => 6

/-- floor(log2 |v|) of a finite value that is not 0. -/
def fvLog2 : FV → Int
  | .fin _ m e => e + (bitLen m : Int) - 1
  | _ => 0

/-- An element of a block conversion: divided by 2^X, rounded, and clamped to the largest magnitude whatever SAT says;
a clamp sets NX (R130). -/
def blockElem (c rnd : Nat) (x : Int) (v : FV) : Nat × Nat :=
  let w := fvScale (-x) v
  match fmtOf c with
  | some f => let r := f.encode rnd true w; (r.1, if r.2 &&& flOF != 0 then flNX else r.2)
  | none =>
    let b := elemBits c
    let r := fvToInt rnd (-(2 ^ (b - 1) : Int)) (2 ^ (b - 1) - 1) w
    (intBits b r.1, if r.2 &&& flOF != 0 then flNX else r.2)

/-- A block of values in a block format: its element patterns, its scale byte, its flags (R130). (DEDUCED, log 19) -/
def blockConv (c rnd : Nat) (vs : List FV) : List Nat × Nat × Nat :=
  let bad := vs.any (fun v => match v with | .fin _ _ _ => false | _ => true)
  let nv := vs.foldl (fun a v => a ||| nvOf v) 0
  if bad then (vs.map (fun _ => 0), 255, nv ||| flNV)
  else
    let top := vs.foldl (fun (a : Option Int) v =>
      if fvZero v then a else match a with | none => some (fvLog2 v) | some x => some (max x (fvLog2 v))) none
    let x := match top with | none => -127 | some l => clampInt (-127) 127 (l - blockEmax c)
    let es := vs.map (blockElem c rnd x)
    (es.map (·.1), (x + 127).toNat, es.foldl (fun a e => a ||| e.2) 0)

/-- A value converted to a format without block scale: pattern and flags (R129). -/
def convElem (c rnd : Nat) (sat : Bool) (v : FV) : Nat × Nat :=
  match fmtOf c with
  | some f => f.encode rnd sat v
  | none =>
    let b := elemBits c
    let r := fvToInt rnd (-(2 ^ (b - 1) : Int)) (2 ^ (b - 1) - 1) v
    (intBits b r.1, r.2)

/-- The bytes of element patterns, packed least significant first (R127). -/
def packElems (bits : Nat) (es : List Nat) : List Nat :=
  if bits = 8 then es
  else if 8 < bits then es.flatMap (fun e => (List.range (bits / 8)).map (fun i => e / 2 ^ (8 * i) % 256))
  else
    let n := es.foldr (fun e acc => e + acc * 2 ^ bits) 0
    (List.range ((es.length * bits + 7) / 8)).map (fun i => n / 2 ^ (8 * i) % 256)

/-- Element `i` of packed bytes, given a reader of byte `k`. -/
def elemAt (bits : Nat) (rd : Nat → Nat) (i : Nat) : Nat :=
  let lo := i * bits
  let first := lo / 8
  let n := (lo + bits + 7) / 8 - first
  (List.range n).foldr (fun k acc => rd (first + k) + 256 * acc) 0 / 2 ^ (lo % 8) % 2 ^ bits

/-- FP32 addition of two patterns, with flags. -/
def fp32Add (rnd a b : Nat) : Nat × Nat :=
  let r := fvAdd rnd (fp32.decode a) (fp32.decode b)
  let x := fp32.encode rnd false r.1
  (x.1, x.2 ||| r.2)

/-- Addition, maximum or minimum of two element patterns by the reduce codes of R158 (1 ADD, 2 MAX, 3 MIN) on FP32 (0),
BF16 (1) or INT32 (2): the result and whether an INT32 sum saturated. -/
def reduceElem (fmt red a b : Nat) : Nat × Bool :=
  if fmt = 2 then
    let x := bitsInt 32 a
    let y := bitsInt 32 b
    let r := if red = 1 then x + y else if red = 2 then max x y else min x y
    let z := clampInt (-(2 ^ 31)) (2 ^ 31 - 1) r
    (intBits 32 z, z != r)
  else
    let f := if fmt = 0 then fp32 else bf16
    if red = 1 then ((f.encode 0 false (fvAdd 0 (f.decode a) (f.decode b)).1).1, false)
    else ((f.encode 0 false (fvMinMax (red == 2) (f.decode a) (f.decode b)).1).1, false)

end Sys2Proof.Machine
end

