-- ==== Sys2Proof/Machine/FixMath.lean ====
section
/-! DEFINITION. The functions that R95, R118 and R189 bound by an error only: a close value in fixed point, and a free
value within the bound around it. -/

namespace Sys2Proof.Machine

/-- Fraction bits of the fixed-point values here. -/
def fxP : Nat := 160

def fxOne : Int := 2 ^ 160

/-- Product and quotient in fixed point. -/
def fxMul (a b : Int) : Int := a * b / 2 ^ fxP

def fxDiv (a b : Int) : Int := a * 2 ^ fxP / b

/-- Terms t, t·g(0), ... of a series added up, `fuel` of them: the next term is the last times `x` over `d k`. -/
def fxSeries (x : Int) (d : Nat → Int) : Nat → Nat → Int → Int → Int
  | 0, _, _, acc => acc
  | fuel + 1, k, t, acc => fxSeries x d fuel (k + 1) (fxMul t x / d k) (acc + t)

/-- e^r for |r| ≤ 1. (DESIGN CHOICE, log 21) -/
def fxExp (r : Int) : Int := fxSeries r (fun k => (k : Int) + 1) 60 0 fxOne 0

/-- Sum of y^(2k+1) / (2k+1), k below `fuel`: the inverse hyperbolic tangent; `q` is y² , or -y² for the inverse tangent. -/
def fxAtan (q : Int) : Nat → Nat → Int → Int → Int
  | 0, _, _, acc => acc
  | fuel + 1, k, p, acc => fxAtan q fuel (k + 1) (fxMul p q) (acc + p / (2 * (k : Int) + 1))

/-- ln 2 = 2 artanh(1/3). -/
def fxLn2 : Int := 2 * fxAtan (fxOne / 9) 60 0 (fxOne / 3) 0

/-- π = 16 arctan(1/5) − 4 arctan(1/239). -/
def fxPi : Int :=
  16 * fxAtan (-(fxOne / 25)) 80 0 (fxOne / 5) 0 - 4 * fxAtan (-(fxOne / 57121)) 30 0 (fxOne / 239) 0

/-- A finite value in fixed point, rounded down. -/
def fxOf (v : Int) (e : Int) : Int :=
  let k := e + (fxP : Int)
  if 0 ≤ k then v * 2 ^ k.toNat else v / 2 ^ (-k).toNat

/-- A fixed-point value times 2^k. -/
def fvFx (v : Int) (k : Int) : FV := fvInt v (k - (fxP : Int))

/-- e^x for a fixed-point x, as a value. -/
def fvExpFx (x : Int) : FV :=
  let k := x / fxLn2
  fvFx (fxExp (x - k * fxLn2)) k

/-- ln of m × 2^e, m not 0, in fixed point. (DESIGN CHOICE, log 21) -/
def fxLog (m : Nat) (e : Int) : Int :=
  let n : Int := (bitLen m : Int) - 1
  let f := fxOf (m : Int) (-n)
  let y := fxDiv (f - fxOne) (f + fxOne)
  (e + n) * fxLn2 + 2 * fxAtan (fxMul y y) 80 0 y 0

/-- sin and cos of a fixed-point angle of at most π in magnitude. -/
def fxSin (r : Int) : Int := fxSeries (-(fxMul r r)) (fun k => (2 * (k : Int) + 2) * (2 * (k : Int) + 3)) 50 0 r 0

def fxCos (r : Int) : Int := fxSeries (-(fxMul r r)) (fun k => (2 * (k : Int) + 1) * (2 * (k : Int) + 2)) 50 0 fxOne 0

/-- An angle reduced into [-π, π). -/
def fxReduce (x : Int) : Int :=
  let t := 2 * fxPi
  (x + fxPi) % t - fxPi

/-- Two finite values differ by at most n × 2^k. -/
def fvWithin (a b : FV) (n : Nat) (k : Int) : Bool :=
  match (fvAdd 0 a (fvNeg b)).1 with
  | .fin _ m e =>
    let z := min e k
    decide (m * 2 ^ (e - z).toNat ≤ n * 2 ^ (k - z).toNat)
  | _ => false

/-- The exponent of an FP32 unit in the last place of a finite value. -/
def ulpExp (v : FV) : Int :=
  match v with
  | .fin _ m e => max (e + (bitLen m : Int) - 24) (-149)
  | _ => 0

/-- The FP32 pattern for the value `v`: a free one when it lies within `ulps` units in the last place of `v`, else the
nearest; with the flags of rounding `v` (R95). The spec does not say whether the bound counts from the exact or from the
rounded value: it counts from the exact one here. (DESIGN CHOICE, log 21) -/
def nearPat (free ulps : Nat) (v : FV) : Nat × Nat :=
  let c := fp32.encode 0 false v
  let w := free % 2 ^ 32
  if w != c.1 && fvWithin (fp32.decode w) v ulps (ulpExp v) then (w, c.2 ||| flNX) else c

/-- `nearPat` as a value. A value beyond FP32 is passed on, for the one rounding to FMT_OUT to overflow by RND and SAT
(R118, R129). -/
def nearVal (free ulps : Nat) (v : FV) : FV × Nat :=
  let r := nearPat free ulps v
  if (fp32.encode 0 false v).2 &&& flOF != 0 then (v, flNX) else (fp32.decode r.1, r.2)

/-- A value just below ± m × 2^e in magnitude. -/
def fvBelow (neg : Bool) (m : Nat) (e : Int) : FV := .fin neg (m * 2 ^ 60 - 1) (e - 60)

/-- A free pattern within 2^-20 of the fixed-point value `x`, else the nearest pattern (R95). (DESIGN CHOICE, log 21) -/
def nearAbs (free : Nat) (x : Int) : FV × Nat :=
  let v := fvFx x 0
  let c := fp32.encode 0 false v
  let w := fp32.decode (free % 2 ^ 32)
  (if fvWithin w v 1 (-20) then w else fp32.decode c.1, c.2)

/-- sin, or cos, of a finite value (R95): within 2 ULP up to 2^15 × π, and 2^-20 beyond. (DESIGN CHOICE, log 21) -/
def trigFree (free : Nat) (cos neg : Bool) (m : Nat) (e : Int) : FV × Nat :=
  let v := sInt neg m
  let x := if 0 ≤ e then v * 2 ^ e.toNat * fxOne else fxOf v e
  let r := fxReduce x
  let y := if cos then fxCos r else fxSin r
  if x.natAbs ≤ (fxPi * 2 ^ 15).natAbs then
    nearVal free 2 (if !cos && decide (x.natAbs < 2 ^ 120) then fvBelow neg m e else fvFx y 0)
  else nearAbs free y

/-- 1 / (1 + e^-z) for a fixed-point z of at most 800 in magnitude, as a value to `fxP` bits. -/
def fvSigma (z : Int) : FV :=
  if 0 ≤ z then
    match fvExpFx (-z) with
    | .fin _ m e => fvFx (fxDiv fxOne (fxOne + fxOf (m : Int) e)) 0
    | v => v
  else
    match fvExpFx z with
    | .fin _ m e => (fvDiv fxP (.fin false m e) (fvFx (fxOne + fxOf (m : Int) e) 0)).1
    | v => v

/-- A finite value in fixed point, clamped to ±800. -/
def fxClamp (neg : Bool) (m : Nat) (e : Int) : Int :=
  if 11 ≤ e + (bitLen m : Int) then (if neg then -(800 * fxOne) else 800 * fxOne)
  else clampInt (-(800 * fxOne)) (800 * fxOne) (fxOf (sInt neg m) e)

/-- The transcendental and composite functions by their FUNC codes (R95, R118): the FP32 result as a value, with NV and DZ
of special operands, NX of an inexact result and the UF of its rounding (R131). Special operands follow IEEE 754-2019.
(DESIGN CHOICE, log 21) -/
def transcend (free func : Nat) (a : FV) : FV × Nat :=
  let near := fun (b : Nat) (v : FV) =>
    let r := nearVal free b v
    (r.1, r.2 ||| flNX)
  match a with
  | .nan g => (.nan false, if g then flNV else 0)
  | .inf n =>
    match func with
    | 0x0B => (if n then .fin false 0 0 else .inf false, 0)
    | 0x0C => if n then (.nan false, flNV) else (.inf false, 0)
    | 0x0D => if n then (.nan false, flNV) else (.fin false 0 0, 0)
    | 0x10 => (.fin n 1 0, 0)
    | 0x11 => (if n then .fin false 0 0 else .fin false 1 0, 0)
    | 0x13 => (if n then .fin true 0 0 else .inf false, 0)
    | 0x14 => (if n then .fin true 0 0 else .inf false, 0)
    | _ => (.nan false, flNV)
  | .fin n m e =>
    match func with
    | 0x0B => if m = 0 then (.fin false 1 0, 0) else near 2 (fvExpFx (fxClamp n m e))
    | 0x0C =>
      if m = 0 then (.inf true, flDZ)
      else if n then (.nan false, flNV)
      else
        let y := fxLog m e
        if m * 2 ^ e.toNat = 2 ^ (-e).toNat then (.fin false 0 0, 0) else near 2 (fvFx y 0)
    | 0x0D =>
      if m = 0 then (.inf n, flDZ)
      else if n then (.nan false, flNV)
      else
        let q := (fvSqrt 80 a).1
        nearVal free 1 (fvDiv 80 (.fin false 1 0) q).1
    | 0x0E => if m = 0 then (a, 0) else trigFree free false n m e
    | 0x0F => if m = 0 then (.fin false 1 0, 0) else trigFree free true n m e
    | 0x10 =>
      if m = 0 then (a, 0)
      else if e + (bitLen m : Int) ≤ -40 then near 2 (fvBelow n m e)
      else
        let z := fxClamp false m (e + 1)
        match fvExpFx z with
        | .fin _ p k =>
          let t := fxDiv fxOne (fxOne + fxOf (p : Int) k)
          near 2 (fvFx ((if n then -1 else 1) * (fxOne - 2 * t)) 0)
        | _ => near 2 (.fin n 1 0)
    | 0x11 => near 2 (fvSigma (fxClamp n m e))
    | 0x13 =>
      if m = 0 then (a, 0)
      else
        let x3 := (fvMul (fvMul a a).1 a).1
        let in3 := (fvAdd 0 a (fvMul x3 (fvFx (fxDiv 44715 1000000) 0)).1).1
        match (fvMul in3 (fvFx (fxDiv 15957691216 10000000000) 0)).1 with
        | .fin zn zm ze => near 4 (fvMul a (fvSigma (fxClamp zn zm ze))).1
        | v => (v, 0)
    | _ => if m = 0 then (a, 0) else near 4 (fvMul a (fvSigma (fxClamp n m e))).1

/-- The NORMAL distribution's output (R189): u1 and u2 in 2^-24, the even or odd member of the pair, a free pattern.
(DESIGN CHOICE, log 21; DESIGN CHOICE, log 30) -/
def normalOut (free u1 u2 : Nat) (odd : Bool) : Nat :=
  let l := -2 * fxLog u1 (-24)
  let r := isqrt (l.toNat * 2 ^ fxP)
  let ang := fxReduce (2 * fxPi * (u2 : Int) / 2 ^ 24)
  let y := fxMul (r : Int) (if odd then fxSin ang else fxCos ang)
  (nearPat free 4 (fvFx y 0)).1

end Sys2Proof.Machine
end

