-- ==== Sys2Proof/Machine/State.lean ====
section
/-! DEFINITION. The state of the module as plain data: the register file, memory, the internal state of every
unit that the spec gives the machine, the queue of waiting commands, and the two reason types. A table that lists
only some keys (`Sparse`) says beside it what an unlisted key reads as. -/

namespace Sys2Proof.Machine

/-- Why a step stops. No command of this hardware ends in a fault: the spec gives each its effect. -/
inductive Fault where
  /-- Never raised by this model (safe: it would stop the run). -/
  | none
  deriving DecidableEq, Repr

/-- Why a command is not run. -/
inductive Refusal where
  /-- Raised by `exec` for a command that has no meaning yet (safe: it stops the run). -/
  | notModelled (mnemonic : String)
  deriving DecidableEq, Repr

/-! ### Phase unit (R32-R61) -/

/-- A firing that has fallen due: its entry, the action word the entry then held, and whether it belongs to a step
that has ended (R567). -/
structure Firing where
  entry : Nat
  act : Word
  ended : Bool
  deriving DecidableEq, Repr

/-- A frond's copy of the phase (R55): phase accumulator, step number, lock state, PROF_VALID, validity, the increment per
tick of the last good broadcast (R56), and how many restarts had not raised the step number by one. -/
structure FrondCopy where
  acc : Nat
  step : Nat
  lock : Nat
  profValid : Bool
  valid : Bool
  inc : Nat
  odd : Nat
  deriving DecidableEq, Repr

/-- A measured step: for each bin of the load profile the sum of the sampled IB load (0.25 W) and the ticks it was
sampled over (R51). -/
abbrev BinSums := Sparse (Nat × Nat)

/-- The phase unit beyond its registers (R32-R60). -/
structure PhaseUnit where
  /-- The 64-bit phase accumulator (R32). -/
  acc : Nat
  /-- The step number (R32). -/
  step : Nat
  /-- PHASE_TIME in ticks (R33). -/
  time : Nat
  /-- PHASE_TIME and accumulator at the present step's start. -/
  startTime : Nat
  startAcc : Nat
  /-- The present step was started by an accepted mark (R37), and the state has been LOCKED since it (R52). -/
  byMark : Bool
  lockedAll : Bool
  /-- The present step was begun by an autonomous wrap (R40). -/
  byWrap : Bool
  /-- Since the step start, newest first: the instants from which the accumulator has had another increment per tick, as
  (PHASE_TIME, accumulator, increment) (R566). -/
  trace : List (Nat × Nat × Nat)
  /-- Restarts after which the step number was not the number before plus one (R40, R43). -/
  odd : Nat
  /-- The state was LOCKED through the step that an autonomous wrap ended last. -/
  lockedPrev : Bool
  /-- The active event table: key 2n is entry n's angle word, 2n + 1 its action word; unlisted reads 0 (R49). -/
  evt : Sparse Word
  /-- The active segments; unlisted reads 0. -/
  seg : Sparse Word
  /-- Entries whose angle the present step has passed (bit n). -/
  passed : Nat
  /-- Firings that wait, first out first (R567). -/
  queue : List Firing
  /-- Compensated time of the last accepted mark (R566). -/
  lastMark : Option Nat
  /-- Time of the last mark of each source code; unlisted has delivered none. -/
  srcMarks : Sparse (Option Nat)
  /-- The last measured mark-to-mark period (R35). -/
  lastPeriod : Option Nat
  /-- The periods of the present run, newest first (R38). -/
  run : List Nat
  /-- Consecutive steps whose period lay outside 2 % of the estimate (R39). -/
  offPeriods : Nat
  /-- Autonomous wraps in ACQUIRE since the last accepted mark (R35). -/
  wraps : Nat
  /-- 0: no off-window mark; 1: one in this step; 2: one in the previous step (R41). -/
  offWin : Nat
  /-- A written step number waits for a step start (R43). -/
  pendStep : Option Nat
  /-- The preferred point of the last OP_PREF action (R50). -/
  opPref : Option Nat
  /-- Bin sums of the present step, and of the step an autonomous wrap ended. -/
  meas : BinSums
  measPrev : BinSums
  /-- The bins that the last completed step traversed (R432). -/
  lastBins : List Nat
  /-- The fronds' copies. -/
  copyA : FrondCopy
  copyB : FrondCopy
  /-- STEP_OUT is driven high (R59). -/
  stepOut : Bool
  /-- Open windows (R47): refresh by stack, calibration by frond, test by kind. -/
  refreshOpen : Nat
  calOpen : Nat
  testOpen : Nat
  deriving DecidableEq, Repr

/-! ### Tiles (R62-R133) -/

/-- An op word in a unit's queue: the word, the addresses that its three AOPs gave at issue, the S registers it reads as
they stood then, its PC, the energy tag, and its number in the order of issue. -/
structure TileQ where
  word : Nat
  a0 : Nat
  a1 : Nat
  a2 : Nat
  r0 : Nat
  r1 : Nat
  r2 : Nat
  pc : Nat
  tag : Nat
  num : Nat
  deriving DecidableEq, Repr

/-- An op that has started and not retired: its queue, the bytes it writes at retire as (tile-local address, byte), and
the S register it sets with the value. -/
structure TileFly where
  queue : Nat
  op : TileQ
  writes : List (Nat × Nat)
  stat : Option (Nat × Nat)
  deriving DecidableEq, Repr

/-- An accumulator entry: NaN, or M × 2^E (R70, R74). -/
structure AccEntry where
  nan : Bool
  m : Int
  e : Int
  deriving DecidableEq, Repr

/-- A hardware loop: runs left, and the offsets of its first op word and of the word after its body (R120). -/
structure TileLoop where
  left : Nat
  start : Nat
  stop : Nat
  deriving DecidableEq, Repr

/-- One physical tile beyond its registers. Tile counters live in TCNT_n, the sequencer's PC and state in TSEQ_STATUS. -/
structure TileUnit where
  /-- S0-S31 and A0-A15; unlisted is 0. -/
  sregs : Sparse Nat
  aregs : Sparse Nat
  /-- The loop stack, innermost first. -/
  loops : List TileLoop
  /-- Queues: 0 array evaluation, 1-4 array load of slots 0-3, 5 DMU multiply, 6 DMU store, 7 vector, 8 local mover. -/
  queues : Sparse (List TileQ)
  fly : List TileFly
  /-- A reset has stopped the sequencer, which returns to IDLE once its started ops have ended (R113). -/
  stopping : Bool
  /-- A PWAIT: its angle, the step number at issue, and whether the phase had passed the angle then. -/
  pwait : Option (Nat × Nat × Bool)
  /-- Accumulator entries: key slot × 32,768 + entry × 128 + column. -/
  acc : Sparse AccEntry
  /-- Bank bytes: key (array × 2 + bank) × 65,664 + offset in the image of R180; valid banks by bit array × 2 + bank. -/
  bank : Sparse Nat
  bankValid : Nat
  /-- DMU accumulators: key n × 4,096 + row × 64 + column, as FP32 or INT32 patterns; bit n of `daccInt` for INT32. -/
  dacc : Sparse Nat
  daccInt : Nat
  /-- The number of each array's last calibration, which names its coefficients (R73, R82); unlisted is uncalibrated. -/
  calNo : Sparse Nat
  /-- PHASE_TIME of each array's last calibration. -/
  calAt : Sparse Nat
  /-- Consecutive failed calibrations by array (R91). -/
  calFails : Sparse Nat
  /-- A rotation trigger is held (R86), and the spare repeats only its verification pass (R88). -/
  trigger : Bool
  verifyOnly : Bool
  /-- A self-test is wanted before the next COPY; slots left to test in a tile without a spare (R90). -/
  bist : Bool
  bistSlots : List Nat
  /-- The sensor of these arrays reads out of range (R102). -/
  sensorBad : Nat
  /-- The protection domain of the tile's last partition (R139). -/
  lastDom : Option Nat
  /-- A full calibration of this tile runs: for a spare before READY (R99) or after an unfence (R100). -/
  recal : Bool
  /-- The slot that an in-place calibration holds (R89). -/
  ipSlot : Option Nat
  /-- The WT of the SEQ or MARK op at PC has been taken (R107). -/
  wtTaken : Bool
  deriving DecidableEq, Repr

/-! ### HBM (R140-R165) -/

/-- An entry of a frond's retirement table (R150, R152): SRC, the page (frond-relative address [38:12]) and the pool page;
`current` once the copy is complete and the page redirected. -/
structure Retired where
  src : Nat
  page : Nat
  target : Nat
  current : Bool
  deriving DecidableEq, Repr

/-- The HBM controllers of a frond beyond their registers. -/
structure HbmFrond where
  /-- The retirement table, entry 0 first. -/
  table : List Retired
  /-- Refresh credit per pseudo-channel 0-127 (R156), and intervals since its window opened (R157). -/
  credit : Sparse Int
  openFor : Sparse Nat
  /-- PHASE_TIME of the correctable errors of each page (R149), and of the DEs of each pseudo-channel (R154). -/
  ceAt : Sparse (List Nat)
  deAt : Sparse (List Nat)
  /-- Blocks of relocated granules written since the last map build (R155). -/
  relocWritten : Sparse Bool
  /-- Extents of frond-relative addresses returned from a memory test since then, zeroed and valid (R163). -/
  relocZeroed : List (Nat × Nat)
  /-- Consecutive failures of the bridge's present flit (R144). -/
  bridgeFails : Nat
  deriving DecidableEq, Repr

/-! ### Engines (R167-R198) -/

/-- A descriptor: its eight words, the context and generation, the HEAD value of its item. -/
structure Desc where
  words : List Nat
  ctx : Nat
  gen : Nat
  item : Nat
  deriving DecidableEq, Repr

/-- A READ of a running descriptor to another module (R252): global address and bytes, its tracker entry while the response
is out, then the response's data and POISON_MAP. -/
structure EngRead where
  addr : Nat
  len : Nat
  trk : Option Nat
  data : List Nat
  poison : Nat
  deriving DecidableEq, Repr

/-- One engine beyond its registers: the queue, the running descriptor, its code once every write is made, and its remote
reads that it has not used yet. -/
structure EngUnit where
  queue : List Desc
  running : Option Desc
  done : Option Nat
  reads : List EngRead
  deriving DecidableEq, Repr

/-- The engines' shared state. -/
structure RingUnit where
  /-- Engines: key frond × 64 + instance. -/
  engines : Sparse EngUnit
  /-- Crypto key slots: key frond × 32 + slot, the 256-bit key plus 1, 0 for an empty slot, and its domain (R191). -/
  keys : Sparse (Nat × Nat)
  /-- LM_SIZE in effect per control core: key frond × 8 + core (R196). -/
  lmSize : Sparse Nat
  deriving DecidableEq, Repr

/-! ### Contexts, partitions and domains (R199-R235) -/

/-- An item that has left the head and is not complete: its number (HEAD value), its words, and for a LAUNCH the
physical tiles that still run, for an ENGINE item none. -/
structure Outstanding where
  num : Nat
  words : List Nat
  tiles : List Nat
  deriving DecidableEq, Repr

/-- What blocks the head item: WAIT_KIND, since when, and for a PHASE_WAIT the step of the frond copy in which it
reached the head and whether the phase had passed the angle then. -/
structure HeadWait where
  kind : Nat
  since : Nat
  step : Nat
  past : Bool
  deriving DecidableEq, Repr

/-- One context (R199). -/
structure Ctx where
  alloc : Bool
  faulted : Bool
  stopped : Bool
  resetting : Bool
  part : Nat
  prio : Nat
  weight : Nat
  ringBase : Nat
  ringLog : Nat
  head : Nat
  tail : Nat
  gen : Nat
  /-- CTX_FAULT. -/
  fault : Word
  /-- Energy in pJ (R233). -/
  energy : Nat
  /-- Explicit producer registrations by slot 0-7 (R209). -/
  prods : Sparse Nat
  outstanding : List Outstanding
  wait : Option HeadWait
  /-- Epoch fences that a FENCE EPOCH waits for: the epoch that was pending at the head. -/
  epoch : Option Nat
  deriving DecidableEq, Repr

/-- The settings of a protection domain: ENABLE, and the words of each window's DOM_WIN_BASE and DOM_WIN_SIZE. -/
structure DomSet where
  enable : Bool
  base : Sparse Word
  size : Sparse Word
  deriving DecidableEq, Repr

/-- One protection domain: staged and active settings, energy in pJ (R227-R233). -/
structure Domain where
  staged : DomSet
  active : DomSet
  energy : Nat
  deriving DecidableEq, Repr

/-- An access held at its check by an epoch fence (R231): who makes it, the local address, and what it does: 0 a read of
`n` bytes, 1 a write, 2 a reduce (format, operation), 3 an engine's next access; with what a code finds on a read. -/
structure Held where
  who : Accessor
  addr : Nat
  kind : Nat
  n : Nat
  fmt : Nat
  red : Nat
  data : List Nat
  poison : Bool
  ecc : Ecc
  deriving DecidableEq, Repr

/-- The dispatcher, partitions and domains beyond their registers. -/
structure WorkUnit where
  /-- Contexts by ID; an unlisted context is FREE with generation 0. -/
  ctxs : Sparse Ctx
  /-- How far chip resets have advanced the generation of every context (R473). -/
  genBase : Nat
  /-- Domains by number. -/
  doms : Sparse Domain
  /-- Signal counters: value plus 2^32 for EXTERNAL; unlisted is 0 (R219). -/
  counters : Sparse Nat
  /-- Weighted round robin: key frond × 8 + level, the context whose turn it is and the items it has dispatched (R222). -/
  turn : Sparse (Nat × Nat)
  /-- Domains changed by the pending epoch fence, the accesses that it holds, and PHASE_TIME at its start (R231). -/
  changed : List Nat
  held : List Held
  fenceAt : Nat
  /-- RELAYs that were accepted and whose submission a fence holds, with their ports, oldest first (R231, R269). -/
  heldRelays : List (Nat × Txn)
  /-- Partitions whose build waits for a spare's calibration or an epoch fence, and since when (R224, R232). -/
  building : Sparse Nat
  /-- Descriptors that a fenced engine left, with their frond, waiting for room in another queue (R177). -/
  passed : List (Nat × Desc)
  deriving DecidableEq, Repr

/-! ### Henyr links (R236-R272) -/

/-- Who waits for a remote response or write: control core `n`, an engine, a SIGNAL item (context and number), a signal that
nothing waits for, LINK_PING, or a relayed record (session slot and TAG). -/
inductive LinkUser where
  | core (n : Nat)
  | engine (n : Nat)
  | item (ctx num : Nat)
  | signal
  | ping
  | relay (slot tag : Nat)
  deriving DecidableEq, Repr

/-- A live tracker entry (R259, R260): frond, TRK, GEN, ISSUE_US, PHASE_TIME of issue, who waits, and what was asked. -/
structure Trk where
  frond : Frond
  trk : Nat
  gen : Nat
  issue : Nat
  since : Nat
  user : LinkUser
  opc : Nat
  g : Nat
  deriving DecidableEq, Repr

/-- A write group in use (R255): frond, number, GEN, its holder, the writes without a WDONE, PHASE_TIME of the last
write or WDONE, and the opcode and global address of the last write. -/
structure WGroup where
  frond : Frond
  num : Nat
  gen : Nat
  user : LinkUser
  count : Nat
  since : Nat
  opc : Nat
  g : Nat
  deriving DecidableEq, Repr

/-- A transaction that waits at its source for a tracker entry or a write group (R255, R259): frond, who asked, the
transaction, its global address, and whether it is posted. -/
structure Stalled where
  frond : Frond
  user : LinkUser
  txn : Txn
  g : Nat
  posted : Bool
  deriving DecidableEq, Repr

/-- A transaction whose flits lie in a replay buffer (R238): SEQ of its first flit, its flits, VC, the transaction with the
AGE it left with, PHASE_TIME when it last left, and the flit count of R240 before it. -/
structure SentTxn where
  seq : Nat
  flits : Nat
  vc : Nat
  txn : Txn
  since : Nat
  count : Nat
  deriving DecidableEq, Repr

/-- One port beyond its registers: the next SEQ to send, the flits in the replay buffer and the transactions they carry,
transactions that wait for room in it with their VC and PHASE_TIME of entry, the SEQ expected and whether a NAK is out, the
last NAK's SEQ and its consecutive replays, retrains that failed in a row, a test wanted, PHASE_TIME of uncorrectable
codewords, key epoch, encryption and key (plus 1, 0 for none) in effect, flit counts of R240, and free credits by VC. -/
structure PortUnit where
  txSeq : Nat
  unacked : Nat
  sent : List SentTxn
  queue : List (Nat × Txn × Nat)
  rxSeq : Nat
  naked : Bool
  nakSeq : Nat
  replays : Nat
  fails : Nat
  test : Bool
  uncorr : List Nat
  epoch : Nat
  crypt : Bool
  key : Nat
  txCount : Nat
  rxCount : Nat
  credits : Sparse Nat
  deriving DecidableEq, Repr

/-- A collective slot beyond its registers: credits by direction (0 ascending, 1 descending), segments that wait for one,
segments that arrived before the slot ran, elements received by step (key run × 2^16 + step), and PHASE_TIME when it last
heard from a neighbour. -/
structure CollSlot where
  credits : Sparse Nat
  sendq : List Seg
  inbox : List Seg
  got : Sparse Nat
  heard : Nat
  deriving DecidableEq, Repr

/-- The link block beyond its registers. -/
structure LinkUnit where
  /-- Ports 0-23. -/
  ports : Sparse PortUnit
  /-- Live tracker entries, and the next GEN of each entry (key frond × 32,768 + TRK). -/
  live : List Trk
  gens : Sparse Nat
  /-- Write groups in use, and the next GEN of each (key frond × 256 + group). -/
  groups : List WGroup
  groupGens : Sparse Nat
  /-- The engine that last held a tracker entry or write group, with its ENG_STATUS.GEN: 0 for none, else
  1 + engine + 64 × GEN (R177). Key frond × 32,768 + TRK, or 65,536 + frond × 256 + group. -/
  owners : Sparse Nat
  /-- Requests that wait at their source, oldest first (R255, R259). -/
  stalled : List Stalled
  /-- Responses and segments that wait for an A-channel credit, oldest first, with the frond they wait on and PHASE_TIME
  since when (R248, R262). -/
  waiting : List (Frond × Txn × Nat)
  /-- The pod relay key plus 1, 0 for none; the last relay sequence accepted (R269). -/
  relayKey : Nat
  relaySeq : Option Nat
  /-- The next sequence that this module gives to a RELAY it sends (R269). -/
  relayTx : Nat
  /-- Collective slots, and the armed ones in the order of arming (R264). -/
  coll : Sparse CollSlot
  armed : List Nat
  /-- Ports whose LPRSNT_N pin reads high: no cable (R553). -/
  absent : Nat
  deriving DecidableEq, Repr

/-! ### Power path (R299-R334) -/

/-- One slot of the loop engine beyond its registers (R326-R330): integrator and derivative in Q8.40, the last error
in Q4.28, whether the last output lay at a limit, the set point that a cascade holds, and the PERIOD_N in effect. -/
structure LoopSlot where
  integ : Int
  deriv : Int
  ePrev : Int
  atLim : Bool
  sp : Int
  n : Nat
  deriving DecidableEq, Repr

/-- The power path beyond its registers. -/
structure PowerUnit where
  /-- PHASE_TIME at entry into RIDE_THROUGH. -/
  rtSince : Nat
  /-- Consecutive passing tests in IB fallback (R305). -/
  fbPass : Nat
  /-- Export was stopped and waits for 1 s at or below 850 V (R312). -/
  exportHeld : Bool
  /-- The load average in 0.25 W times 2^24 (R309). -/
  avg : Int
  /-- P_set in 0.25 mW (R308). -/
  pset : Int
  /-- The ramp gain k of R318, in Q1.15 times 2^48. -/
  ffK : Nat
  /-- Activity scale s in Q16.16 (R317), and (P_prof, s) held through RAMP_OUT (R318). -/
  ffScale : Nat
  ffHeld : Option (Nat × Nat)
  /-- The bin that the scale counts in and the time it began; the priced activity of the step when it began, and what the
  bin had counted of a step that ended since, pJ (R317). -/
  ffBin : Nat
  ffAt : Nat
  ffPj0 : Nat
  ffCarry : Nat
  /-- Loop slots by number; an unlisted slot is at rest. -/
  slots : Sparse LoopSlot
  /-- The value each destination of R331 holds, Q4.28; unlisted is 0. -/
  dest : Sparse Int
  /-- A stop runs: 0 none, 1 drain, 2 rails stopping (R325). -/
  stopPhase : Nat
  /-- IB load energy of the present step and of the present attribution interval, nJ (R319, R379). -/
  eStep : Int
  eInt : Int
  /-- PHASE_TIME at the start of the present attribution interval. -/
  intSince : Nat
  /-- GR_DEV in 0.25 µJ (R314). -/
  grDev : Nat
  /-- HVIL_A and HVIL_B read closed (R551). -/
  hvilA : Bool
  hvilB : Bool
  /-- The draw target of a CLAMP rest window, 0.25 W (R432). -/
  restTarget : Option Int
  deriving DecidableEq, Repr

/-! ### Rails (R335-R362) -/

/-- One compensator of a rail (R343). -/
structure CompState where
  integ : Int
  deriv : Int
  ePrev : Int
  out : Int
  atLim : Bool
  deriving DecidableEq, Repr

/-- Sums over a telemetry interval: samples, and the sums of V, I, P and T (R359). -/
structure TelSum where
  n : Nat
  v : Int
  i : Int
  p : Int
  t : Int
  deriving DecidableEq, Repr

/-- One rail beyond its registers. -/
structure RailUnit where
  /-- The command that waits for the next PWM boundary: the last one written, as (target, slew) (R339). -/
  cmd : Option (Nat × Nat)
  /-- The command held while STARTING (R342). -/
  held : Option (Nat × Nat)
  /-- The reference in 0.1 mV, the target it moves to, and the step per boundary (R338). -/
  ref : Nat
  goal : Nat
  step : Nat
  /-- A command awaits completion, and the boundaries the output has settled for (R341). -/
  busy : Bool
  settle : Nat
  comp0 : CompState
  comp1 : CompState
  /-- The phase being shed (R347, R350). -/
  shed : Option Nat
  /-- PHASE_TIME at which the last shed started, and at which it ended, with its phase. -/
  shedStart : Option Nat
  shedEnd : Option (Nat × Nat)
  /-- Phases being added and the PWM periods left before they carry their full share (R347). -/
  adding : List (Nat × Nat)
  /-- ON phases, the longest ON last (R347). -/
  onOrder : List Nat
  /-- Braking is armed (R351). -/
  armed : Bool
  /-- The phase under current-sense check and its reading before, 0.01 A (R355). -/
  test : Option (Nat × Int)
  /-- Consecutive failed checks, peak-limited cycles and balance loops at a trim limit, by phase. -/
  fails : Sparse Nat
  peaks : Sparse Nat
  limits : Sparse Nat
  /-- Rail voltage (0.5 mV) and current (0.1 A) at the last boundary. -/
  lastV : Nat
  lastI : Int
  /-- PWM periods since the ramp of a start or stop began (R357, R358), and the reference it began from. -/
  rampN : Nat
  rampFrom : Nat
  /-- Output energy below 1 µJ, in 1/20,000 µJ (R359). -/
  energyFrac : Nat
  tel1 : TelSum
  tel100 : TelSum
  /-- RAIL_PEAK holds a sample since PEAK_CLR or the start of the DETAIL period (R359). -/
  peakOn : Bool
  deriving DecidableEq, Repr

/-- The rail sequencer and the last-fault record beyond their registers (R357-R360). -/
structure RailSys where
  /-- A start or a stop of the stages is under way: 0 neither, 1 start, 2 stop. -/
  seq : Nat
  /-- The four words of the last-fault record in flash, and whether the SRAM record is newer (R360). -/
  lfFlash : List Word
  lfDirty : Bool
  /-- PHASE_TIME of the last rail fault (R359). -/
  faultAt : Option Nat
  deriving DecidableEq, Repr

/-! ### Budget and attribution (R363-R383) -/

/-- Counted activity that awaits reconciliation: the context and its generation, the domain, the class of R378, and
the count times the square of the VC voltage in 0.5 mV for a scaled class, times 1,500² for another. -/
structure Act where
  ctx : Option (Nat × Nat)
  dom : Option Nat
  cls : Nat
  w : Nat
  deriving DecidableEq, Repr

/-- Budget, arbiter and attribution beyond their registers. -/
structure BudgetUnit where
  /-- The burst bucket in 0.25 µJ, and whether PEAK_W is available (R371). -/
  bucket : Nat
  burst : Bool
  /-- FAST_HOLD per frond: the point the grant is held at or below (R370). -/
  holdA : Option Nat
  holdB : Option Nat
  /-- The grant is held at the clock's point after GRANT_TIMEOUT, per frond (R365). -/
  stuckA : Bool
  stuckB : Bool
  /-- The budget limit per frond: the point and its reason code (R375). -/
  limA : Nat × Nat
  limB : Nat × Nat
  /-- Fast-throttle level per rail (key 0-11) and of the module limit (key 12); unlisted is 0 (R369). -/
  fast : Sparse Nat
  /-- Allocator levels: LINK, MEM_A, MEM_B, COMP_A, COMP_B (keys 0-4; R374). -/
  alloc : Sparse Nat
  /-- Class held at its deepest throttle by TEMP_MAX: bits 0-1 compute of A and B, 2-3 memory of A and B (R377). -/
  tempMax : Nat
  /-- Activity since the last reconciliation (R379), and of the present step by class (R319). -/
  acts : List Act
  actStep : Sparse Nat
  /-- Steps collected by the fit, newest first: the activity by class, E_meas and BASE_W × t in nJ (R380). -/
  fitSteps : List (Sparse Nat × Int × Int)
  /-- UNATTRIBUTED in pJ (R379). -/
  unattr : Nat
  deriving DecidableEq, Repr

/-! ### Pack and chain (R384-R417) -/

/-- A sweep announced to the ring (R393): its number, source and instant in ticks. -/
structure Sweep where
  num : Nat
  source : Nat
  instant : Nat
  sampled : Bool
  deriving DecidableEq, Repr

/-- The chain master and the pack beyond their registers. -/
structure ChainUnit where
  /-- The sweep announced or being read. -/
  sweep : Option Sweep
  /-- The last sweep instant since the ring was enumerated (R395). -/
  lastInstant : Option Nat
  /-- SWEEP entries whose SAMPLE has been sent or turned away, in the present step and in the one before; firings of
  SWEEP that wait for a SAMPLE (R48, R394). -/
  swept : List Nat
  sweptPrev : List Nat
  sweepAsks : Nat
  /-- A READ is in flight. -/
  reading : Bool
  /-- Per unit, the consecutive sweeps with STALE readings (R391). -/
  stale : Sparse Nat
  /-- The BC current sampled with the last sweep, mA. -/
  bcAt : Int
  /-- Open-wire: sweeps since the last test, lines flagged in the last test, consecutive clear tests by line. -/
  owCount : Nat
  owFlagged : List Nat
  owClear : Sparse Nat
  /-- A test is wanted at the next gap (suspect line or insertion), beside OW_REQ. -/
  owWanted : Bool
  /-- Warnings that stand: bit 0 OV_WARN, 1 UV_WARN, 2 temperature (R386). -/
  warn : Nat
  /-- Bleed allowance left per cell, pC; unlisted is 0 (R402). -/
  bleed : Sparse Nat
  /-- Units that have stopped bleeding for want of BAL_SET (R400). -/
  balLapsed : List Nat
  /-- The contactors are to open, the state STATE then takes, and the cause of event 0x3003 (R398, R409-R412, R570):
  0 none given, 1 PRECHARGE, 2 HVIL, 3 limit, 4 monitoring lost, 5 released, 6 removed, 7 stop, 8 closed, 9 welded. -/
  openTo : Option Nat
  openCause : Nat
  /-- An insertion runs; and its debounce has ended or, in CHECK, its open-wire test has (R411). -/
  inserting : Bool
  debounced : Bool
  /-- The units sleep (R406). -/
  asleep : Bool
  /-- The unit under firmware update has been sent its switch (R414). -/
  fwReady : Bool
  /-- WAKE_N is asserted (R406); it keeps its level over come-up. -/
  wakeN : Bool
  deriving DecidableEq, Repr

/-! ### Estimator (R418-R442) -/

/-- A cell of the estimator: charge in pC, uncertainty as a fraction times 10^12, last OCV value as a fraction times
10^6, CONF, and when it last bled. -/
structure CellEst where
  q : Int
  u : Nat
  ocv : Nat
  conf : Bool
  bledAt : Option Nat
  deriving DecidableEq, Repr

/-- The estimator beyond its registers. -/
structure EstUnit where
  /-- Cells by number; unlisted has no estimate. -/
  cells : Sparse CellEst
  /-- Counted charge in both directions since N_EFC last rose, pC (R422). -/
  counted : Nat
  /-- Net counted charge of the present second, pC (R420). -/
  second : Int
  /-- The active OCV table: entry e's OCV at key 2e, U_OCV at 2e + 1, unlisted 0; its temperature points, none while
  the factory table in ROM is active (R423). -/
  ocv : Sparse Nat
  temps : List Int
  /-- The serial of unit 0 of the pack whose N_efc is kept (R437). -/
  serial : Word
  /-- Rest: PHASE_TIME since which current and temperatures have been still, the thermistor spans by unit since, and
  the sum and count of the shunt readings over it (R425, R427). -/
  stillSince : Option Nat
  shuntSum : Int
  shuntCount : Nat
  tMin : Sparse Int
  tMax : Sparse Int
  /-- Rest is recognised: the next complete sweep is the rest reading. -/
  atRest : Bool
  /-- PHASE_TIME of the last rest reading. -/
  lastRest : Option Nat
  /-- Windows due: 0 scheduled, 1 forced, 3 requested, 4 retry (R430-R434). -/
  due : List Nat
  /-- The next scheduled due time in seconds of the timebase in force; PHASE_TIME at which a retry, and at which a
  forced or requested window of kind `forcedKind`, falls due. -/
  sched : Option Nat
  retryAt : Option Nat
  forcedAt : Option Nat
  forcedKind : Nat
  /-- LOOP_TIME seconds at which the schedule began (first BUFFERED, or POLICY), and at which the last window ended. -/
  schedBase : Option Nat
  lastEnd : Option Nat
  /-- 0x4015 has been recorded for the deferred window. -/
  deferred : Bool
  /-- The allowance was 0 at the last update. -/
  allowZero : Bool
  /-- PHASE_TIME at entry into STANDBY, and the largest tap current since, µA (R425). -/
  standbyAt : Option Nat
  tapMax : Nat
  deriving DecidableEq, Repr

/-! ### Recovery (R461-R478) -/

/-- A recovery step that runs: 1 context, 2 engine, 3 partition, 4 chip, 5 power cycle; its target (R469), cause and
PHASE_TIME at its start. -/
structure RstStep where
  step : Nat
  target : Nat
  cause : Nat
  since : Nat
  deriving DecidableEq, Repr

/-- Reset and recovery beyond their registers. -/
structure RstUnit where
  steps : List RstStep
  /-- PHASE_TIME of the chip resets that started, newest first. -/
  chips : List Nat
  /-- Event 0x9035 of the present power-cycle request is recorded. -/
  pcTold : Bool
  deriving DecidableEq, Repr

/-! ### Collectors (R443-R453) -/

/-- The collectors and pins beyond their registers. -/
structure ColUnit where
  /-- Bits of MFS, FFS_A and FFS_B behind which a latch carried IRQ (R482). -/
  irqM : Nat
  irqA : Nat
  irqB : Nat
  /-- A FAULT_N pulse runs, and PHASE_TIME at its (re)start (R450). -/
  pulse : Bool
  pulseAt : Nat
  /-- The level of ALIVE (R451). -/
  alive : Bool
  /-- The context whose CTX_FAULT was written last (R448). -/
  lastFault : Nat
  /-- Stored data whose check bits an injection inverted, by memory address of the word or block: 1 for a CE, 2 for more;
  and the (page, bit) pairs whose inverted bits have been written (R452). -/
  inverted : Sparse Nat
  placed : List (Nat × Nat)
  deriving DecidableEq, Repr

/-! ### Hang unit (R456-R460) -/

/-- A cycle that a scan saw: its members, ascending, each with a counter it awaits within the cycle; the values of all the
counters awaited within it; PHASE_TIME of the scan that first saw it. -/
structure HangSeen where
  members : List (Nat × Nat)
  values : List (Nat × Nat)
  since : Nat
  deriving DecidableEq, Repr

/-- An orphaned wait: context, counter, its value, and PHASE_TIME of the scan that first saw it. -/
structure OrphanSeen where
  ctx : Nat
  counter : Nat
  value : Nat
  since : Nat
  deriving DecidableEq, Repr

/-- How long a context waits (R458): what it awaits, PHASE_TIME + 1 at which that wait began, HEAD, and PHASE_TIME + 1 at
which it entered WAITING with that HEAD; 0 while it does not wait. -/
structure WaitSeen where
  awaits : List Nat
  since : Nat
  head : Nat
  entered : Nat
  deriving DecidableEq, Repr

/-- The hang unit beyond its registers. -/
structure HangUnit where
  /-- How long each waiting context waits. -/
  waits : Sparse WaitSeen
  cycles : List HangSeen
  orphans : List OrphanSeen
  /-- Reported cycles by member set, and reported orphans as (context, counter), with PHASE_TIME of the report. -/
  toldCycles : List (List Nat × Nat)
  toldOrphans : List (Nat × Nat × Nat)
  /-- The context ID from which a scan continues (R460). -/
  next : Nat
  deriving DecidableEq, Repr

/-! ### Crash dump (R475, R476) -/

/-- A dump: its SEQ and its words. -/
structure Dump where
  seq : Nat
  words : List Word
  deriving DecidableEq, Repr

/-- The crash dump unit: the capture that runs, the copy in always-on SRAM, and flash slots 1-4. -/
structure DumpUnit where
  taking : Option Dump
  sram : Option Dump
  slots : Sparse (Option Dump)
  deriving DecidableEq, Repr

/-! ### Event recorder and interrupt controllers (R481-R506) -/

/-- A 32-byte record of R493 or R497: its ring index, its four words, and whether it is a primary record. -/
structure Rec where
  idx : Nat
  primary : Bool
  w0 : Word
  w1 : Word
  w2 : Word
  w3 : Word
  deriving DecidableEq, Repr

/-- The token bucket and the suppressed records of one event code (R498). -/
structure Bucket where
  /-- Tokens times 250,000,000, so that one tick at RATE per second adds RATE. -/
  level : Nat
  /-- PHASE_TIME at which `level` was last brought up to date. -/
  since : Nat
  /-- Records suppressed since the last accepted one. -/
  count : Nat
  /-- The time words (R493 W1) of the first and the last of them. -/
  first : Word
  last : Word
  deriving DecidableEq, Repr

/-- The event recorder (R493-R505). -/
structure Recorder where
  /-- The always-on SRAM ring, newest first, at most 16,384 records (R500). -/
  ring : List Rec
  /-- The flash ring, newest first, at most 262,144 records; kept over loss of power. -/
  flash : List Rec
  /-- The holding buffer of a freeze, oldest first (R501). -/
  held : List Rec
  /-- Records dropped in this freeze (P1 of 0xF002). -/
  dropped : Nat
  /-- PHASE_TIME at which the freeze began. -/
  frozenAt : Nat
  /-- Buckets by code; an unlisted code has a full bucket and nothing suppressed. -/
  buckets : Sparse Bucket
  /-- A flash write failed and is to be retried once (R500). -/
  flashRetry : Bool
  /-- The time mode in use at the last record or change: 0 operating, 1 TAI (R495). -/
  tmode : Nat
  /-- The nonce of R503 is live: not expired, not used. -/
  nonceLive : Bool
  /-- Words of the authorisation block written since PTR_RESET, newest first. -/
  authWords : List Word
  /-- More than 424 words were written. -/
  authOver : Bool
  /-- A verification runs. -/
  verifying : Bool
  /-- The scope and ring index below which the running erase removes records. -/
  erasing : Option (Nat × Nat)
  deriving DecidableEq, Repr

/-- One moderation group of an interrupt controller (R489). -/
structure ModGroup where
  /-- Events counted since the last release. -/
  count : Nat
  /-- PHASE_TIME of the first event held. -/
  since : Nat
  deriving DecidableEq, Repr

/-- One interrupt controller (R481-R491). Pending, active and filtered-line bits live in its page's PEND_SET,
ACTIVE and LINE registers. -/
structure IntCtl where
  /-- Sources pending by a software set or an edge rather than by a high level line (R484). -/
  latched : List Nat
  /-- Held sources that a moderation group has released (R489). -/
  released : List Nat
  /-- Groups by number; an unlisted group holds nothing. -/
  groups : Sparse ModGroup
  /-- Per target, the running-priority stack of (ID, PRIO), top first (R488). -/
  claims : Sparse (List (Nat × Nat))
  /-- Targets idle in WFI (R490). -/
  wfi : List Nat
  /-- Cores that took a vector: (target, vector address), newest first; what the claim handed to the core. -/
  claimed : List (Nat × Nat)
  deriving DecidableEq, Repr

/-! ### Host port and sessions (R274-R298) -/

/-- A Brynir header (R279) but for VER, which is 1, and PLEN. -/
structure BHead where
  session : Nat
  typ : Nat
  sub : Nat
  retx : Bool
  unseq : Bool
  seq : Nat
  ack : Nat
  sack : Nat
  credit : Nat
  txc : Nat
  deriving DecidableEq, Repr

/-- What the host port transmits: a Brynir frame to a host (its MAC, over UDP or not, its IPv6 address, header and payload,
and `wire`, the frame's bytes as they go out), an ICMPv6 answer (to an Echo Request or a Neighbor Solicitation), or a PFC
pause for a priority, on or off. -/
inductive HostMsg where
  | frame (mac : Nat) (udp : Bool) (ip : Nat) (h : BHead) (payload wire : List Nat)
  | icmp (echo : Bool) (data : List Nat)
  | pfc (prio : Nat) (on : Bool)
  deriving DecidableEq, Repr

/-- A sequenced frame that the host has not acknowledged: its SEQ, type, SUB and payload, the retransmissions made,
PHASE_TIME when it was last sent, and whether a SACK has had it sent again since its last timeout (R286). -/
structure TxFrame where
  seq : Nat
  typ : Nat
  sub : Nat
  payload : List Nat
  tries : Nat
  sentAt : Nat
  fast : Bool
  deriving DecidableEq, Repr

/-- A request record, or the whole of a MARK, ATTEST or CLOSE frame, that waits for its turn (R287, R289): its frame's TYPE,
W0, W1, POISON_MAP, data bytes, whether it is malformed, PHASE_TIME at its frame's arrival, and whether the frame arrived in
order and was no retransmission (R294). -/
structure HRec where
  typ : Nat
  w0 : Nat
  w1 : Nat
  map : Nat
  data : List Nat
  bad : Bool
  at_ : Nat
  inOrder : Bool
  deriving DecidableEq, Repr

/-- A live tag: the tag, and whether its record is a write or a submission (R287, R288). -/
structure LiveTag where
  tag : Nat
  isWrite : Bool
  deriving DecidableEq, Repr

/-- One Brynir session slot (R281-R288): open; STATE of HSESS_STATUS; its generation, level, domain and HKEY entry; the
host's MAC, transport and IPv6 address; the 72 bytes of its keys and salts; receive side: the next SEQ expected, frames kept out of
order by SEQ (a frame's records), the SEQs with the highest TXC accepted and those seen below it, frames not yet
acknowledged and PHASE_TIME of the first; transmit side: the next SEQ, TXC, unacknowledged frames, payloads (type, SUB)
that wait for the window; PHASE_TIME of the last authenticated frame; waiting records; live tags; HSESS_EVT and the records
missed. -/
structure Session where
  open_ : Bool
  state : Nat
  gen : Nat
  level : Level
  domain : Nat
  key : Nat
  mac : Nat
  udp : Bool
  ip : Nat
  keys : List Nat
  rxAck : Nat
  rxHeld : Sparse (List HRec)
  rxTop : Option Nat
  rxSeen : List Nat
  ackDue : Nat
  ackSince : Nat
  txSeq : Nat
  txc : Nat
  unacked : List TxFrame
  sendq : List (Nat × Nat × List Nat)
  heard : Nat
  recs : List HRec
  tags : List LiveTag
  evRanges : Nat
  evMinSev : Nat
  evMissed : Nat
  deriving DecidableEq, Repr

/-- The handshake that waits for its CONFIRM: slot, SESSION value, level, domain, HKEY entry, the host's MAC, transport
and IPv6 address, the host's public key, T2 and the shared secret, PHASE_TIME of the ACCEPT. -/
structure Shake where
  slot : Nat
  gen : Nat
  level : Level
  domain : Nat
  key : Nat
  mac : Nat
  udp : Bool
  ip : Nat
  hostKey : List Nat
  t2 : List Nat
  secret : List Nat
  since : Nat
  deriving DecidableEq, Repr

/-- The host port beyond its registers. -/
structure HostUnit where
  /-- HOST_PRSNT_N reads low (R553). -/
  present : Bool
  /-- Received frames that wait in the buffer, oldest first: priority and bytes (R276). -/
  rxq : List (Nat × Nat)
  /-- Frames that a session keeps out of order (R285), still in the buffer: session slot, SEQ, priority and bytes. -/
  rxKept : List (Nat × Nat × Nat × Nat)
  /-- Priorities for which a pause has been sent; priorities that the peer has paused. -/
  sentPause : Nat
  paused : Nat
  /-- Frames that wait for their priority or for the link, oldest first, with their priority. -/
  txq : List (Nat × HostMsg)
  /-- INITs that wait, oldest first; the handshake in progress; PHASE_TIME of the REFUSE frames of the last second (R282). -/
  queue : List InitReq
  shake : Option Shake
  refused : List Nat
  /-- Consecutive Sync intervals with an offset below 100 ns; the state that PTP reaches LOCKED from (R277). -/
  ptpGood : Nat
  /-- The ingress and the egress timestamp of the last PTP event message each way, in TAI nanoseconds (R277). -/
  ptpIn : Nat
  ptpOut : Nat
  deriving DecidableEq, Repr

/-! ### Start-up, configuration and trust (R507-R526) -/

/-- Start-up beyond SYS_BOOT: the always-on domain is up; step 5 has been repeated (R510); the runtime's boot began at
PHASE_TIME `rtSince`. -/
structure BootUnit where
  up : Bool
  retried : Bool
  rtSince : Nat
  deriving DecidableEq, Repr

/-- The configuration unit (R512-R515): the buffer by word, the stored block of each ID as words, a flash write that
runs, and the copy that each ID was loaded from, none for its ROM default. -/
structure CfgUnit where
  buf : Sparse Word
  stored : Sparse (Option (List Word))
  writing : Option (Nat × List Word)
  loaded : Sparse (Option (List Word))
  /-- The HBM rows repaired since manufacture, as E0 words (R153, R512). -/
  repaired : List Nat
  deriving DecidableEq, Repr

/-- The firmware units (R516-R525). A slot has key 2 × unit + slot. -/
structure FwUnit where
  /-- Slots that have been written, with their bytes; an unlisted slot holds what it left manufacture with. -/
  slots : Sparse (Option (List Nat))
  /-- The boot-state record: preferred slot, TRIAL and trial count by unit. -/
  prefer : Sparse Nat
  trial : Nat
  count : Sparse Nat
  /-- The slot whose image runs, plus 1, by unit; 0 while none does. -/
  running : Sparse Nat
  /-- Units of which neither slot passed at the last boot (bit by unit). -/
  dead : Nat
  /-- The unit of the staging or the handover that FW_STATUS shows. -/
  unit : Nat
  /-- The staging was opened by OPEN. -/
  opened : Bool
  /-- The port that a link microcode handover has come to (R524). -/
  port : Nat
  deriving DecidableEq, Repr

/-- The fuse commands (R519, R520): the nonce is live; words written since PTR_RESET, newest first, and whether there were
more than 428; an op runs. -/
structure FuseUnit where
  nonceLive : Bool
  words : List Word
  overrun : Bool
  running : Bool
  deriving DecidableEq, Repr

/-- The I3C target (R557): the dynamic address, and the enabled events as in ENEC. -/
structure TrayUnit where
  address : Option Nat
  events : Nat
  deriving DecidableEq, Repr

/-! ### The whole state -/

/-- What the module has put out at its boundary and nothing has taken yet. (DESIGN CHOICE, log 14; DESIGN CHOICE, log 73) -/
inductive Out where
  /-- An I3C in-band interrupt with its mandatory byte (R477). -/
  | ibi (byte : Nat)
  /-- A SAMPLE sent from both chain ports: sweep number and instant (R393). -/
  | sample (num instant : Nat)
  /-- A chain command frame by its code (R390). -/
  | chain (cmd : Nat)
  /-- The answer to an access from outside: done or an access error, poisoned, and the bytes read. -/
  | answer (ok poison : Bool) (data : List Nat)
  /-- A transaction sent through a port on a VC (R237, R253). -/
  | txn (port vc : Nat) (t : Txn)
  /-- The 256 bytes of a flit sent on a port (R236, R237). -/
  | flit (port : Nat) (bytes : List Nat)
  /-- TEST signalled to a port's peer (R245). -/
  | portTest (port : Nat)
  /-- What the host port transmits, with its 802.1Q tag if it has one (R274). -/
  | host (tag : Option Nat) (m : HostMsg)
  /-- The bytes of a Brynir frame's Ethernet frame, without FCS (R278). -/
  | eth (bytes : List Nat)
  deriving DecidableEq, Repr

/-- The state of the module. -/
structure State where
  /-- The register file: key page * 4,096 + offset; an unlisted register reads its Reset value. -/
  regs : Sparse Word
  /-- Register fields that hold one value per requester (CTX_SEL and its like): key by `selKey`; unlisted reads 0. -/
  sels : Sparse Nat
  /-- All memory: HBM, tile and stack stores, core local memories; an unlisted byte reads 0. -/
  mem : List Host.Cell
  /-- Poisoned 64-byte HBM blocks, store beats and local-memory lines by address; unlisted is clean (R137, R145). -/
  poison : Sparse Bool
  /-- Latches that have not reached their collector yet: (page, bit, injected), oldest first (R443). -/
  latches : List (Nat × Nat × Bool)
  /-- The frond pages are in a chip reset, from its step 4 until it completes (R539). -/
  frondReset : Bool
  recorder : Recorder
  ficA : IntCtl
  ficB : IntCtl
  pic : IntCtl
  phase : PhaseUnit
  power : PowerUnit
  /-- Rails by index; an unlisted rail is as `RailUnit.init`. -/
  rails : Sparse RailUnit
  railSys : RailSys
  budget : BudgetUnit
  chain : ChainUnit
  est : EstUnit
  /-- Tiles: key frond × 132 + physical tile; an unlisted tile is as `TileUnit.init`. -/
  tiles : Sparse TileUnit
  /-- HBM controllers by frond (0, 1). -/
  hbm : Sparse HbmFrond
  ring : RingUnit
  work : WorkUnit
  rst : RstUnit
  col : ColUnit
  hang : HangUnit
  dump : DumpUnit
  link : LinkUnit
  /-- Sessions by slot; an unlisted slot is closed. -/
  sessions : Sparse Session
  host : HostUnit
  boot : BootUnit
  cfg : CfgUnit
  fw : FwUnit
  fuse : FuseUnit
  tray : TrayUnit
  /-- What the module put out, newest first. -/
  outbox : List Out
  /-- The model's own: how many free values have been drawn. -/
  draws : Nat
  /-- The commands that wait, first in first out. -/
  pending : List Instr
  deriving DecidableEq, Repr

/-- A bucket that is full at the reset BURST of 32 tokens. -/
def Bucket.init : Bucket := ⟨32 * 250000000, 0, 0, 0, 0⟩

def Recorder.init : Recorder where
  ring := []
  flash := []
  held := []
  dropped := 0
  frozenAt := 0
  buckets := []
  flashRetry := false
  tmode := 0
  nonceLive := false
  authWords := []
  authOver := false
  verifying := false
  erasing := none

def IntCtl.init : IntCtl where
  latched := []
  released := []
  groups := []
  claims := []
  wfi := []
  claimed := []

/-- A copy that has received no broadcast yet is valid until 1 ms has passed (R56). (DEDUCED, log 16) -/
def FrondCopy.init : FrondCopy := ⟨0, 0, 0, false, true, 0, 0⟩

/-- State FREE, step 0, phase 0 (R60). (DESIGN CHOICE, log 15) -/
def PhaseUnit.init : PhaseUnit where
  acc := 0
  step := 0
  time := 0
  startTime := 0
  startAcc := 0
  byMark := false
  lockedAll := false
  byWrap := false
  trace := []
  odd := 0
  lockedPrev := false
  evt := []
  seg := []
  passed := 0
  queue := []
  lastMark := none
  srcMarks := []
  lastPeriod := none
  run := []
  offPeriods := 0
  wraps := 0
  offWin := 0
  pendStep := none
  opPref := none
  meas := []
  measPrev := []
  lastBins := []
  copyA := FrondCopy.init
  copyB := FrondCopy.init
  stepOut := false
  refreshOpen := 0
  calOpen := 0
  testOpen := 0

def LoopSlot.init : LoopSlot := ⟨0, 0, 0, false, 0, 4⟩

/-- (DESIGN CHOICE, log 15) -/
def PowerUnit.init : PowerUnit where
  rtSince := 0
  fbPass := 0
  exportHeld := false
  avg := 0
  pset := 0
  ffK := 0
  ffScale := 65536
  ffHeld := none
  ffBin := 0
  ffAt := 0
  ffPj0 := 0
  ffCarry := 0
  slots := []
  dest := []
  stopPhase := 0
  eStep := 0
  eInt := 0
  intSince := 0
  grDev := 0
  hvilA := false
  hvilB := false
  restTarget := none

def CompState.init : CompState := ⟨0, 0, 0, 0, false⟩

def TelSum.init : TelSum := ⟨0, 0, 0, 0, 0⟩

/-- (DESIGN CHOICE, log 15) -/
def RailUnit.init : RailUnit where
  cmd := none
  held := none
  ref := 0
  goal := 0
  step := 1
  busy := false
  settle := 0
  comp0 := CompState.init
  comp1 := CompState.init
  shed := none
  shedStart := none
  shedEnd := none
  adding := []
  onOrder := []
  armed := true
  test := none
  fails := []
  peaks := []
  limits := []
  lastV := 0
  lastI := 0
  rampN := 0
  rampFrom := 0
  energyFrac := 0
  tel1 := TelSum.init
  tel100 := TelSum.init
  peakOn := false

def RailSys.init : RailSys := ⟨0, [0, 0, 0, 0], false, none⟩

/-- (DESIGN CHOICE, log 15) -/
def BudgetUnit.init : BudgetUnit where
  bucket := 0
  burst := false
  holdA := none
  holdB := none
  stuckA := false
  stuckB := false
  limA := (15, 2)
  limB := (15, 2)
  fast := []
  alloc := []
  tempMax := 0
  acts := []
  actStep := []
  fitSteps := []
  unattr := 0

/-- (DESIGN CHOICE, log 15) -/
def ChainUnit.init : ChainUnit where
  sweep := none
  lastInstant := none
  swept := []
  sweptPrev := []
  sweepAsks := 0
  reading := false
  stale := []
  bcAt := 0
  owCount := 0
  owFlagged := []
  owClear := []
  owWanted := false
  warn := 0
  bleed := []
  balLapsed := []
  openTo := none
  openCause := 0
  inserting := false
  debounced := false
  asleep := false
  fwReady := false
  wakeN := false

def CellEst.init : CellEst := ⟨0, 0, 0, false, none⟩

/-- (DESIGN CHOICE, log 15) -/
def EstUnit.init : EstUnit where
  cells := []
  counted := 0
  second := 0
  ocv := []
  temps := []
  serial := 0
  stillSince := none
  shuntSum := 0
  shuntCount := 0
  tMin := []
  tMax := []
  atRest := false
  lastRest := none
  due := []
  sched := none
  retryAt := none
  forcedAt := none
  forcedKind := 0
  schedBase := none
  lastEnd := none
  deferred := false
  allowZero := true
  standbyAt := none
  tapMax := 0

/-- (DESIGN CHOICE, log 15) -/
def TileUnit.init : TileUnit where
  sregs := []
  aregs := []
  loops := []
  queues := []
  fly := []
  stopping := false
  pwait := none
  acc := []
  bank := []
  bankValid := 0
  dacc := []
  daccInt := 0
  calNo := []
  calAt := []
  calFails := []
  trigger := false
  verifyOnly := false
  bist := false
  bistSlots := []
  sensorBad := 0
  lastDom := none
  recal := false
  ipSlot := none
  wtTaken := false

def HbmFrond.init : HbmFrond where
  table := []
  credit := []
  openFor := []
  ceAt := []
  deAt := []
  relocWritten := []
  relocZeroed := []
  bridgeFails := 0

def EngUnit.init : EngUnit := ⟨[], none, none, []⟩

def RingUnit.init : RingUnit := ⟨[], [], []⟩

/-- A FREE context (R234). -/
def Ctx.init : Ctx where
  alloc := false
  faulted := false
  stopped := false
  resetting := false
  part := 0
  prio := 0
  weight := 1
  ringBase := 0
  ringLog := 0
  head := 0
  tail := 0
  gen := 0
  fault := 0
  energy := 0
  prods := []
  outstanding := []
  wait := none
  epoch := none

def DomSet.init : DomSet := ⟨false, [], []⟩

def Domain.init : Domain := ⟨DomSet.init, DomSet.init, 0⟩

def WorkUnit.init : WorkUnit where
  ctxs := []
  genBase := 0
  doms := []
  counters := []
  turn := []
  changed := []
  held := []
  fenceAt := 0
  heldRelays := []
  building := []
  passed := []

def RstUnit.init : RstUnit := ⟨[], [], false⟩

def ColUnit.init : ColUnit where
  irqM := 0
  irqA := 0
  irqB := 0
  pulse := false
  pulseAt := 0
  alive := false
  lastFault := 0
  inverted := []
  placed := []

def HangUnit.init : HangUnit where
  waits := []
  cycles := []
  orphans := []
  toldCycles := []
  toldOrphans := []
  next := 0

def DumpUnit.init : DumpUnit := ⟨none, none, []⟩

def PortUnit.init : PortUnit where
  txSeq := 0
  unacked := 0
  sent := []
  queue := []
  rxSeq := 0
  naked := false
  nakSeq := 0
  replays := 0
  fails := 0
  test := false
  uncorr := []
  epoch := 0
  crypt := false
  key := 0
  txCount := 0
  rxCount := 0
  credits := []

def CollSlot.init : CollSlot := ⟨[], [], [], [], 0⟩

/-- (DESIGN CHOICE, log 15) -/
def LinkUnit.init : LinkUnit where
  ports := []
  live := []
  gens := []
  groups := []
  groupGens := []
  owners := []
  stalled := []
  waiting := []
  relayKey := 0
  relaySeq := none
  relayTx := 0
  coll := []
  armed := []
  absent := 0

/-- A closed session slot. -/
def Session.init : Session where
  open_ := false
  state := 0
  gen := 0
  level := .L0
  domain := 0
  key := 0
  mac := 0
  udp := false
  ip := 0
  keys := []
  rxAck := 0
  rxHeld := []
  rxTop := none
  rxSeen := []
  ackDue := 0
  ackSince := 0
  txSeq := 0
  txc := 0
  unacked := []
  sendq := []
  heard := 0
  recs := []
  tags := []
  evRanges := 0
  evMinSev := 0
  evMissed := 0

/-- (DESIGN CHOICE, log 15) -/
def HostUnit.init : HostUnit := ⟨false, [], [], 0, 0, [], [], none, [], 0, 0, 0⟩

def BootUnit.init : BootUnit := ⟨false, false, 0⟩

def CfgUnit.init : CfgUnit := ⟨[], [], none, [], []⟩

def FwUnit.init : FwUnit where
  slots := []
  prefer := []
  trial := 0
  count := []
  running := []
  dead := 0
  unit := 0
  opened := false
  port := 0

def FuseUnit.init : FuseUnit := ⟨false, [], false, false⟩

/-- No dynamic address; IBIs are enabled (ENINT). (PRESUMED, log 72) -/
def TrayUnit.init : TrayUnit := ⟨none, 1⟩

/-- The module right after reset: every register at its Reset value, memory with nothing listed, every unit at
rest, no command waiting. (DESIGN CHOICE, log 3; DESIGN CHOICE, log 15) -/
def State.reset : State where
  regs := []
  sels := []
  mem := []
  poison := []
  latches := []
  frondReset := false
  recorder := Recorder.init
  ficA := IntCtl.init
  ficB := IntCtl.init
  pic := IntCtl.init
  phase := PhaseUnit.init
  power := PowerUnit.init
  rails := []
  railSys := RailSys.init
  budget := BudgetUnit.init
  chain := ChainUnit.init
  est := EstUnit.init
  tiles := []
  hbm := []
  ring := RingUnit.init
  work := WorkUnit.init
  rst := RstUnit.init
  col := ColUnit.init
  hang := HangUnit.init
  dump := DumpUnit.init
  link := LinkUnit.init
  sessions := []
  host := HostUnit.init
  boot := BootUnit.init
  cfg := CfgUnit.init
  fw := FwUnit.init
  fuse := FuseUnit.init
  tray := TrayUnit.init
  outbox := []
  draws := 0
  pending := []

end Sys2Proof.Machine
end

