-- ==== Sys2Proof/Machine/TileNum.lean ====
section
/-! DEFINITION. What a tile's units compute, on numbers alone: the input drive, the conversion and the accumulator file of
an array (R68-R77), the DMU's sums (R94, R116), the vector unit's functions and reductions (R95, R117-R119). -/

namespace Sys2Proof.Machine

/-- Bits [hi:lo] of a word. -/
def bitsAt (w hi lo : Nat) : Nat := w / 2 ^ lo % 2 ^ (hi + 1 - lo)

/-- Sum of integers. -/
def sumInt (l : List Int) : Int := l.foldl (· + ·) 0

/-- The sum of numbers. -/
def sumNat (l : List Nat) : Nat := l.foldl (· + ·) 0

/-! ### Array (R68-R77) -/

/-- One driven row: the element after the input aligner and its drive level in eighths. -/
structure Drive where
  x : Int
  lvl : Nat
  deriving DecidableEq, Repr

/-- The drive of an element whose block scale lies `d` below the largest, and whether it lost a non-zero bit (R68). -/
def driveOf (d : Nat) (x : Int) : Drive × Bool :=
  if d ≤ 3 then (⟨x, 2 ^ (3 - d)⟩, false) else (⟨rneShift x (d - 3), 1⟩, x % (2 ^ (d - 3) : Int) != 0)

/-- The largest block scale of a vector. -/
def eMax (scales : List Nat) : Nat := scales.foldl max 0

/-- The drives of a vector of 1,024 elements with 32 block scales, and how many elements lost a bit. -/
def drives (xs : List Int) (scales : List Nat) : List Drive × Nat :=
  let top := eMax scales
  let ds := xs.zipIdx.map (fun e => driveOf (top - scales.getD (e.2 / 32) 0) e.1)
  (ds.map (·.1), (ds.filter (·.2)).length)

/-- The integer dot product of drives and weights, in eighths of a unit. -/
def dot8 (ds : List Drive) (ws : List Int) : Int :=
  sumInt (List.zipWith (fun d w => d.x * (d.lvl : Int) * w) ds ws)

/-- Units per LSB of a range (R71). -/
def rangeUnits (r : Nat) : Nat := 4 * 2 ^ r

/-- The code of a charge in eighths of a unit, and whether it was clipped (R72): the nearest code plus an error of the
conversion, which R79 and R80 leave open. (DESIGN CHOICE, log 23) -/
def adcCode (u : Nat) (charge err : Int) : Int × Bool :=
  if charge < -512 * 8 * (u : Int) then (-512, true)
  else if 511 * 8 * (u : Int) < charge then (511, true)
  else (clampInt (-512) 511 (rneDiv charge (8 * u) + err), false)

/-- r = g (c - o) × units per LSB, in quarters of a unit (R73); g in 2^-15, o in 1/16 LSB. (DESIGN CHOICE, log 23) -/
def corrected (g : Nat) (o : Int) (u : Nat) (c : Int) : Int := rneShift ((g : Int) * (16 * c - o) * (u : Int)) 17

/-- M within 24 bits, by the least shift with round-to-nearest-even (R75). -/
def fit24 (m e : Int) : Int × Int :=
  let ok := fun (x : Int) => decide (-(2 ^ 23) ≤ x) && decide (x < 2 ^ 23)
  let k := ((List.range 64).find? (fun k => ok (rneShift m k))).getD 64
  (rneShift m k, e + (k : Int))

/-- A cleared entry: 0, below every contribution's exponent. -/
def AccEntry.zero : AccEntry := ⟨false, 0, -512⟩

/-- An entry from M × 2^E: it saturates above E = 511, with ACC_OVF (R75). -/
def accOf (m e : Int) : AccEntry × Bool :=
  let r := fit24 m e
  if r.2 ≤ 511 then (⟨false, r.1, max (-512) r.2⟩, false) else (⟨false, if m < 0 then -(2 ^ 23) else 2 ^ 23 - 1, 511⟩, true)

/-- Entry plus contribution, with ACC_OVF (R75). -/
def accAdd (a b : AccEntry) : AccEntry × Bool :=
  if a.nan || b.nan then (⟨true, 0, 0⟩, false)
  else
    let e := max a.e b.e
    accOf (rneShift a.m (e - a.e).toNat + rneShift b.m (e - b.e).toNat) e

/-- What FINAL and DRAIN write for an entry: FP32, or BF16 for `bf` (R75). -/
def accOut (a : AccEntry) (bf : Bool) : Nat :=
  let f := if bf then bf16 else fp32
  if a.nan then f.nanBits else (f.encode 0 false (fvInt a.m a.e)).1

/-- One conversion's parameters: units per LSB, gain, offset, whether the limits of R80 apply, and the free error. -/
structure Conv where
  u : Nat
  g : Nat
  o : Int
  good : Bool
  err : Int
  deriving DecidableEq, Repr

/-- The codes whose corrected result lies within the limits of R80: 0.5 LSB of offset and 0.8 LSB of noise, less the
rounding of R73, and 0.2 % of the charge (in eighths of a unit). (DESIGN CHOICE, log 23) -/
def goodCodes (c : Conv) (charge : Int) : List Int :=
  let mid := rneDiv (charge * 2 ^ 19 + c.o * (c.g : Int) * 8 * (c.u : Int)) (128 * c.g * c.u)
  ((List.range 9).map (fun k => mid + Int.ofNat k - 4)).filter (fun x => decide
    (((c.g : Int) * (16 * x - c.o) * 8 * (c.u : Int) - charge * 2 ^ 19).natAbs * 1000 ≤
      2 ^ 19 * (1300 * 8 * c.u - 1000 + 2 * charge.natAbs)))

/-- A conversion's corrected result in quarters of a unit, and whether it was clipped: one of the codes that R80 allows while
its conditions hold and the charge is not clipped, else any near code (R81). (DESIGN CHOICE, log 23) -/
def convert (c : Conv) (charge : Int) : Int × Bool :=
  let r := adcCode c.u charge c.err
  let l := goodCodes c charge
  let x := if c.good && !r.2 then l.getD (c.err.natAbs % max 1 l.length) r.1 else r.1
  (corrected c.g c.o c.u x, r.2)

/-- The contribution of a BLK4 evaluation to a column, NaN under a scale of 0xFF, and whether it was clipped (R70, R73). -/
def blk4Part (ds : List Drive) (ws : List Int) (top col : Nat) (c : Conv) : AccEntry × Bool :=
  if top = 255 ∨ col = 255 then (⟨true, 0, 0⟩, false)
  else
    let r := convert c (dot8 ds ws)
    ((accOf r.1 ((top : Int) + (col : Int) - 256)).1, r.2)

/-- h and l of an 8-bit value (R77). -/
def hi4 (x : Int) : Int := x / 16

def lo4 (x : Int) : Int := x % 16 - 8

/-- The contribution of a BLK8 evaluation to a column from the weights' h and l (R77): four converted partial sums, and the
-8 offsets restored exactly. `c` gives the four conversions, of a·h, a·l, b·h and b·l. The spec does not say whether the
input aligner of R68 acts before the split of an element: it shifts the 8-bit element here. (DESIGN CHOICE, log 23) -/
def blk8Part (ds : List Drive) (hs ls : List Int) (top col : Nat) (c : Nat → Conv) : AccEntry × Bool :=
  if top = 255 ∨ col = 255 then (⟨true, 0, 0⟩, false)
  else
    let a := ds.map (fun d => ({ d with x := hi4 d.x } : Drive))
    let b := ds.map (fun d => ({ d with x := lo4 d.x } : Drive))
    let p0 := convert (c 0) (dot8 a hs)
    let p1 := convert (c 1) (dot8 a ls)
    let p2 := convert (c 2) (dot8 b hs)
    let p3 := convert (c 3) (dot8 b ls)
    let one := ds.map (fun d => ({ d with x := 1 } : Drive))
    let off := 128 * (dot8 one hs + sumInt (a.map (fun d => d.x * (d.lvl : Int))))
      + 8 * (dot8 one ls + sumInt (b.map (fun d => d.x * (d.lvl : Int)))) + 64 * sumInt (ds.map (fun d => (d.lvl : Int)))
    let m := 2 * (256 * p0.1 + 16 * p1.1 + 16 * p2.1 + p3.1) + off
    ((accOf m ((top : Int) + (col : Int) - 257)).1, p0.2 || p1.2 || p2.2 || p3.2)

/-! ### DMU (R94, R116) -/

/-- A list in an order that a number gives. (DESIGN CHOICE, log 22) -/
def permute {α : Type} : Nat → Nat → List α → List α
  | 0, _, _ => []
  | fuel + 1, n, l =>
    match l[n % l.length]? with
    | none => []
    | some x => x :: permute fuel (n / l.length) (l.eraseIdx (n % l.length))

/-- FP32 sum of values from a starting value in an order given, with flags (R94). -/
def sum32 (order : Nat) (start : FV) (l : List FV) : FV × Nat :=
  (permute l.length order l).foldl (fun a v =>
    let r := fvAdd 0 a.1 v
    let x := fp32.encode 0 false r.1
    (fp32.decode x.1, a.2 ||| r.2 ||| x.2)) (start, 0)

/-- Products of two rows of values, with flags. -/
def prods (a b : List FV) : List FV × Nat :=
  let l := List.zipWith fvMul a b
  (l.map (·.1), l.foldl (fun f x => f ||| x.2) 0)

/-- Blocks of 32. -/
def blocks32 {α : Type} : Nat → List α → List (List α)
  | 0, _ => []
  | fuel + 1, l => if l.isEmpty then [] else l.take 32 :: blocks32 fuel (l.drop 32)

/-- One entry of an MM without block scales: start plus the sum of products. -/
def mmPlain (order : Nat) (start : FV) (a b : List FV) : FV × Nat :=
  let p := prods a b
  let r := sum32 order start p.1
  (r.1, p.2 ||| r.2)

/-- One entry of an MM with block scales: each block's partial sum times the product of its scales; `sa` and `sb` give the
scales' exponents, none for NaN. -/
def mmBlock (order : Nat) (start : FV) (a b : List FV) (sa sb : List (Option Int)) : FV × Nat :=
  let n := a.length
  let parts := (List.zip (blocks32 n a) (blocks32 n b)).zipIdx.map (fun e =>
    let p := prods e.1.1 e.1.2
    let r := sum32 (order + e.2) (.fin false 0 0) p.1
    let v := match sa.getD e.2 none, sb.getD e.2 none with
      | some x, some y => fvScale (x + y) r.1
      | _, _ => FV.nan false
    (v, p.2 ||| r.2))
  let r := sum32 order start (parts.map (·.1))
  (r.1, parts.foldl (fun f x => f ||| x.2) r.2)

/-- One entry of an INT8 MM: a sum that saturates at INT32, and whether it did. -/
def mmInt (order : Nat) (start : Int) (a b : List Int) : Int × Bool :=
  let l := List.zipWith (· * ·) a b
  (permute l.length order l).foldl (fun s x =>
    let t := s.1 + x
    let c := clampInt (-(2 ^ 31)) (2 ^ 31 - 1) t
    (c, s.2 || c != t)) (start, false)

/-! ### Vector unit (R95, R117-R119) -/

/-- The compute precision of an input format: 0 FP32, 1 FP64, 2 INT32 (R118). -/
def vecPrec (c : Nat) : Nat := if c = 1 then 1 else if c = 11 ∨ c = 12 then 2 else 0

/-- Lanes of an input format (R118). -/
def vecLanes (c : Nat) : Nat :=
  match c with
  | 0 => 64 | 1 => 16 | 2 => 128 | 3 => 128 | 12 => 64 | _ => 256

/-- A value rounded to the compute precision; INT32 saturates with OF. (DEDUCED, log 19) -/
def precRound (prec rnd : Nat) (v : FV) : FV × Nat :=
  if prec = 2 then
    let r := fvToInt rnd (-(2 ^ 31)) (2 ^ 31 - 1) v
    (fvInt r.1 0, r.2)
  else
    let f := if prec = 1 then fp64 else fp32
    let r := f.encode rnd false v
    (f.decode r.1, r.2)

/-- The scalar of BMODE SCALAR: an FP64 value, or an INT64 value, in the compute precision (R117). -/
def vecScalar (prec v : Nat) : FV × Nat :=
  if prec = 2 then precRound 2 0 (fvInt (bitsInt 64 v) 0) else precRound prec 0 (fp64.decode v)

/-- An elementwise function of a, b and the old destination d, exact or as R95 and R118 bound it, with flags. `free` is the
free value of a bounded result. -/
def vecFunc (free rnd func : Nat) (a b d : FV) : FV × Nat :=
  match func with
  | 0x00 => (a, nvOf a)
  | 0x01 => fvAdd rnd a b
  | 0x02 => fvAdd rnd a (fvNeg b)
  | 0x03 => fvMul a b
  | 0x04 => fvFma rnd a b d
  | 0x05 => fvMinMax false a b
  | 0x06 => fvMinMax true a b
  | 0x07 => (fvAbs a, nvOf a)
  | 0x08 => (fvNeg a, nvOf a)
  | 0x09 => fvDiv 64 a b
  | 0x0A => fvSqrt 64 a
  | 0x12 => if fvNan a then (.nan false, nvOf a) else (if fvLt (.fin false 0 0) a then a else .fin false 0 0, 0)
  | _ => transcend free func a

/-- One element of an elementwise op, before the one rounding to FMT_OUT: integer arithmetic saturates first.
(DEDUCED, log 19) -/
def vecElem (free prec rnd func : Nat) (a b d : FV) : FV × Nat :=
  let r := vecFunc free rnd func a b d
  if prec = 2 then
    let x := precRound 2 rnd r.1
    (x.1, r.2 ||| x.2)
  else r

/-- Two partial results of a reduction joined (0x18 RSUM to 0x1C RSUMSQ). -/
def redJoin (prec rnd func : Nat) (a b : FV) : FV × Nat :=
  match func with
  | 0x19 => fvMinMax true a b
  | 0x1A => fvMinMax false a b
  | 0x1B => fvMinMax true a b
  | _ =>
    let r := fvAdd rnd a b
    let x := precRound prec rnd r.1
    (x.1, r.2 ||| x.2)

/-- An element as it starts a lane. -/
def redStart (prec rnd func : Nat) (v : FV) : FV × Nat :=
  match func with
  | 0x1B => if prec = 2 then precRound 2 rnd (fvAbs v) else (fvAbs v, nvOf v)
  | 0x1C =>
    let r := fvMul v v
    let x := precRound prec rnd r.1
    (x.1, r.2 ||| x.2)
  | _ => (v, nvOf v)

/-- An element joins a lane; RSUMSQ rounds once. -/
def redAdd (prec rnd func : Nat) (acc v : FV) : FV × Nat :=
  if func = 0x1C then
    let r := fvFma rnd v v acc
    let x := precRound prec rnd r.1
    (x.1, r.2 ||| x.2)
  else
    let w := redStart prec rnd func v
    let r := redJoin prec rnd func acc w.1
    (r.1, w.2 ||| r.2)

/-- The elements of one lane: `k`, `k + l`, ... -/
def laneOf (l k : Nat) (vs : List FV) : List FV := (vs.zipIdx.filter (fun e => e.2 % l == k)).map (·.1)

/-- One lane's result, none when it has no element. -/
def laneRed (prec rnd func : Nat) : List FV → Option FV × Nat
  | [] => (none, 0)
  | v :: t =>
    let s := redStart prec rnd func v
    let r := t.foldl (fun (a : FV × Nat) x =>
      let y := redAdd prec rnd func a.1 x
      (y.1, a.2 ||| y.2)) s
    (some r.1, r.2)

/-- One level of the tree over lanes: 2i and 2i + 1 join. -/
def redPairs (prec rnd func : Nat) : List (Option FV) → List (Option FV) × Nat
  | [] => ([], 0)
  | [x] => ([x], 0)
  | a :: b :: t =>
    let r := redPairs prec rnd func t
    match a, b with
    | some x, some y =>
      let j := redJoin prec rnd func x y
      (some j.1 :: r.1, j.2 ||| r.2)
    | some x, none => (some x :: r.1, r.2)
    | none, y => (y :: r.1, r.2)

/-- The tree, `fuel` levels. -/
def redTree (prec rnd func : Nat) : Nat → List (Option FV) → Nat → Option FV × Nat
  | 0, l, f => (l.headD none, f)
  | fuel + 1, l, f =>
    let r := redPairs prec rnd func l
    redTree prec rnd func fuel r.1 (f ||| r.2)

/-- A row's reduction in the order of R119. -/
def vecReduce (prec rnd func lanes : Nat) (vs : List FV) : FV × Nat :=
  let ls := (List.range lanes).map (fun k => laneRed prec rnd func (laneOf lanes k vs))
  let r := redTree prec rnd func 8 (ls.map (·.1)) (ls.foldl (fun f x => f ||| x.2) 0)
  (r.1.getD (.fin false 0 0), r.2)

/-! ### Operands in a store (R117, R127) -/

/-- Bytes of a row of `cols` elements, padded to 32. -/
def rowBytes (c cols : Nat) : Nat := (cols * elemBits c + 255) / 256 * 32

/-- Bytes of a rows × cols operand, its scales after it. -/
def arrayBytes (c rows cols : Nat) : Nat := rows * rowBytes c cols + (if isBlock c then rows * (cols / 32) else 0)

/-- Element i, j of an operand at `a`, given a reader of bytes. -/
def arrayElem (c rows cols : Nat) (rd : Nat → Nat) (a i j : Nat) : FV :=
  let rb := rowBytes c cols
  let b := elemAt (elemBits c) (fun k => rd (a + i * rb + k)) j
  if isBlock c then blockVal c b (rd (a + rows * rb + i * (cols / 32) + j / 32)) else elemVal c b

/-- Consecutive bytes from an address. -/
def bytesFrom (a : Nat) (l : List Nat) : List (Nat × Nat) := l.zipIdx.map (fun e => (a + e.2, e.1))

/-- Rows of results as bytes at `a` in a format, with flags (R128-R130). -/
def arrayBytesOf (c rnd : Nat) (sat : Bool) (rows cols a : Nat) (vs : List (List FV)) : List (Nat × Nat) × Nat :=
  let rb := rowBytes c cols
  if isBlock c then
    let bs := vs.map (fun row => (blocks32 cols row).map (blockConv c rnd))
    let els := bs.zipIdx.flatMap (fun e =>
      bytesFrom (a + e.2 * rb) (packElems (elemBits c) (e.1.flatMap (·.1))))
    let scs := bytesFrom (a + rows * rb) (bs.flatMap (fun row => row.map (fun x => x.2.1)))
    (els ++ scs, (bs.flatMap id).foldl (fun f x => f ||| x.2.2) 0)
  else
    let es := vs.map (fun row => row.map (convElem c rnd sat))
    (es.zipIdx.flatMap (fun e => bytesFrom (a + e.2 * rb) (packElems (elemBits c) (e.1.map (·.1)))),
      (es.flatMap id).foldl (fun f x => f ||| x.2) 0)

end Sys2Proof.Machine
end

