-- ==== Sys2Proof/Machine/EngNum.lean ====
section
/-! DEFINITION. What the engines compute, on numbers alone: Philox4x32-10 (R189), AES-256-GCM (R190), the compressed
stream (R182, R183), orders of keys (R186), and the rescaling of a pack (R69, R180). -/

namespace Sys2Proof.Machine

/-! ### Philox4x32-10 (R189) -/

/-- One round on a counter (four words) with a key (two words). -/
def philoxRound (c : List Nat) (k0 k1 : Nat) : List Nat :=
  let w := fun i => c.getD i 0
  let p0 := 0xD2511F53 * w 0
  let p1 := 0xCD9E8D57 * w 2
  [p1 / 2 ^ 32 ^^^ w 1 ^^^ k0, p1 % 2 ^ 32, p0 / 2 ^ 32 ^^^ w 3 ^^^ k1, p0 % 2 ^ 32]

/-- `n` rounds; the key is bumped between rounds. -/
def philoxRounds : Nat → List Nat → Nat → Nat → List Nat
  | 0, c, _, _ => c
  | n + 1, c, k0, k1 =>
    philoxRounds n (philoxRound c k0 k1) ((k0 + 0x9E3779B9) % 2 ^ 32) ((k1 + 0xBB67AE85) % 2 ^ 32)

/-- The four words of a block: a 128-bit counter and a 64-bit key. (PRESUMED, log 13) -/
def philox (ctr key : Nat) : List Nat :=
  philoxRounds 10 ((List.range 4).map (fun i => ctr / 2 ^ (32 * i) % 2 ^ 32)) (key % 2 ^ 32) (key / 2 ^ 32 % 2 ^ 32)

/-- Word j of the sequence from counter `ctr`. -/
def philoxWord (ctr key j : Nat) : Nat := (philox ((ctr + j / 4) % 2 ^ 128) key).getD (j % 4) 0

/-- Output j as a 32-bit pattern by distribution (R189). -/
def randomOut (dist ctr key j : Nat) : Nat :=
  match dist with
  | 0 => philoxWord ctr key j
  | 1 => (fp32.encode 0 false (.fin false (philoxWord ctr key j / 256) (-24))).1
  | _ =>
    let u1 := philoxWord ctr key (j / 2 * 2) / 256 + 1
    let u2 := philoxWord ctr key (j / 2 * 2 + 1) / 256
    normalOut (Config.normalDraw u1 u2 (j % 2 == 1)) u1 u2 (j % 2 == 1)

/-! ### AES-256-GCM (R190) -/

/-- Multiplication by x in GF(2^8). -/
def gfX (a : Nat) : Nat := if a < 128 then 2 * a else (2 * a) % 256 ^^^ 0x1B

/-- The S-box: 32 bytes a word, the lowest first. (PRESUMED, log 13) -/
def sboxTable : List Nat :=
  [0xC072A49CAFA2D4ADF04759FA7DC982CA76ABD7FE2B670130C56F6BF27B777C63,
   0x75B227EBE28012079A059618C323C7041531D871F1E5A534CCF73F362693FDB7,
   0xCF584C4A39BECB6A5BB1FC20ED00D153842FE329B3D63B52A05A6E1B1A2C8309,
   0xD2F3FF1021DAB6BCF5389D928F40A351A89F3C507F02F94585334D43FBAAEFD0,
   0xDB0B5EDE14B8EE4688902A22DC4F816073195D643D7EA7C41744975FEC130CCD,
   0x08AE7A65EAF4566CA94ED58D6D37C8E779E4959162ACD3C25C2406490A3A32E0,
   0x9E1DC186B95735610EF6034866B53E708A8BBD4B1F74DDE8C6B4A61C2E2578BA,
   0x16BB54B00F2D99416842E6BF0D89A18CDF2855CEE9871E9B948ED9691198F8E1]

/-- A byte through the S-box. -/
def sbox (a : Nat) : Nat := sboxTable.getD (a / 32) 0 / 256 ^ (a % 32) % 256

/-- XOR of two lists of bytes. -/
def xorBytes (a b : List Nat) : List Nat := List.zipWith (· ^^^ ·) a b

/-- The key schedule: word i from the words before it, newest first. -/
def aesExpand : Nat → Nat → Nat → List (List Nat) → List (List Nat)
  | 0, _, _, ws => ws
  | fuel + 1, i, rcon, ws =>
    let prev := ws.headD []
    let back := ws.getD 7 []
    let t := if i % 8 = 0 then
        xorBytes ((prev.drop 1 ++ prev.take 1).map sbox) [rcon, 0, 0, 0]
      else if i % 8 = 4 then prev.map sbox else prev
    aesExpand fuel (i + 1) (if i % 8 = 0 then gfX rcon else rcon) (xorBytes back t :: ws)

/-- The 15 round keys of a 32-byte key. -/
def aesKeys (key : List Nat) : List (List Nat) :=
  let ws := (aesExpand 52 8 1 ((List.range 8).map (fun i => (key.drop (4 * i)).take 4)).reverse).reverse
  (List.range 15).map (fun r => (ws.drop (4 * r)).take 4 |>.flatten)

def shiftRows (b : List Nat) : List Nat := (List.range 16).map (fun i => b.getD ((i + 4 * (i % 4)) % 16) 0)

def mixColumns (b : List Nat) : List Nat :=
  (List.range 16).map (fun i =>
    let c := fun k => b.getD (i / 4 * 4 + (i + k) % 4) 0
    gfX (c 0) ^^^ gfX (c 1) ^^^ c 1 ^^^ c 2 ^^^ c 3)

/-- Rounds 1 to 13, then the last. -/
def aesRounds : List (List Nat) → List Nat → List Nat
  | [], b => b
  | [k], b => xorBytes (shiftRows (b.map sbox)) k
  | k :: t, b => aesRounds t (xorBytes (mixColumns (shiftRows (b.map sbox))) k)

/-- AES-256 of one block under round keys. (PRESUMED, log 13) -/
def aesBlock (keys : List (List Nat)) (b : List Nat) : List Nat :=
  aesRounds (keys.drop 1) (xorBytes b (keys.headD []))

/-- A big-endian number of bytes, and back. -/
def beNat (l : List Nat) : Nat := l.foldl (fun a b => a * 256 + b) 0

def beBytes (n v : Nat) : List Nat := (leBytes n v).reverse

/-- Multiplication in GCM's field: bit 0 is the most significant. -/
def ghMul (x y : Nat) : Nat :=
  ((List.range 128).foldl (fun (s : Nat × Nat) i =>
    (if bitOf x (127 - i) then s.1 ^^^ s.2 else s.1,
      if s.2 % 2 = 1 then s.2 / 2 ^^^ (0xE1 * 2 ^ 120) else s.2 / 2)) (0, y)).1

/-- Blocks of 16 bytes, the last padded with zeros. -/
def blocks16 : Nat → List Nat → List (List Nat)
  | 0, _ => []
  | fuel + 1, l => if l.isEmpty then [] else ((l ++ List.replicate 15 0).take 16) :: blocks16 fuel (l.drop 16)

def ghash (h : Nat) (l : List (List Nat)) : Nat := l.foldl (fun y b => ghMul (y ^^^ beNat b) h) 0

/-- The counter block `n` blocks after the pre-counter block of a 12-byte IV. -/
def gcmCtr (iv : List Nat) (n : Nat) : List Nat := iv ++ beBytes 4 ((1 + n) % 2 ^ 32)

/-- Bytes under the key stream from block 1 on. -/
def gcmStream (keys : List (List Nat)) (iv data : List Nat) : List Nat :=
  ((blocks16 (data.length + 1) data).zipIdx.flatMap (fun e => xorBytes e.1 (aesBlock keys (gcmCtr iv (e.2 + 1))))).take
    data.length

/-- The tag over additional data and ciphertext. (PRESUMED, log 13) -/
def gcmTag (keys : List (List Nat)) (iv aad ct : List Nat) : List Nat :=
  let h := beNat (aesBlock keys (List.replicate 16 0))
  let len := beBytes 8 (8 * aad.length) ++ beBytes 8 (8 * ct.length)
  let y := ghash h (blocks16 (aad.length + 1) aad ++ blocks16 (ct.length + 1) ct ++ [len])
  xorBytes (beBytes 16 y) (aesBlock keys (gcmCtr iv 0))

/-! ### Compressed streams (R182, R183) -/

/-- The canonical code of symbol `s` for code lengths (R182): the codes of its length, in order of symbols. -/
def canonCodes (lens : List Nat) : List (Nat × Nat × Nat) :=
  ((List.range 12).foldl (fun (st : Nat × List (Nat × Nat × Nat)) i =>
    let len := i + 1
    let r := (List.range 16).foldl (fun (st : Nat × List (Nat × Nat × Nat)) s =>
      if lens.getD s 0 = len then (st.1 + 1, st.2 ++ [(s, len, st.1)]) else st) st
    (2 * r.1, r.2)) (0, [])).2

/-- The sum of 2^-L in units of 2^-12. -/
def kraft (lens : List Nat) : Nat := sumNat (lens.map (fun l => if l = 0 then 0 else 2 ^ (12 - l)))

/-- A table that R183 accepts. -/
def tableOk (lens : List Nat) : Bool := lens.all (fun l => decide (l ≤ 12)) && decide (kraft lens ≤ 4096)

/-- Nibbles of bytes, low first. -/
def nibbles (l : List Nat) : List Nat := l.flatMap (fun b => [b % 16, b / 16])

def ofNibbles : List Nat → List Nat
  | a :: b :: t => (a + 16 * b) :: ofNibbles t
  | _ => []

/-- The bits of a number, most significant first. -/
def msbBits (n v : Nat) : List Bool := (List.range n).map (fun i => bitOf v (n - 1 - i))

/-- Bits into bytes from bit 7 down, padded with zeros. -/
def packBits : Nat → List Bool → List Nat
  | 0, _ => []
  | fuel + 1, l =>
    if l.isEmpty then []
    else ((List.range 8).foldl (fun a i => 2 * a + b2n (l.getD i false)) 0) :: packBits fuel (l.drop 8)

/-- The bits of bytes from bit 7 down. -/
def unpackBits (l : List Nat) : List Bool := l.flatMap (msbBits 8)

/-- The next symbol of a bit string, with the bits left. -/
def nextSym (codes : List (Nat × Nat × Nat)) (l : List Bool) : Option (Nat × List Bool) :=
  match codes.find? (fun c => decide (c.2.1 ≤ l.length) && l.take c.2.1 == msbBits c.2.1 c.2.2) with
  | none => none
  | some c => some (c.1, l.drop c.2.1)

/-- `n` symbols of a bit string, with the bits left. -/
def takeSyms (codes : List (Nat × Nat × Nat)) : Nat → List Bool → Option (List Nat × List Bool)
  | 0, l => some ([], l)
  | n + 1, l =>
    match nextSym codes l with
    | none => none
    | some r =>
      match takeSyms codes n r.2 with
      | none => none
      | some q => some (r.1 :: q.1, q.2)

/-- Code lengths of a NIBBLE payload. -/
def tableOf (payload : List Nat) : List Nat := nibbles (payload.take 8)

/-- A NIBBLE payload decoded to `n` bytes, none when it is malformed (R183). -/
def nibbleDecode (payload : List Nat) (n : Nat) : Option (List Nat) :=
  let lens := tableOf payload
  if payload.length < 8 || !tableOk lens then none
  else
    match takeSyms (canonCodes lens) (2 * n) (unpackBits (payload.drop 8)) with
    | none => none
    | some r => if 8 ≤ r.2.length then none else some (ofNibbles r.1)

/-- The code lengths that COMPRESS uses for a chunk: the engine's choice where it forms a code for every symbol of the
chunk, else four bits for each. (DESIGN CHOICE, log 30) -/
def chosenLens (chunk : List Nat) : List Nat :=
  let lens := (List.range 16).map (fun s => Config.codeLen chunk s % 13)
  if tableOk lens && (nibbles chunk).all (fun s => lens.getD s 0 != 0) then lens else List.replicate 16 4

def nibbleEncode (chunk : List Nat) : List Nat :=
  let lens := chosenLens chunk
  let codes := canonCodes lens
  let bits := (nibbles chunk).flatMap (fun s =>
    match codes.find? (fun c => c.1 == s) with
    | some c => msbBits c.2.1 c.2.2
    | none => [])
  ofNibbles lens ++ packBits (bits.length + 1) bits

/-- A chunk's header: OLEN, METHOD, PLEN. -/
def chunkHead (olen method plen : Nat) : List Nat := leBytes 4 (olen * 2 ^ 19 + method * 2 ^ 16 + plen)

/-- The chunk that COMPRESS emits for bytes (R183). -/
def chunkOf (l : List Nat) : List Nat :=
  if l.all (· == 0) then chunkHead (l.length - 1) 2 0
  else
    let p := nibbleEncode l
    if p.length < l.length then chunkHead (l.length - 1) 1 p.length ++ p else chunkHead (l.length - 1) 0 l.length ++ l

/-- The input as chunks of at most 4,096 bytes, of lengths that the engine chooses. -/
def chunksOf : Nat → List Nat → List (List Nat)
  | 0, _ => []
  | fuel + 1, l =>
    if l.isEmpty then []
    else
      let n := Config.chunkLen l % 4096 + 1
      l.take n :: chunksOf fuel (l.drop n)

/-- The END chunk. -/
def endChunk : List Nat := chunkHead 0 3 0

/-! ### Keys (R186) -/

/-- Bits of a key format, 0 for a reserved one. -/
def keyBits (k : Nat) : Nat :=
  match k with
  | 0 => 32 | 1 => 32 | 2 => 32 | 3 => 16 | 4 => 64 | 5 => 64 | 6 => 64 | _ => 0

/-- A key as a number whose order is the format's: two's complement, or totalOrder for a floating format. -/
def keyOrd (k v : Nat) : Nat :=
  let w := keyBits k
  match k with
  | 0 => v
  | 4 => v
  | 1 => (v + 2 ^ (w - 1)) % 2 ^ w
  | 5 => (v + 2 ^ (w - 1)) % 2 ^ w
  | _ => if v < 2 ^ (w - 1) then v + 2 ^ (w - 1) else 2 ^ w - 1 - v

/-- Insertion that keeps earlier elements first among equals: `before a b` when a must precede b. -/
def insertBy {α : Type} (before : α → α → Bool) (x : α) : List α → List α
  | [] => [x]
  | y :: t => if before x y then x :: y :: t else y :: insertBy before x t

/-- A stable sort. -/
def sortBy {α : Type} (before : α → α → Bool) (l : List α) : List α := l.foldl (fun acc x => insertBy before x acc) []

/-! ### Histograms (R186) -/

/-- The exact value of a key of format 0 UINT32, 1 INT32 or 2 FP32. -/
def histVal (k v : Nat) : FV :=
  match k with
  | 0 => fvInt (v : Int) 0
  | 1 => fvInt (bitsInt 32 v) 0
  | _ => fp32.decode v

/-- The bin of a value: 0 to bins - 1, or bins for below, bins + 1 for above, bins + 2 for NaN. -/
def histBin (lo width : FV) (bins : Nat) (v : FV) : Nat :=
  match v, lo, width with
  | .nan _, _, _ => bins + 2
  | .inf n, _, _ => if n then bins else bins + 1
  | .fin n m e, .fin ln lm le, .fin _ wm we =>
    let z := min e (min le we)
    let x := sInt n m * 2 ^ (e - z).toNat - sInt ln lm * 2 ^ (le - z).toNat
    let w : Int := (wm : Int) * 2 ^ (we - z).toNat
    if x < 0 then bins else if w = 0 ∨ (bins : Int) ≤ x / w then bins + 1 else (x / w).toNat
  | _, _, _ => bins + 2

/-! ### Pack (R69, R180) -/

/-- A column's block scales and weights brought to one scale: the largest, and the elements shifted right with
round-to-nearest-even (R69). -/
def packColumn (xs : List Int) (scales : List Nat) : List Int × Nat :=
  let top := eMax scales
  (xs.zipIdx.map (fun e => rneShift e.1 (top - scales.getD (e.2 / 32) 0)), top)

end Sys2Proof.Machine
end

