-- ==== Sys2Proof/Machine/Regs.lean ====
section
/-! DEFINITION. The names of every register field of the register tables (R61, R102, R133, R166, R198, R235,
R273, R298, R334, R362, R383, R416, R442, R479, R492, R506, R529, R544), each with its page, offset, strides and
bits as the table gives them. A page with several instances is named by its first; `Field.pg` picks another. -/

namespace Sys2Proof.F

def PHASE_CTRL_COMMIT : Field := ⟨0xA0, 0x100, 0, 0, 7, 7⟩
def PHASE_CTRL_REACQUIRE : Field := ⟨0xA0, 0x100, 0, 0, 6, 6⟩
def PHASE_CTRL_FORCE_FREE : Field := ⟨0xA0, 0x100, 0, 0, 5, 5⟩
def PHASE_CTRL_TSRC : Field := ⟨0xA0, 0x100, 0, 0, 4, 4⟩
def PHASE_CTRL_STEP_ADOPT : Field := ⟨0xA0, 0x100, 0, 0, 3, 3⟩
def PHASE_CTRL_PROF_LEARN : Field := ⟨0xA0, 0x100, 0, 0, 2, 2⟩
def PHASE_CTRL_PROF_CLEAR : Field := ⟨0xA0, 0x100, 0, 0, 1, 1⟩
def PHASE_CTRL_EVT_ENABLE : Field := ⟨0xA0, 0x100, 0, 0, 0, 0⟩
def PHASE_STATUS_PROF_STEPS : Field := ⟨0xA0, 0x108, 0, 0, 63, 56⟩
def PHASE_STATUS_HOLD_STEPS : Field := ⟨0xA0, 0x108, 0, 0, 55, 48⟩
def PHASE_STATUS_LOCK_COUNT : Field := ⟨0xA0, 0x108, 0, 0, 47, 40⟩
def PHASE_STATUS_ACTIVE_SEG : Field := ⟨0xA0, 0x108, 0, 0, 39, 36⟩
def PHASE_STATUS_PREF_OP : Field := ⟨0xA0, 0x108, 0, 0, 35, 32⟩
def PHASE_STATUS_ACTIVE_SRC : Field := ⟨0xA0, 0x108, 0, 0, 10, 8⟩
def PHASE_STATUS_COMMIT_PEND : Field := ⟨0xA0, 0x108, 0, 0, 7, 7⟩
def PHASE_STATUS_PROF_VALID : Field := ⟨0xA0, 0x108, 0, 0, 6, 6⟩
def PHASE_STATUS_LOCK_STATE : Field := ⟨0xA0, 0x108, 0, 0, 1, 0⟩
def PHASE_NOW_STEP : Field := ⟨0xA0, 0x110, 0, 0, 63, 32⟩
def PHASE_NOW_PHASE : Field := ⟨0xA0, 0x110, 0, 0, 31, 0⟩
def PHASE_NOM_PERIOD_PERIOD : Field := ⟨0xA0, 0x118, 0, 0, 39, 0⟩
def PHASE_PERIOD_EST_PERIOD : Field := ⟨0xA0, 0x120, 0, 0, 39, 0⟩
def PHASE_SRC_LINK_FROM : Field := ⟨0xA0, 0x128, 0, 0, 37, 32⟩
def PHASE_SRC_PRIO : Field := ⟨0xA0, 0x128, 0, 0, 31, 16⟩
def PHASE_SRC_EN : Field := ⟨0xA0, 0x128, 0, 0, 3, 0⟩
def PHASE_WINDOW_GUARD : Field := ⟨0xA0, 0x130, 0, 0, 63, 32⟩
def PHASE_WINDOW_WIN : Field := ⟨0xA0, 0x130, 0, 0, 31, 0⟩
def PHASE_LAST_MARK_TIME : Field := ⟨0xA0, 0x138, 0, 0, 63, 0⟩
def PHASE_STEP_SET_STEP : Field := ⟨0xA0, 0x140, 0, 0, 31, 0⟩
def PHASE_LINK_DELAY_DELAY : Field := ⟨0xA0, 0x148, 0, 0, 31, 0⟩
def PHASE_STEP_IO_OUT_WIDTH : Field := ⟨0xA0, 0x150, 0, 0, 55, 48⟩
def PHASE_STEP_IO_PIN_DELAY : Field := ⟨0xA0, 0x150, 0, 0, 47, 32⟩
def PHASE_STEP_IO_IN_FILTER : Field := ⟨0xA0, 0x150, 0, 0, 31, 24⟩
def PHASE_STEP_IO_OUT_MODE : Field := ⟨0xA0, 0x150, 0, 0, 9, 8⟩
def PHASE_STEP_IO_IN_EDGE : Field := ⟨0xA0, 0x150, 0, 0, 0, 0⟩
def PHASE_EVENTS_EV_IRQ : Field := ⟨0xA0, 0x158, 0, 0, 15, 8⟩
def PHASE_EVENTS_PROF_CLEARED : Field := ⟨0xA0, 0x158, 0, 0, 6, 6⟩
def PHASE_EVENTS_PROF_READY : Field := ⟨0xA0, 0x158, 0, 0, 5, 5⟩
def PHASE_EVENTS_COMMIT_DONE : Field := ⟨0xA0, 0x158, 0, 0, 4, 4⟩
def PHASE_EVENTS_SRC_CHG : Field := ⟨0xA0, 0x158, 0, 0, 3, 3⟩
def PHASE_EVENTS_OFFWIN : Field := ⟨0xA0, 0x158, 0, 0, 2, 2⟩
def PHASE_EVENTS_MISS : Field := ⟨0xA0, 0x158, 0, 0, 1, 1⟩
def PHASE_EVENTS_LOCK_CHG : Field := ⟨0xA0, 0x158, 0, 0, 0, 0⟩
def PHASE_COUNTS_ACCEPTED : Field := ⟨0xA0, 0x160, 0, 0, 63, 48⟩
def PHASE_COUNTS_DUP : Field := ⟨0xA0, 0x160, 0, 0, 47, 32⟩
def PHASE_COUNTS_OFFWIN : Field := ⟨0xA0, 0x160, 0, 0, 31, 16⟩
def PHASE_COUNTS_MISS : Field := ⟨0xA0, 0x160, 0, 0, 15, 0⟩
def PHASE_DEF_OP_OP : Field := ⟨0xA0, 0x168, 0, 0, 3, 0⟩
def PHASE_FF_LEAD : Field := ⟨0xA0, 0x170, 0, 0, 63, 32⟩
def PHASE_FF_PROF_SHIFT : Field := ⟨0xA0, 0x170, 0, 0, 18, 16⟩
def PHASE_FF_PROF_OUT : Field := ⟨0xA0, 0x170, 0, 0, 15, 0⟩
def PHASE_COUNTS2_STEP_SLIP : Field := ⟨0xA0, 0x178, 0, 0, 15, 0⟩
def PHASE_SEG_START : Field := ⟨0xA0, 0x180, 8, 0, 63, 32⟩
def PHASE_SEG_VALID : Field := ⟨0xA0, 0x180, 8, 0, 4, 4⟩
def PHASE_SEG_PREF_OP : Field := ⟨0xA0, 0x180, 8, 0, 3, 0⟩
def PHASE_TIME_TIME : Field := ⟨0xA0, 0x1C0, 0, 0, 63, 0⟩
def PHEV_ANGLE_ANGLE : Field := ⟨0xA1, 0x100, 16, 0, 63, 32⟩
def PHEV_ANGLE_EVERY : Field := ⟨0xA1, 0x100, 16, 0, 31, 24⟩
def PHEV_ANGLE_OFFSET : Field := ⟨0xA1, 0x100, 16, 0, 23, 16⟩
def PHEV_ANGLE_STATES : Field := ⟨0xA1, 0x100, 16, 0, 3, 2⟩
def PHEV_ANGLE_LATE_FIRE : Field := ⟨0xA1, 0x100, 16, 0, 1, 1⟩
def PHEV_ANGLE_ENABLE : Field := ⟨0xA1, 0x100, 16, 0, 0, 0⟩
def PHEV_ACT_ACTION : Field := ⟨0xA1, 0x108, 16, 0, 63, 56⟩
def PHEV_ACT_TARGET : Field := ⟨0xA1, 0x108, 16, 0, 55, 32⟩
def PHEV_ACT_ARG : Field := ⟨0xA1, 0x108, 16, 0, 31, 0⟩
def PHEV_FIRED_FIRED : Field := ⟨0xA1, 0x500, 0, 0, 63, 0⟩
def PROF_BIN_BIN3 : Field := ⟨0xA2, 0x100, 8, 0, 63, 48⟩
def PROF_BIN_BIN2 : Field := ⟨0xA2, 0x100, 8, 0, 47, 32⟩
def PROF_BIN_BIN1 : Field := ⟨0xA2, 0x100, 8, 0, 31, 16⟩
def PROF_BIN_BIN0 : Field := ⟨0xA2, 0x100, 8, 0, 15, 0⟩
def PROF_STATUS_PROF_PERIOD : Field := ⟨0xA2, 0x300, 0, 0, 47, 8⟩
def PROF_STATUS_PROF_STEPS : Field := ⟨0xA2, 0x300, 0, 0, 7, 0⟩
def TILE_CFG_RANGE_DEF : Field := ⟨0x200, 0x100, 0, 0, 5, 4⟩
def TILE_CFG_ROT_EN : Field := ⟨0x200, 0x100, 0, 0, 0, 0⟩
def TILE_STATUS_LOGICAL : Field := ⟨0x200, 0x108, 0, 0, 63, 56⟩
def TILE_STATUS_ARR_IN_SERVICE : Field := ⟨0x200, 0x108, 0, 0, 11, 8⟩
def TILE_STATUS_STATE : Field := ⟨0x200, 0x108, 0, 0, 3, 0⟩
def ARR_SLOT_ROT_COUNT : Field := ⟨0x200, 0x110, 0, 0, 63, 32⟩
def ARR_SLOT_ROT_STATE : Field := ⟨0x200, 0x110, 0, 0, 27, 24⟩
def ARR_SLOT_TARGET : Field := ⟨0x200, 0x110, 0, 0, 21, 20⟩
def ARR_SLOT_SPARE : Field := ⟨0x200, 0x110, 0, 0, 18, 16⟩
def ARR_SLOT_SLOT3 : Field := ⟨0x200, 0x110, 0, 0, 14, 12⟩
def ARR_SLOT_SLOT2 : Field := ⟨0x200, 0x110, 0, 0, 10, 8⟩
def ARR_SLOT_SLOT1 : Field := ⟨0x200, 0x110, 0, 0, 6, 4⟩
def ARR_SLOT_SLOT0 : Field := ⟨0x200, 0x110, 0, 0, 2, 0⟩
def ARR_SAT_ALIGN_LOSS : Field := ⟨0x200, 0x118, 0, 0, 12, 12⟩
def ARR_SAT_ACC_OVF : Field := ⟨0x200, 0x118, 0, 0, 11, 8⟩
def ARR_SAT_SAT : Field := ⟨0x200, 0x118, 0, 0, 3, 0⟩
def ARR_STATUS_CAL_AGE : Field := ⟨0x200, 0x120, 8, 0, 63, 48⟩
def ARR_STATUS_CAL_TEMP : Field := ⟨0x200, 0x120, 8, 0, 47, 32⟩
def ARR_STATUS_TEMP : Field := ⟨0x200, 0x120, 8, 0, 31, 16⟩
def ARR_STATUS_CAL_FAILS : Field := ⟨0x200, 0x120, 8, 0, 15, 8⟩
def ARR_STATUS_STALE : Field := ⟨0x200, 0x120, 8, 0, 7, 7⟩
def ARR_STATUS_TEMP_TRIG : Field := ⟨0x200, 0x120, 8, 0, 6, 6⟩
def ARR_STATUS_ACTIVE_BANK : Field := ⟨0x200, 0x120, 8, 0, 3, 3⟩
def ARR_STATUS_ARR_STATE : Field := ⟨0x200, 0x120, 8, 0, 1, 0⟩
def ARR_CAL_RES_OFFSET_RES : Field := ⟨0x200, 0x148, 8, 0, 63, 48⟩
def ARR_CAL_RES_GAIN_RES : Field := ⟨0x200, 0x148, 8, 0, 47, 32⟩
def ARR_CAL_RES_NOISE : Field := ⟨0x200, 0x148, 8, 0, 31, 16⟩
def ARR_CAL_RES_PASS : Field := ⟨0x200, 0x148, 8, 0, 0, 0⟩
def CORR_ADDR_ARRAY : Field := ⟨0x200, 0x170, 0, 0, 12, 10⟩
def CORR_ADDR_RANGE : Field := ⟨0x200, 0x170, 0, 0, 9, 8⟩
def CORR_ADDR_COLUMN : Field := ⟨0x200, 0x170, 0, 0, 6, 0⟩
def CORR_DATA_GAIN : Field := ⟨0x200, 0x178, 0, 0, 47, 32⟩
def CORR_DATA_OFFSET : Field := ⟨0x200, 0x178, 0, 0, 11, 0⟩
def TILE_EVAL_COUNT_COUNT : Field := ⟨0x200, 0x180, 0, 0, 63, 0⟩
def TILE_ALIGN_COUNT_COUNT : Field := ⟨0x200, 0x188, 0, 0, 63, 0⟩
def DMU_FLAGS_INT_SAT : Field := ⟨0x200, 0x190, 0, 0, 5, 5⟩
def DMU_FLAGS_NV : Field := ⟨0x200, 0x190, 0, 0, 4, 4⟩
def DMU_FLAGS_OF : Field := ⟨0x200, 0x190, 0, 0, 3, 3⟩
def DMU_FLAGS_UF : Field := ⟨0x200, 0x190, 0, 0, 2, 2⟩
def DMU_FLAGS_NX : Field := ⟨0x200, 0x190, 0, 0, 1, 1⟩
def DMU_FLAGS_NAN_SCALE : Field := ⟨0x200, 0x190, 0, 0, 0, 0⟩
def VEC_FLAGS_NV : Field := ⟨0x200, 0x198, 0, 0, 4, 4⟩
def VEC_FLAGS_DZ : Field := ⟨0x200, 0x198, 0, 0, 3, 3⟩
def VEC_FLAGS_OF : Field := ⟨0x200, 0x198, 0, 0, 2, 2⟩
def VEC_FLAGS_UF : Field := ⟨0x200, 0x198, 0, 0, 1, 1⟩
def VEC_FLAGS_NX : Field := ⟨0x200, 0x198, 0, 0, 0, 0⟩
def TMAP_STATUS_UNMAPPED : Field := ⟨0x100, 0x100, 0, 0, 23, 16⟩
def TMAP_STATUS_FENCED : Field := ⟨0x100, 0x100, 0, 0, 15, 8⟩
def TMAP_STATUS_SPARES_FREE : Field := ⟨0x100, 0x100, 0, 0, 7, 0⟩
def TMAP_ENTRY_VALID : Field := ⟨0x100, 0x200, 8, 0, 8, 8⟩
def TMAP_ENTRY_PHYS : Field := ⟨0x100, 0x200, 8, 0, 7, 0⟩
def ACAL_CTRL_BIST_REQ : Field := ⟨0x101, 0x100, 0, 0, 7, 7⟩
def ACAL_CTRL_FULL_CAL_REQ : Field := ⟨0x101, 0x100, 0, 0, 6, 6⟩
def ACAL_CTRL_SELFTEST_FORCE : Field := ⟨0x101, 0x100, 0, 0, 5, 5⟩
def ACAL_CTRL_TEMP_TRIG_EN : Field := ⟨0x101, 0x100, 0, 0, 4, 4⟩
def ACAL_CTRL_CAL_GATE : Field := ⟨0x101, 0x100, 0, 0, 3, 3⟩
def ACAL_CTRL_PHASE_ONLY : Field := ⟨0x101, 0x100, 0, 0, 1, 1⟩
def ACAL_CTRL_ROT_EN : Field := ⟨0x101, 0x100, 0, 0, 0, 0⟩
def ACAL_INTERVAL_MS : Field := ⟨0x101, 0x108, 0, 0, 19, 0⟩
def ACAL_TEMP_TRIG_THRESH : Field := ⟨0x101, 0x110, 0, 0, 7, 0⟩
def ACAL_STATUS_ROT_DONE : Field := ⟨0x101, 0x118, 0, 0, 63, 32⟩
def ACAL_STATUS_ROT_LATE : Field := ⟨0x101, 0x118, 0, 0, 31, 16⟩
def ACAL_STATUS_BIST_BUSY : Field := ⟨0x101, 0x118, 0, 0, 2, 2⟩
def ACAL_STATUS_WINDOW_OPEN : Field := ⟨0x101, 0x118, 0, 0, 1, 1⟩
def ACAL_STATUS_FULL_CAL_BUSY : Field := ⟨0x101, 0x118, 0, 0, 0, 0⟩
def ACAL_LIMITS_OFFSET_MAX : Field := ⟨0x101, 0x120, 0, 0, 63, 48⟩
def ACAL_LIMITS_GAIN_MAX : Field := ⟨0x101, 0x120, 0, 0, 47, 32⟩
def ACAL_LIMITS_NOISE_MAX : Field := ⟨0x101, 0x120, 0, 0, 31, 16⟩
def TSEQ_STATUS_CTX : Field := ⟨0x200, 0x200, 0, 0, 63, 48⟩
def TSEQ_STATUS_CTX_GEN : Field := ⟨0x200, 0x200, 0, 0, 47, 40⟩
def TSEQ_STATUS_LOOP_DEPTH : Field := ⟨0x200, 0x200, 0, 0, 34, 32⟩
def TSEQ_STATUS_PC : Field := ⟨0x200, 0x200, 0, 0, 31, 8⟩
def TSEQ_STATUS_STATE : Field := ⟨0x200, 0x200, 0, 0, 2, 0⟩
def TSEQ_WAIT_VALUE : Field := ⟨0x200, 0x208, 0, 0, 63, 32⟩
def TSEQ_WAIT_BY_WT : Field := ⟨0x200, 0x208, 0, 0, 4, 4⟩
def TSEQ_WAIT_COUNTER : Field := ⟨0x200, 0x208, 0, 0, 3, 0⟩
def TSEQ_FAULT_CTX : Field := ⟨0x200, 0x210, 0, 0, 63, 48⟩
def TSEQ_FAULT_CTX_GEN : Field := ⟨0x200, 0x210, 0, 0, 47, 40⟩
def TSEQ_FAULT_CODE : Field := ⟨0x200, 0x210, 0, 0, 39, 32⟩
def TSEQ_FAULT_PC : Field := ⟨0x200, 0x210, 0, 0, 31, 8⟩
def TSEQ_FAULT_MORE : Field := ⟨0x200, 0x210, 0, 0, 7, 0⟩
def TSEQ_FAULT_OP0_OP_LO : Field := ⟨0x200, 0x218, 0, 0, 63, 0⟩
def TSEQ_FAULT_OP1_OP_HI : Field := ⟨0x200, 0x220, 0, 0, 63, 0⟩
def TSEQ_ISSUED_COUNT : Field := ⟨0x200, 0x228, 0, 0, 63, 0⟩
def TSEQ_TAG_CTX : Field := ⟨0x200, 0x230, 0, 0, 15, 0⟩
def TCNT_VALUE : Field := ⟨0x200, 0x240, 8, 0, 31, 0⟩
def STORE_ARB_STARVE_CYC : Field := ⟨0x102, 0x100, 0, 0, 7, 0⟩
def STORE_SCRUB_PERIOD_S : Field := ⟨0x102, 0x108, 0, 0, 31, 16⟩
def STORE_SCRUB_LATE : Field := ⟨0x102, 0x108, 0, 0, 0, 0⟩
def STORE_ERR_LOG_TILE : Field := ⟨0x102, 0x110, 0, 0, 63, 56⟩
def STORE_ERR_LOG_STACK : Field := ⟨0x102, 0x110, 0, 0, 53, 53⟩
def STORE_ERR_LOG_UE : Field := ⟨0x102, 0x110, 0, 0, 52, 52⟩
def STORE_ERR_LOG_ADDR : Field := ⟨0x102, 0x110, 0, 0, 23, 0⟩
def STORE_ERR_COUNT_DE : Field := ⟨0x102, 0x118, 0, 0, 63, 32⟩
def STORE_ERR_COUNT_CE : Field := ⟨0x102, 0x118, 0, 0, 31, 0⟩
def HBMF_CTRL_AUTO_RETIRE : Field := ⟨0x104, 0x100, 0, 0, 0, 0⟩
def HBMF_STATUS_VISIBLE_MB : Field := ⟨0x104, 0x108, 0, 0, 43, 24⟩
def HBMF_STATUS_FENCED_PC : Field := ⟨0x104, 0x108, 0, 0, 23, 16⟩
def HBMF_STATUS_RET_USED : Field := ⟨0x104, 0x108, 0, 0, 12, 0⟩
def HBMF_FENCE_PC : Field := ⟨0x104, 0x110, 8, 0, 63, 0⟩
def HBMF_MAP_PC : Field := ⟨0x104, 0x120, 8, 0, 63, 0⟩
def HBMF_RET_INDEX_INDEX : Field := ⟨0x104, 0x130, 0, 0, 11, 0⟩
def HBMF_RET_DATA_VALID : Field := ⟨0x104, 0x138, 0, 0, 63, 63⟩
def HBMF_RET_DATA_SRC : Field := ⟨0x104, 0x138, 0, 0, 62, 61⟩
def HBMF_RET_DATA_PAGE : Field := ⟨0x104, 0x138, 0, 0, 58, 32⟩
def HBMF_RET_DATA_TARGET : Field := ⟨0x104, 0x138, 0, 0, 17, 0⟩
def HBMF_RET_ADD_PAGE : Field := ⟨0x104, 0x140, 0, 0, 58, 32⟩
def HBMF_RET_CAND_PEND : Field := ⟨0x104, 0x148, 0, 0, 63, 63⟩
def HBMF_RET_CAND_SRC : Field := ⟨0x104, 0x148, 0, 0, 62, 61⟩
def HBMF_RET_CAND_PAGE : Field := ⟨0x104, 0x148, 0, 0, 58, 32⟩
def HBMF_RET_POLICY_CE_THRESH : Field := ⟨0x104, 0x150, 0, 0, 15, 8⟩
def HBMF_RET_POLICY_CE_WINDOW_H : Field := ⟨0x104, 0x150, 0, 0, 7, 0⟩
def HBMF_SCRUB_PERIOD_H : Field := ⟨0x104, 0x158, 0, 0, 47, 32⟩
def HBMF_SCRUB_PASSES : Field := ⟨0x104, 0x158, 0, 0, 31, 0⟩
def HBMF_TEST_BASE_BASE : Field := ⟨0x104, 0x160, 0, 0, 38, 0⟩
def HBMF_TEST_SIZE_SIZE : Field := ⟨0x104, 0x168, 0, 0, 38, 0⟩
def HBMF_TEST_CTRL_SELFTEST_FORCE : Field := ⟨0x104, 0x170, 0, 0, 5, 5⟩
def HBMF_TEST_CTRL_SPPR_EN : Field := ⟨0x104, 0x170, 0, 0, 4, 4⟩
def HBMF_TEST_CTRL_PATTERN : Field := ⟨0x104, 0x170, 0, 0, 3, 2⟩
def HBMF_TEST_CTRL_START : Field := ⟨0x104, 0x170, 0, 0, 1, 1⟩
def HBMF_TEST_CTRL_RELEASE : Field := ⟨0x104, 0x170, 0, 0, 0, 0⟩
def HBMF_TEST_STATUS_FAIL_PAGES : Field := ⟨0x104, 0x178, 0, 0, 63, 32⟩
def HBMF_TEST_STATUS_STATE : Field := ⟨0x104, 0x178, 0, 0, 2, 0⟩
def BRIDGE_STATUS_RETRIES : Field := ⟨0x104, 0x180, 0, 0, 63, 32⟩
def BRIDGE_STATUS_STATE : Field := ⟨0x104, 0x180, 0, 0, 1, 0⟩
def HBMC_STATUS_TEMP : Field := ⟨0x110, 0x100, 0, 0, 63, 56⟩
def HBMC_STATUS_RATE : Field := ⟨0x110, 0x100, 0, 0, 41, 40⟩
def HBMC_STATUS_STATE : Field := ⟨0x110, 0x100, 0, 0, 35, 32⟩
def HBMC_STATUS_FENCED : Field := ⟨0x110, 0x100, 0, 0, 31, 0⟩
def HBMC_REF_CTRL_POSTPONE_MAX : Field := ⟨0x110, 0x108, 0, 0, 11, 8⟩
def HBMC_REF_CTRL_PULLIN_MAX : Field := ⟨0x110, 0x108, 0, 0, 7, 4⟩
def HBMC_REF_CTRL_WINDOW_EN : Field := ⟨0x110, 0x108, 0, 0, 0, 0⟩
def HBMC_REF_STATUS_REFAB : Field := ⟨0x110, 0x110, 0, 0, 63, 32⟩
def HBMC_REF_STATUS_CREDIT : Field := ⟨0x110, 0x110, 0, 0, 15, 8⟩
def HBMC_REF_STATUS_WINDOW_OPEN : Field := ⟨0x110, 0x110, 0, 0, 0, 0⟩
def HBMC_ERR_COUNT_LOST : Field := ⟨0x110, 0x118, 0, 0, 63, 48⟩
def HBMC_ERR_COUNT_DE : Field := ⟨0x110, 0x118, 0, 0, 47, 32⟩
def HBMC_ERR_COUNT_CE : Field := ⟨0x110, 0x118, 0, 0, 31, 0⟩
def HBMC_ERR_LOG_CLASS : Field := ⟨0x110, 0x120, 0, 0, 63, 62⟩
def HBMC_ERR_LOG_SCRUB : Field := ⟨0x110, 0x120, 0, 0, 61, 61⟩
def HBMC_ERR_LOG_PC : Field := ⟨0x110, 0x120, 0, 0, 60, 56⟩
def HBMC_ERR_LOG_ADDR : Field := ⟨0x110, 0x120, 0, 0, 38, 6⟩
def HBMC_ERR_LOG_SYMBOL : Field := ⟨0x110, 0x120, 0, 0, 5, 0⟩
def HBMC_NMU_OPS : Field := ⟨0x110, 0x128, 0, 0, 63, 32⟩
def HBMC_NMU_SAT : Field := ⟨0x110, 0x128, 0, 0, 31, 0⟩
def HBMC_PPR_HARD_USED : Field := ⟨0x110, 0x130, 0, 0, 31, 16⟩
def HBMC_PPR_SOFT_ACTIVE : Field := ⟨0x110, 0x130, 0, 0, 15, 0⟩
def RING_ARB_W_ENGINE : Field := ⟨0x120, 0x100, 0, 0, 39, 32⟩
def RING_ARB_W_LINK : Field := ⟨0x120, 0x100, 0, 0, 31, 24⟩
def RING_ARB_W_HOST : Field := ⟨0x120, 0x100, 0, 0, 23, 16⟩
def RING_ARB_W_BRIDGE : Field := ⟨0x120, 0x100, 0, 0, 15, 8⟩
def RING_ARB_W_CORE : Field := ⟨0x120, 0x100, 0, 0, 7, 0⟩
def RING_STATUS_FENCED : Field := ⟨0x120, 0x108, 0, 0, 43, 0⟩
def CRYPTO_KEY_SEL_DOMAIN : Field := ⟨0x120, 0x110, 0, 0, 27, 16⟩
def CRYPTO_KEY_SEL_SLOT : Field := ⟨0x120, 0x110, 0, 0, 4, 0⟩
def CRYPTO_KEY_W_KEY : Field := ⟨0x120, 0x118, 8, 0, 63, 0⟩
def CRYPTO_KEY_CMD_CLEAR : Field := ⟨0x120, 0x138, 0, 0, 1, 1⟩
def CRYPTO_KEY_CMD_COMMIT : Field := ⟨0x120, 0x138, 0, 0, 0, 0⟩
def CRYPTO_KEY_VALID_VALID : Field := ⟨0x120, 0x140, 0, 0, 31, 0⟩
def ENG_STATUS_GEN : Field := ⟨0x140, 0x100, 0, 0, 63, 56⟩
def ENG_STATUS_PART : Field := ⟨0x140, 0x100, 0, 0, 55, 50⟩
def ENG_STATUS_PART_VALID : Field := ⟨0x140, 0x100, 0, 0, 49, 49⟩
def ENG_STATUS_CTX : Field := ⟨0x140, 0x100, 0, 0, 47, 32⟩
def ENG_STATUS_QUEUED : Field := ⟨0x140, 0x100, 0, 0, 14, 12⟩
def ENG_STATUS_STATE : Field := ⟨0x140, 0x100, 0, 0, 2, 0⟩
def ENG_WDOG_MS : Field := ⟨0x140, 0x108, 0, 0, 15, 0⟩
def ENG_LAST_ERR_CTX : Field := ⟨0x140, 0x110, 0, 0, 63, 48⟩
def ENG_LAST_ERR_CTX_GEN : Field := ⟨0x140, 0x110, 0, 0, 47, 40⟩
def ENG_LAST_ERR_CODE : Field := ⟨0x140, 0x110, 0, 0, 39, 32⟩
def ENG_LAST_ERR_ERRORS : Field := ⟨0x140, 0x110, 0, 0, 15, 0⟩
def ENG_ERR_ADDR_ADDR : Field := ⟨0x140, 0x118, 0, 0, 49, 0⟩
def ENG_ERR_HDR0_W0 : Field := ⟨0x140, 0x120, 0, 0, 63, 0⟩
def ENG_ERR_HDR1_W1 : Field := ⟨0x140, 0x128, 0, 0, 63, 0⟩
def ENG_DONE_COUNT : Field := ⟨0x140, 0x130, 0, 0, 63, 0⟩
def ENG_BYTES_COUNT : Field := ⟨0x140, 0x138, 0, 0, 63, 0⟩
def ENG_FLAGS_NV : Field := ⟨0x140, 0x140, 0, 0, 4, 4⟩
def ENG_FLAGS_DZ : Field := ⟨0x140, 0x140, 0, 0, 3, 3⟩
def ENG_FLAGS_OF : Field := ⟨0x140, 0x140, 0, 0, 2, 2⟩
def ENG_FLAGS_UF : Field := ⟨0x140, 0x140, 0, 0, 1, 1⟩
def ENG_FLAGS_NX : Field := ⟨0x140, 0x140, 0, 0, 0, 0⟩
def ENG_LATE_DROP_COUNT : Field := ⟨0x140, 0x148, 0, 0, 31, 0⟩
def CORE_CTRL_RESET : Field := ⟨0x180, 0x100, 0, 0, 1, 1⟩
def CORE_CTRL_HALT : Field := ⟨0x180, 0x100, 0, 0, 0, 0⟩
def CORE_CFG_LM_SIZE : Field := ⟨0x180, 0x108, 0, 0, 1, 0⟩
def CORE_STATUS_CE_COUNT : Field := ⟨0x180, 0x110, 0, 0, 63, 32⟩
def CORE_STATUS_STATE : Field := ⟨0x180, 0x110, 0, 0, 2, 0⟩
def CORE_ERR_VALID : Field := ⟨0x180, 0x118, 0, 0, 63, 63⟩
def CORE_ERR_POISON : Field := ⟨0x180, 0x118, 0, 0, 62, 62⟩
def CORE_ERR_ADDR : Field := ⟨0x180, 0x118, 0, 0, 49, 0⟩
def CTX_SEL_ID : Field := ⟨0x20, 0x100, 0, 0, 15, 0⟩
def CTX_CFG_WEIGHT : Field := ⟨0x20, 0x108, 0, 0, 31, 24⟩
def CTX_CFG_PRIO : Field := ⟨0x20, 0x108, 0, 0, 18, 16⟩
def CTX_CFG_PART : Field := ⟨0x20, 0x108, 0, 0, 5, 0⟩
def CTX_RING_BASE : Field := ⟨0x20, 0x110, 0, 0, 49, 12⟩
def CTX_RING_SIZE_LOG2 : Field := ⟨0x20, 0x110, 0, 0, 4, 0⟩
def CTX_PTR_TAIL : Field := ⟨0x20, 0x118, 0, 0, 48, 32⟩
def CTX_PTR_HEAD : Field := ⟨0x20, 0x118, 0, 0, 16, 0⟩
def CTX_STATUS_GEN : Field := ⟨0x20, 0x120, 0, 0, 63, 56⟩
def CTX_STATUS_OUTSTANDING : Field := ⟨0x20, 0x120, 0, 0, 47, 32⟩
def CTX_STATUS_WAIT_KIND : Field := ⟨0x20, 0x120, 0, 0, 31, 28⟩
def CTX_STATUS_STATE : Field := ⟨0x20, 0x120, 0, 0, 3, 0⟩
def CTX_WAIT_VALUE : Field := ⟨0x20, 0x128, 0, 0, 63, 32⟩
def CTX_WAIT_COUNTER : Field := ⟨0x20, 0x128, 0, 0, 16, 0⟩
def CTX_FAULT_SOURCE : Field := ⟨0x20, 0x130, 0, 0, 63, 61⟩
def CTX_FAULT_MORE : Field := ⟨0x20, 0x130, 0, 0, 60, 56⟩
def CTX_FAULT_CODE : Field := ⟨0x20, 0x130, 0, 0, 55, 48⟩
def CTX_FAULT_GEN : Field := ⟨0x20, 0x130, 0, 0, 47, 40⟩
def CTX_FAULT_DETAIL : Field := ⟨0x20, 0x130, 0, 0, 39, 24⟩
def CTX_FAULT_ITEM : Field := ⟨0x20, 0x130, 0, 0, 16, 0⟩
def CTX_ENERGY_UJ : Field := ⟨0x20, 0x138, 0, 0, 63, 0⟩
def CTX_CMD_CMD : Field := ⟨0x20, 0x140, 0, 0, 2, 0⟩
def CTX_PROD_VALID : Field := ⟨0x20, 0x148, 8, 0, 17, 17⟩
def CTX_PROD_COUNTER : Field := ⟨0x20, 0x148, 8, 0, 16, 0⟩
def DOM_SEL_VIEW : Field := ⟨0x21, 0x100, 0, 0, 16, 16⟩
def DOM_SEL_WIN : Field := ⟨0x21, 0x100, 0, 0, 15, 12⟩
def DOM_SEL_DOMAIN : Field := ⟨0x21, 0x100, 0, 0, 11, 0⟩
def DOM_WIN_BASE_BASE : Field := ⟨0x21, 0x108, 0, 0, 49, 12⟩
def DOM_WIN_SIZE_VALID : Field := ⟨0x21, 0x110, 0, 0, 63, 63⟩
def DOM_WIN_SIZE_X : Field := ⟨0x21, 0x110, 0, 0, 40, 40⟩
def DOM_WIN_SIZE_W : Field := ⟨0x21, 0x110, 0, 0, 39, 39⟩
def DOM_WIN_SIZE_R : Field := ⟨0x21, 0x110, 0, 0, 38, 38⟩
def DOM_WIN_SIZE_PAGES : Field := ⟨0x21, 0x110, 0, 0, 37, 0⟩
def DOM_CFG_CHANGED : Field := ⟨0x21, 0x118, 0, 0, 1, 1⟩
def DOM_CFG_ENABLE : Field := ⟨0x21, 0x118, 0, 0, 0, 0⟩
def DOM_ENERGY_UJ : Field := ⟨0x21, 0x120, 0, 0, 63, 0⟩
def PROT_EPOCH_CTRL_ADVANCE : Field := ⟨0x21, 0x128, 0, 0, 0, 0⟩
def PROT_EPOCH_STATUS_EPOCH : Field := ⟨0x21, 0x130, 0, 0, 63, 48⟩
def PROT_EPOCH_STATUS_HELD : Field := ⟨0x21, 0x130, 0, 0, 47, 32⟩
def PROT_EPOCH_STATUS_CHANGED : Field := ⟨0x21, 0x130, 0, 0, 31, 16⟩
def PROT_EPOCH_STATUS_PENDING : Field := ⟨0x21, 0x130, 0, 0, 0, 0⟩
def PROT_EPOCH_TIME_LAST_NS : Field := ⟨0x21, 0x138, 0, 0, 31, 0⟩
def PART_CFG_DOMAIN : Field := ⟨0x22, 0x100, 32, 0, 55, 44⟩
def PART_CFG_FROND : Field := ⟨0x22, 0x100, 32, 0, 40, 40⟩
def PART_CFG_WIDTH : Field := ⟨0x22, 0x100, 32, 0, 28, 24⟩
def PART_CFG_HEIGHT : Field := ⟨0x22, 0x100, 32, 0, 23, 20⟩
def PART_CFG_ROW0 : Field := ⟨0x22, 0x100, 32, 0, 18, 16⟩
def PART_CFG_COL0 : Field := ⟨0x22, 0x100, 32, 0, 3, 0⟩
def PART_ENG_MASK : Field := ⟨0x22, 0x108, 32, 0, 43, 0⟩
def PART_STATUS_GEN : Field := ⟨0x22, 0x110, 32, 0, 63, 56⟩
def PART_STATUS_FAIL : Field := ⟨0x22, 0x110, 32, 0, 55, 48⟩
def PART_STATUS_CTX_BOUND : Field := ⟨0x22, 0x110, 32, 0, 47, 32⟩
def PART_STATUS_STATE : Field := ⟨0x22, 0x110, 32, 0, 2, 0⟩
def PART_CMD_CMD : Field := ⟨0x22, 0x118, 32, 0, 1, 0⟩
def SUB_COUNT_REJECTED : Field := ⟨0x23, 0x100, 0, 0, 63, 32⟩
def SUB_COUNT_ACCEPTED : Field := ⟨0x23, 0x100, 0, 0, 31, 0⟩
def SUB_LAST_REJECT_CTX : Field := ⟨0x23, 0x108, 0, 0, 63, 48⟩
def SUB_LAST_REJECT_SOURCE : Field := ⟨0x23, 0x108, 0, 0, 39, 36⟩
def SUB_LAST_REJECT_REASON : Field := ⟨0x23, 0x108, 0, 0, 35, 32⟩
def SCHED_CTRL_EN : Field := ⟨0x106, 0x100, 0, 0, 0, 0⟩
def SCHED_STATUS_ACTIVE : Field := ⟨0x106, 0x108, 0, 0, 63, 48⟩
def SCHED_STATUS_RESERVE_CTX : Field := ⟨0x106, 0x108, 0, 0, 47, 32⟩
def SCHED_STATUS_READY_LVL : Field := ⟨0x106, 0x108, 0, 0, 7, 0⟩
def SCHED_DISPATCHED_COUNT : Field := ⟨0x106, 0x110, 0, 0, 63, 0⟩
def LINK_ID_MOD_INDEX : Field := ⟨0x28, 0x100, 0, 0, 5, 0⟩
def LINK_CTRL_COLL_TIMEOUT_MS : Field := ⟨0x28, 0x108, 0, 0, 63, 48⟩
def LINK_CTRL_TRK_TIMEOUT_MS : Field := ⟨0x28, 0x108, 0, 0, 47, 32⟩
def LINK_CTRL_ESC_NS : Field := ⟨0x28, 0x108, 0, 0, 31, 16⟩
def LINK_CTRL_TEST_GATE : Field := ⟨0x28, 0x108, 0, 0, 2, 2⟩
def LINK_CTRL_RELAY_EN : Field := ⟨0x28, 0x108, 0, 0, 1, 1⟩
def LINK_CTRL_ROUTE_EN : Field := ⟨0x28, 0x108, 0, 0, 0, 0⟩
def LINK_STEWARD_VALID : Field := ⟨0x28, 0x110, 0, 0, 6, 6⟩
def LINK_STEWARD_INDEX : Field := ⟨0x28, 0x110, 0, 0, 5, 0⟩
def LINK_MARK_DEST_MASK : Field := ⟨0x28, 0x118, 0, 0, 63, 0⟩
def LINK_PING_START : Field := ⟨0x28, 0x120, 0, 0, 63, 63⟩
def LINK_PING_DONE : Field := ⟨0x28, 0x120, 0, 0, 62, 62⟩
def LINK_PING_FAIL : Field := ⟨0x28, 0x120, 0, 0, 61, 61⟩
def LINK_PING_TARGET : Field := ⟨0x28, 0x120, 0, 0, 37, 32⟩
def LINK_PING_RTT_NS : Field := ⟨0x28, 0x120, 0, 0, 31, 0⟩
def LINK_RELAY_KEY_KEY : Field := ⟨0x28, 0x128, 8, 0, 63, 0⟩
def LINK_RELAY_KEY_CMD_VALID : Field := ⟨0x28, 0x148, 0, 0, 1, 1⟩
def LINK_RELAY_KEY_CMD_COMMIT : Field := ⟨0x28, 0x148, 0, 0, 0, 0⟩
def LINK_RELAY_COUNT_DROPPED : Field := ⟨0x28, 0x150, 0, 0, 63, 32⟩
def LINK_RELAY_COUNT_RELAYED : Field := ⟨0x28, 0x150, 0, 0, 31, 0⟩
def LINK_ROUTE_VALID : Field := ⟨0x28, 0x200, 8, 0, 63, 63⟩
def LINK_ROUTE_ESC : Field := ⟨0x28, 0x200, 8, 0, 47, 24⟩
def LINK_ROUTE_MASK : Field := ⟨0x28, 0x200, 8, 0, 23, 0⟩
def LINK_ADMIT_ALLOW : Field := ⟨0x28, 0x400, 8, 0, 63, 63⟩
def LINK_ADMIT_REGIONS : Field := ⟨0x28, 0x400, 8, 0, 4, 0⟩
def TRK_STATUS_OUTSTANDING : Field := ⟨0x1C0, 0x100, 0, 0, 47, 32⟩
def TRK_STATUS_GROUPS_BUSY : Field := ⟨0x1C0, 0x100, 0, 0, 31, 16⟩
def TRK_COUNTS_TIMEOUTS : Field := ⟨0x1C0, 0x108, 0, 0, 63, 48⟩
def TRK_COUNTS_LATE_DROP : Field := ⟨0x1C0, 0x108, 0, 0, 47, 32⟩
def TRK_COUNTS_NOROUTE : Field := ⟨0x1C0, 0x108, 0, 0, 31, 16⟩
def TRK_COUNTS_AGED : Field := ⟨0x1C0, 0x108, 0, 0, 15, 0⟩
def TRK_LAST_CTX : Field := ⟨0x1C0, 0x110, 0, 0, 63, 48⟩
def TRK_LAST_CTX_GEN : Field := ⟨0x1C0, 0x110, 0, 0, 47, 40⟩
def TRK_LAST_DEST : Field := ⟨0x1C0, 0x110, 0, 0, 37, 32⟩
def TRK_LAST_CAUSE : Field := ⟨0x1C0, 0x110, 0, 0, 31, 28⟩
def TRK_LAST_OPC : Field := ⟨0x1C0, 0x110, 0, 0, 27, 20⟩
def TRK_LAST_ADDR_ADDR : Field := ⟨0x1C0, 0x118, 0, 0, 49, 0⟩
def LINK_CORE_ERR_VALID : Field := ⟨0x1C0, 0x120, 0, 0, 63, 63⟩
def LINK_CORE_ERR_CORE : Field := ⟨0x1C0, 0x120, 0, 0, 58, 56⟩
def LINK_CORE_ERR_CAUSE : Field := ⟨0x1C0, 0x120, 0, 0, 55, 52⟩
def LINK_CORE_ERR_ADDR : Field := ⟨0x1C0, 0x120, 0, 0, 49, 0⟩
def LPORT_CFG_KEY_SLOT : Field := ⟨0x1D0, 0x100, 0, 0, 15, 11⟩
def LPORT_CFG_CRYPT : Field := ⟨0x1D0, 0x100, 0, 0, 10, 10⟩
def LPORT_CFG_DATELINE : Field := ⟨0x1D0, 0x100, 0, 0, 3, 3⟩
def LPORT_CFG_ALLOW_X2 : Field := ⟨0x1D0, 0x100, 0, 0, 2, 2⟩
def LPORT_CFG_EN : Field := ⟨0x1D0, 0x100, 0, 0, 0, 0⟩
def LPORT_STATUS_RETRAINS : Field := ⟨0x1D0, 0x108, 0, 0, 63, 56⟩
def LPORT_STATUS_PEER_MOD : Field := ⟨0x1D0, 0x108, 0, 0, 47, 42⟩
def LPORT_STATUS_PEER_PORT : Field := ⟨0x1D0, 0x108, 0, 0, 41, 37⟩
def LPORT_STATUS_PEER_VALID : Field := ⟨0x1D0, 0x108, 0, 0, 36, 36⟩
def LPORT_STATUS_LANES_GOOD : Field := ⟨0x1D0, 0x108, 0, 0, 35, 32⟩
def LPORT_STATUS_REJOIN_WAIT : Field := ⟨0x1D0, 0x108, 0, 0, 7, 7⟩
def LPORT_STATUS_STATE : Field := ⟨0x1D0, 0x108, 0, 0, 3, 0⟩
def LPORT_CMD_CMD : Field := ⟨0x1D0, 0x110, 0, 0, 1, 0⟩
def LPORT_ERR_COUNT_UNCORR : Field := ⟨0x1D0, 0x118, 0, 0, 63, 48⟩
def LPORT_ERR_COUNT_RETRY : Field := ⟨0x1D0, 0x118, 0, 0, 47, 32⟩
def LPORT_ERR_COUNT_CORR_SYMBOLS : Field := ⟨0x1D0, 0x118, 0, 0, 31, 0⟩
def LPORT_TX_FLITS_COUNT : Field := ⟨0x1D0, 0x120, 0, 0, 63, 0⟩
def LPORT_RX_FLITS_COUNT : Field := ⟨0x1D0, 0x128, 0, 0, 63, 0⟩
def LPORT_LOST_COUNT : Field := ⟨0x1D0, 0x130, 0, 0, 31, 0⟩
def LPORT_TEST_ERRORS : Field := ⟨0x1D0, 0x138, 0, 0, 63, 32⟩
def LPORT_TEST_DURATION_MS : Field := ⟨0x1D0, 0x138, 0, 0, 31, 16⟩
def LPORT_TEST_RESULT : Field := ⟨0x1D0, 0x138, 0, 0, 1, 0⟩
def COLL_STATUS_ARMED : Field := ⟨0x29, 0x100, 0, 0, 31, 16⟩
def COLL_STATUS_RUNNING : Field := ⟨0x29, 0x100, 0, 0, 15, 0⟩
def COLL_CTRL_CTX : Field := ⟨0x29, 0x200, 64, 0, 63, 48⟩
def COLL_CTRL_STATE : Field := ⟨0x29, 0x200, 64, 0, 47, 44⟩
def COLL_CTRL_ERR : Field := ⟨0x29, 0x200, 64, 0, 43, 40⟩
def COLL_CTRL_COLL_ID : Field := ⟨0x29, 0x200, 64, 0, 39, 32⟩
def COLL_CTRL_SIG_ON_ERR : Field := ⟨0x29, 0x200, 64, 0, 19, 19⟩
def COLL_CTRL_ABORT : Field := ⟨0x29, 0x200, 64, 0, 18, 18⟩
def COLL_CTRL_ARM : Field := ⟨0x29, 0x200, 64, 0, 17, 17⟩
def COLL_CTRL_OP : Field := ⟨0x29, 0x200, 64, 0, 11, 10⟩
def COLL_CTRL_RED : Field := ⟨0x29, 0x200, 64, 0, 9, 8⟩
def COLL_CTRL_DIRS : Field := ⟨0x29, 0x200, 64, 0, 5, 5⟩
def COLL_CTRL_OUTFP32 : Field := ⟨0x29, 0x200, 64, 0, 4, 4⟩
def COLL_CTRL_FMT_IN : Field := ⟨0x29, 0x200, 64, 0, 1, 0⟩
def COLL_MEMBERS_MASK : Field := ⟨0x29, 0x208, 64, 0, 63, 0⟩
def COLL_SRC_ADDR : Field := ⟨0x29, 0x210, 64, 0, 49, 0⟩
def COLL_DST_ADDR : Field := ⟨0x29, 0x218, 64, 0, 49, 0⟩
def COLL_COUNT_N : Field := ⟨0x29, 0x220, 64, 0, 39, 0⟩
def COLL_TRIG_VALUE : Field := ⟨0x29, 0x228, 64, 0, 63, 32⟩
def COLL_TRIG_COUNTER : Field := ⟨0x29, 0x228, 64, 0, 16, 0⟩
def COLL_DONE_TARGET : Field := ⟨0x29, 0x230, 64, 0, 63, 0⟩
def COLL_PROG_STEP : Field := ⟨0x29, 0x238, 64, 0, 63, 32⟩
def COLL_PROG_SEGMENTS : Field := ⟨0x29, 0x238, 64, 0, 31, 0⟩
def HOSTP_CFG_MTU : Field := ⟨0xA8, 0x100, 0, 0, 63, 48⟩
def HOSTP_CFG_VLAN_EN : Field := ⟨0xA8, 0x100, 0, 0, 47, 47⟩
def HOSTP_CFG_PCP_CTRL : Field := ⟨0xA8, 0x100, 0, 0, 46, 44⟩
def HOSTP_CFG_VID : Field := ⟨0xA8, 0x100, 0, 0, 43, 32⟩
def HOSTP_CFG_PCP_DATA : Field := ⟨0xA8, 0x100, 0, 0, 31, 29⟩
def HOSTP_CFG_UDP_EN : Field := ⟨0xA8, 0x100, 0, 0, 28, 28⟩
def HOSTP_CFG_L2_EN : Field := ⟨0xA8, 0x100, 0, 0, 27, 27⟩
def HOSTP_CFG_ETHERTYPE : Field := ⟨0xA8, 0x100, 0, 0, 23, 8⟩
def HOSTP_CFG_MODE_MAX : Field := ⟨0xA8, 0x100, 0, 0, 1, 0⟩
def HOSTP_STATUS_LANES_GOOD : Field := ⟨0xA8, 0x108, 0, 0, 23, 16⟩
def HOSTP_STATUS_MODE : Field := ⟨0xA8, 0x108, 0, 0, 9, 8⟩
def HOSTP_STATUS_STATE : Field := ⟨0xA8, 0x108, 0, 0, 1, 0⟩
def HOSTP_MAC_MAC : Field := ⟨0xA8, 0x110, 0, 0, 47, 0⟩
def HOSTP_IP6_HI_ADDR : Field := ⟨0xA8, 0x118, 0, 0, 63, 0⟩
def HOSTP_IP6_LO_ADDR : Field := ⟨0xA8, 0x120, 0, 0, 63, 0⟩
def HOSTP_UDP_PORT : Field := ⟨0xA8, 0x128, 0, 0, 15, 0⟩
def HOSTP_PFC_XOFF_KB : Field := ⟨0xA8, 0x130, 0, 0, 31, 16⟩
def HOSTP_PFC_TX_EN : Field := ⟨0xA8, 0x130, 0, 0, 15, 8⟩
def HOSTP_PFC_RX_EN : Field := ⟨0xA8, 0x130, 0, 0, 7, 0⟩
def HOSTP_ERR_COUNT_FCS : Field := ⟨0xA8, 0x138, 0, 0, 63, 48⟩
def HOSTP_ERR_COUNT_FEC_UNCORR : Field := ⟨0xA8, 0x138, 0, 0, 47, 32⟩
def HOSTP_ERR_COUNT_DROPPED : Field := ⟨0xA8, 0x138, 0, 0, 31, 16⟩
def HOSTP_ERR_COUNT_RX_OVERFLOW : Field := ⟨0xA8, 0x138, 0, 0, 15, 0⟩
def HOSTP_RX_FRAMES_COUNT : Field := ⟨0xA8, 0x140, 0, 0, 63, 0⟩
def HOSTP_TX_FRAMES_COUNT : Field := ⟨0xA8, 0x148, 0, 0, 63, 0⟩
def PTP_CFG_TRANSPORT : Field := ⟨0xA8, 0x150, 0, 0, 10, 9⟩
def PTP_CFG_EN : Field := ⟨0xA8, 0x150, 0, 0, 8, 8⟩
def PTP_CFG_DOMAIN : Field := ⟨0xA8, 0x150, 0, 0, 7, 0⟩
def PTP_STATUS_OFFSET_NS : Field := ⟨0xA8, 0x158, 0, 0, 63, 32⟩
def PTP_STATUS_STATE : Field := ⟨0xA8, 0x158, 0, 0, 2, 0⟩
def PTP_TIME_TAI_NS : Field := ⟨0xA8, 0x160, 0, 0, 63, 0⟩
def BRYN_CTRL_IDLE_S : Field := ⟨0xA9, 0x100, 0, 0, 63, 52⟩
def BRYN_CTRL_RETRIES : Field := ⟨0xA9, 0x100, 0, 0, 51, 48⟩
def BRYN_CTRL_RTO_US : Field := ⟨0xA9, 0x100, 0, 0, 47, 32⟩
def BRYN_CTRL_ACK_DELAY_US : Field := ⟨0xA9, 0x100, 0, 0, 31, 16⟩
def BRYN_CTRL_MAX_SESS : Field := ⟨0xA9, 0x100, 0, 0, 15, 8⟩
def BRYN_CTRL_EN : Field := ⟨0xA9, 0x100, 0, 0, 0, 0⟩
def BRYN_STATUS_HS_BUSY : Field := ⟨0xA9, 0x108, 0, 0, 32, 32⟩
def BRYN_STATUS_TAGS_OUT : Field := ⟨0xA9, 0x108, 0, 0, 29, 16⟩
def BRYN_STATUS_SESS_OPEN : Field := ⟨0xA9, 0x108, 0, 0, 6, 0⟩
def BRYN_COUNTS_AUTH_FAIL : Field := ⟨0xA9, 0x110, 0, 0, 63, 48⟩
def BRYN_COUNTS_REFUSED : Field := ⟨0xA9, 0x110, 0, 0, 47, 32⟩
def BRYN_COUNTS_RETX : Field := ⟨0xA9, 0x110, 0, 0, 31, 16⟩
def BRYN_COUNTS_HS_DONE : Field := ⟨0xA9, 0x110, 0, 0, 15, 0⟩
def HSESS_SEL_SLOT : Field := ⟨0xA9, 0x118, 0, 0, 5, 0⟩
def HSESS_STATUS_ID : Field := ⟨0xA9, 0x120, 0, 0, 63, 48⟩
def HSESS_STATUS_LEVEL : Field := ⟨0xA9, 0x120, 0, 0, 47, 46⟩
def HSESS_STATUS_DOMAIN : Field := ⟨0xA9, 0x120, 0, 0, 45, 34⟩
def HSESS_STATUS_KEY : Field := ⟨0xA9, 0x120, 0, 0, 33, 30⟩
def HSESS_STATUS_STATE : Field := ⟨0xA9, 0x120, 0, 0, 2, 0⟩
def HSESS_PEER_UDP : Field := ⟨0xA9, 0x128, 0, 0, 48, 48⟩
def HSESS_PEER_MAC : Field := ⟨0xA9, 0x128, 0, 0, 47, 0⟩
def HSESS_SEQ_RX_ACK : Field := ⟨0xA9, 0x130, 0, 0, 63, 32⟩
def HSESS_SEQ_TX_SEQ : Field := ⟨0xA9, 0x130, 0, 0, 31, 0⟩
def HSESS_EVT_MIN_SEV : Field := ⟨0xA9, 0x138, 0, 0, 19, 16⟩
def HSESS_EVT_RANGES : Field := ⟨0xA9, 0x138, 0, 0, 15, 0⟩
def HSESS_CMD_CMD : Field := ⟨0xA9, 0x140, 0, 0, 1, 0⟩
def HKEY_HASH_HASH : Field := ⟨0xA9, 0x200, 64, 8, 63, 0⟩
def HKEY_CFG_VALID : Field := ⟨0xA9, 0x220, 64, 0, 63, 63⟩
def HKEY_CFG_MAX_LEVEL : Field := ⟨0xA9, 0x220, 64, 0, 17, 16⟩
def HKEY_CFG_DOMAIN : Field := ⟨0xA9, 0x220, 64, 0, 11, 0⟩
def PWR_CTRL_STOP : Field := ⟨0x40, 0x100, 0, 0, 7, 7⟩
def PWR_CTRL_FORCE_BUS_ONLY : Field := ⟨0x40, 0x100, 0, 0, 6, 6⟩
def PWR_CTRL_REVERSE_EN : Field := ⟨0x40, 0x100, 0, 0, 5, 5⟩
def PWR_CTRL_FF_EN : Field := ⟨0x40, 0x100, 0, 0, 4, 4⟩
def PWR_CTRL_ACT_SCALE : Field := ⟨0x40, 0x100, 0, 0, 3, 3⟩
def PWR_CTRL_SOC_EN : Field := ⟨0x40, 0x100, 0, 0, 2, 2⟩
def PWR_CTRL_BUF_EN : Field := ⟨0x40, 0x100, 0, 0, 1, 1⟩
def PWR_STATUS_DIV_STEPS : Field := ⟨0x40, 0x108, 0, 0, 63, 56⟩
def PWR_STATUS_OK_STEPS : Field := ⟨0x40, 0x108, 0, 0, 55, 48⟩
def PWR_STATUS_FF_STATE : Field := ⟨0x40, 0x108, 0, 0, 15, 14⟩
def PWR_STATUS_SLEWING : Field := ⟨0x40, 0x108, 0, 0, 13, 13⟩
def PWR_STATUS_EXPORT : Field := ⟨0x40, 0x108, 0, 0, 12, 12⟩
def PWR_STATUS_STOPPING : Field := ⟨0x40, 0x108, 0, 0, 11, 11⟩
def PWR_STATUS_CHG_INHIBIT : Field := ⟨0x40, 0x108, 0, 0, 10, 10⟩
def PWR_STATUS_DISCH_INHIBIT : Field := ⟨0x40, 0x108, 0, 0, 9, 9⟩
def PWR_STATUS_FF_DIVERGE : Field := ⟨0x40, 0x108, 0, 0, 8, 8⟩
def PWR_STATUS_REST : Field := ⟨0x40, 0x108, 0, 0, 4, 4⟩
def PWR_STATUS_FALLBACK : Field := ⟨0x40, 0x108, 0, 0, 3, 3⟩
def PWR_STATUS_MODE : Field := ⟨0x40, 0x108, 0, 0, 2, 0⟩
def PWR_EVENTS_INHIBIT : Field := ⟨0x40, 0x110, 0, 0, 6, 6⟩
def PWR_EVENTS_EXPORT_STOP : Field := ⟨0x40, 0x110, 0, 0, 5, 5⟩
def PWR_EVENTS_SCHED_DEV : Field := ⟨0x40, 0x110, 0, 0, 4, 4⟩
def PWR_EVENTS_FF_RESTORED : Field := ⟨0x40, 0x110, 0, 0, 3, 3⟩
def PWR_EVENTS_FF_DIVERGE : Field := ⟨0x40, 0x110, 0, 0, 2, 2⟩
def PWR_EVENTS_FALLBACK : Field := ⟨0x40, 0x110, 0, 0, 1, 1⟩
def PWR_EVENTS_MODE_CHG : Field := ⟨0x40, 0x110, 0, 0, 0, 0⟩
def PWR_PSET_PSET : Field := ⟨0x40, 0x118, 0, 0, 63, 32⟩
def PWR_PSET_PTGT : Field := ⟨0x40, 0x118, 0, 0, 31, 0⟩
def PWR_SRC_PSRC : Field := ⟨0x40, 0x120, 0, 0, 63, 32⟩
def PWR_SRC_TRIM : Field := ⟨0x40, 0x120, 0, 0, 31, 0⟩
def PWR_MEAS_BUS_P : Field := ⟨0x40, 0x128, 0, 0, 63, 32⟩
def PWR_MEAS_IB_LOAD : Field := ⟨0x40, 0x128, 0, 0, 31, 0⟩
def PWR_LIMITS_P_MAX : Field := ⟨0x40, 0x130, 0, 0, 63, 48⟩
def PWR_LIMITS_P_MIN : Field := ⟨0x40, 0x130, 0, 0, 47, 32⟩
def PWR_LIMITS_SLEW : Field := ⟨0x40, 0x130, 0, 0, 15, 0⟩
def PWR_AVG_LOAD_AVG : Field := ⟨0x40, 0x138, 0, 0, 63, 32⟩
def PWR_AVG_TAU_S : Field := ⟨0x40, 0x138, 0, 0, 15, 0⟩
def PWR_SOC_TARGET : Field := ⟨0x40, 0x140, 0, 0, 63, 56⟩
def PWR_SOC_WIN_LO : Field := ⟨0x40, 0x140, 0, 0, 55, 48⟩
def PWR_SOC_WIN_HI : Field := ⟨0x40, 0x140, 0, 0, 47, 40⟩
def PWR_SOC_HI_STOP : Field := ⟨0x40, 0x140, 0, 0, 39, 32⟩
def PWR_SOC_TRIM_MAX_W : Field := ⟨0x40, 0x140, 0, 0, 31, 16⟩
def PWR_IB_SP_MV : Field := ⟨0x40, 0x148, 0, 0, 63, 48⟩
def PWR_IB_BAND_WIDE_MV : Field := ⟨0x40, 0x148, 0, 0, 47, 32⟩
def PWR_IB_GUARD_US : Field := ⟨0x40, 0x148, 0, 0, 31, 16⟩
def PWR_IB_IB_MV : Field := ⟨0x40, 0x148, 0, 0, 15, 0⟩
def PWR_FF_RAMP_MS : Field := ⟨0x40, 0x150, 0, 0, 63, 48⟩
def PWR_FF_GAIN : Field := ⟨0x40, 0x150, 0, 0, 47, 32⟩
def PWR_FF_IREF_FF : Field := ⟨0x40, 0x150, 0, 0, 31, 0⟩
def PWR_DIV_DIV_PCT : Field := ⟨0x40, 0x158, 0, 0, 31, 24⟩
def PWR_DIV_DIV_N : Field := ⟨0x40, 0x158, 0, 0, 23, 16⟩
def PWR_DIV_OK_PCT : Field := ⟨0x40, 0x158, 0, 0, 15, 8⟩
def PWR_DIV_OK_N : Field := ⟨0x40, 0x158, 0, 0, 7, 0⟩
def PWR_DIV_LAST_E_MEAS : Field := ⟨0x40, 0x160, 0, 0, 63, 32⟩
def PWR_DIV_LAST_E_ACT : Field := ⟨0x40, 0x160, 0, 0, 31, 0⟩
def PWR_STOP_STOP_WH : Field := ⟨0x40, 0x168, 0, 0, 63, 48⟩
def PWR_STOP_DRAIN_MS : Field := ⟨0x40, 0x168, 0, 0, 47, 32⟩
def PWR_STOP_CAUSE : Field := ⟨0x40, 0x168, 0, 0, 7, 0⟩
def PWR_RT_COUNT : Field := ⟨0x40, 0x170, 0, 0, 63, 32⟩
def PWR_RT_LAST_MS : Field := ⟨0x40, 0x170, 0, 0, 31, 0⟩
def FC_CFG_IFWD_MAX : Field := ⟨0x41, 0x100, 0, 0, 31, 16⟩
def FC_CFG_IREV_MAX : Field := ⟨0x41, 0x100, 0, 0, 15, 0⟩
def FC_STATUS_EFF : Field := ⟨0x41, 0x108, 0, 0, 63, 48⟩
def FC_STATUS_STATE : Field := ⟨0x41, 0x108, 0, 0, 2, 0⟩
def FC_MEAS_BUS_V : Field := ⟨0x41, 0x110, 0, 0, 63, 48⟩
def FC_MEAS_BUS_I : Field := ⟨0x41, 0x110, 0, 0, 47, 32⟩
def FC_MEAS_IOUT : Field := ⟨0x41, 0x110, 0, 0, 31, 16⟩
def FC_MEAS_TEMP : Field := ⟨0x41, 0x110, 0, 0, 15, 0⟩
def BC_CFG_P_DIS_MAX : Field := ⟨0x42, 0x100, 0, 0, 63, 48⟩
def BC_CFG_P_CHG_MAX : Field := ⟨0x42, 0x100, 0, 0, 47, 32⟩
def BC_CFG_I_DIS_MAX : Field := ⟨0x42, 0x100, 0, 0, 31, 16⟩
def BC_CFG_I_CHG_MAX : Field := ⟨0x42, 0x100, 0, 0, 15, 0⟩
def BC_STATUS_PHASES_OK : Field := ⟨0x42, 0x108, 0, 0, 51, 40⟩
def BC_STATUS_PHASES_ON : Field := ⟨0x42, 0x108, 0, 0, 39, 36⟩
def BC_STATUS_STATE : Field := ⟨0x42, 0x108, 0, 0, 2, 0⟩
def BC_MEAS_STACK_V : Field := ⟨0x42, 0x110, 0, 0, 63, 48⟩
def BC_MEAS_STACK_I : Field := ⟨0x42, 0x110, 0, 0, 47, 32⟩
def BC_MEAS_IB_I : Field := ⟨0x42, 0x110, 0, 0, 31, 16⟩
def BC_MEAS_TEMP : Field := ⟨0x42, 0x110, 0, 0, 15, 0⟩
def GR_CTRL_TIMEBASE : Field := ⟨0x43, 0x100, 0, 0, 1, 1⟩
def GR_CTRL_EN : Field := ⟨0x43, 0x100, 0, 0, 0, 0⟩
def GR_STATUS_ENTRY : Field := ⟨0x43, 0x108, 0, 0, 39, 32⟩
def GR_STATUS_SUSPENDED : Field := ⟨0x43, 0x108, 0, 0, 3, 3⟩
def GR_STATUS_BAD : Field := ⟨0x43, 0x108, 0, 0, 2, 2⟩
def GR_STATUS_DONE : Field := ⟨0x43, 0x108, 0, 0, 1, 1⟩
def GR_STATUS_ACTIVE : Field := ⟨0x43, 0x108, 0, 0, 0, 0⟩
def GR_START_START : Field := ⟨0x43, 0x110, 0, 0, 63, 0⟩
def GR_DEV_DEV_J : Field := ⟨0x43, 0x118, 0, 0, 31, 0⟩
def GR_ENTRY_T_MS : Field := ⟨0x43, 0x200, 8, 0, 63, 32⟩
def GR_ENTRY_VALID : Field := ⟨0x43, 0x200, 8, 0, 31, 31⟩
def GR_ENTRY_LAST : Field := ⟨0x43, 0x200, 8, 0, 30, 30⟩
def GR_ENTRY_DRAW_W : Field := ⟨0x43, 0x200, 8, 0, 15, 0⟩
def LOOP_STATUS_CLOSED : Field := ⟨0x44, 0x100, 0, 0, 47, 32⟩
def LOOP_STATUS_OPEN : Field := ⟨0x44, 0x100, 0, 0, 31, 16⟩
def LOOP_STATUS_SAT : Field := ⟨0x44, 0x100, 0, 0, 15, 0⟩
def LOOP_TIME_US : Field := ⟨0x44, 0x108, 0, 0, 63, 0⟩
def LS_CFG_PERIOD_N : Field := ⟨0x44, 0x200, 64, 0, 51, 32⟩
def LS_CFG_OUT_PHASE : Field := ⟨0x44, 0x200, 64, 0, 31, 24⟩
def LS_CFG_MEAS_SRC : Field := ⟨0x44, 0x200, 64, 0, 23, 16⟩
def LS_CFG_DEST : Field := ⟨0x44, 0x200, 64, 0, 15, 8⟩
def LS_CFG_FF_SRC : Field := ⟨0x44, 0x200, 64, 0, 7, 4⟩
def LS_CASC_EN : Field := ⟨0x44, 0x208, 64, 0, 32, 32⟩
def LS_CASC_SRC_SLOT : Field := ⟨0x44, 0x208, 64, 0, 31, 28⟩
def LS_CASC_D : Field := ⟨0x44, 0x208, 64, 0, 19, 0⟩
def LS_KPI_KP : Field := ⟨0x44, 0x210, 64, 0, 63, 32⟩
def LS_KPI_KI : Field := ⟨0x44, 0x210, 64, 0, 31, 0⟩
def LS_KDF_KD : Field := ⟨0x44, 0x218, 64, 0, 63, 32⟩
def LS_KDF_KF : Field := ⟨0x44, 0x218, 64, 0, 31, 0⟩
def LS_KFF_KFF : Field := ⟨0x44, 0x220, 64, 0, 63, 32⟩
def LS_KFF_OUT : Field := ⟨0x44, 0x220, 64, 0, 31, 0⟩
def LS_OUTLIM_OUT_MAX : Field := ⟨0x44, 0x228, 64, 0, 63, 32⟩
def LS_OUTLIM_OUT_MIN : Field := ⟨0x44, 0x228, 64, 0, 31, 0⟩
def LS_SP_SP : Field := ⟨0x44, 0x230, 64, 0, 63, 32⟩
def LS_SP_MAN : Field := ⟨0x44, 0x230, 64, 0, 31, 0⟩
def LS_STATE_MEAS : Field := ⟨0x44, 0x238, 64, 0, 63, 32⟩
def LS_STATE_FORCED : Field := ⟨0x44, 0x238, 64, 0, 7, 7⟩
def LS_STATE_COEF_REJECT : Field := ⟨0x44, 0x238, 64, 0, 6, 6⟩
def LS_STATE_SAT_OUT : Field := ⟨0x44, 0x238, 64, 0, 5, 5⟩
def LS_STATE_SAT_INT : Field := ⟨0x44, 0x238, 64, 0, 4, 4⟩
def LS_STATE_SAT_ACC : Field := ⟨0x44, 0x238, 64, 0, 3, 3⟩
def LS_STATE_AT_LIM : Field := ⟨0x44, 0x238, 64, 0, 2, 2⟩
def LS_STATE_MODE : Field := ⟨0x44, 0x238, 64, 0, 1, 0⟩
def RAIL_CFG_MASTER : Field := ⟨0x50, 0x100, 0, 0, 15, 12⟩
def RAIL_CFG_TRACK : Field := ⟨0x50, 0x100, 0, 0, 11, 10⟩
def RAIL_CFG_STAGE : Field := ⟨0x50, 0x100, 0, 0, 9, 8⟩
def RAIL_CFG_MIN_PH : Field := ⟨0x50, 0x100, 0, 0, 7, 2⟩
def RAIL_CFG_CMD_SRC : Field := ⟨0x50, 0x100, 0, 0, 1, 1⟩
def RAIL_CMD_SLEW : Field := ⟨0x50, 0x108, 0, 0, 23, 16⟩
def RAIL_CMD_TARGET : Field := ⟨0x50, 0x108, 0, 0, 15, 0⟩
def RAIL_STATUS_REF : Field := ⟨0x50, 0x110, 0, 0, 63, 48⟩
def RAIL_STATUS_IMAX : Field := ⟨0x50, 0x110, 0, 0, 47, 32⟩
def RAIL_STATUS_PHASES_ON : Field := ⟨0x50, 0x110, 0, 0, 31, 26⟩
def RAIL_STATUS_PHASES_OK : Field := ⟨0x50, 0x110, 0, 0, 25, 20⟩
def RAIL_STATUS_CLAMPED : Field := ⟨0x50, 0x110, 0, 0, 11, 11⟩
def RAIL_STATUS_SENSE_LOCAL : Field := ⟨0x50, 0x110, 0, 0, 10, 10⟩
def RAIL_STATUS_BRAKING : Field := ⟨0x50, 0x110, 0, 0, 9, 9⟩
def RAIL_STATUS_SHED_INH : Field := ⟨0x50, 0x110, 0, 0, 8, 8⟩
def RAIL_STATUS_SLEWING : Field := ⟨0x50, 0x110, 0, 0, 7, 7⟩
def RAIL_STATUS_DONE : Field := ⟨0x50, 0x110, 0, 0, 6, 6⟩
def RAIL_STATUS_ACTIVE_COMP : Field := ⟨0x50, 0x110, 0, 0, 5, 5⟩
def RAIL_STATUS_STATE : Field := ⟨0x50, 0x110, 0, 0, 2, 0⟩
def RAIL_EVENTS_COMP_REJECT : Field := ⟨0x50, 0x118, 0, 0, 5, 5⟩
def RAIL_EVENTS_SUPERSEDED : Field := ⟨0x50, 0x118, 0, 0, 4, 4⟩
def RAIL_EVENTS_HANDOVER : Field := ⟨0x50, 0x118, 0, 0, 3, 3⟩
def RAIL_EVENTS_BRAKE : Field := ⟨0x50, 0x118, 0, 0, 2, 2⟩
def RAIL_EVENTS_SHED_ABORT : Field := ⟨0x50, 0x118, 0, 0, 1, 1⟩
def RAIL_EVENTS_CMD_DONE : Field := ⟨0x50, 0x118, 0, 0, 0, 0⟩
def RAIL_LIMIT_VMAX : Field := ⟨0x50, 0x120, 0, 0, 63, 48⟩
def RAIL_LIMIT_VMIN : Field := ⟨0x50, 0x120, 0, 0, 47, 32⟩
def RAIL_LIMIT_SAFE : Field := ⟨0x50, 0x120, 0, 0, 31, 16⟩
def RAIL_LIMIT_OV_PCT : Field := ⟨0x50, 0x120, 0, 0, 15, 8⟩
def RAIL_LIMIT_UV_PCT : Field := ⟨0x50, 0x120, 0, 0, 7, 0⟩
def RAIL_SHED_STEP_A : Field := ⟨0x50, 0x128, 0, 0, 63, 48⟩
def RAIL_SHED_ADD_A : Field := ⟨0x50, 0x128, 0, 0, 47, 32⟩
def RAIL_SHED_SHED_A : Field := ⟨0x50, 0x128, 0, 0, 31, 16⟩
def RAIL_SHED_SHED_EN : Field := ⟨0x50, 0x128, 0, 0, 0, 0⟩
def RAIL_CTRL_GUARD_EN : Field := ⟨0x50, 0x130, 0, 0, 3, 3⟩
def RAIL_CTRL_PREADD_EN : Field := ⟨0x50, 0x130, 0, 0, 2, 2⟩
def RAIL_CTRL_SENSE_RETRY : Field := ⟨0x50, 0x130, 0, 0, 1, 1⟩
def RAIL_CTRL_SWAP : Field := ⟨0x50, 0x130, 0, 0, 0, 0⟩
def RAIL_COMP0_KPI_KP : Field := ⟨0x50, 0x138, 0, 0, 63, 32⟩
def RAIL_COMP0_KPI_KI : Field := ⟨0x50, 0x138, 0, 0, 31, 0⟩
def RAIL_COMP0_KDF_KD : Field := ⟨0x50, 0x140, 0, 0, 63, 32⟩
def RAIL_COMP0_KDF_KF : Field := ⟨0x50, 0x140, 0, 0, 31, 0⟩
def RAIL_COMP1_KPI_KP : Field := ⟨0x50, 0x148, 0, 0, 63, 32⟩
def RAIL_COMP1_KPI_KI : Field := ⟨0x50, 0x148, 0, 0, 31, 0⟩
def RAIL_COMP1_KDF_KD : Field := ⟨0x50, 0x150, 0, 0, 63, 32⟩
def RAIL_COMP1_KDF_KF : Field := ⟨0x50, 0x150, 0, 0, 31, 0⟩
def RAIL_MEAS_V : Field := ⟨0x50, 0x158, 0, 0, 63, 48⟩
def RAIL_MEAS_I : Field := ⟨0x50, 0x158, 0, 0, 47, 32⟩
def RAIL_MEAS_TEMP : Field := ⟨0x50, 0x158, 0, 0, 31, 16⟩
def RAIL_ENERGY_UJ : Field := ⟨0x50, 0x160, 0, 0, 63, 0⟩
def RAIL_TEL_1MS_V : Field := ⟨0x50, 0x168, 0, 0, 63, 48⟩
def RAIL_TEL_1MS_I : Field := ⟨0x50, 0x168, 0, 0, 47, 32⟩
def RAIL_TEL_1MS_P : Field := ⟨0x50, 0x168, 0, 0, 31, 16⟩
def RAIL_TEL_1MS_T : Field := ⟨0x50, 0x168, 0, 0, 15, 0⟩
def RAIL_TEL_100MS_V : Field := ⟨0x50, 0x170, 0, 0, 63, 48⟩
def RAIL_TEL_100MS_I : Field := ⟨0x50, 0x170, 0, 0, 47, 32⟩
def RAIL_TEL_100MS_P : Field := ⟨0x50, 0x170, 0, 0, 31, 16⟩
def RAIL_TEL_100MS_T : Field := ⟨0x50, 0x170, 0, 0, 15, 0⟩
def RAIL_PEAK_V_MAX : Field := ⟨0x50, 0x178, 0, 0, 63, 48⟩
def RAIL_PEAK_V_MIN : Field := ⟨0x50, 0x178, 0, 0, 47, 32⟩
def RAIL_PEAK_I_MAX : Field := ⟨0x50, 0x178, 0, 0, 31, 16⟩
def RAIL_PEAK_I_MIN : Field := ⟨0x50, 0x178, 0, 0, 15, 0⟩
def RAIL_PH_I : Field := ⟨0x50, 0x400, 8, 0, 63, 48⟩
def RAIL_PH_TEMP : Field := ⟨0x50, 0x400, 8, 0, 47, 32⟩
def RAIL_PH_TRIM : Field := ⟨0x50, 0x400, 8, 0, 13, 8⟩
def RAIL_PH_FENCE : Field := ⟨0x50, 0x400, 8, 0, 7, 7⟩
def RAIL_PH_STATE : Field := ⟨0x50, 0x400, 8, 0, 2, 0⟩
def RAIL_SYS_CTRL_PEAK_CLR : Field := ⟨0x48, 0x100, 0, 0, 4, 4⟩
def RAIL_SYS_CTRL_SELFTEST_FORCE : Field := ⟨0x48, 0x100, 0, 0, 3, 3⟩
def RAIL_SYS_CTRL_TEST_GATE : Field := ⟨0x48, 0x100, 0, 0, 2, 2⟩
def RAIL_SYS_CTRL_TELEM : Field := ⟨0x48, 0x100, 0, 0, 1, 0⟩
def RAIL_SYS_STATUS_PGOOD : Field := ⟨0x48, 0x108, 0, 0, 47, 36⟩
def RAIL_SYS_STATUS_STAGE : Field := ⟨0x48, 0x108, 0, 0, 33, 32⟩
def RAIL_SYS_STATUS_DETAIL : Field := ⟨0x48, 0x108, 0, 0, 2, 2⟩
def RAIL_SYS_STATUS_ALL_PGOOD : Field := ⟨0x48, 0x108, 0, 0, 1, 1⟩
def RAIL_SYS_STATUS_SEQ_BUSY : Field := ⟨0x48, 0x108, 0, 0, 0, 0⟩
def RAIL_SYS_SEQ_PGOOD_US : Field := ⟨0x48, 0x110, 0, 0, 31, 16⟩
def RAIL_SYS_SEQ_RAMP_US : Field := ⟨0x48, 0x110, 0, 0, 15, 0⟩
def RAIL_SYS_GUARD_ANGLE : Field := ⟨0x48, 0x118, 0, 0, 63, 32⟩
def RAIL_SYS_TEST_PERIOD_S : Field := ⟨0x48, 0x120, 0, 0, 63, 32⟩
def RAIL_SYS_TEST_RAIL : Field := ⟨0x48, 0x120, 0, 0, 11, 8⟩
def RAIL_SYS_TEST_PHASE : Field := ⟨0x48, 0x120, 0, 0, 5, 0⟩
def RAIL_LF_0_VALID : Field := ⟨0x48, 0x128, 0, 0, 63, 63⟩
def RAIL_LF_0_RAIL : Field := ⟨0x48, 0x128, 0, 0, 59, 56⟩
def RAIL_LF_0_CODE : Field := ⟨0x48, 0x128, 0, 0, 55, 48⟩
def RAIL_LF_0_PHASE : Field := ⟨0x48, 0x128, 0, 0, 47, 42⟩
def RAIL_LF_1_POWER_CYCLE : Field := ⟨0x48, 0x130, 0, 0, 63, 32⟩
def RAIL_LF_1_OP_SECONDS : Field := ⟨0x48, 0x130, 0, 0, 31, 0⟩
def RAIL_LF_2_TARGET : Field := ⟨0x48, 0x138, 0, 0, 63, 48⟩
def RAIL_LF_2_V : Field := ⟨0x48, 0x138, 0, 0, 47, 32⟩
def RAIL_LF_2_I : Field := ⟨0x48, 0x138, 0, 0, 31, 16⟩
def RAIL_LF_2_TEMP : Field := ⟨0x48, 0x138, 0, 0, 15, 0⟩
def RAIL_LF_3_PHASES_OK : Field := ⟨0x48, 0x140, 0, 0, 47, 0⟩
def RAIL_LF_CMD_CLEAR : Field := ⟨0x48, 0x148, 0, 0, 0, 0⟩
def CAP_MODULE_SUST_W : Field := ⟨0x60, 0x100, 0, 0, 63, 48⟩
def CAP_MODULE_PEAK_W : Field := ⟨0x60, 0x100, 0, 0, 47, 32⟩
def CAP_MODULE_PEAK_MS : Field := ⟨0x60, 0x100, 0, 0, 31, 16⟩
def CAP_STATUS_BUDGET_W : Field := ⟨0x60, 0x108, 0, 0, 63, 48⟩
def CAP_STATUS_BUCKET : Field := ⟨0x60, 0x108, 0, 0, 47, 32⟩
def CAP_STATUS_SOURCE_W : Field := ⟨0x60, 0x108, 0, 0, 31, 16⟩
def CAP_STATUS_BURST : Field := ⟨0x60, 0x108, 0, 0, 1, 1⟩
def CAP_STATUS_OVER : Field := ⟨0x60, 0x108, 0, 0, 0, 0⟩
def CAP_CLASS_ORDER : Field := ⟨0x60, 0x110, 0, 0, 2, 0⟩
def CAP_ALLOC_LINK_W : Field := ⟨0x60, 0x118, 0, 0, 63, 48⟩
def CAP_ALLOC_MEM_W : Field := ⟨0x60, 0x118, 0, 0, 47, 32⟩
def CAP_ALLOC_COMP_W : Field := ⟨0x60, 0x118, 0, 0, 31, 16⟩
def CAP_DEMAND_LINK_W : Field := ⟨0x60, 0x120, 0, 0, 63, 48⟩
def CAP_DEMAND_MEM_W : Field := ⟨0x60, 0x120, 0, 0, 47, 32⟩
def CAP_DEMAND_COMP_W : Field := ⟨0x60, 0x120, 0, 0, 31, 16⟩
def CAP_THR_LINK_LVL : Field := ⟨0x60, 0x128, 0, 0, 26, 24⟩
def CAP_THR_MEM_B_LVL : Field := ⟨0x60, 0x128, 0, 0, 23, 21⟩
def CAP_THR_MEM_A_LVL : Field := ⟨0x60, 0x128, 0, 0, 20, 18⟩
def CAP_THR_COMP_B_LVL : Field := ⟨0x60, 0x128, 0, 0, 17, 15⟩
def CAP_THR_COMP_A_LVL : Field := ⟨0x60, 0x128, 0, 0, 14, 12⟩
def CAP_FT_MOD_SEEN : Field := ⟨0x60, 0x130, 0, 0, 33, 33⟩
def CAP_FT_MOD_ACTIVE : Field := ⟨0x60, 0x130, 0, 0, 32, 32⟩
def CAP_FT_FT_SEEN : Field := ⟨0x60, 0x130, 0, 0, 27, 16⟩
def CAP_FT_FT_ACTIVE : Field := ⟨0x60, 0x130, 0, 0, 11, 0⟩
def CAP_FAST_RELEASE_US : Field := ⟨0x60, 0x138, 0, 0, 15, 8⟩
def CAP_FAST_FAST_LVL : Field := ⟨0x60, 0x138, 0, 0, 2, 0⟩
def CAP_THERM_FROND_SP_C : Field := ⟨0x60, 0x140, 0, 0, 63, 56⟩
def CAP_THERM_HBM_SP_C : Field := ⟨0x60, 0x140, 0, 0, 55, 48⟩
def CAP_THERM_FROND_A_T : Field := ⟨0x60, 0x140, 0, 0, 31, 24⟩
def CAP_THERM_FROND_B_T : Field := ⟨0x60, 0x140, 0, 0, 23, 16⟩
def CAP_THERM_HBM_A_T : Field := ⟨0x60, 0x140, 0, 0, 15, 8⟩
def CAP_THERM_HBM_B_T : Field := ⟨0x60, 0x140, 0, 0, 7, 0⟩
def CAP_FT_COUNT_MOD : Field := ⟨0x60, 0x148, 0, 0, 63, 32⟩
def CAP_FT_COUNT_RAIL : Field := ⟨0x60, 0x148, 0, 0, 31, 0⟩
def CAP_RAIL_ILIM : Field := ⟨0x60, 0x200, 8, 0, 63, 48⟩
def CAP_RAIL_I_AVG : Field := ⟨0x60, 0x200, 8, 0, 31, 16⟩
def OPT_CTRL_HOLD_US : Field := ⟨0x61, 0x100, 0, 0, 31, 16⟩
def OPT_CTRL_SLEW : Field := ⟨0x61, 0x100, 0, 0, 15, 8⟩
def OPT_CTRL_MAX_OP : Field := ⟨0x61, 0x100, 0, 0, 3, 0⟩
def OP_GRANT_REASON : Field := ⟨0x61, 0x108, 8, 0, 31, 28⟩
def OP_GRANT_TARGET_OP : Field := ⟨0x61, 0x108, 8, 0, 23, 20⟩
def OP_GRANT_CLOCK_OP : Field := ⟨0x61, 0x108, 8, 0, 19, 16⟩
def OP_GRANT_LIMIT_OP : Field := ⟨0x61, 0x108, 8, 0, 15, 12⟩
def OP_GRANT_PREF_OP : Field := ⟨0x61, 0x108, 8, 0, 11, 8⟩
def OP_GRANT_RAISING : Field := ⟨0x61, 0x108, 8, 0, 4, 4⟩
def OP_GRANT_GRANT_OP : Field := ⟨0x61, 0x108, 8, 0, 3, 0⟩
def OP_CHANGES_RAISES : Field := ⟨0x61, 0x118, 0, 0, 63, 32⟩
def OP_CHANGES_LOWERS : Field := ⟨0x61, 0x118, 0, 0, 31, 0⟩
def OPT_ENTRY_FREQ_MHZ : Field := ⟨0x61, 0x200, 8, 0, 47, 32⟩
def OPT_ENTRY_VOLT : Field := ⟨0x61, 0x200, 8, 0, 15, 0⟩
def ATTR_CTRL_FIT_REQ : Field := ⟨0x62, 0x100, 0, 0, 2, 2⟩
def ATTR_CTRL_FIT_EN : Field := ⟨0x62, 0x100, 0, 0, 1, 1⟩
def ATTR_CTRL_EN : Field := ⟨0x62, 0x100, 0, 0, 0, 0⟩
def ATTR_BASE_BASE_W : Field := ⟨0x62, 0x108, 0, 0, 15, 0⟩
def ATTR_UNATTR_UJ : Field := ⟨0x62, 0x110, 0, 0, 63, 0⟩
def ATTR_LAST_CHARGED : Field := ⟨0x62, 0x118, 0, 0, 63, 32⟩
def ATTR_LAST_UNATTR : Field := ⟨0x62, 0x118, 0, 0, 31, 0⟩
def ATTR_FIT_STEPS : Field := ⟨0x62, 0x120, 0, 0, 63, 56⟩
def ATTR_FIT_PROGRESS : Field := ⟨0x62, 0x120, 0, 0, 55, 48⟩
def ATTR_FIT_STATE : Field := ⟨0x62, 0x120, 0, 0, 1, 0⟩
def ATTR_SCALE_K : Field := ⟨0x62, 0x128, 0, 0, 31, 0⟩
def ATTR_COEF_FACTORY : Field := ⟨0x62, 0x200, 8, 0, 63, 32⟩
def ATTR_COEF_COEF : Field := ⟨0x62, 0x200, 8, 0, 31, 0⟩
def ATTR_COUNT_COUNT : Field := ⟨0x62, 0x280, 8, 0, 63, 0⟩
def CHAIN_CFG_SLOT_US : Field := ⟨0x68, 0x100, 0, 0, 63, 48⟩
def CHAIN_CFG_OW_EVERY : Field := ⟨0x68, 0x100, 0, 0, 47, 40⟩
def CHAIN_CFG_STALE_MAX : Field := ⟨0x68, 0x100, 0, 0, 39, 32⟩
def CHAIN_CFG_WAKE_S : Field := ⟨0x68, 0x100, 0, 0, 31, 20⟩
def CHAIN_CFG_GAP_MS : Field := ⟨0x68, 0x100, 0, 0, 19, 10⟩
def CHAIN_CFG_OW_GATE : Field := ⟨0x68, 0x100, 0, 0, 3, 3⟩
def CHAIN_CFG_SELFTEST_FORCE : Field := ⟨0x68, 0x100, 0, 0, 2, 2⟩
def CHAIN_CFG_OW_REQ : Field := ⟨0x68, 0x100, 0, 0, 1, 1⟩
def CHAIN_CFG_EN : Field := ⟨0x68, 0x100, 0, 0, 0, 0⟩
def CHAIN_STATUS_UNITS : Field := ⟨0x68, 0x108, 0, 0, 63, 56⟩
def CHAIN_STATUS_BREAK_B : Field := ⟨0x68, 0x108, 0, 0, 55, 52⟩
def CHAIN_STATUS_BREAK_A : Field := ⟨0x68, 0x108, 0, 0, 51, 48⟩
def CHAIN_STATUS_ISOLATED : Field := ⟨0x68, 0x108, 0, 0, 38, 32⟩
def CHAIN_STATUS_FW_BUSY : Field := ⟨0x68, 0x108, 0, 0, 7, 7⟩
def CHAIN_STATUS_OW_BUSY : Field := ⟨0x68, 0x108, 0, 0, 6, 6⟩
def CHAIN_STATUS_SWEEPING : Field := ⟨0x68, 0x108, 0, 0, 5, 5⟩
def CHAIN_STATUS_SOURCE : Field := ⟨0x68, 0x108, 0, 0, 4, 3⟩
def CHAIN_STATUS_RING : Field := ⟨0x68, 0x108, 0, 0, 2, 0⟩
def CHAIN_SWEEP_COUNT : Field := ⟨0x68, 0x110, 0, 0, 63, 32⟩
def CHAIN_SWEEP_REJECTED : Field := ⟨0x68, 0x110, 0, 0, 31, 16⟩
def CHAIN_SWEEP_IN_STEP : Field := ⟨0x68, 0x110, 0, 0, 15, 8⟩
def CHAIN_SWEEP_SEQ : Field := ⟨0x68, 0x110, 0, 0, 7, 0⟩
def CHAIN_SWEEP_TIME_TIME : Field := ⟨0x68, 0x118, 0, 0, 63, 0⟩
def CHAIN_ERR_COUNT_CRC : Field := ⟨0x68, 0x120, 0, 0, 63, 48⟩
def CHAIN_ERR_COUNT_RETRY : Field := ⟨0x68, 0x120, 0, 0, 47, 32⟩
def CHAIN_ERR_COUNT_STALE : Field := ⟨0x68, 0x120, 0, 0, 31, 16⟩
def CHAIN_ERR_COUNT_BREAKS : Field := ⟨0x68, 0x120, 0, 0, 15, 0⟩
def CHAIN_OW_TESTS : Field := ⟨0x68, 0x128, 0, 0, 63, 32⟩
def CHAIN_OW_UNIT : Field := ⟨0x68, 0x128, 0, 0, 19, 16⟩
def CHAIN_OW_LINE : Field := ⟨0x68, 0x128, 0, 0, 10, 6⟩
def CHAIN_OW_CONFIRMED : Field := ⟨0x68, 0x128, 0, 0, 1, 1⟩
def CHAIN_OW_SUSPECT : Field := ⟨0x68, 0x128, 0, 0, 0, 0⟩
def CHAIN_FW_PROGRESS : Field := ⟨0x68, 0x130, 0, 0, 55, 48⟩
def CHAIN_FW_UNIT : Field := ⟨0x68, 0x130, 0, 0, 47, 44⟩
def CHAIN_FW_RESULT : Field := ⟨0x68, 0x130, 0, 0, 2, 1⟩
def CHAIN_FW_START : Field := ⟨0x68, 0x130, 0, 0, 0, 0⟩
def CHAIN_WAKE_LATCHED : Field := ⟨0x68, 0x138, 0, 0, 63, 63⟩
def CHAIN_WAKE_UNIT : Field := ⟨0x68, 0x138, 0, 0, 59, 56⟩
def CHAIN_WAKE_CAUSE : Field := ⟨0x68, 0x138, 0, 0, 55, 52⟩
def CHAIN_WAKE_COUNT : Field := ⟨0x68, 0x138, 0, 0, 31, 0⟩
def PACK_CFG_CELLS : Field := ⟨0x69, 0x100, 0, 0, 63, 56⟩
def PACK_CFG_CAP_MAH : Field := ⟨0x69, 0x100, 0, 0, 55, 40⟩
def PACK_STATUS_CHG_FORBID : Field := ⟨0x69, 0x108, 0, 0, 15, 15⟩
def PACK_STATUS_DIS_LIMIT : Field := ⟨0x69, 0x108, 0, 0, 14, 14⟩
def PACK_STATUS_UNMON : Field := ⟨0x69, 0x108, 0, 0, 13, 13⟩
def PACK_STATUS_LIMIT : Field := ⟨0x69, 0x108, 0, 0, 12, 12⟩
def PACK_STATUS_WARN : Field := ⟨0x69, 0x108, 0, 0, 11, 11⟩
def PACK_STATUS_HVIL : Field := ⟨0x69, 0x108, 0, 0, 10, 10⟩
def PACK_STATUS_PRSNT : Field := ⟨0x69, 0x108, 0, 0, 9, 9⟩
def PACK_STATUS_AUX_TAP : Field := ⟨0x69, 0x108, 0, 0, 8, 8⟩
def PACK_STATUS_CONTACTOR : Field := ⟨0x69, 0x108, 0, 0, 5, 4⟩
def PACK_STATUS_STATE : Field := ⟨0x69, 0x108, 0, 0, 3, 0⟩
def PACK_CMD_ACCEPT : Field := ⟨0x69, 0x110, 0, 0, 3, 3⟩
def PACK_CMD_WAKE_CLR : Field := ⟨0x69, 0x110, 0, 0, 2, 2⟩
def PACK_CMD_CLR_LIMIT : Field := ⟨0x69, 0x110, 0, 0, 1, 1⟩
def PACK_CMD_RELEASE : Field := ⟨0x69, 0x110, 0, 0, 0, 0⟩
def PACK_MEAS_I_SHUNT : Field := ⟨0x69, 0x118, 0, 0, 63, 32⟩
def PACK_MEAS_SUM_V : Field := ⟨0x69, 0x118, 0, 0, 31, 16⟩
def PACK_MEAS_T_MAX : Field := ⟨0x69, 0x118, 0, 0, 15, 8⟩
def PACK_MEAS_T_MIN : Field := ⟨0x69, 0x118, 0, 0, 7, 0⟩
def PACK_CELL_EXT_V_MAX : Field := ⟨0x69, 0x120, 0, 0, 63, 48⟩
def PACK_CELL_EXT_V_MAX_CELL : Field := ⟨0x69, 0x120, 0, 0, 47, 40⟩
def PACK_CELL_EXT_V_MIN : Field := ⟨0x69, 0x120, 0, 0, 39, 24⟩
def PACK_CELL_EXT_V_MIN_CELL : Field := ⟨0x69, 0x120, 0, 0, 23, 16⟩
def PACK_LIM_V_OV : Field := ⟨0x69, 0x128, 0, 0, 63, 48⟩
def PACK_LIM_V_OV_WARN : Field := ⟨0x69, 0x128, 0, 0, 47, 32⟩
def PACK_LIM_V_UV_WARN : Field := ⟨0x69, 0x128, 0, 0, 31, 16⟩
def PACK_LIM_V_UV : Field := ⟨0x69, 0x128, 0, 0, 15, 0⟩
def PACK_LIM_T_OT : Field := ⟨0x69, 0x130, 0, 0, 63, 56⟩
def PACK_LIM_T_OT_WARN : Field := ⟨0x69, 0x130, 0, 0, 55, 48⟩
def PACK_LIM_T_UT_WARN : Field := ⟨0x69, 0x130, 0, 0, 47, 40⟩
def PACK_LIM_T_UT : Field := ⟨0x69, 0x130, 0, 0, 39, 32⟩
def BAL_CFG_ALT_MS : Field := ⟨0x69, 0x138, 0, 0, 63, 48⟩
def BAL_CFG_MAX_MAH : Field := ⟨0x69, 0x138, 0, 0, 47, 36⟩
def BAL_CFG_DV_MV : Field := ⟨0x69, 0x138, 0, 0, 35, 28⟩
def BAL_CFG_MIN_MAH : Field := ⟨0x69, 0x138, 0, 0, 27, 20⟩
def BAL_CFG_FULL_MV : Field := ⟨0x69, 0x138, 0, 0, 19, 4⟩
def BAL_CFG_EN : Field := ⟨0x69, 0x138, 0, 0, 0, 0⟩
def BAL_GAIN_GAIN : Field := ⟨0x69, 0x140, 0, 0, 15, 0⟩
def BAL_STATUS_DECISIONS : Field := ⟨0x69, 0x148, 0, 0, 63, 32⟩
def BAL_STATUS_GROUP : Field := ⟨0x69, 0x148, 0, 0, 1, 1⟩
def BAL_STATUS_PAUSED : Field := ⟨0x69, 0x148, 0, 0, 0, 0⟩
def BAL_ACTIVE_CELLS : Field := ⟨0x69, 0x150, 8, 0, 63, 0⟩
def CELL_STALE_CELLS : Field := ⟨0x69, 0x160, 8, 0, 63, 0⟩
def CELL_UNMON_CELLS : Field := ⟨0x69, 0x170, 8, 0, 63, 0⟩
def OW_LINES_LINES : Field := ⟨0x69, 0x180, 8, 0, 63, 0⟩
def CELL_V_V3 : Field := ⟨0x6A, 0x100, 8, 0, 63, 48⟩
def CELL_V_V2 : Field := ⟨0x6A, 0x100, 8, 0, 47, 32⟩
def CELL_V_V1 : Field := ⟨0x6A, 0x100, 8, 0, 31, 16⟩
def CELL_V_V0 : Field := ⟨0x6A, 0x100, 8, 0, 15, 0⟩
def CELL_T_T3 : Field := ⟨0x6A, 0x200, 8, 0, 63, 48⟩
def CELL_T_T2 : Field := ⟨0x6A, 0x200, 8, 0, 47, 32⟩
def CELL_T_T1 : Field := ⟨0x6A, 0x200, 8, 0, 31, 16⟩
def CELL_T_T0 : Field := ⟨0x6A, 0x200, 8, 0, 15, 0⟩
def GCS_STATUS_BLK_V : Field := ⟨0x6A, 0x240, 8, 0, 63, 48⟩
def GCS_STATUS_FW_VERSION : Field := ⟨0x6A, 0x240, 8, 0, 47, 32⟩
def GCS_STATUS_BANK : Field := ⟨0x6A, 0x240, 8, 0, 3, 2⟩
def GCS_STATUS_STATE : Field := ⟨0x6A, 0x240, 8, 0, 1, 0⟩
def GCS_SERIAL_SERIAL : Field := ⟨0x6A, 0x280, 8, 0, 63, 0⟩
def EST_CTRL_POLICY : Field := ⟨0x70, 0x100, 0, 0, 1, 0⟩
def EST_STATUS_CELLS_OCV : Field := ⟨0x70, 0x108, 0, 0, 47, 40⟩
def EST_STATUS_OUTCOME : Field := ⟨0x70, 0x108, 0, 0, 15, 12⟩
def EST_STATUS_REST_STATE : Field := ⟨0x70, 0x108, 0, 0, 11, 8⟩
def EST_STATUS_KIND : Field := ⟨0x70, 0x108, 0, 0, 7, 6⟩
def EST_STATUS_SOURCE : Field := ⟨0x70, 0x108, 0, 0, 5, 4⟩
def EST_STATUS_OFFSET_ZEROED : Field := ⟨0x70, 0x108, 0, 0, 3, 3⟩
def EST_STATUS_NEFC_RESTORED : Field := ⟨0x70, 0x108, 0, 0, 2, 2⟩
def EST_STATUS_HELD : Field := ⟨0x70, 0x108, 0, 0, 1, 1⟩
def EST_SOC_SOC : Field := ⟨0x70, 0x110, 0, 0, 63, 48⟩
def EST_SOC_SOC_MIN : Field := ⟨0x70, 0x110, 0, 0, 47, 32⟩
def EST_SOC_SOC_MAX : Field := ⟨0x70, 0x110, 0, 0, 31, 16⟩
def EST_SOC_U : Field := ⟨0x70, 0x110, 0, 0, 15, 0⟩
def EST_ENERGY_E_AVAIL : Field := ⟨0x70, 0x118, 0, 0, 63, 48⟩
def EST_ENERGY_RESERVE : Field := ⟨0x70, 0x118, 0, 0, 47, 32⟩
def EST_ENERGY_ALLOWANCE : Field := ⟨0x70, 0x118, 0, 0, 31, 16⟩
def EST_ENERGY_C_EFF : Field := ⟨0x70, 0x118, 0, 0, 15, 0⟩
def EST_CAP_N_EFC : Field := ⟨0x70, 0x120, 0, 0, 63, 32⟩
def EST_CAP_K_E8 : Field := ⟨0x70, 0x120, 0, 0, 31, 16⟩
def EST_CAP_FACTOR : Field := ⟨0x70, 0x120, 0, 0, 15, 0⟩
def EST_LIMITS_RESERVE_WH : Field := ⟨0x70, 0x128, 0, 0, 63, 48⟩
def EST_LIMITS_FORCE_PCT : Field := ⟨0x70, 0x128, 0, 0, 47, 32⟩
def EST_LIMITS_INS_U : Field := ⟨0x70, 0x128, 0, 0, 31, 16⟩
def EST_LIMITS_VE_MV : Field := ⟨0x70, 0x128, 0, 0, 15, 0⟩
def EST_UGROW_OFFSET_UA : Field := ⟨0x70, 0x130, 0, 0, 63, 32⟩
def EST_UGROW_GAIN_PPM : Field := ⟨0x70, 0x130, 0, 0, 31, 16⟩
def EST_REST_INTERVAL_H : Field := ⟨0x70, 0x138, 0, 0, 63, 48⟩
def EST_REST_DUR_S : Field := ⟨0x70, 0x138, 0, 0, 47, 32⟩
def EST_REST_STAGGER_S : Field := ⟨0x70, 0x138, 0, 0, 31, 16⟩
def EST_REST_RETRY_S : Field := ⟨0x70, 0x138, 0, 0, 15, 0⟩
def EST_REST_BASE_BASE_S : Field := ⟨0x70, 0x140, 0, 0, 63, 0⟩
def EST_REST_NEXT_PTP : Field := ⟨0x70, 0x148, 0, 0, 63, 63⟩
def EST_REST_NEXT_DUE_S : Field := ⟨0x70, 0x148, 0, 0, 62, 0⟩
def EST_REST_LAST_AGE_S : Field := ⟨0x70, 0x150, 0, 0, 63, 32⟩
def EST_REST_LAST_WINDOWS : Field := ⟨0x70, 0x150, 0, 0, 31, 16⟩
def EST_SHUNT_OFFSET_UA : Field := ⟨0x70, 0x158, 0, 0, 63, 32⟩
def EST_SHUNT_BC_GAIN : Field := ⟨0x70, 0x158, 0, 0, 31, 0⟩
def EST_CELL_SEL_CELL : Field := ⟨0x70, 0x160, 0, 0, 6, 0⟩
def EST_CELL_DATA_SOC : Field := ⟨0x70, 0x168, 0, 0, 63, 48⟩
def EST_CELL_DATA_U : Field := ⟨0x70, 0x168, 0, 0, 47, 32⟩
def EST_CELL_DATA_OCV_SOC : Field := ⟨0x70, 0x168, 0, 0, 31, 16⟩
def EST_CELL_DATA_CONF : Field := ⟨0x70, 0x168, 0, 0, 1, 1⟩
def EST_CELL_DATA_COUNT_ONLY : Field := ⟨0x70, 0x168, 0, 0, 0, 0⟩
def EST_CMD_CAPTURE : Field := ⟨0x70, 0x170, 0, 0, 3, 3⟩
def EST_CMD_RESTORE : Field := ⟨0x70, 0x170, 0, 0, 2, 2⟩
def EST_CMD_REST_NOW : Field := ⟨0x70, 0x170, 0, 0, 1, 1⟩
def EST_CMD_ABORT_REST : Field := ⟨0x70, 0x170, 0, 0, 0, 0⟩
def EST_RB_WORD : Field := ⟨0x70, 0x200, 8, 0, 63, 0⟩
def OCV_TEMP_T3 : Field := ⟨0x71, 0x100, 0, 0, 63, 48⟩
def OCV_TEMP_T2 : Field := ⟨0x71, 0x100, 0, 0, 47, 32⟩
def OCV_TEMP_T1 : Field := ⟨0x71, 0x100, 0, 0, 31, 16⟩
def OCV_TEMP_T0 : Field := ⟨0x71, 0x100, 0, 0, 15, 0⟩
def OCV_STATUS_ROM : Field := ⟨0x71, 0x108, 0, 0, 1, 1⟩
def OCV_STATUS_TABLE_BAD : Field := ⟨0x71, 0x108, 0, 0, 0, 0⟩
def OCV_CMD_COMMIT : Field := ⟨0x71, 0x110, 0, 0, 0, 0⟩
def OCV_ENTRY_OCV_B : Field := ⟨0x71, 0x200, 8, 0, 63, 48⟩
def OCV_ENTRY_U_B : Field := ⟨0x71, 0x200, 8, 0, 47, 32⟩
def OCV_ENTRY_OCV_A : Field := ⟨0x71, 0x200, 8, 0, 31, 16⟩
def OCV_ENTRY_U_A : Field := ⟨0x71, 0x200, 8, 0, 15, 0⟩
def MFS_SRC : Field := ⟨0x80, 0x100, 0, 0, 26, 0⟩
def MCOL_CLASS_CLASS : Field := ⟨0x80, 0x108, 0, 0, 53, 0⟩
def MCOL_STATUS_FENCED_UNITS : Field := ⟨0x80, 0x110, 0, 0, 63, 48⟩
def MCOL_STATUS_ALIVE_RUN : Field := ⟨0x80, 0x110, 0, 0, 7, 7⟩
def MCOL_STATUS_FAULT_N_OUT : Field := ⟨0x80, 0x110, 0, 0, 6, 6⟩
def MCOL_STATUS_FE : Field := ⟨0x80, 0x110, 0, 0, 5, 5⟩
def MCOL_STATUS_DEGRADED : Field := ⟨0x80, 0x110, 0, 0, 4, 4⟩
def MCOL_STATUS_FROND_B_FENCED : Field := ⟨0x80, 0x110, 0, 0, 3, 3⟩
def MCOL_STATUS_FROND_A_FENCED : Field := ⟨0x80, 0x110, 0, 0, 2, 2⟩
def MCOL_STATUS_PC_REQ : Field := ⟨0x80, 0x110, 0, 0, 1, 1⟩
def MCOL_STATUS_SELF_OK : Field := ⟨0x80, 0x110, 0, 0, 0, 0⟩
def MCOL_CTRL_INJ_SAFE : Field := ⟨0x80, 0x118, 0, 0, 0, 0⟩
def MCOL_PIN_PULSE_US : Field := ⟨0x80, 0x120, 0, 0, 15, 8⟩
def MCOL_PIN_ASSERT : Field := ⟨0x80, 0x120, 0, 0, 2, 2⟩
def MCOL_PIN_RELEASE : Field := ⟨0x80, 0x120, 0, 0, 1, 1⟩
def MCOL_PIN_HOLD : Field := ⟨0x80, 0x120, 0, 0, 0, 0⟩
def MCOL_FIRST_SOURCE : Field := ⟨0x80, 0x128, 0, 0, 63, 56⟩
def MCOL_FIRST_CLASS : Field := ⟨0x80, 0x128, 0, 0, 55, 54⟩
def MCOL_FIRST_INJECTED : Field := ⟨0x80, 0x128, 0, 0, 53, 53⟩
def MCOL_FIRST_BIT : Field := ⟨0x80, 0x128, 0, 0, 51, 48⟩
def MCOL_FIRST_PAGE : Field := ⟨0x80, 0x128, 0, 0, 47, 32⟩
def MCOL_FIRST_TIME_TIME : Field := ⟨0x80, 0x130, 0, 0, 63, 0⟩
def FFS_SRC : Field := ⟨0x108, 0x100, 0, 0, 14, 0⟩
def FCOL_CLASS_CLASS : Field := ⟨0x108, 0x108, 0, 0, 29, 0⟩
def FCOL_TILE_SRC_COUNT : Field := ⟨0x108, 0x110, 0, 0, 63, 56⟩
def FCOL_TILE_SRC_FIRST : Field := ⟨0x108, 0x110, 0, 0, 7, 0⟩
def FCOL_ENG_SRC_ENG : Field := ⟨0x108, 0x118, 0, 0, 43, 0⟩
def FCOL_UNIT_SRC_LPORT : Field := ⟨0x108, 0x120, 0, 0, 19, 8⟩
def FCOL_UNIT_SRC_CORE : Field := ⟨0x108, 0x120, 0, 0, 7, 0⟩
def FCOL_FIRST_TIME_TIME : Field := ⟨0x108, 0x130, 0, 0, 63, 0⟩
def RST_CTRL_CHIP_MAX : Field := ⟨0x82, 0x100, 0, 0, 15, 8⟩
def RST_CTRL_LBIST : Field := ⟨0x82, 0x100, 0, 0, 2, 2⟩
def RST_CTRL_FROND_RETRY : Field := ⟨0x82, 0x100, 0, 0, 1, 1⟩
def RST_CTRL_AUTO_CTX : Field := ⟨0x82, 0x100, 0, 0, 0, 0⟩
def RST_CMD_TARGET : Field := ⟨0x82, 0x108, 0, 0, 63, 48⟩
def RST_CMD_CMD : Field := ⟨0x82, 0x108, 0, 0, 2, 0⟩
def RST_STATUS_CHIPS_HOUR : Field := ⟨0x82, 0x110, 0, 0, 15, 8⟩
def RST_STATUS_PHASE : Field := ⟨0x82, 0x110, 0, 0, 7, 4⟩
def RST_STATUS_STEP : Field := ⟨0x82, 0x110, 0, 0, 2, 0⟩
def RST_LAST_STEP : Field := ⟨0x82, 0x118, 0, 0, 63, 61⟩
def RST_LAST_CAUSE : Field := ⟨0x82, 0x118, 0, 0, 60, 58⟩
def RST_LAST_FAILED : Field := ⟨0x82, 0x118, 0, 0, 57, 57⟩
def RST_LAST_TARGET : Field := ⟨0x82, 0x118, 0, 0, 47, 32⟩
def RST_LAST_DURATION_US : Field := ⟨0x82, 0x118, 0, 0, 31, 0⟩
def RST_COUNT_CTX : Field := ⟨0x82, 0x120, 0, 0, 63, 48⟩
def RST_COUNT_ENG : Field := ⟨0x82, 0x120, 0, 0, 47, 32⟩
def RST_COUNT_PART : Field := ⟨0x82, 0x120, 0, 0, 31, 16⟩
def RST_COUNT_CHIP : Field := ⟨0x82, 0x120, 0, 0, 15, 0⟩
def RST_LATE_DROP_PART : Field := ⟨0x82, 0x128, 0, 0, 63, 32⟩
def RST_LATE_DROP_CTX : Field := ⟨0x82, 0x128, 0, 0, 31, 0⟩
def RST_TRAY_PC_ACKED : Field := ⟨0x82, 0x130, 0, 0, 16, 16⟩
def RST_TRAY_LAST_IBI : Field := ⟨0x82, 0x130, 0, 0, 15, 8⟩
def RST_TRAY_LAST_CMD : Field := ⟨0x82, 0x130, 0, 0, 7, 0⟩
def HANG_CFG_PERSIST_MS : Field := ⟨0x83, 0x100, 0, 0, 63, 48⟩
def HANG_CFG_ORPHAN_MS : Field := ⟨0x83, 0x100, 0, 0, 47, 32⟩
def HANG_CFG_EN : Field := ⟨0x83, 0x100, 0, 0, 2, 2⟩
def HANG_CFG_ACTION : Field := ⟨0x83, 0x100, 0, 0, 1, 0⟩
def HANG_STATUS_SCANS : Field := ⟨0x83, 0x108, 0, 0, 63, 32⟩
def HANG_STATUS_WAITING : Field := ⟨0x83, 0x108, 0, 0, 31, 16⟩
def HANG_STATUS_TRUNC : Field := ⟨0x83, 0x108, 0, 0, 2, 2⟩
def HANG_STATUS_ORPHAN : Field := ⟨0x83, 0x108, 0, 0, 1, 1⟩
def HANG_STATUS_HANG : Field := ⟨0x83, 0x108, 0, 0, 0, 0⟩
def HANG_RPT_GUILTY : Field := ⟨0x83, 0x110, 0, 0, 63, 48⟩
def HANG_RPT_GEN : Field := ⟨0x83, 0x110, 0, 0, 47, 40⟩
def HANG_RPT_MEMBERS : Field := ⟨0x83, 0x110, 0, 0, 39, 35⟩
def HANG_RPT_MORE : Field := ⟨0x83, 0x110, 0, 0, 34, 34⟩
def HANG_RPT_KIND : Field := ⟨0x83, 0x110, 0, 0, 33, 32⟩
def HANG_RPT_COUNTER : Field := ⟨0x83, 0x110, 0, 0, 16, 0⟩
def HANG_MEMBER_CTX : Field := ⟨0x83, 0x118, 8, 0, 63, 48⟩
def HANG_MEMBER_GEN : Field := ⟨0x83, 0x118, 8, 0, 47, 40⟩
def HANG_MEMBER_COUNTER : Field := ⟨0x83, 0x118, 8, 0, 16, 0⟩
def HANG_TIME_TIME : Field := ⟨0x83, 0x190, 0, 0, 63, 0⟩
def DUMP_STATUS_SEQ : Field := ⟨0x84, 0x100, 0, 0, 63, 48⟩
def DUMP_STATUS_FLASH_VALID : Field := ⟨0x84, 0x100, 0, 0, 47, 44⟩
def DUMP_STATUS_FLUSHING : Field := ⟨0x84, 0x100, 0, 0, 2, 2⟩
def DUMP_STATUS_SRAM_VALID : Field := ⟨0x84, 0x100, 0, 0, 1, 1⟩
def DUMP_STATUS_BUSY : Field := ⟨0x84, 0x100, 0, 0, 0, 0⟩
def DUMP_CMD_ERASE : Field := ⟨0x84, 0x108, 0, 0, 2, 2⟩
def DUMP_CMD_FLUSH : Field := ⟨0x84, 0x108, 0, 0, 1, 1⟩
def DUMP_CMD_CAPTURE : Field := ⟨0x84, 0x108, 0, 0, 0, 0⟩
def DUMP_SEL_SLOT : Field := ⟨0x84, 0x110, 0, 0, 35, 32⟩
def DUMP_SEL_OFFSET : Field := ⟨0x84, 0x110, 0, 0, 17, 3⟩
def DUMP_DATA_WORD : Field := ⟨0x84, 0x118, 0, 0, 63, 0⟩
def SRC_ENABLE : Field := ⟨0x10B, 0x100, 8, 0, 31, 31⟩
def SRC_SENSE : Field := ⟨0x10B, 0x100, 8, 0, 30, 30⟩
def SRC_PRIO : Field := ⟨0x10B, 0x100, 8, 0, 29, 25⟩
def SRC_TARGET : Field := ⟨0x10B, 0x100, 8, 0, 24, 22⟩
def SRC_MOD_EN : Field := ⟨0x10B, 0x100, 8, 0, 21, 21⟩
def SRC_MOD_GRP : Field := ⟨0x10B, 0x100, 8, 0, 20, 16⟩
def SRC_FILT : Field := ⟨0x10B, 0x100, 8, 0, 15, 8⟩
def SRC_ACTIVE : Field := ⟨0x10B, 0x100, 8, 0, 2, 2⟩
def SRC_PENDING : Field := ⟨0x10B, 0x100, 8, 0, 1, 1⟩
def SRC_WIRED : Field := ⟨0x10B, 0x100, 8, 0, 0, 0⟩
def FIC_CTRL_EN : Field := ⟨0x10A, 0x100, 0, 0, 0, 0⟩
def FIC_STATS_SPURIOUS : Field := ⟨0x10A, 0x108, 0, 0, 63, 32⟩
def FIC_STATS_MERGED : Field := ⟨0x10A, 0x108, 0, 0, 31, 16⟩
def FIC_STATS_STACK_FULL : Field := ⟨0x10A, 0x108, 0, 0, 15, 0⟩
def FIC_CORE_VEC_BASE : Field := ⟨0x10A, 0x200, 32, 0, 63, 14⟩
def FIC_CORE_MODE : Field := ⟨0x10A, 0x200, 32, 0, 12, 12⟩
def FIC_CORE_THRESH : Field := ⟨0x10A, 0x200, 32, 0, 4, 0⟩
def FIC_CUR_RUN_PRIO : Field := ⟨0x10A, 0x208, 32, 0, 31, 27⟩
def FIC_CUR_DEPTH : Field := ⟨0x10A, 0x208, 32, 0, 20, 16⟩
def FIC_CUR_TOP : Field := ⟨0x10A, 0x208, 32, 0, 9, 0⟩
def FIC_EOI_ID : Field := ⟨0x10A, 0x210, 32, 0, 9, 0⟩
def FIC_PRES_PRIO : Field := ⟨0x10A, 0x218, 32, 0, 14, 10⟩
def FIC_PRES_ID : Field := ⟨0x10A, 0x218, 32, 0, 9, 0⟩
def FIC_PEND_SET_PEND : Field := ⟨0x10A, 0x400, 8, 0, 63, 0⟩
def FIC_PEND_CLR_PEND : Field := ⟨0x10A, 0x480, 8, 0, 63, 0⟩
def FIC_ACTIVE_ACTIVE : Field := ⟨0x10A, 0x500, 8, 0, 63, 0⟩
def FIC_LINE_LINE : Field := ⟨0x10A, 0x580, 8, 0, 63, 0⟩
def FIC_MOD_TIME_US : Field := ⟨0x10A, 0x600, 8, 0, 63, 48⟩
def FIC_MOD_COUNT : Field := ⟨0x10A, 0x600, 8, 0, 47, 40⟩
def FIC_MOD_HELD : Field := ⟨0x10A, 0x600, 8, 0, 39, 32⟩
def REC_CTRL_IRQ_SEV : Field := ⟨0x88, 0x100, 0, 0, 11, 8⟩
def REC_CTRL_TMODE_SEL : Field := ⟨0x88, 0x100, 0, 0, 5, 4⟩
def REC_CTRL_UNFREEZE : Field := ⟨0x88, 0x100, 0, 0, 2, 2⟩
def REC_CTRL_FREEZE : Field := ⟨0x88, 0x100, 0, 0, 1, 1⟩
def REC_CTRL_EN : Field := ⟨0x88, 0x100, 0, 0, 0, 0⟩
def REC_STATUS_NEXT_SEQ : Field := ⟨0x88, 0x108, 0, 0, 63, 32⟩
def REC_STATUS_HELD : Field := ⟨0x88, 0x108, 0, 0, 31, 24⟩
def REC_STATUS_FREEZE_MS : Field := ⟨0x88, 0x108, 0, 0, 23, 8⟩
def REC_STATUS_TMODE : Field := ⟨0x88, 0x108, 0, 0, 0, 0⟩
def REC_WRITTEN_INDEX : Field := ⟨0x88, 0x110, 0, 0, 63, 0⟩
def REC_MIRRORED_INDEX : Field := ⟨0x88, 0x118, 0, 0, 63, 0⟩
def REC_LOST_SUPPRESSED : Field := ⟨0x88, 0x120, 0, 0, 63, 32⟩
def REC_LOST_FREEZE : Field := ⟨0x88, 0x120, 0, 0, 31, 16⟩
def REC_LOST_MIRROR : Field := ⟨0x88, 0x120, 0, 0, 15, 0⟩
def REC_RD_SEL_FLASH : Field := ⟨0x88, 0x128, 0, 0, 63, 63⟩
def REC_RD_SEL_INDEX : Field := ⟨0x88, 0x128, 0, 0, 47, 0⟩
def REC_RD_STATUS_GONE : Field := ⟨0x88, 0x130, 0, 0, 1, 1⟩
def REC_RD_STATUS_BUSY : Field := ⟨0x88, 0x130, 0, 0, 0, 0⟩
def REC_RD_W_WORD : Field := ⟨0x88, 0x138, 8, 0, 63, 0⟩
def REC_RATE_RATE : Field := ⟨0x88, 0x200, 8, 0, 31, 16⟩
def REC_RATE_BURST : Field := ⟨0x88, 0x200, 8, 0, 15, 0⟩
def REC_SNAP_CFG_MIN_SEV : Field := ⟨0x89, 0x100, 8, 0, 11, 8⟩
def REC_SNAP_CFG_COUNT : Field := ⟨0x89, 0x100, 8, 0, 7, 3⟩
def REC_SNAP_CFG_EN : Field := ⟨0x89, 0x100, 8, 0, 0, 0⟩
def REC_SNAP_TAG_TAG_B : Field := ⟨0x89, 0x200, 64, 8, 63, 32⟩
def REC_SNAP_TAG_TAG_A : Field := ⟨0x89, 0x200, 64, 8, 31, 0⟩
def REC_NONCE_NONCE : Field := ⟨0x8A, 0x100, 8, 0, 63, 0⟩
def REC_CLR_CMD_VERIFY : Field := ⟨0x8A, 0x120, 0, 0, 2, 2⟩
def REC_CLR_CMD_PTR_RESET : Field := ⟨0x8A, 0x120, 0, 0, 1, 1⟩
def REC_CLR_CMD_NONCE_REQ : Field := ⟨0x8A, 0x120, 0, 0, 0, 0⟩
def REC_AUTH_DATA_WORD : Field := ⟨0x8A, 0x128, 0, 0, 63, 0⟩
def REC_CLR_STATUS_WORDS : Field := ⟨0x8A, 0x130, 0, 0, 15, 4⟩
def REC_CLR_STATUS_RESULT : Field := ⟨0x8A, 0x130, 0, 0, 3, 0⟩
def SYS_BOOT_FAIL_CODE : Field := ⟨0x0, 0x100, 0, 0, 63, 56⟩
def SYS_BOOT_FAIL_STEP : Field := ⟨0x0, 0x100, 0, 0, 55, 52⟩
def SYS_BOOT_RT_STATE : Field := ⟨0x0, 0x100, 0, 0, 15, 12⟩
def SYS_BOOT_STATE : Field := ⟨0x0, 0x100, 0, 0, 11, 8⟩
def SYS_BOOT_STEP : Field := ⟨0x0, 0x100, 0, 0, 3, 0⟩
def SYS_BOOT_TIME_READY_MS : Field := ⟨0x0, 0x108, 0, 0, 63, 32⟩
def SYS_BOOT_TIME_RT_MS : Field := ⟨0x0, 0x108, 0, 0, 31, 0⟩
def CFG_STATUS_LOADED : Field := ⟨0x0, 0x110, 0, 0, 47, 32⟩
def CFG_STATUS_DEFAULT : Field := ⟨0x0, 0x110, 0, 0, 15, 0⟩
def CFG_ERR_ID : Field := ⟨0x0, 0x118, 0, 0, 63, 56⟩
def CFG_ERR_REASON : Field := ⟨0x0, 0x118, 0, 0, 55, 52⟩
def CFG_ERR_ENTRY : Field := ⟨0x0, 0x118, 0, 0, 15, 0⟩
def SYS_SERIAL_SERIAL : Field := ⟨0x0, 0x120, 0, 0, 63, 0⟩
def SYS_UPTIME_POWER_CYCLES : Field := ⟨0x0, 0x128, 0, 0, 63, 32⟩
def SYS_UPTIME_OP_SECONDS : Field := ⟨0x0, 0x128, 0, 0, 31, 0⟩
def DBG_CTRL_CLOSED : Field := ⟨0x0, 0x130, 0, 0, 1, 1⟩
def DBG_CTRL_UNLOCK : Field := ⟨0x0, 0x130, 0, 0, 0, 0⟩
def SYS_ID_HASH_HASH : Field := ⟨0x0, 0x200, 8, 0, 63, 0⟩
def FUSE_STATE_OWNER_SPOILED : Field := ⟨0x1, 0x100, 0, 0, 31, 28⟩
def FUSE_STATE_DEBUG_CLOSED : Field := ⟨0x1, 0x100, 0, 0, 27, 27⟩
def FUSE_STATE_OWNER_REQ : Field := ⟨0x1, 0x100, 0, 0, 26, 26⟩
def FUSE_STATE_ROLLBACK : Field := ⟨0x1, 0x100, 0, 0, 22, 16⟩
def FUSE_STATE_OWNER_REVOKED : Field := ⟨0x1, 0x100, 0, 0, 15, 12⟩
def FUSE_STATE_OWNER_VALID : Field := ⟨0x1, 0x100, 0, 0, 11, 8⟩
def FUSE_STATE_ROOT_REVOKED : Field := ⟨0x1, 0x100, 0, 0, 3, 0⟩
def FUSE_CMD_EXECUTE : Field := ⟨0x1, 0x108, 0, 0, 2, 2⟩
def FUSE_CMD_PTR_RESET : Field := ⟨0x1, 0x108, 0, 0, 1, 1⟩
def FUSE_CMD_NONCE_REQ : Field := ⟨0x1, 0x108, 0, 0, 0, 0⟩
def FUSE_AUTH_DATA_WORD : Field := ⟨0x1, 0x110, 0, 0, 63, 0⟩
def FUSE_RESULT_WORDS : Field := ⟨0x1, 0x118, 0, 0, 15, 4⟩
def FUSE_RESULT_RESULT : Field := ⟨0x1, 0x118, 0, 0, 3, 0⟩
def FUSE_NONCE_NONCE : Field := ⟨0x1, 0x120, 8, 0, 63, 0⟩
def ROOT_HASH_HASH : Field := ⟨0x1, 0x200, 32, 8, 63, 0⟩
def OWNER_HASH_HASH : Field := ⟨0x1, 0x280, 32, 8, 63, 0⟩
def CFG_SEL_ID : Field := ⟨0x2, 0x100, 0, 0, 7, 0⟩
def CFG_CMD_ERASE : Field := ⟨0x2, 0x108, 0, 0, 3, 3⟩
def CFG_CMD_READ : Field := ⟨0x2, 0x108, 0, 0, 2, 2⟩
def CFG_CMD_COMMIT : Field := ⟨0x2, 0x108, 0, 0, 1, 1⟩
def CFG_CMD_PTR_RESET : Field := ⟨0x2, 0x108, 0, 0, 0, 0⟩
def CFG_PTR_WORD : Field := ⟨0x2, 0x110, 0, 0, 12, 0⟩
def CFG_DATA_WORD : Field := ⟨0x2, 0x118, 0, 0, 63, 0⟩
def CFG_WR_STATUS_ID : Field := ⟨0x2, 0x120, 0, 0, 63, 56⟩
def CFG_WR_STATUS_REASON : Field := ⟨0x2, 0x120, 0, 0, 55, 52⟩
def CFG_WR_STATUS_RESULT : Field := ⟨0x2, 0x120, 0, 0, 3, 0⟩
def FW_SEL_UNIT : Field := ⟨0x3, 0x100, 0, 0, 3, 0⟩
def FW_SRC_ADDR : Field := ⟨0x3, 0x108, 0, 0, 49, 0⟩
def FW_LEN_BYTES : Field := ⟨0x3, 0x110, 0, 0, 31, 0⟩
def FW_CMD_CMD : Field := ⟨0x3, 0x118, 0, 0, 2, 0⟩
def FW_STATUS_PROGRESS : Field := ⟨0x3, 0x120, 0, 0, 63, 32⟩
def FW_STATUS_RESULT : Field := ⟨0x3, 0x120, 0, 0, 31, 24⟩
def FW_STATUS_STATE : Field := ⟨0x3, 0x120, 0, 0, 3, 0⟩
def FW_RT_READY : Field := ⟨0x3, 0x128, 0, 0, 0, 0⟩
def FW_BUF_CNT_BYTES : Field := ⟨0x3, 0x130, 0, 0, 9, 0⟩
def FW_UNIT_VERSION : Field := ⟨0x3, 0x200, 8, 0, 63, 32⟩
def FW_UNIT_SVN : Field := ⟨0x3, 0x200, 8, 0, 31, 24⟩
def FW_UNIT_TRIAL_BOOTS : Field := ⟨0x3, 0x200, 8, 0, 15, 8⟩
def FW_UNIT_TRIAL : Field := ⟨0x3, 0x200, 8, 0, 7, 7⟩
def FW_UNIT_VALID_B : Field := ⟨0x3, 0x200, 8, 0, 6, 6⟩
def FW_UNIT_VALID_A : Field := ⟨0x3, 0x200, 8, 0, 5, 5⟩
def FW_UNIT_OWNER_SIGNED : Field := ⟨0x3, 0x200, 8, 0, 4, 4⟩
def FW_UNIT_ACTIVE_SLOT : Field := ⟨0x3, 0x200, 8, 0, 0, 0⟩
def FW_BUF_DATA : Field := ⟨0x3, 0x400, 8, 0, 63, 0⟩
def BLK_ID_TYPE : Field := ⟨0x0, 0x0, 0, 0, 63, 48⟩
def BLK_ID_INSTANCE : Field := ⟨0x0, 0x0, 0, 0, 47, 32⟩
def BLK_ID_FROND : Field := ⟨0x0, 0x0, 0, 0, 31, 28⟩
def BLK_ID_PAGE_IDX : Field := ⟨0x0, 0x0, 0, 0, 23, 16⟩
def BLK_ID_VERSION : Field := ⟨0x0, 0x0, 0, 0, 15, 8⟩
def BLK_ID_PAGES : Field := ⟨0x0, 0x0, 0, 0, 7, 0⟩
def BLK_CAPS_ENABLE_CTL : Field := ⟨0x0, 0x8, 0, 0, 14, 14⟩
def BLK_CAPS_RESETTABLE : Field := ⟨0x0, 0x8, 0, 0, 13, 13⟩
def BLK_CAPS_FENCEABLE : Field := ⟨0x0, 0x8, 0, 0, 12, 12⟩
def BLK_CAPS_ERR_IMPL : Field := ⟨0x0, 0x8, 0, 0, 11, 0⟩
def BLK_CTRL_CFG_LOCK : Field := ⟨0x0, 0x10, 0, 0, 3, 3⟩
def BLK_CTRL_RESET_REQ : Field := ⟨0x0, 0x10, 0, 0, 2, 2⟩
def BLK_CTRL_FENCE : Field := ⟨0x0, 0x10, 0, 0, 1, 1⟩
def BLK_CTRL_ENABLE : Field := ⟨0x0, 0x10, 0, 0, 0, 0⟩
def BLK_STATUS_GEN : Field := ⟨0x0, 0x18, 0, 0, 63, 56⟩
def BLK_STATUS_LOCKED : Field := ⟨0x0, 0x18, 0, 0, 5, 5⟩
def BLK_STATUS_BUSY : Field := ⟨0x0, 0x18, 0, 0, 4, 4⟩
def BLK_STATUS_STATE : Field := ⟨0x0, 0x18, 0, 0, 3, 0⟩
def ERR_STATUS_ERR : Field := ⟨0x0, 0x20, 0, 0, 11, 0⟩
def ERR_MASK_MASK : Field := ⟨0x0, 0x28, 0, 0, 11, 0⟩
def ERR_INJECT_INJECT : Field := ⟨0x0, 0x30, 0, 0, 11, 0⟩
def ERR_ACTION_ACTION : Field := ⟨0x0, 0x38, 0, 0, 59, 0⟩
def ACCESS_CLASS_FIXED : Field := ⟨0x0, 0x40, 0, 0, 7, 7⟩
def ACCESS_CLASS_WRITE : Field := ⟨0x0, 0x40, 0, 0, 3, 2⟩
def ACCESS_CLASS_READ : Field := ⟨0x0, 0x40, 0, 0, 1, 0⟩

end Sys2Proof.F
end

