-- ==== Sys2Proof/Machine/RegTable.lean ====
section
/-! DEFINITION. The register tables of the spec as data: for each kind of page its registers, with the access code
(R10), the Reset value (R12), the static clamp and the "L0 only" mark (R11) of every field. The entries "cfg",
"fuse", "nv" and "per ..." hold 0 here; `Machine.RegReset` gives what they read as. -/

namespace Sys2Proof.Machine

/-- The registers of the `phase` page (R61). -/
def rows_phase_0 : List RegRow := [
  ⟨0x100, 0, 1, 0, 1, [⟨7, 7, .w1s, 0x0, none, false⟩,
     ⟨6, 6, .w1s, 0x0, none, false⟩,
     ⟨5, 5, .w1s, 0x0, none, false⟩,
     ⟨4, 4, .rw, 0x0, none, false⟩,
     ⟨3, 3, .rw, 0x1, none, false⟩,
     ⟨2, 2, .rw, 0x1, none, false⟩,
     ⟨1, 1, .w1s, 0x0, none, false⟩,
     ⟨0, 0, .rw, 0x1, none, false⟩]⟩,
  ⟨0x108, 0, 1, 0, 1, [⟨63, 56, .ro, 0x0, none, false⟩,
     ⟨55, 48, .ro, 0x0, none, false⟩,
     ⟨47, 40, .ro, 0x0, none, false⟩,
     ⟨39, 36, .ro, 0xF, none, false⟩,
     ⟨35, 32, .ro, 0xC, none, false⟩,
     ⟨10, 8, .ro, 0x0, none, false⟩,
     ⟨7, 7, .ro, 0x0, none, false⟩,
     ⟨6, 6, .ro, 0x0, none, false⟩,
     ⟨1, 0, .ro, 0x0, none, false⟩]⟩,
  ⟨0x110, 0, 1, 0, 1, [⟨63, 32, .ro, 0x0, none, false⟩,
     ⟨31, 0, .ro, 0x0, none, false⟩]⟩,
  ⟨0x118, 0, 1, 0, 1, [⟨39, 0, .rw, 0x0, none, false⟩]⟩,
  ⟨0x120, 0, 1, 0, 1, [⟨39, 0, .ro, 0x0, none, false⟩]⟩,
  ⟨0x128, 0, 1, 0, 1, [⟨37, 32, .rw, 0x0, none, false⟩,
     ⟨31, 16, .rw, 0x1342, none, false⟩,
     ⟨3, 0, .rw, 0xF, none, false⟩]⟩,
  ⟨0x130, 0, 1, 0, 1, [⟨63, 32, .rw, 0x10000000, none, false⟩,
     ⟨31, 0, .rw, 0x8000000, some (85983232, 536870912), false⟩]⟩,
  ⟨0x138, 0, 1, 0, 1, [⟨63, 0, .ro, 0x0, none, false⟩]⟩
  ]

def rows_phase_1 : List RegRow := [
  ⟨0x140, 0, 1, 0, 1, [⟨31, 0, .wo, 0x0, none, false⟩]⟩,
  ⟨0x148, 0, 1, 0, 1, [⟨31, 0, .rw, 0x0, none, false⟩]⟩,
  ⟨0x150, 0, 1, 0, 1, [⟨55, 48, .rw, 0xA, none, false⟩,
     ⟨47, 32, .rw, 0x0, none, false⟩,
     ⟨31, 24, .rw, 0xFA, none, false⟩,
     ⟨9, 8, .rw, 0x1, none, false⟩,
     ⟨0, 0, .rw, 0x0, none, false⟩]⟩,
  ⟨0x158, 0, 1, 0, 1, [⟨15, 8, .w1c, 0x0, none, false⟩,
     ⟨6, 6, .w1c, 0x0, none, false⟩,
     ⟨5, 5, .w1c, 0x0, none, false⟩,
     ⟨4, 4, .w1c, 0x0, none, false⟩,
     ⟨3, 3, .w1c, 0x0, none, false⟩,
     ⟨2, 2, .w1c, 0x0, none, false⟩,
     ⟨1, 1, .w1c, 0x0, none, false⟩,
     ⟨0, 0, .w1c, 0x0, none, false⟩]⟩,
  ⟨0x160, 0, 1, 0, 1, [⟨63, 48, .rw, 0x0, none, false⟩,
     ⟨47, 32, .rw, 0x0, none, false⟩,
     ⟨31, 16, .rw, 0x0, none, false⟩,
     ⟨15, 0, .rw, 0x0, none, false⟩]⟩,
  ⟨0x168, 0, 1, 0, 1, [⟨3, 0, .rw, 0xC, none, false⟩]⟩,
  ⟨0x170, 0, 1, 0, 1, [⟨63, 32, .rw, 0x1000000, none, false⟩,
     ⟨18, 16, .rw, 0x2, none, false⟩,
     ⟨15, 0, .ro, 0x0, none, false⟩]⟩,
  ⟨0x178, 0, 1, 0, 1, [⟨15, 0, .rw, 0x0, none, false⟩]⟩
  ]

def rows_phase_2 : List RegRow := [
  ⟨0x180, 8, 8, 0, 1, [⟨63, 32, .rw, 0x0, none, false⟩,
     ⟨4, 4, .rw, 0x0, none, false⟩,
     ⟨3, 0, .rw, 0x0, none, false⟩]⟩,
  ⟨0x1C0, 0, 1, 0, 1, [⟨63, 0, .ro, 0x0, none, false⟩]⟩
  ]

def rows_phase : List RegRow := rows_phase_0 ++ rows_phase_1 ++ rows_phase_2

/-- The registers of the `phaseEvt` page (R61). -/
def rows_phaseEvt_0 : List RegRow := [
  ⟨0x100, 16, 64, 0, 1, [⟨63, 32, .rw, 0x0, none, false⟩,
     ⟨31, 24, .rw, 0x0, none, false⟩,
     ⟨23, 16, .rw, 0x0, none, false⟩,
     ⟨3, 2, .rw, 0x1, none, false⟩,
     ⟨1, 1, .rw, 0x1, none, false⟩,
     ⟨0, 0, .rw, 0x0, none, false⟩]⟩,
  ⟨0x108, 16, 64, 0, 1, [⟨63, 56, .rw, 0x0, none, false⟩,
     ⟨55, 32, .rw, 0x0, none, false⟩,
     ⟨31, 0, .rw, 0x0, none, false⟩]⟩,
  ⟨0x500, 0, 1, 0, 1, [⟨63, 0, .ro, 0x0, none, false⟩]⟩
  ]

def rows_phaseEvt : List RegRow := rows_phaseEvt_0

/-- The registers of the `phaseProf` page (R61). -/
def rows_phaseProf_0 : List RegRow := [
  ⟨0x100, 8, 64, 0, 1, [⟨63, 48, .rw, 0x0, none, false⟩,
     ⟨47, 32, .rw, 0x0, none, false⟩,
     ⟨31, 16, .rw, 0x0, none, false⟩,
     ⟨15, 0, .rw, 0x0, none, false⟩]⟩,
  ⟨0x300, 0, 1, 0, 1, [⟨47, 8, .rw, 0x0, none, false⟩,
     ⟨7, 0, .rw, 0x0, none, false⟩]⟩
  ]

def rows_phaseProf : List RegRow := rows_phaseProf_0

/-- The registers of the `tile` page (R102, R133). -/
def rows_tile_0 : List RegRow := [
  ⟨0x100, 0, 1, 0, 1, [⟨5, 4, .rw, 0x1, none, false⟩,
     ⟨0, 0, .rw, 0x1, none, false⟩]⟩,
  ⟨0x108, 0, 1, 0, 1, [⟨63, 56, .ro, 0xFF, none, false⟩,
     ⟨11, 8, .ro, 0x0, none, false⟩,
     ⟨3, 0, .ro, 0x0, none, false⟩]⟩,
  ⟨0x110, 0, 1, 0, 1, [⟨63, 32, .ro, 0x0, none, false⟩,
     ⟨27, 24, .ro, 0x0, none, false⟩,
     ⟨21, 20, .ro, 0x0, none, false⟩,
     ⟨18, 16, .ro, 0x4, none, false⟩,
     ⟨14, 12, .ro, 0x3, none, false⟩,
     ⟨10, 8, .ro, 0x2, none, false⟩,
     ⟨6, 4, .ro, 0x1, none, false⟩,
     ⟨2, 0, .ro, 0x0, none, false⟩]⟩,
  ⟨0x118, 0, 1, 0, 1, [⟨12, 12, .w1c, 0x0, none, false⟩,
     ⟨11, 8, .w1c, 0x0, none, false⟩,
     ⟨3, 0, .w1c, 0x0, none, false⟩]⟩,
  ⟨0x120, 8, 5, 0, 1, [⟨63, 48, .ro, 0x0, none, false⟩,
     ⟨47, 32, .ro, 0x0, none, false⟩,
     ⟨31, 16, .ro, 0x0, none, false⟩,
     ⟨15, 8, .ro, 0x0, none, false⟩,
     ⟨7, 7, .ro, 0x0, none, false⟩,
     ⟨6, 6, .ro, 0x0, none, false⟩,
     ⟨3, 3, .ro, 0x0, none, false⟩,
     ⟨1, 0, .ro, 0x3, none, false⟩]⟩,
  ⟨0x148, 8, 5, 0, 1, [⟨63, 48, .ro, 0x0, none, false⟩,
     ⟨47, 32, .ro, 0x0, none, false⟩,
     ⟨31, 16, .ro, 0x0, none, false⟩,
     ⟨0, 0, .ro, 0x0, none, false⟩]⟩,
  ⟨0x170, 0, 1, 0, 1, [⟨12, 10, .rw0, 0x0, none, false⟩,
     ⟨9, 8, .rw0, 0x0, none, false⟩,
     ⟨6, 0, .rw0, 0x0, none, false⟩]⟩,
  ⟨0x178, 0, 1, 0, 1, [⟨47, 32, .ro, 0x8000, none, false⟩,
     ⟨11, 0, .ro, 0x0, none, false⟩]⟩
  ]

def rows_tile_1 : List RegRow := [
  ⟨0x180, 0, 1, 0, 1, [⟨63, 0, .ro, 0x0, none, false⟩]⟩,
  ⟨0x188, 0, 1, 0, 1, [⟨63, 0, .ro, 0x0, none, false⟩]⟩,
  ⟨0x190, 0, 1, 0, 1, [⟨5, 5, .w1c, 0x0, none, false⟩,
     ⟨4, 4, .w1c, 0x0, none, false⟩,
     ⟨3, 3, .w1c, 0x0, none, false⟩,
     ⟨2, 2, .w1c, 0x0, none, false⟩,
     ⟨1, 1, .w1c, 0x0, none, false⟩,
     ⟨0, 0, .w1c, 0x0, none, false⟩]⟩,
  ⟨0x198, 0, 1, 0, 1, [⟨4, 4, .w1c, 0x0, none, false⟩,
     ⟨3, 3, .w1c, 0x0, none, false⟩,
     ⟨2, 2, .w1c, 0x0, none, false⟩,
     ⟨1, 1, .w1c, 0x0, none, false⟩,
     ⟨0, 0, .w1c, 0x0, none, false⟩]⟩,
  ⟨0x200, 0, 1, 0, 1, [⟨63, 48, .ro, 0x0, none, false⟩,
     ⟨47, 40, .ro, 0x0, none, false⟩,
     ⟨34, 32, .ro, 0x0, none, false⟩,
     ⟨31, 8, .ro, 0x0, none, false⟩,
     ⟨2, 0, .ro, 0x0, none, false⟩]⟩,
  ⟨0x208, 0, 1, 0, 1, [⟨63, 32, .ro, 0x0, none, false⟩,
     ⟨4, 4, .ro, 0x0, none, false⟩,
     ⟨3, 0, .ro, 0x0, none, false⟩]⟩,
  ⟨0x210, 0, 1, 0, 1, [⟨63, 48, .ro, 0x0, none, false⟩,
     ⟨47, 40, .ro, 0x0, none, false⟩,
     ⟨39, 32, .ro, 0x0, none, false⟩,
     ⟨31, 8, .ro, 0x0, none, false⟩,
     ⟨7, 0, .ro, 0x0, none, false⟩]⟩,
  ⟨0x218, 0, 1, 0, 1, [⟨63, 0, .ro, 0x0, none, false⟩]⟩
  ]

def rows_tile_2 : List RegRow := [
  ⟨0x220, 0, 1, 0, 1, [⟨63, 0, .ro, 0x0, none, false⟩]⟩,
  ⟨0x228, 0, 1, 0, 1, [⟨63, 0, .ro, 0x0, none, false⟩]⟩,
  ⟨0x230, 0, 1, 0, 1, [⟨15, 0, .ro, 0x0, none, false⟩]⟩,
  ⟨0x240, 8, 16, 0, 1, [⟨31, 0, .rw, 0x0, none, false⟩]⟩
  ]

def rows_tile : List RegRow := rows_tile_0 ++ rows_tile_1 ++ rows_tile_2

/-- The registers of the `tmap` page (R102). -/
def rows_tmap_0 : List RegRow := [
  ⟨0x100, 0, 1, 0, 1, [⟨23, 16, .ro, 0x0, none, false⟩,
     ⟨15, 8, .ro, 0x0, none, false⟩,
     ⟨7, 0, .ro, 0x4, none, false⟩]⟩,
  ⟨0x200, 8, 128, 0, 1, [⟨8, 8, .rw0, 0x1, none, false⟩,
     ⟨7, 0, .rw0, 0x0, none, false⟩]⟩
  ]

def rows_tmap : List RegRow := rows_tmap_0

/-- The registers of the `acal` page (R102). -/
def rows_acal_0 : List RegRow := [
  ⟨0x100, 0, 1, 0, 1, [⟨7, 7, .w1s, 0x0, none, false⟩,
     ⟨6, 6, .w1s, 0x0, none, false⟩,
     ⟨5, 5, .rw, 0x0, none, false⟩,
     ⟨4, 4, .rw, 0x1, none, false⟩,
     ⟨3, 3, .rw, 0x0, none, false⟩,
     ⟨1, 1, .rw, 0x0, none, false⟩,
     ⟨0, 0, .rw, 0x1, none, false⟩]⟩,
  ⟨0x108, 0, 1, 0, 1, [⟨19, 0, .rw, 0x7D0, some (100, 600000), false⟩]⟩,
  ⟨0x110, 0, 1, 0, 1, [⟨7, 0, .rw, 0xC, some (4, 80), false⟩]⟩,
  ⟨0x118, 0, 1, 0, 1, [⟨63, 32, .ro, 0x0, none, false⟩,
     ⟨31, 16, .ro, 0x0, none, false⟩,
     ⟨2, 2, .ro, 0x0, none, false⟩,
     ⟨1, 1, .ro, 0x0, none, false⟩,
     ⟨0, 0, .ro, 0x1, none, false⟩]⟩,
  ⟨0x120, 0, 1, 0, 1, [⟨63, 48, .ro, 0x10, none, false⟩,
     ⟨47, 32, .ro, 0x64, none, false⟩,
     ⟨31, 16, .ro, 0x33, none, false⟩]⟩
  ]

def rows_acal : List RegRow := rows_acal_0

/-- The registers of the `store` page (R166). -/
def rows_store_0 : List RegRow := [
  ⟨0x100, 0, 1, 0, 1, [⟨7, 0, .rw, 0x80, none, false⟩]⟩,
  ⟨0x108, 0, 1, 0, 1, [⟨31, 16, .rw, 0x258, some (10, 65535), false⟩,
     ⟨0, 0, .w1c, 0x0, none, false⟩]⟩,
  ⟨0x110, 0, 1, 0, 1, [⟨63, 56, .ro, 0x0, none, false⟩,
     ⟨53, 53, .ro, 0x0, none, false⟩,
     ⟨52, 52, .ro, 0x0, none, false⟩,
     ⟨23, 0, .ro, 0x0, none, false⟩]⟩,
  ⟨0x118, 0, 1, 0, 1, [⟨63, 32, .rw, 0x0, none, false⟩,
     ⟨31, 0, .rw, 0x0, none, false⟩]⟩
  ]

def rows_store : List RegRow := rows_store_0

/-- The registers of the `hbmf` page (R166). -/
def rows_hbmf_0 : List RegRow := [
  ⟨0x100, 0, 1, 0, 1, [⟨0, 0, .rw0, 0x1, none, false⟩]⟩,
  ⟨0x108, 0, 1, 0, 1, [⟨43, 24, .ro, 0x4FC00, none, false⟩,
     ⟨23, 16, .ro, 0x0, none, false⟩,
     ⟨12, 0, .ro, 0x0, none, false⟩]⟩,
  ⟨0x110, 8, 2, 0, 1, [⟨63, 0, .w1s, 0x0, none, true⟩]⟩,
  ⟨0x120, 8, 2, 0, 1, [⟨63, 0, .ro, 0x0, none, false⟩]⟩,
  ⟨0x130, 0, 1, 0, 1, [⟨11, 0, .rw, 0x0, none, false⟩]⟩,
  ⟨0x138, 0, 1, 0, 1, [⟨63, 63, .ro, 0x0, none, false⟩,
     ⟨62, 61, .ro, 0x0, none, false⟩,
     ⟨58, 32, .ro, 0x0, none, false⟩,
     ⟨17, 0, .ro, 0x0, none, false⟩]⟩,
  ⟨0x140, 0, 1, 0, 1, [⟨58, 32, .wo, 0x0, none, true⟩]⟩,
  ⟨0x148, 0, 1, 0, 1, [⟨63, 63, .w1c, 0x0, none, false⟩,
     ⟨62, 61, .ro, 0x0, none, false⟩,
     ⟨58, 32, .ro, 0x0, none, false⟩]⟩
  ]

def rows_hbmf_1 : List RegRow := [
  ⟨0x150, 0, 1, 0, 1, [⟨15, 8, .rw0, 0x4, none, false⟩,
     ⟨7, 0, .rw0, 0x18, none, false⟩]⟩,
  ⟨0x158, 0, 1, 0, 1, [⟨47, 32, .rw, 0xC, some (1, 720), false⟩,
     ⟨31, 0, .ro, 0x0, none, false⟩]⟩,
  ⟨0x160, 0, 1, 0, 1, [⟨38, 0, .rw0, 0x0, none, false⟩]⟩,
  ⟨0x168, 0, 1, 0, 1, [⟨38, 0, .rw0, 0x0, none, false⟩]⟩,
  ⟨0x170, 0, 1, 0, 1, [⟨5, 5, .rw0, 0x0, none, false⟩,
     ⟨4, 4, .rw0, 0x0, none, false⟩,
     ⟨3, 2, .rw0, 0x0, none, false⟩,
     ⟨1, 1, .w1s, 0x0, none, true⟩,
     ⟨0, 0, .rw0, 0x0, none, false⟩]⟩,
  ⟨0x178, 0, 1, 0, 1, [⟨63, 32, .ro, 0x0, none, false⟩,
     ⟨2, 0, .ro, 0x0, none, false⟩]⟩,
  ⟨0x180, 0, 1, 0, 1, [⟨63, 32, .ro, 0x0, none, false⟩,
     ⟨1, 0, .ro, 0x0, none, false⟩]⟩
  ]

def rows_hbmf : List RegRow := rows_hbmf_0 ++ rows_hbmf_1

/-- The registers of the `hbmc` page (R166). -/
def rows_hbmc_0 : List RegRow := [
  ⟨0x100, 0, 1, 0, 1, [⟨63, 56, .ro, 0x0, none, false⟩,
     ⟨41, 40, .ro, 0x0, none, false⟩,
     ⟨35, 32, .ro, 0x0, none, false⟩,
     ⟨31, 0, .ro, 0x0, none, false⟩]⟩,
  ⟨0x108, 0, 1, 0, 1, [⟨11, 8, .rw, 0x8, some (1, 8), false⟩,
     ⟨7, 4, .rw, 0x8, some (0, 8), false⟩,
     ⟨0, 0, .rw, 0x1, none, false⟩]⟩,
  ⟨0x110, 0, 1, 0, 1, [⟨63, 32, .ro, 0x0, none, false⟩,
     ⟨15, 8, .ro, 0x0, none, false⟩,
     ⟨0, 0, .ro, 0x0, none, false⟩]⟩,
  ⟨0x118, 0, 1, 0, 1, [⟨63, 48, .rw, 0x0, none, false⟩,
     ⟨47, 32, .rw, 0x0, none, false⟩,
     ⟨31, 0, .rw, 0x0, none, false⟩]⟩,
  ⟨0x120, 0, 1, 0, 1, [⟨63, 62, .ro, 0x0, none, false⟩,
     ⟨61, 61, .ro, 0x0, none, false⟩,
     ⟨60, 56, .ro, 0x0, none, false⟩,
     ⟨38, 6, .ro, 0x0, none, false⟩,
     ⟨5, 0, .ro, 0x0, none, false⟩]⟩,
  ⟨0x128, 0, 1, 0, 1, [⟨63, 32, .ro, 0x0, none, false⟩,
     ⟨31, 0, .rw, 0x0, none, false⟩]⟩,
  ⟨0x130, 0, 1, 0, 1, [⟨31, 16, .ro, 0x0, none, false⟩,
     ⟨15, 0, .ro, 0x0, none, false⟩]⟩
  ]

def rows_hbmc : List RegRow := rows_hbmc_0

/-- The registers of the `ring` page (R198). -/
def rows_ring_0 : List RegRow := [
  ⟨0x100, 0, 1, 0, 1, [⟨39, 32, .rw0, 0x8, none, false⟩,
     ⟨31, 24, .rw0, 0x4, none, false⟩,
     ⟨23, 16, .rw0, 0x2, none, false⟩,
     ⟨15, 8, .rw0, 0x4, none, false⟩,
     ⟨7, 0, .rw0, 0x1, none, false⟩]⟩,
  ⟨0x108, 0, 1, 0, 1, [⟨43, 0, .ro, 0x0, none, false⟩]⟩,
  ⟨0x110, 0, 1, 0, 1, [⟨27, 16, .rw0, 0x0, none, false⟩,
     ⟨4, 0, .rw0, 0x0, none, false⟩]⟩,
  ⟨0x118, 8, 4, 0, 1, [⟨63, 0, .wo, 0x0, none, true⟩]⟩,
  ⟨0x138, 0, 1, 0, 1, [⟨1, 1, .w1s, 0x0, none, true⟩,
     ⟨0, 0, .w1s, 0x0, none, true⟩]⟩,
  ⟨0x140, 0, 1, 0, 1, [⟨31, 0, .ro, 0x0, none, false⟩]⟩
  ]

def rows_ring : List RegRow := rows_ring_0

/-- The registers of the `eng` page (R198). -/
def rows_eng_0 : List RegRow := [
  ⟨0x100, 0, 1, 0, 1, [⟨63, 56, .ro, 0x0, none, false⟩,
     ⟨55, 50, .ro, 0x0, none, false⟩,
     ⟨49, 49, .ro, 0x0, none, false⟩,
     ⟨47, 32, .ro, 0x0, none, false⟩,
     ⟨14, 12, .ro, 0x0, none, false⟩,
     ⟨2, 0, .ro, 0x0, none, false⟩]⟩,
  ⟨0x108, 0, 1, 0, 1, [⟨15, 0, .rw, 0x32, some (1, 10000), false⟩]⟩,
  ⟨0x110, 0, 1, 0, 1, [⟨63, 48, .ro, 0x0, none, false⟩,
     ⟨47, 40, .ro, 0x0, none, false⟩,
     ⟨39, 32, .ro, 0x0, none, false⟩,
     ⟨15, 0, .rw, 0x0, none, false⟩]⟩,
  ⟨0x118, 0, 1, 0, 1, [⟨49, 0, .ro, 0x0, none, false⟩]⟩,
  ⟨0x120, 0, 1, 0, 1, [⟨63, 0, .ro, 0x0, none, false⟩]⟩,
  ⟨0x128, 0, 1, 0, 1, [⟨63, 0, .ro, 0x0, none, false⟩]⟩,
  ⟨0x130, 0, 1, 0, 1, [⟨63, 0, .ro, 0x0, none, false⟩]⟩,
  ⟨0x138, 0, 1, 0, 1, [⟨63, 0, .ro, 0x0, none, false⟩]⟩
  ]

def rows_eng_1 : List RegRow := [
  ⟨0x140, 0, 1, 0, 1, [⟨4, 4, .w1c, 0x0, none, false⟩,
     ⟨3, 3, .w1c, 0x0, none, false⟩,
     ⟨2, 2, .w1c, 0x0, none, false⟩,
     ⟨1, 1, .w1c, 0x0, none, false⟩,
     ⟨0, 0, .w1c, 0x0, none, false⟩]⟩,
  ⟨0x148, 0, 1, 0, 1, [⟨31, 0, .rw, 0x0, none, false⟩]⟩
  ]

def rows_eng : List RegRow := rows_eng_0 ++ rows_eng_1

/-- The registers of the `core` page (R198). -/
def rows_core_0 : List RegRow := [
  ⟨0x100, 0, 1, 0, 1, [⟨1, 1, .w1s, 0x0, none, false⟩,
     ⟨0, 0, .rw, 0x0, none, false⟩]⟩,
  ⟨0x108, 0, 1, 0, 1, [⟨1, 0, .rw, 0x0, none, false⟩]⟩,
  ⟨0x110, 0, 1, 0, 1, [⟨63, 32, .ro, 0x0, none, false⟩,
     ⟨2, 0, .ro, 0x0, none, false⟩]⟩,
  ⟨0x118, 0, 1, 0, 1, [⟨63, 63, .w1c, 0x0, none, false⟩,
     ⟨62, 62, .ro, 0x0, none, false⟩,
     ⟨49, 0, .ro, 0x0, none, false⟩]⟩
  ]

def rows_core : List RegRow := rows_core_0

/-- The registers of the `ctxt` page (R235). -/
def rows_ctxt_0 : List RegRow := [
  ⟨0x100, 0, 1, 0, 1, [⟨15, 0, .rw, 0x0, none, false⟩]⟩,
  ⟨0x108, 0, 1, 0, 1, [⟨31, 24, .rw, 0x1, none, false⟩,
     ⟨18, 16, .rw, 0x0, none, false⟩,
     ⟨5, 0, .rw, 0x0, none, false⟩]⟩,
  ⟨0x110, 0, 1, 0, 1, [⟨49, 12, .rw, 0x0, none, false⟩,
     ⟨4, 0, .rw, 0x0, none, false⟩]⟩,
  ⟨0x118, 0, 1, 0, 1, [⟨48, 32, .ro, 0x0, none, false⟩,
     ⟨16, 0, .ro, 0x0, none, false⟩]⟩,
  ⟨0x120, 0, 1, 0, 1, [⟨63, 56, .ro, 0x0, none, false⟩,
     ⟨47, 32, .ro, 0x0, none, false⟩,
     ⟨31, 28, .ro, 0x0, none, false⟩,
     ⟨3, 0, .ro, 0x0, none, false⟩]⟩,
  ⟨0x128, 0, 1, 0, 1, [⟨63, 32, .ro, 0x0, none, false⟩,
     ⟨16, 0, .ro, 0x0, none, false⟩]⟩,
  ⟨0x130, 0, 1, 0, 1, [⟨63, 61, .ro, 0x0, none, false⟩,
     ⟨60, 56, .ro, 0x0, none, false⟩,
     ⟨55, 48, .ro, 0x0, none, false⟩,
     ⟨47, 40, .ro, 0x0, none, false⟩,
     ⟨39, 24, .ro, 0x0, none, false⟩,
     ⟨16, 0, .ro, 0x0, none, false⟩]⟩,
  ⟨0x138, 0, 1, 0, 1, [⟨63, 0, .ro, 0x0, none, false⟩]⟩
  ]

def rows_ctxt_1 : List RegRow := [
  ⟨0x140, 0, 1, 0, 1, [⟨2, 0, .wo, 0x0, none, false⟩]⟩,
  ⟨0x148, 8, 8, 0, 1, [⟨17, 17, .ro, 0x0, none, false⟩,
     ⟨16, 0, .ro, 0x0, none, false⟩]⟩
  ]

def rows_ctxt : List RegRow := rows_ctxt_0 ++ rows_ctxt_1

/-- The registers of the `dom` page (R235). -/
def rows_dom_0 : List RegRow := [
  ⟨0x100, 0, 1, 0, 1, [⟨16, 16, .rw, 0x0, none, false⟩,
     ⟨15, 12, .rw, 0x0, none, false⟩,
     ⟨11, 0, .rw, 0x0, none, false⟩]⟩,
  ⟨0x108, 0, 1, 0, 1, [⟨49, 12, .rw0, 0x0, none, false⟩]⟩,
  ⟨0x110, 0, 1, 0, 1, [⟨63, 63, .rw0, 0x0, none, false⟩,
     ⟨40, 40, .rw0, 0x0, none, false⟩,
     ⟨39, 39, .rw0, 0x0, none, false⟩,
     ⟨38, 38, .rw0, 0x0, none, false⟩,
     ⟨37, 0, .rw0, 0x0, none, false⟩]⟩,
  ⟨0x118, 0, 1, 0, 1, [⟨1, 1, .ro, 0x0, none, false⟩,
     ⟨0, 0, .rw0, 0x0, none, false⟩]⟩,
  ⟨0x120, 0, 1, 0, 1, [⟨63, 0, .rw0, 0x0, none, false⟩]⟩,
  ⟨0x128, 0, 1, 0, 1, [⟨0, 0, .w1s, 0x0, none, true⟩]⟩,
  ⟨0x130, 0, 1, 0, 1, [⟨63, 48, .ro, 0x0, none, false⟩,
     ⟨47, 32, .ro, 0x0, none, false⟩,
     ⟨31, 16, .ro, 0x0, none, false⟩,
     ⟨0, 0, .ro, 0x0, none, false⟩]⟩,
  ⟨0x138, 0, 1, 0, 1, [⟨31, 0, .ro, 0x0, none, false⟩]⟩
  ]

def rows_dom : List RegRow := rows_dom_0

/-- The registers of the `part` page (R235). -/
def rows_part_0 : List RegRow := [
  ⟨0x100, 32, 64, 0, 1, [⟨55, 44, .rw, 0x0, none, false⟩,
     ⟨40, 40, .rw, 0x0, none, false⟩,
     ⟨28, 24, .rw, 0x0, none, false⟩,
     ⟨23, 20, .rw, 0x0, none, false⟩,
     ⟨18, 16, .rw, 0x0, none, false⟩,
     ⟨3, 0, .rw, 0x0, none, false⟩]⟩,
  ⟨0x108, 32, 64, 0, 1, [⟨43, 0, .rw, 0x0, none, false⟩]⟩,
  ⟨0x110, 32, 64, 0, 1, [⟨63, 56, .ro, 0x0, none, false⟩,
     ⟨55, 48, .ro, 0x0, none, false⟩,
     ⟨47, 32, .ro, 0x0, none, false⟩,
     ⟨2, 0, .ro, 0x0, none, false⟩]⟩,
  ⟨0x118, 32, 64, 0, 1, [⟨1, 0, .wo, 0x0, none, false⟩]⟩
  ]

def rows_part : List RegRow := rows_part_0

/-- The registers of the `subp` page (R235). -/
def rows_subp_0 : List RegRow := [
  ⟨0x100, 0, 1, 0, 1, [⟨63, 32, .rw, 0x0, none, false⟩,
     ⟨31, 0, .rw, 0x0, none, false⟩]⟩,
  ⟨0x108, 0, 1, 0, 1, [⟨63, 48, .ro, 0x0, none, false⟩,
     ⟨39, 36, .ro, 0x0, none, false⟩,
     ⟨35, 32, .ro, 0x0, none, false⟩]⟩
  ]

def rows_subp : List RegRow := rows_subp_0

/-- The registers of the `sched` page (R235). -/
def rows_sched_0 : List RegRow := [
  ⟨0x100, 0, 1, 0, 1, [⟨0, 0, .rw0, 0x1, none, false⟩]⟩,
  ⟨0x108, 0, 1, 0, 1, [⟨63, 48, .ro, 0x0, none, false⟩,
     ⟨47, 32, .ro, 0x0, none, false⟩,
     ⟨7, 0, .ro, 0x0, none, false⟩]⟩,
  ⟨0x110, 0, 1, 0, 1, [⟨63, 0, .ro, 0x0, none, false⟩]⟩
  ]

def rows_sched : List RegRow := rows_sched_0

/-- The registers of the `linkm` page (R273). -/
def rows_linkm_0 : List RegRow := [
  ⟨0x100, 0, 1, 0, 1, [⟨5, 0, .ro, 0x0, none, false⟩]⟩,
  ⟨0x108, 0, 1, 0, 1, [⟨63, 48, .rw, 0x7D0, some (10, 60000), false⟩,
     ⟨47, 32, .rw, 0x14, some (1, 60), false⟩,
     ⟨31, 16, .rw, 0x3E8, some (100, 65535), false⟩,
     ⟨2, 2, .rw, 0x0, none, false⟩,
     ⟨1, 1, .rw0, 0x0, none, false⟩,
     ⟨0, 0, .rw0, 0x1, none, false⟩]⟩,
  ⟨0x110, 0, 1, 0, 1, [⟨6, 6, .rw0, 0x0, none, false⟩,
     ⟨5, 0, .rw0, 0x0, none, false⟩]⟩,
  ⟨0x118, 0, 1, 0, 1, [⟨63, 0, .rw, 0x0, none, false⟩]⟩,
  ⟨0x120, 0, 1, 0, 1, [⟨63, 63, .w1s, 0x0, none, false⟩,
     ⟨62, 62, .ro, 0x0, none, false⟩,
     ⟨61, 61, .ro, 0x0, none, false⟩,
     ⟨37, 32, .rw, 0x0, none, false⟩,
     ⟨31, 0, .ro, 0x0, none, false⟩]⟩,
  ⟨0x128, 8, 4, 0, 1, [⟨63, 0, .wo, 0x0, none, true⟩]⟩,
  ⟨0x148, 0, 1, 0, 1, [⟨1, 1, .ro, 0x0, none, false⟩,
     ⟨0, 0, .w1s, 0x0, none, true⟩]⟩,
  ⟨0x150, 0, 1, 0, 1, [⟨63, 32, .rw, 0x0, none, false⟩,
     ⟨31, 0, .rw, 0x0, none, false⟩]⟩
  ]

def rows_linkm_1 : List RegRow := [
  ⟨0x200, 8, 64, 0, 1, [⟨63, 63, .rw0, 0x0, none, false⟩,
     ⟨47, 24, .rw0, 0x0, none, false⟩,
     ⟨23, 0, .rw0, 0x0, none, false⟩]⟩,
  ⟨0x400, 8, 64, 0, 1, [⟨63, 63, .rw0, 0x0, none, false⟩,
     ⟨4, 0, .rw0, 0x0, none, false⟩]⟩
  ]

def rows_linkm : List RegRow := rows_linkm_0 ++ rows_linkm_1

/-- The registers of the `linkf` page (R273). -/
def rows_linkf_0 : List RegRow := [
  ⟨0x100, 0, 1, 0, 1, [⟨47, 32, .ro, 0x0, none, false⟩,
     ⟨31, 16, .ro, 0x0, none, false⟩]⟩,
  ⟨0x108, 0, 1, 0, 1, [⟨63, 48, .rw, 0x0, none, false⟩,
     ⟨47, 32, .rw, 0x0, none, false⟩,
     ⟨31, 16, .rw, 0x0, none, false⟩,
     ⟨15, 0, .rw, 0x0, none, false⟩]⟩,
  ⟨0x110, 0, 1, 0, 1, [⟨63, 48, .ro, 0x0, none, false⟩,
     ⟨47, 40, .ro, 0x0, none, false⟩,
     ⟨37, 32, .ro, 0x0, none, false⟩,
     ⟨31, 28, .ro, 0x0, none, false⟩,
     ⟨27, 20, .ro, 0x0, none, false⟩]⟩,
  ⟨0x118, 0, 1, 0, 1, [⟨49, 0, .ro, 0x0, none, false⟩]⟩,
  ⟨0x120, 0, 1, 0, 1, [⟨63, 63, .w1c, 0x0, none, false⟩,
     ⟨58, 56, .ro, 0x0, none, false⟩,
     ⟨55, 52, .ro, 0x0, none, false⟩,
     ⟨49, 0, .ro, 0x0, none, false⟩]⟩
  ]

def rows_linkf : List RegRow := rows_linkf_0

/-- The registers of the `lport` page (R273). -/
def rows_lport_0 : List RegRow := [
  ⟨0x100, 0, 1, 0, 1, [⟨15, 11, .rw0, 0x0, none, false⟩,
     ⟨10, 10, .rw0, 0x0, none, false⟩,
     ⟨3, 3, .rw0, 0x0, none, false⟩,
     ⟨2, 2, .rw, 0x1, none, false⟩,
     ⟨0, 0, .rw, 0x0, none, false⟩]⟩,
  ⟨0x108, 0, 1, 0, 1, [⟨63, 56, .ro, 0x0, none, false⟩,
     ⟨47, 42, .ro, 0x0, none, false⟩,
     ⟨41, 37, .ro, 0x0, none, false⟩,
     ⟨36, 36, .ro, 0x0, none, false⟩,
     ⟨35, 32, .ro, 0x0, none, false⟩,
     ⟨7, 7, .ro, 0x0, none, false⟩,
     ⟨3, 0, .ro, 0x0, none, false⟩]⟩,
  ⟨0x110, 0, 1, 0, 1, [⟨1, 0, .wo, 0x0, none, false⟩]⟩,
  ⟨0x118, 0, 1, 0, 1, [⟨63, 48, .rw, 0x0, none, false⟩,
     ⟨47, 32, .rw, 0x0, none, false⟩,
     ⟨31, 0, .rw, 0x0, none, false⟩]⟩,
  ⟨0x120, 0, 1, 0, 1, [⟨63, 0, .ro, 0x0, none, false⟩]⟩,
  ⟨0x128, 0, 1, 0, 1, [⟨63, 0, .ro, 0x0, none, false⟩]⟩,
  ⟨0x130, 0, 1, 0, 1, [⟨31, 0, .rw, 0x0, none, false⟩]⟩,
  ⟨0x138, 0, 1, 0, 1, [⟨63, 32, .ro, 0x0, none, false⟩,
     ⟨31, 16, .rw0, 0x64, none, false⟩,
     ⟨1, 0, .ro, 0x0, none, false⟩]⟩
  ]

def rows_lport : List RegRow := rows_lport_0

/-- The registers of the `coll` page (R273). -/
def rows_coll_0 : List RegRow := [
  ⟨0x100, 0, 1, 0, 1, [⟨31, 16, .ro, 0x0, none, false⟩,
     ⟨15, 0, .ro, 0x0, none, false⟩]⟩,
  ⟨0x200, 64, 16, 0, 1, [⟨63, 48, .rw, 0x0, none, false⟩,
     ⟨47, 44, .ro, 0x0, none, false⟩,
     ⟨43, 40, .ro, 0x0, none, false⟩,
     ⟨39, 32, .rw, 0x0, none, false⟩,
     ⟨19, 19, .rw, 0x0, none, false⟩,
     ⟨18, 18, .w1s, 0x0, none, false⟩,
     ⟨17, 17, .w1s, 0x0, none, false⟩,
     ⟨11, 10, .rw, 0x0, none, false⟩,
     ⟨9, 8, .rw, 0x0, none, false⟩,
     ⟨5, 5, .rw, 0x0, none, false⟩,
     ⟨4, 4, .rw, 0x0, none, false⟩,
     ⟨1, 0, .rw, 0x0, none, false⟩]⟩,
  ⟨0x208, 64, 16, 0, 1, [⟨63, 0, .rw, 0x0, none, false⟩]⟩,
  ⟨0x210, 64, 16, 0, 1, [⟨49, 0, .rw, 0x0, none, false⟩]⟩,
  ⟨0x218, 64, 16, 0, 1, [⟨49, 0, .rw, 0x0, none, false⟩]⟩,
  ⟨0x220, 64, 16, 0, 1, [⟨39, 0, .rw, 0x0, none, false⟩]⟩,
  ⟨0x228, 64, 16, 0, 1, [⟨63, 32, .rw, 0x0, none, false⟩,
     ⟨16, 0, .rw, 0x0, none, false⟩]⟩,
  ⟨0x230, 64, 16, 0, 1, [⟨63, 0, .rw, 0x0, none, false⟩]⟩
  ]

def rows_coll_1 : List RegRow := [
  ⟨0x238, 64, 16, 0, 1, [⟨63, 32, .ro, 0x0, none, false⟩,
     ⟨31, 0, .ro, 0x0, none, false⟩]⟩
  ]

def rows_coll : List RegRow := rows_coll_0 ++ rows_coll_1

/-- The registers of the `hostp` page (R298). -/
def rows_hostp_0 : List RegRow := [
  ⟨0x100, 0, 1, 0, 1, [⟨63, 48, .rw0, 0x2328, none, false⟩,
     ⟨47, 47, .rw0, 0x0, none, false⟩,
     ⟨46, 44, .rw0, 0x6, none, false⟩,
     ⟨43, 32, .rw0, 0x0, none, false⟩,
     ⟨31, 29, .rw0, 0x3, none, false⟩,
     ⟨28, 28, .rw0, 0x0, none, false⟩,
     ⟨27, 27, .rw0, 0x1, none, false⟩,
     ⟨23, 8, .rw0, 0x88B5, none, false⟩,
     ⟨1, 0, .rw0, 0x0, none, false⟩]⟩,
  ⟨0x108, 0, 1, 0, 1, [⟨23, 16, .ro, 0x0, none, false⟩,
     ⟨9, 8, .ro, 0x3, none, false⟩,
     ⟨1, 0, .ro, 0x0, none, false⟩]⟩,
  ⟨0x110, 0, 1, 0, 1, [⟨47, 0, .ro, 0x0, none, false⟩]⟩,
  ⟨0x118, 0, 1, 0, 1, [⟨63, 0, .rw0, 0x0, none, false⟩]⟩,
  ⟨0x120, 0, 1, 0, 1, [⟨63, 0, .rw0, 0x0, none, false⟩]⟩,
  ⟨0x128, 0, 1, 0, 1, [⟨15, 0, .rw0, 0xB7A0, none, false⟩]⟩,
  ⟨0x130, 0, 1, 0, 1, [⟨31, 16, .rw0, 0x400, some (64, 3584), false⟩,
     ⟨15, 8, .rw0, 0x48, none, false⟩,
     ⟨7, 0, .rw0, 0x48, none, false⟩]⟩,
  ⟨0x138, 0, 1, 0, 1, [⟨63, 48, .rw, 0x0, none, false⟩,
     ⟨47, 32, .rw, 0x0, none, false⟩,
     ⟨31, 16, .rw, 0x0, none, false⟩,
     ⟨15, 0, .rw, 0x0, none, false⟩]⟩
  ]

def rows_hostp_1 : List RegRow := [
  ⟨0x140, 0, 1, 0, 1, [⟨63, 0, .ro, 0x0, none, false⟩]⟩,
  ⟨0x148, 0, 1, 0, 1, [⟨63, 0, .ro, 0x0, none, false⟩]⟩,
  ⟨0x150, 0, 1, 0, 1, [⟨10, 9, .rw0, 0x0, none, false⟩,
     ⟨8, 8, .rw0, 0x0, none, false⟩,
     ⟨7, 0, .rw0, 0x0, none, false⟩]⟩,
  ⟨0x158, 0, 1, 0, 1, [⟨63, 32, .ro, 0x0, none, false⟩,
     ⟨2, 0, .ro, 0x0, none, false⟩]⟩,
  ⟨0x160, 0, 1, 0, 1, [⟨63, 0, .ro, 0x0, none, false⟩]⟩
  ]

def rows_hostp : List RegRow := rows_hostp_0 ++ rows_hostp_1

/-- The registers of the `bryn` page (R298). -/
def rows_bryn_0 : List RegRow := [
  ⟨0x100, 0, 1, 0, 1, [⟨63, 52, .rw, 0x3C, some (1, 3600), false⟩,
     ⟨51, 48, .rw, 0x8, none, false⟩,
     ⟨47, 32, .rw, 0x1F4, some (20, 65535), false⟩,
     ⟨31, 16, .rw, 0x14, some (1, 1000), false⟩,
     ⟨15, 8, .rw0, 0x40, some (1, 64), false⟩,
     ⟨0, 0, .rw0, 0x0, none, false⟩]⟩,
  ⟨0x108, 0, 1, 0, 1, [⟨32, 32, .ro, 0x0, none, false⟩,
     ⟨29, 16, .ro, 0x0, none, false⟩,
     ⟨6, 0, .ro, 0x0, none, false⟩]⟩,
  ⟨0x110, 0, 1, 0, 1, [⟨63, 48, .rw, 0x0, none, false⟩,
     ⟨47, 32, .rw, 0x0, none, false⟩,
     ⟨31, 16, .rw, 0x0, none, false⟩,
     ⟨15, 0, .rw, 0x0, none, false⟩]⟩,
  ⟨0x118, 0, 1, 0, 1, [⟨5, 0, .rw, 0x0, none, false⟩]⟩,
  ⟨0x120, 0, 1, 0, 1, [⟨63, 48, .ro, 0x0, none, false⟩,
     ⟨47, 46, .ro, 0x0, none, false⟩,
     ⟨45, 34, .ro, 0x0, none, false⟩,
     ⟨33, 30, .ro, 0x0, none, false⟩,
     ⟨2, 0, .ro, 0x0, none, false⟩]⟩,
  ⟨0x128, 0, 1, 0, 1, [⟨48, 48, .ro, 0x0, none, false⟩,
     ⟨47, 0, .ro, 0x0, none, false⟩]⟩,
  ⟨0x130, 0, 1, 0, 1, [⟨63, 32, .ro, 0x0, none, false⟩,
     ⟨31, 0, .ro, 0x0, none, false⟩]⟩,
  ⟨0x138, 0, 1, 0, 1, [⟨19, 16, .rw, 0x0, none, false⟩,
     ⟨15, 0, .rw, 0x0, none, false⟩]⟩
  ]

def rows_bryn_1 : List RegRow := [
  ⟨0x140, 0, 1, 0, 1, [⟨1, 0, .wo, 0x0, none, false⟩]⟩,
  ⟨0x200, 64, 16, 8, 4, [⟨63, 0, .rw0, 0x0, none, false⟩]⟩,
  ⟨0x220, 64, 16, 0, 1, [⟨63, 63, .rw0, 0x0, none, false⟩,
     ⟨17, 16, .rw0, 0x0, none, false⟩,
     ⟨11, 0, .rw0, 0x0, none, false⟩]⟩
  ]

def rows_bryn : List RegRow := rows_bryn_0 ++ rows_bryn_1

/-- The registers of the `pwr` page (R334). -/
def rows_pwr_0 : List RegRow := [
  ⟨0x100, 0, 1, 0, 1, [⟨7, 7, .w1s, 0x0, none, true⟩,
     ⟨6, 6, .rw, 0x0, none, false⟩,
     ⟨5, 5, .rw0, 0x0, none, false⟩,
     ⟨4, 4, .rw, 0x1, none, false⟩,
     ⟨3, 3, .rw, 0x1, none, false⟩,
     ⟨2, 2, .rw, 0x1, none, false⟩,
     ⟨1, 1, .rw0, 0x0, none, false⟩]⟩,
  ⟨0x108, 0, 1, 0, 1, [⟨63, 56, .ro, 0x0, none, false⟩,
     ⟨55, 48, .ro, 0x0, none, false⟩,
     ⟨15, 14, .ro, 0x0, none, false⟩,
     ⟨13, 13, .ro, 0x0, none, false⟩,
     ⟨12, 12, .ro, 0x0, none, false⟩,
     ⟨11, 11, .ro, 0x0, none, false⟩,
     ⟨10, 10, .ro, 0x0, none, false⟩,
     ⟨9, 9, .ro, 0x0, none, false⟩,
     ⟨8, 8, .ro, 0x0, none, false⟩,
     ⟨4, 4, .ro, 0x0, none, false⟩,
     ⟨3, 3, .ro, 0x0, none, false⟩,
     ⟨2, 0, .ro, 0x0, none, false⟩]⟩,
  ⟨0x110, 0, 1, 0, 1, [⟨6, 6, .w1c, 0x0, none, false⟩,
     ⟨5, 5, .w1c, 0x0, none, false⟩,
     ⟨4, 4, .w1c, 0x0, none, false⟩,
     ⟨3, 3, .w1c, 0x0, none, false⟩,
     ⟨2, 2, .w1c, 0x0, none, false⟩,
     ⟨1, 1, .w1c, 0x0, none, false⟩,
     ⟨0, 0, .w1c, 0x0, none, false⟩]⟩,
  ⟨0x118, 0, 1, 0, 1, [⟨63, 32, .ro, 0x0, none, false⟩,
     ⟨31, 0, .ro, 0x0, none, false⟩]⟩,
  ⟨0x120, 0, 1, 0, 1, [⟨63, 32, .ro, 0x0, none, false⟩,
     ⟨31, 0, .ro, 0x0, none, false⟩]⟩,
  ⟨0x128, 0, 1, 0, 1, [⟨63, 32, .ro, 0x0, none, false⟩,
     ⟨31, 0, .ro, 0x0, none, false⟩]⟩,
  ⟨0x130, 0, 1, 0, 1, [⟨63, 48, .rw0, 0x10CC, some (0, 4300), false⟩,
     ⟨47, 32, .rw0, 0x0, none, false⟩,
     ⟨15, 0, .rw, 0x64, some (1, 50000), false⟩]⟩,
  ⟨0x138, 0, 1, 0, 1, [⟨63, 32, .ro, 0x0, none, false⟩,
     ⟨15, 0, .rw, 0x1E, some (1, 3600), false⟩]⟩
  ]

def rows_pwr_1 : List RegRow := [
  ⟨0x140, 0, 1, 0, 1, [⟨63, 56, .rw, 0x37, none, false⟩,
     ⟨55, 48, .rw, 0x1E, none, false⟩,
     ⟨47, 40, .rw, 0x50, none, false⟩,
     ⟨39, 32, .rw, 0x5A, some (80, 98), false⟩,
     ⟨31, 16, .rw, 0xC8, some (0, 1000), false⟩]⟩,
  ⟨0x148, 0, 1, 0, 1, [⟨63, 48, .rw0, 0xBB80, some (46000, 50000), false⟩,
     ⟨47, 32, .rw0, 0x9C4, some (1000, 4000), false⟩,
     ⟨31, 16, .rw0, 0x32, some (10, 1000), false⟩,
     ⟨15, 0, .ro, 0x0, none, false⟩]⟩,
  ⟨0x150, 0, 1, 0, 1, [⟨63, 48, .rw, 0x3E8, some (10, 60000), false⟩,
     ⟨47, 32, .rw, 0x8000, none, false⟩,
     ⟨31, 0, .ro, 0x0, none, false⟩]⟩,
  ⟨0x158, 0, 1, 0, 1, [⟨31, 24, .rw, 0x14, none, false⟩,
     ⟨23, 16, .rw, 0x3, none, false⟩,
     ⟨15, 8, .rw, 0x5, none, false⟩,
     ⟨7, 0, .rw, 0x10, none, false⟩]⟩,
  ⟨0x160, 0, 1, 0, 1, [⟨63, 32, .ro, 0x0, none, false⟩,
     ⟨31, 0, .ro, 0x0, none, false⟩]⟩,
  ⟨0x168, 0, 1, 0, 1, [⟨63, 48, .rw0, 0x28, some (20, 200), false⟩,
     ⟨47, 32, .rw0, 0xC8, some (0, 1000), false⟩,
     ⟨7, 0, .ro, 0x0, none, false⟩]⟩,
  ⟨0x170, 0, 1, 0, 1, [⟨63, 32, .ro, 0x0, none, false⟩,
     ⟨31, 0, .ro, 0x0, none, false⟩]⟩
  ]

def rows_pwr : List RegRow := rows_pwr_0 ++ rows_pwr_1

/-- The registers of the `fc` page (R334). -/
def rows_fc_0 : List RegRow := [
  ⟨0x100, 0, 1, 0, 1, [⟨31, 16, .rw0, 0x251C, some (0, 9500), false⟩,
     ⟨15, 0, .rw0, 0x834, some (0, 2100), false⟩]⟩,
  ⟨0x108, 0, 1, 0, 1, [⟨63, 48, .ro, 0x0, none, false⟩,
     ⟨2, 0, .ro, 0x0, none, false⟩]⟩,
  ⟨0x110, 0, 1, 0, 1, [⟨63, 48, .ro, 0x0, none, false⟩,
     ⟨47, 32, .ro, 0x0, none, false⟩,
     ⟨31, 16, .ro, 0x0, none, false⟩,
     ⟨15, 0, .ro, 0x0, none, false⟩]⟩
  ]

def rows_fc : List RegRow := rows_fc_0

/-- The registers of the `bc` page (R334). -/
def rows_bc_0 : List RegRow := [
  ⟨0x100, 0, 1, 0, 1, [⟨63, 48, .rw0, 0x12C0, some (0, 4800), false⟩,
     ⟨47, 32, .rw0, 0x960, some (0, 2400), false⟩,
     ⟨31, 16, .rw0, 0xDAC, some (0, 3500), false⟩,
     ⟨15, 0, .rw0, 0x708, some (0, 1800), false⟩]⟩,
  ⟨0x108, 0, 1, 0, 1, [⟨51, 40, .ro, 0xFFF, none, false⟩,
     ⟨39, 36, .ro, 0x0, none, false⟩,
     ⟨2, 0, .ro, 0x0, none, false⟩]⟩,
  ⟨0x110, 0, 1, 0, 1, [⟨63, 48, .ro, 0x0, none, false⟩,
     ⟨47, 32, .ro, 0x0, none, false⟩,
     ⟨31, 16, .ro, 0x0, none, false⟩,
     ⟨15, 0, .ro, 0x0, none, false⟩]⟩
  ]

def rows_bc : List RegRow := rows_bc_0

/-- The registers of the `gr` page (R334). -/
def rows_gr_0 : List RegRow := [
  ⟨0x100, 0, 1, 0, 1, [⟨1, 1, .rw, 0x0, none, false⟩,
     ⟨0, 0, .rw, 0x0, none, false⟩]⟩,
  ⟨0x108, 0, 1, 0, 1, [⟨39, 32, .ro, 0xFF, none, false⟩,
     ⟨3, 3, .ro, 0x0, none, false⟩,
     ⟨2, 2, .w1c, 0x0, none, false⟩,
     ⟨1, 1, .w1c, 0x0, none, false⟩,
     ⟨0, 0, .ro, 0x0, none, false⟩]⟩,
  ⟨0x110, 0, 1, 0, 1, [⟨63, 0, .rw, 0x0, none, false⟩]⟩,
  ⟨0x118, 0, 1, 0, 1, [⟨31, 0, .ro, 0x0, none, false⟩]⟩,
  ⟨0x200, 8, 64, 0, 1, [⟨63, 32, .rw, 0x0, none, false⟩,
     ⟨31, 31, .rw, 0x0, none, false⟩,
     ⟨30, 30, .rw, 0x0, none, false⟩,
     ⟨15, 0, .rw, 0x0, none, false⟩]⟩
  ]

def rows_gr : List RegRow := rows_gr_0

/-- The registers of the `loop` page (R334). -/
def rows_loop_0 : List RegRow := [
  ⟨0x100, 0, 1, 0, 1, [⟨47, 32, .ro, 0x0, none, false⟩,
     ⟨31, 16, .ro, 0x0, none, false⟩,
     ⟨15, 0, .ro, 0x0, none, false⟩]⟩,
  ⟨0x108, 0, 1, 0, 1, [⟨63, 0, .ro, 0x0, none, false⟩]⟩,
  ⟨0x200, 64, 16, 0, 1, [⟨51, 32, .rw0, 0x0, none, false⟩,
     ⟨31, 24, .rw0, 0x80, none, false⟩,
     ⟨23, 16, .rw0, 0x0, none, false⟩,
     ⟨15, 8, .rw0, 0x0, none, false⟩,
     ⟨7, 4, .rw0, 0x0, none, false⟩]⟩,
  ⟨0x208, 64, 16, 0, 1, [⟨32, 32, .rw0, 0x0, none, false⟩,
     ⟨31, 28, .rw0, 0x0, none, false⟩,
     ⟨19, 0, .rw0, 0x0, none, false⟩]⟩,
  ⟨0x210, 64, 16, 0, 1, [⟨63, 32, .rw0, 0x0, none, false⟩,
     ⟨31, 0, .rw0, 0x0, none, false⟩]⟩,
  ⟨0x218, 64, 16, 0, 1, [⟨63, 32, .rw0, 0x0, none, false⟩,
     ⟨31, 0, .rw0, 0x0, some (0, 268435456), false⟩]⟩,
  ⟨0x220, 64, 16, 0, 1, [⟨63, 32, .rw0, 0x0, none, false⟩,
     ⟨31, 0, .ro, 0x0, none, false⟩]⟩,
  ⟨0x228, 64, 16, 0, 1, [⟨63, 32, .rw0, 0x0, none, false⟩,
     ⟨31, 0, .rw0, 0x0, none, false⟩]⟩
  ]

def rows_loop_1 : List RegRow := [
  ⟨0x230, 64, 16, 0, 1, [⟨63, 32, .rw0, 0x0, none, false⟩,
     ⟨31, 0, .rw0, 0x0, none, false⟩]⟩,
  ⟨0x238, 64, 16, 0, 1, [⟨63, 32, .ro, 0x0, none, false⟩,
     ⟨7, 7, .w1c, 0x0, none, false⟩,
     ⟨6, 6, .w1c, 0x0, none, false⟩,
     ⟨5, 5, .w1c, 0x0, none, false⟩,
     ⟨4, 4, .w1c, 0x0, none, false⟩,
     ⟨3, 3, .w1c, 0x0, none, false⟩,
     ⟨2, 2, .ro, 0x0, none, false⟩,
     ⟨1, 0, .rw0, 0x0, none, false⟩]⟩
  ]

def rows_loop : List RegRow := rows_loop_0 ++ rows_loop_1

/-- The registers of the `rail` page (R362). -/
def rows_rail_0 : List RegRow := [
  ⟨0x100, 0, 1, 0, 1, [⟨15, 12, .rw0, 0x0, none, false⟩,
     ⟨11, 10, .rw0, 0x0, none, false⟩,
     ⟨9, 8, .rw0, 0x0, none, false⟩,
     ⟨7, 2, .rw0, 0x0, none, false⟩,
     ⟨1, 1, .rw0, 0x0, none, false⟩]⟩,
  ⟨0x108, 0, 1, 0, 1, [⟨23, 16, .rw0, 0x0, none, false⟩,
     ⟨15, 0, .rw0, 0x0, none, false⟩]⟩,
  ⟨0x110, 0, 1, 0, 1, [⟨63, 48, .ro, 0x0, none, false⟩,
     ⟨47, 32, .ro, 0x0, none, false⟩,
     ⟨31, 26, .ro, 0x0, none, false⟩,
     ⟨25, 20, .ro, 0x0, none, false⟩,
     ⟨11, 11, .ro, 0x0, none, false⟩,
     ⟨10, 10, .ro, 0x0, none, false⟩,
     ⟨9, 9, .ro, 0x0, none, false⟩,
     ⟨8, 8, .ro, 0x0, none, false⟩,
     ⟨7, 7, .ro, 0x0, none, false⟩,
     ⟨6, 6, .ro, 0x0, none, false⟩,
     ⟨5, 5, .ro, 0x0, none, false⟩,
     ⟨2, 0, .ro, 0x0, none, false⟩]⟩,
  ⟨0x118, 0, 1, 0, 1, [⟨5, 5, .w1c, 0x0, none, false⟩,
     ⟨4, 4, .w1c, 0x0, none, false⟩,
     ⟨3, 3, .w1c, 0x0, none, false⟩,
     ⟨2, 2, .w1c, 0x0, none, false⟩,
     ⟨1, 1, .w1c, 0x0, none, false⟩,
     ⟨0, 0, .w1c, 0x0, none, false⟩]⟩,
  ⟨0x120, 0, 1, 0, 1, [⟨63, 48, .ro, 0x0, none, false⟩,
     ⟨47, 32, .ro, 0x0, none, false⟩,
     ⟨31, 16, .rw0, 0x0, none, false⟩,
     ⟨15, 8, .rw0, 0x10, some (4, 40), false⟩,
     ⟨7, 0, .rw0, 0x10, some (4, 40), false⟩]⟩,
  ⟨0x128, 0, 1, 0, 1, [⟨63, 48, .rw0, 0x0, none, false⟩,
     ⟨47, 32, .rw0, 0x0, none, false⟩,
     ⟨31, 16, .rw0, 0x0, none, false⟩,
     ⟨0, 0, .rw0, 0x1, none, false⟩]⟩,
  ⟨0x130, 0, 1, 0, 1, [⟨3, 3, .rw0, 0x0, none, false⟩,
     ⟨2, 2, .rw0, 0x0, none, false⟩,
     ⟨1, 1, .w1s, 0x0, none, true⟩,
     ⟨0, 0, .w1s, 0x0, none, true⟩]⟩,
  ⟨0x138, 0, 1, 0, 1, [⟨63, 32, .rw0, 0x0, none, false⟩,
     ⟨31, 0, .rw0, 0x0, none, false⟩]⟩
  ]

def rows_rail_1 : List RegRow := [
  ⟨0x140, 0, 1, 0, 1, [⟨63, 32, .rw0, 0x0, none, false⟩,
     ⟨31, 0, .rw0, 0x0, some (0, 268435456), false⟩]⟩,
  ⟨0x148, 0, 1, 0, 1, [⟨63, 32, .rw0, 0x0, none, false⟩,
     ⟨31, 0, .rw0, 0x0, none, false⟩]⟩,
  ⟨0x150, 0, 1, 0, 1, [⟨63, 32, .rw0, 0x0, none, false⟩,
     ⟨31, 0, .rw0, 0x0, some (0, 268435456), false⟩]⟩,
  ⟨0x158, 0, 1, 0, 1, [⟨63, 48, .ro, 0x0, none, false⟩,
     ⟨47, 32, .ro, 0x0, none, false⟩,
     ⟨31, 16, .ro, 0x0, none, false⟩]⟩,
  ⟨0x160, 0, 1, 0, 1, [⟨63, 0, .ro, 0x0, none, false⟩]⟩,
  ⟨0x168, 0, 1, 0, 1, [⟨63, 48, .ro, 0x0, none, false⟩,
     ⟨47, 32, .ro, 0x0, none, false⟩,
     ⟨31, 16, .ro, 0x0, none, false⟩,
     ⟨15, 0, .ro, 0x0, none, false⟩]⟩,
  ⟨0x170, 0, 1, 0, 1, [⟨63, 48, .ro, 0x0, none, false⟩,
     ⟨47, 32, .ro, 0x0, none, false⟩,
     ⟨31, 16, .ro, 0x0, none, false⟩,
     ⟨15, 0, .ro, 0x0, none, false⟩]⟩,
  ⟨0x178, 0, 1, 0, 1, [⟨63, 48, .ro, 0x0, none, false⟩,
     ⟨47, 32, .ro, 0x0, none, false⟩,
     ⟨31, 16, .ro, 0x0, none, false⟩,
     ⟨15, 0, .ro, 0x0, none, false⟩]⟩
  ]

def rows_rail_2 : List RegRow := [
  ⟨0x400, 8, 48, 0, 1, [⟨63, 48, .ro, 0x0, none, false⟩,
     ⟨47, 32, .ro, 0x0, none, false⟩,
     ⟨13, 8, .ro, 0x0, none, false⟩,
     ⟨7, 7, .rw0, 0x0, none, false⟩,
     ⟨2, 0, .ro, 0x0, none, false⟩]⟩
  ]

def rows_rail : List RegRow := rows_rail_0 ++ rows_rail_1 ++ rows_rail_2

/-- The registers of the `railSys` page (R362). -/
def rows_railSys_0 : List RegRow := [
  ⟨0x100, 0, 1, 0, 1, [⟨4, 4, .w1s, 0x0, none, false⟩,
     ⟨3, 3, .rw0, 0x0, none, false⟩,
     ⟨2, 2, .rw0, 0x0, none, false⟩,
     ⟨1, 0, .rw0, 0x0, none, false⟩]⟩,
  ⟨0x108, 0, 1, 0, 1, [⟨47, 36, .ro, 0x0, none, false⟩,
     ⟨33, 32, .ro, 0x0, none, false⟩,
     ⟨2, 2, .ro, 0x0, none, false⟩,
     ⟨1, 1, .ro, 0x0, none, false⟩,
     ⟨0, 0, .ro, 0x0, none, false⟩]⟩,
  ⟨0x110, 0, 1, 0, 1, [⟨31, 16, .rw0, 0x32, some (10, 1000), false⟩,
     ⟨15, 0, .rw0, 0x3E8, some (100, 10000), false⟩]⟩,
  ⟨0x118, 0, 1, 0, 1, [⟨63, 32, .rw, 0x1000000, none, false⟩]⟩,
  ⟨0x120, 0, 1, 0, 1, [⟨63, 32, .rw0, 0xE10, none, false⟩,
     ⟨11, 8, .ro, 0x0, none, false⟩,
     ⟨5, 0, .ro, 0x0, none, false⟩]⟩,
  ⟨0x128, 0, 1, 0, 1, [⟨63, 63, .ro, 0x0, none, false⟩,
     ⟨59, 56, .ro, 0x0, none, false⟩,
     ⟨55, 48, .ro, 0x0, none, false⟩,
     ⟨47, 42, .ro, 0x0, none, false⟩]⟩,
  ⟨0x130, 0, 1, 0, 1, [⟨63, 32, .ro, 0x0, none, false⟩,
     ⟨31, 0, .ro, 0x0, none, false⟩]⟩,
  ⟨0x138, 0, 1, 0, 1, [⟨63, 48, .ro, 0x0, none, false⟩,
     ⟨47, 32, .ro, 0x0, none, false⟩,
     ⟨31, 16, .ro, 0x0, none, false⟩,
     ⟨15, 0, .ro, 0x0, none, false⟩]⟩
  ]

def rows_railSys_1 : List RegRow := [
  ⟨0x140, 0, 1, 0, 1, [⟨47, 0, .ro, 0x0, none, false⟩]⟩,
  ⟨0x148, 0, 1, 0, 1, [⟨0, 0, .w1s, 0x0, none, true⟩]⟩
  ]

def rows_railSys : List RegRow := rows_railSys_0 ++ rows_railSys_1

/-- The registers of the `cap` page (R383). -/
def rows_cap_0 : List RegRow := [
  ⟨0x100, 0, 1, 0, 1, [⟨63, 48, .rw0, 0x1130, some (500, 4400), false⟩,
     ⟨47, 32, .rw0, 0x1388, none, false⟩,
     ⟨31, 16, .rw0, 0x32, some (0, 50), false⟩]⟩,
  ⟨0x108, 0, 1, 0, 1, [⟨63, 48, .ro, 0x0, none, false⟩,
     ⟨47, 32, .ro, 0x0, none, false⟩,
     ⟨31, 16, .ro, 0x0, none, false⟩,
     ⟨1, 1, .ro, 0x0, none, false⟩,
     ⟨0, 0, .ro, 0x0, none, false⟩]⟩,
  ⟨0x110, 0, 1, 0, 1, [⟨2, 0, .rw0, 0x0, none, false⟩]⟩,
  ⟨0x118, 0, 1, 0, 1, [⟨63, 48, .ro, 0x0, none, false⟩,
     ⟨47, 32, .ro, 0x0, none, false⟩,
     ⟨31, 16, .ro, 0x0, none, false⟩]⟩,
  ⟨0x120, 0, 1, 0, 1, [⟨63, 48, .ro, 0x0, none, false⟩,
     ⟨47, 32, .ro, 0x0, none, false⟩,
     ⟨31, 16, .ro, 0x0, none, false⟩]⟩,
  ⟨0x128, 0, 1, 0, 1, [⟨26, 24, .ro, 0x0, none, false⟩,
     ⟨23, 21, .ro, 0x0, none, false⟩,
     ⟨20, 18, .ro, 0x0, none, false⟩,
     ⟨17, 15, .ro, 0x0, none, false⟩,
     ⟨14, 12, .ro, 0x0, none, false⟩]⟩,
  ⟨0x130, 0, 1, 0, 1, [⟨33, 33, .w1c, 0x0, none, false⟩,
     ⟨32, 32, .ro, 0x0, none, false⟩,
     ⟨27, 16, .w1c, 0x0, none, false⟩,
     ⟨11, 0, .ro, 0x0, none, false⟩]⟩,
  ⟨0x138, 0, 1, 0, 1, [⟨15, 8, .rw0, 0xA, none, false⟩,
     ⟨2, 0, .rw0, 0x4, none, false⟩]⟩
  ]

def rows_cap_1 : List RegRow := [
  ⟨0x140, 0, 1, 0, 1, [⟨63, 56, .rw0, 0x5F, some (70, 95), false⟩,
     ⟨55, 48, .rw0, 0x5A, some (60, 93), false⟩,
     ⟨31, 24, .ro, 0x0, none, false⟩,
     ⟨23, 16, .ro, 0x0, none, false⟩,
     ⟨15, 8, .ro, 0x0, none, false⟩,
     ⟨7, 0, .ro, 0x0, none, false⟩]⟩,
  ⟨0x148, 0, 1, 0, 1, [⟨63, 32, .rw, 0x0, none, false⟩,
     ⟨31, 0, .rw, 0x0, none, false⟩]⟩,
  ⟨0x200, 8, 12, 0, 1, [⟨63, 48, .rw0, 0x0, none, false⟩,
     ⟨31, 16, .ro, 0x0, none, false⟩]⟩
  ]

def rows_cap : List RegRow := rows_cap_0 ++ rows_cap_1

/-- The registers of the `opt` page (R383). -/
def rows_opt_0 : List RegRow := [
  ⟨0x100, 0, 1, 0, 1, [⟨31, 16, .rw0, 0x64, some (10, 10000), false⟩,
     ⟨15, 8, .rw0, 0x64, none, false⟩,
     ⟨3, 0, .rw0, 0xF, none, false⟩]⟩,
  ⟨0x108, 8, 2, 0, 1, [⟨31, 28, .ro, 0x7, none, false⟩,
     ⟨23, 20, .ro, 0x0, none, false⟩,
     ⟨19, 16, .ro, 0x0, none, false⟩,
     ⟨15, 12, .ro, 0x0, none, false⟩,
     ⟨11, 8, .ro, 0xC, none, false⟩,
     ⟨4, 4, .ro, 0x0, none, false⟩,
     ⟨3, 0, .ro, 0x0, none, false⟩]⟩,
  ⟨0x118, 0, 1, 0, 1, [⟨63, 32, .ro, 0x0, none, false⟩,
     ⟨31, 0, .ro, 0x0, none, false⟩]⟩,
  ⟨0x200, 8, 16, 0, 1, [⟨47, 32, .ro, 0x0, none, false⟩,
     ⟨15, 0, .rw0, 0x0, none, false⟩]⟩
  ]

def rows_opt : List RegRow := rows_opt_0

/-- The registers of the `attr` page (R383). -/
def rows_attr_0 : List RegRow := [
  ⟨0x100, 0, 1, 0, 1, [⟨2, 2, .w1s, 0x0, none, true⟩,
     ⟨1, 1, .rw0, 0x1, none, false⟩,
     ⟨0, 0, .rw0, 0x1, none, false⟩]⟩,
  ⟨0x108, 0, 1, 0, 1, [⟨15, 0, .rw0, 0x0, none, false⟩]⟩,
  ⟨0x110, 0, 1, 0, 1, [⟨63, 0, .ro, 0x0, none, false⟩]⟩,
  ⟨0x118, 0, 1, 0, 1, [⟨63, 32, .ro, 0x0, none, false⟩,
     ⟨31, 0, .ro, 0x0, none, false⟩]⟩,
  ⟨0x120, 0, 1, 0, 1, [⟨63, 56, .rw0, 0x20, some (8, 255), false⟩,
     ⟨55, 48, .ro, 0x0, none, false⟩,
     ⟨1, 0, .ro, 0x0, none, false⟩]⟩,
  ⟨0x128, 0, 1, 0, 1, [⟨31, 0, .ro, 0x10000, none, false⟩]⟩,
  ⟨0x200, 8, 12, 0, 1, [⟨63, 32, .ro, 0x0, none, false⟩,
     ⟨31, 0, .rw0, 0x0, none, false⟩]⟩,
  ⟨0x280, 8, 12, 0, 1, [⟨63, 0, .ro, 0x0, none, false⟩]⟩
  ]

def rows_attr : List RegRow := rows_attr_0

/-- The registers of the `chain` page (R416). -/
def rows_chain_0 : List RegRow := [
  ⟨0x100, 0, 1, 0, 1, [⟨63, 48, .rw, 0xFA0, some (1500, 20000), false⟩,
     ⟨47, 40, .rw, 0x64, none, false⟩,
     ⟨39, 32, .rw, 0x3, some (1, 16), false⟩,
     ⟨31, 20, .rw, 0x3C, some (10, 3600), false⟩,
     ⟨19, 10, .rw, 0xFA, some (20, 1000), false⟩,
     ⟨3, 3, .rw, 0x0, none, false⟩,
     ⟨2, 2, .rw0, 0x0, none, false⟩,
     ⟨1, 1, .w1s, 0x0, none, false⟩,
     ⟨0, 0, .rw0, 0x1, none, false⟩]⟩,
  ⟨0x108, 0, 1, 0, 1, [⟨63, 56, .ro, 0x0, none, false⟩,
     ⟨55, 52, .ro, 0xF, none, false⟩,
     ⟨51, 48, .ro, 0xF, none, false⟩,
     ⟨38, 32, .ro, 0x0, none, false⟩,
     ⟨7, 7, .ro, 0x0, none, false⟩,
     ⟨6, 6, .ro, 0x0, none, false⟩,
     ⟨5, 5, .ro, 0x0, none, false⟩,
     ⟨4, 3, .ro, 0x1, none, false⟩,
     ⟨2, 0, .ro, 0x0, none, false⟩]⟩,
  ⟨0x110, 0, 1, 0, 1, [⟨63, 32, .ro, 0x0, none, false⟩,
     ⟨31, 16, .rw, 0x0, none, false⟩,
     ⟨15, 8, .ro, 0x0, none, false⟩,
     ⟨7, 0, .ro, 0x0, none, false⟩]⟩,
  ⟨0x118, 0, 1, 0, 1, [⟨63, 0, .ro, 0x0, none, false⟩]⟩,
  ⟨0x120, 0, 1, 0, 1, [⟨63, 48, .rw, 0x0, none, false⟩,
     ⟨47, 32, .rw, 0x0, none, false⟩,
     ⟨31, 16, .rw, 0x0, none, false⟩,
     ⟨15, 0, .rw, 0x0, none, false⟩]⟩,
  ⟨0x128, 0, 1, 0, 1, [⟨63, 32, .ro, 0x0, none, false⟩,
     ⟨19, 16, .ro, 0xF, none, false⟩,
     ⟨10, 6, .ro, 0x0, none, false⟩,
     ⟨1, 1, .ro, 0x0, none, false⟩,
     ⟨0, 0, .ro, 0x0, none, false⟩]⟩,
  ⟨0x130, 0, 1, 0, 1, [⟨55, 48, .ro, 0x0, none, false⟩,
     ⟨47, 44, .ro, 0xF, none, false⟩,
     ⟨2, 1, .ro, 0x0, none, false⟩,
     ⟨0, 0, .w1s, 0x0, none, true⟩]⟩,
  ⟨0x138, 0, 1, 0, 1, [⟨63, 63, .w1c, 0x0, none, false⟩,
     ⟨59, 56, .ro, 0x0, none, false⟩,
     ⟨55, 52, .ro, 0x0, none, false⟩,
     ⟨31, 0, .ro, 0x0, none, false⟩]⟩
  ]

def rows_chain : List RegRow := rows_chain_0

/-- The registers of the `pack` page (R416). -/
def rows_pack_0 : List RegRow := [
  ⟨0x100, 0, 1, 0, 1, [⟨63, 56, .rw0, 0x0, none, false⟩,
     ⟨55, 40, .rw0, 0x0, none, false⟩]⟩,
  ⟨0x108, 0, 1, 0, 1, [⟨15, 15, .ro, 0x0, none, false⟩,
     ⟨14, 14, .ro, 0x0, none, false⟩,
     ⟨13, 13, .ro, 0x0, none, false⟩,
     ⟨12, 12, .ro, 0x0, none, false⟩,
     ⟨11, 11, .ro, 0x0, none, false⟩,
     ⟨10, 10, .ro, 0x0, none, false⟩,
     ⟨9, 9, .ro, 0x0, none, false⟩,
     ⟨8, 8, .ro, 0x0, none, false⟩,
     ⟨5, 4, .ro, 0x0, none, false⟩,
     ⟨3, 0, .ro, 0x0, none, false⟩]⟩,
  ⟨0x110, 0, 1, 0, 1, [⟨3, 3, .w1s, 0x0, none, false⟩,
     ⟨2, 2, .w1s, 0x0, none, false⟩,
     ⟨1, 1, .w1s, 0x0, none, true⟩,
     ⟨0, 0, .w1s, 0x0, none, false⟩]⟩,
  ⟨0x118, 0, 1, 0, 1, [⟨63, 32, .ro, 0x0, none, false⟩,
     ⟨31, 16, .ro, 0x0, none, false⟩,
     ⟨15, 8, .ro, 0x0, none, false⟩,
     ⟨7, 0, .ro, 0x0, none, false⟩]⟩,
  ⟨0x120, 0, 1, 0, 1, [⟨63, 48, .ro, 0x0, none, false⟩,
     ⟨47, 40, .ro, 0x0, none, false⟩,
     ⟨39, 24, .ro, 0x0, none, false⟩,
     ⟨23, 16, .ro, 0x0, none, false⟩]⟩,
  ⟨0x128, 0, 1, 0, 1, [⟨63, 48, .rw0, 0xAF0, some (2700, 2850), false⟩,
     ⟨47, 32, .rw0, 0xABE, none, false⟩,
     ⟨31, 16, .rw0, 0x708, none, false⟩,
     ⟨15, 0, .rw0, 0x6A4, some (1500, 1800), false⟩]⟩,
  ⟨0x130, 0, 1, 0, 1, [⟨63, 56, .rw0, 0x3C, none, false⟩,
     ⟨55, 48, .rw0, 0x32, none, false⟩,
     ⟨47, 40, .rw0, 0x0, none, false⟩,
     ⟨39, 32, .rw0, 0xEC, none, false⟩]⟩,
  ⟨0x138, 0, 1, 0, 1, [⟨63, 48, .rw, 0x3E8, some (100, 60000), false⟩,
     ⟨47, 36, .rw, 0x96, none, false⟩,
     ⟨35, 28, .rw, 0xA, none, false⟩,
     ⟨27, 20, .rw, 0x5, none, false⟩,
     ⟨19, 4, .rw, 0xA8C, none, false⟩,
     ⟨0, 0, .rw, 0x1, none, false⟩]⟩
  ]

def rows_pack_1 : List RegRow := [
  ⟨0x140, 0, 1, 0, 1, [⟨15, 0, .rw, 0x32, none, false⟩]⟩,
  ⟨0x148, 0, 1, 0, 1, [⟨63, 32, .ro, 0x0, none, false⟩,
     ⟨1, 1, .ro, 0x0, none, false⟩,
     ⟨0, 0, .ro, 0x0, none, false⟩]⟩,
  ⟨0x150, 8, 2, 0, 1, [⟨63, 0, .ro, 0x0, none, false⟩]⟩,
  ⟨0x160, 8, 2, 0, 1, [⟨63, 0, .ro, 0x0, none, false⟩]⟩,
  ⟨0x170, 8, 2, 0, 1, [⟨63, 0, .ro, 0x0, none, false⟩]⟩,
  ⟨0x180, 8, 2, 0, 1, [⟨63, 0, .ro, 0x0, none, false⟩]⟩
  ]

def rows_pack : List RegRow := rows_pack_0 ++ rows_pack_1

/-- The registers of the `cell` page (R416). -/
def rows_cell_0 : List RegRow := [
  ⟨0x100, 8, 28, 0, 1, [⟨63, 48, .ro, 0x0, none, false⟩,
     ⟨47, 32, .ro, 0x0, none, false⟩,
     ⟨31, 16, .ro, 0x0, none, false⟩,
     ⟨15, 0, .ro, 0x0, none, false⟩]⟩,
  ⟨0x200, 8, 7, 0, 1, [⟨63, 48, .ro, 0x0, none, false⟩,
     ⟨47, 32, .ro, 0x0, none, false⟩,
     ⟨31, 16, .ro, 0x0, none, false⟩,
     ⟨15, 0, .ro, 0x0, none, false⟩]⟩,
  ⟨0x240, 8, 7, 0, 1, [⟨63, 48, .ro, 0x0, none, false⟩,
     ⟨47, 32, .ro, 0x0, none, false⟩,
     ⟨3, 2, .ro, 0x0, none, false⟩,
     ⟨1, 0, .ro, 0x0, none, false⟩]⟩,
  ⟨0x280, 8, 7, 0, 1, [⟨63, 0, .ro, 0x0, none, false⟩]⟩
  ]

def rows_cell : List RegRow := rows_cell_0

/-- The registers of the `est` page (R442). -/
def rows_est_0 : List RegRow := [
  ⟨0x100, 0, 1, 0, 1, [⟨1, 0, .rw0, 0x0, none, false⟩]⟩,
  ⟨0x108, 0, 1, 0, 1, [⟨47, 40, .ro, 0x0, none, false⟩,
     ⟨15, 12, .ro, 0x0, none, false⟩,
     ⟨11, 8, .ro, 0x0, none, false⟩,
     ⟨7, 6, .ro, 0x0, none, false⟩,
     ⟨5, 4, .ro, 0x0, none, false⟩,
     ⟨3, 3, .ro, 0x0, none, false⟩,
     ⟨2, 2, .ro, 0x0, none, false⟩,
     ⟨1, 1, .ro, 0x0, none, false⟩]⟩,
  ⟨0x110, 0, 1, 0, 1, [⟨63, 48, .ro, 0x0, none, false⟩,
     ⟨47, 32, .ro, 0x0, none, false⟩,
     ⟨31, 16, .ro, 0x0, none, false⟩,
     ⟨15, 0, .ro, 0x0, none, false⟩]⟩,
  ⟨0x118, 0, 1, 0, 1, [⟨63, 48, .ro, 0x0, none, false⟩,
     ⟨47, 32, .ro, 0x0, none, false⟩,
     ⟨31, 16, .ro, 0x0, none, false⟩,
     ⟨15, 0, .ro, 0x0, none, false⟩]⟩,
  ⟨0x120, 0, 1, 0, 1, [⟨63, 32, .ro, 0x2625A0, none, false⟩,
     ⟨31, 16, .rw0, 0x3E8, none, false⟩,
     ⟨15, 0, .ro, 0x1D4C, none, false⟩]⟩,
  ⟨0x128, 0, 1, 0, 1, [⟨63, 48, .rw0, 0x64, some (20, 400), false⟩,
     ⟨47, 32, .rw0, 0x320, some (200, 2000), false⟩,
     ⟨31, 16, .rw0, 0x5DC, none, false⟩,
     ⟨15, 0, .rw0, 0x0, none, false⟩]⟩,
  ⟨0x130, 0, 1, 0, 1, [⟨63, 32, .rw0, 0x7D0, none, false⟩,
     ⟨31, 16, .rw0, 0x7D0, none, false⟩]⟩,
  ⟨0x138, 0, 1, 0, 1, [⟨63, 48, .rw, 0x18, some (1, 720), false⟩,
     ⟨47, 32, .rw, 0x384, some (660, 7200), false⟩,
     ⟨31, 16, .rw, 0x4B0, none, false⟩,
     ⟨15, 0, .rw, 0xE10, some (60, 65535), false⟩]⟩
  ]

def rows_est_1 : List RegRow := [
  ⟨0x140, 0, 1, 0, 1, [⟨63, 0, .rw, 0x0, none, false⟩]⟩,
  ⟨0x148, 0, 1, 0, 1, [⟨63, 63, .ro, 0x0, none, false⟩,
     ⟨62, 0, .ro, 0x0, none, false⟩]⟩,
  ⟨0x150, 0, 1, 0, 1, [⟨63, 32, .ro, 0x0, none, false⟩,
     ⟨31, 16, .ro, 0x0, none, false⟩]⟩,
  ⟨0x158, 0, 1, 0, 1, [⟨63, 32, .ro, 0x0, none, false⟩,
     ⟨31, 0, .ro, 0x10000, none, false⟩]⟩,
  ⟨0x160, 0, 1, 0, 1, [⟨6, 0, .rw, 0x0, none, false⟩]⟩,
  ⟨0x168, 0, 1, 0, 1, [⟨63, 48, .ro, 0x0, none, false⟩,
     ⟨47, 32, .ro, 0x0, none, false⟩,
     ⟨31, 16, .ro, 0x0, none, false⟩,
     ⟨1, 1, .ro, 0x0, none, false⟩,
     ⟨0, 0, .ro, 0x0, none, false⟩]⟩,
  ⟨0x170, 0, 1, 0, 1, [⟨3, 3, .w1s, 0x0, none, false⟩,
     ⟨2, 2, .w1s, 0x0, none, true⟩,
     ⟨1, 1, .w1s, 0x0, none, false⟩,
     ⟨0, 0, .w1s, 0x0, none, false⟩]⟩,
  ⟨0x200, 8, 34, 0, 1, [⟨63, 0, .rw0, 0x0, none, false⟩]⟩
  ]

def rows_est : List RegRow := rows_est_0 ++ rows_est_1

/-- The registers of the `estOcv` page (R442). -/
def rows_estOcv_0 : List RegRow := [
  ⟨0x100, 0, 1, 0, 1, [⟨63, 48, .rw0, 0x0, none, false⟩,
     ⟨47, 32, .rw0, 0x0, none, false⟩,
     ⟨31, 16, .rw0, 0x0, none, false⟩,
     ⟨15, 0, .rw0, 0x0, none, false⟩]⟩,
  ⟨0x108, 0, 1, 0, 1, [⟨1, 1, .ro, 0x0, none, false⟩,
     ⟨0, 0, .ro, 0x0, none, false⟩]⟩,
  ⟨0x110, 0, 1, 0, 1, [⟨0, 0, .w1s, 0x0, none, true⟩]⟩,
  ⟨0x200, 8, 66, 0, 1, [⟨63, 48, .rw0, 0x0, none, false⟩,
     ⟨47, 32, .rw0, 0x0, none, false⟩,
     ⟨31, 16, .rw0, 0x0, none, false⟩,
     ⟨15, 0, .rw0, 0x0, none, false⟩]⟩
  ]

def rows_estOcv : List RegRow := rows_estOcv_0

/-- The registers of the `mcol` page (R479). -/
def rows_mcol_0 : List RegRow := [
  ⟨0x100, 0, 1, 0, 1, [⟨26, 0, .w1c, 0x0, none, false⟩]⟩,
  ⟨0x108, 0, 1, 0, 1, [⟨53, 0, .ro, 0x0, none, false⟩]⟩,
  ⟨0x110, 0, 1, 0, 1, [⟨63, 48, .ro, 0x0, none, false⟩,
     ⟨7, 7, .ro, 0x0, none, false⟩,
     ⟨6, 6, .ro, 0x0, none, false⟩,
     ⟨5, 5, .ro, 0x0, none, false⟩,
     ⟨4, 4, .ro, 0x0, none, false⟩,
     ⟨3, 3, .ro, 0x0, none, false⟩,
     ⟨2, 2, .ro, 0x0, none, false⟩,
     ⟨1, 1, .ro, 0x0, none, false⟩,
     ⟨0, 0, .ro, 0x1, none, false⟩]⟩,
  ⟨0x118, 0, 1, 0, 1, [⟨0, 0, .rw0, 0x1, none, false⟩]⟩,
  ⟨0x120, 0, 1, 0, 1, [⟨15, 8, .rw0, 0xA, some (10, 255), false⟩,
     ⟨2, 2, .w1s, 0x0, none, true⟩,
     ⟨1, 1, .w1s, 0x0, none, false⟩,
     ⟨0, 0, .rw0, 0x1, none, false⟩]⟩,
  ⟨0x128, 0, 1, 0, 1, [⟨63, 56, .ro, 0x0, none, false⟩,
     ⟨55, 54, .ro, 0x0, none, false⟩,
     ⟨53, 53, .ro, 0x0, none, false⟩,
     ⟨51, 48, .ro, 0x0, none, false⟩,
     ⟨47, 32, .ro, 0x0, none, false⟩]⟩,
  ⟨0x130, 0, 1, 0, 1, [⟨63, 0, .ro, 0x0, none, false⟩]⟩
  ]

def rows_mcol : List RegRow := rows_mcol_0

/-- The registers of the `fcol` page (R479). -/
def rows_fcol_0 : List RegRow := [
  ⟨0x100, 0, 1, 0, 1, [⟨14, 0, .w1c, 0x0, none, false⟩]⟩,
  ⟨0x108, 0, 1, 0, 1, [⟨29, 0, .ro, 0x0, none, false⟩]⟩,
  ⟨0x110, 0, 1, 0, 1, [⟨63, 56, .ro, 0x0, none, false⟩,
     ⟨7, 0, .ro, 0x0, none, false⟩]⟩,
  ⟨0x118, 0, 1, 0, 1, [⟨43, 0, .ro, 0x0, none, false⟩]⟩,
  ⟨0x120, 0, 1, 0, 1, [⟨19, 8, .ro, 0x0, none, false⟩,
     ⟨7, 0, .ro, 0x0, none, false⟩]⟩,
  ⟨0x128, 0, 1, 0, 1, []⟩,
  ⟨0x130, 0, 1, 0, 1, [⟨63, 0, .ro, 0x0, none, false⟩]⟩
  ]

def rows_fcol : List RegRow := rows_fcol_0

/-- The registers of the `rst` page (R479). -/
def rows_rst_0 : List RegRow := [
  ⟨0x100, 0, 1, 0, 1, [⟨15, 8, .rw0, 0x3, none, false⟩,
     ⟨2, 2, .rw0, 0x1, none, false⟩,
     ⟨1, 1, .rw0, 0x0, none, false⟩,
     ⟨0, 0, .rw, 0x0, none, false⟩]⟩,
  ⟨0x108, 0, 1, 0, 1, [⟨63, 48, .wo, 0x0, none, false⟩,
     ⟨2, 0, .wo, 0x0, none, false⟩]⟩,
  ⟨0x110, 0, 1, 0, 1, [⟨15, 8, .ro, 0x0, none, false⟩,
     ⟨7, 4, .ro, 0x0, none, false⟩,
     ⟨2, 0, .ro, 0x0, none, false⟩]⟩,
  ⟨0x118, 0, 1, 0, 1, [⟨63, 61, .ro, 0x0, none, false⟩,
     ⟨60, 58, .ro, 0x0, none, false⟩,
     ⟨57, 57, .ro, 0x0, none, false⟩,
     ⟨47, 32, .ro, 0x0, none, false⟩,
     ⟨31, 0, .ro, 0x0, none, false⟩]⟩,
  ⟨0x120, 0, 1, 0, 1, [⟨63, 48, .rw, 0x0, none, false⟩,
     ⟨47, 32, .rw, 0x0, none, false⟩,
     ⟨31, 16, .rw, 0x0, none, false⟩,
     ⟨15, 0, .rw, 0x0, none, false⟩]⟩,
  ⟨0x128, 0, 1, 0, 1, [⟨63, 32, .rw, 0x0, none, false⟩,
     ⟨31, 0, .rw, 0x0, none, false⟩]⟩,
  ⟨0x130, 0, 1, 0, 1, [⟨16, 16, .ro, 0x0, none, false⟩,
     ⟨15, 8, .ro, 0x0, none, false⟩,
     ⟨7, 0, .ro, 0x0, none, false⟩]⟩
  ]

def rows_rst : List RegRow := rows_rst_0

/-- The registers of the `hang` page (R479). -/
def rows_hang_0 : List RegRow := [
  ⟨0x100, 0, 1, 0, 1, [⟨63, 48, .rw, 0x64, some (10, 60000), false⟩,
     ⟨47, 32, .rw, 0x3E8, none, false⟩,
     ⟨2, 2, .rw, 0x1, none, false⟩,
     ⟨1, 0, .rw, 0x1, none, false⟩]⟩,
  ⟨0x108, 0, 1, 0, 1, [⟨63, 32, .ro, 0x0, none, false⟩,
     ⟨31, 16, .ro, 0x0, none, false⟩,
     ⟨2, 2, .ro, 0x0, none, false⟩,
     ⟨1, 1, .w1c, 0x0, none, false⟩,
     ⟨0, 0, .w1c, 0x0, none, false⟩]⟩,
  ⟨0x110, 0, 1, 0, 1, [⟨63, 48, .ro, 0x0, none, false⟩,
     ⟨47, 40, .ro, 0x0, none, false⟩,
     ⟨39, 35, .ro, 0x0, none, false⟩,
     ⟨34, 34, .ro, 0x0, none, false⟩,
     ⟨33, 32, .ro, 0x0, none, false⟩,
     ⟨16, 0, .ro, 0x0, none, false⟩]⟩,
  ⟨0x118, 8, 15, 0, 1, [⟨63, 48, .ro, 0x0, none, false⟩,
     ⟨47, 40, .ro, 0x0, none, false⟩,
     ⟨16, 0, .ro, 0x0, none, false⟩]⟩,
  ⟨0x190, 0, 1, 0, 1, [⟨63, 0, .ro, 0x0, none, false⟩]⟩
  ]

def rows_hang : List RegRow := rows_hang_0

/-- The registers of the `dump` page (R479). -/
def rows_dump_0 : List RegRow := [
  ⟨0x100, 0, 1, 0, 1, [⟨63, 48, .ro, 0x0, none, false⟩,
     ⟨47, 44, .ro, 0x0, none, false⟩,
     ⟨2, 2, .ro, 0x0, none, false⟩,
     ⟨1, 1, .ro, 0x0, none, false⟩,
     ⟨0, 0, .ro, 0x0, none, false⟩]⟩,
  ⟨0x108, 0, 1, 0, 1, [⟨2, 2, .w1s, 0x0, none, true⟩,
     ⟨1, 1, .w1s, 0x0, none, false⟩,
     ⟨0, 0, .w1s, 0x0, none, false⟩]⟩,
  ⟨0x110, 0, 1, 0, 1, [⟨35, 32, .rw, 0x0, none, false⟩,
     ⟨17, 3, .rw, 0x0, none, false⟩]⟩,
  ⟨0x118, 0, 1, 0, 1, [⟨63, 0, .ro, 0x0, none, false⟩]⟩
  ]

def rows_dump : List RegRow := rows_dump_0

/-- The registers of the `ficSrc` page (R492). -/
def rows_ficSrc_0 : List RegRow := [
  ⟨0x100, 8, 256, 0, 1, [⟨31, 31, .rw, 0x0, none, false⟩,
     ⟨30, 30, .rw, 0x0, none, false⟩,
     ⟨29, 25, .rw, 0x0, none, false⟩,
     ⟨24, 22, .rw, 0x0, none, false⟩,
     ⟨21, 21, .rw, 0x0, none, false⟩,
     ⟨20, 16, .rw, 0x0, none, false⟩,
     ⟨15, 8, .rw, 0x0, none, false⟩,
     ⟨2, 2, .ro, 0x0, none, false⟩,
     ⟨1, 1, .ro, 0x0, none, false⟩,
     ⟨0, 0, .ro, 0x0, none, false⟩]⟩
  ]

def rows_ficSrc : List RegRow := rows_ficSrc_0

/-- The registers of the `fic` page (R492). -/
def rows_fic_0 : List RegRow := [
  ⟨0x100, 0, 1, 0, 1, [⟨0, 0, .rw0, 0x1, none, false⟩]⟩,
  ⟨0x108, 0, 1, 0, 1, [⟨63, 32, .rw, 0x0, none, false⟩,
     ⟨31, 16, .rw, 0x0, none, false⟩,
     ⟨15, 0, .rw, 0x0, none, false⟩]⟩,
  ⟨0x200, 32, 8, 0, 1, [⟨63, 14, .rw0, 0x0, none, false⟩,
     ⟨12, 12, .rw0, 0x0, none, false⟩,
     ⟨4, 0, .rw, 0x0, none, false⟩]⟩,
  ⟨0x208, 32, 8, 0, 1, [⟨31, 27, .ro, 0x0, none, false⟩,
     ⟨20, 16, .ro, 0x0, none, false⟩,
     ⟨9, 0, .ro, 0x3FF, none, false⟩]⟩,
  ⟨0x210, 32, 8, 0, 1, [⟨9, 0, .wo, 0x0, none, false⟩]⟩,
  ⟨0x218, 32, 8, 0, 1, [⟨14, 10, .ro, 0x0, none, false⟩,
     ⟨9, 0, .ro, 0x3FF, none, false⟩]⟩,
  ⟨0x400, 8, 16, 0, 1, [⟨63, 0, .w1s, 0x0, none, false⟩]⟩,
  ⟨0x480, 8, 16, 0, 1, [⟨63, 0, .w1c, 0x0, none, false⟩]⟩
  ]

def rows_fic_1 : List RegRow := [
  ⟨0x500, 8, 16, 0, 1, [⟨63, 0, .ro, 0x0, none, false⟩]⟩,
  ⟨0x580, 8, 16, 0, 1, [⟨63, 0, .ro, 0x0, none, false⟩]⟩,
  ⟨0x600, 8, 32, 0, 1, [⟨63, 48, .rw, 0x0, none, false⟩,
     ⟨47, 40, .rw, 0x1, none, false⟩,
     ⟨39, 32, .ro, 0x0, none, false⟩]⟩
  ]

def rows_fic : List RegRow := rows_fic_0 ++ rows_fic_1

/-- The registers of the `pic` page: two targets, whose MODE reads 0, and four words of pending bits (R492). -/
def rows_pic_0 : List RegRow := [
  ⟨0x100, 0, 1, 0, 1, [⟨0, 0, .rw0, 0x1, none, false⟩]⟩,
  ⟨0x108, 0, 1, 0, 1, [⟨63, 32, .rw, 0x0, none, false⟩,
     ⟨31, 16, .rw, 0x0, none, false⟩,
     ⟨15, 0, .rw, 0x0, none, false⟩]⟩,
  ⟨0x200, 32, 2, 0, 1, [⟨63, 14, .rw0, 0x0, none, false⟩,
     ⟨4, 0, .rw, 0x0, none, false⟩]⟩,
  ⟨0x208, 32, 2, 0, 1, [⟨31, 27, .ro, 0x0, none, false⟩,
     ⟨20, 16, .ro, 0x0, none, false⟩,
     ⟨9, 0, .ro, 0x3FF, none, false⟩]⟩,
  ⟨0x210, 32, 2, 0, 1, [⟨9, 0, .wo, 0x0, none, false⟩]⟩,
  ⟨0x218, 32, 2, 0, 1, [⟨14, 10, .ro, 0x0, none, false⟩,
     ⟨9, 0, .ro, 0x3FF, none, false⟩]⟩,
  ⟨0x400, 8, 4, 0, 1, [⟨63, 0, .w1s, 0x0, none, false⟩]⟩,
  ⟨0x480, 8, 4, 0, 1, [⟨63, 0, .w1c, 0x0, none, false⟩]⟩
  ]

def rows_pic_1 : List RegRow := [
  ⟨0x500, 8, 4, 0, 1, [⟨63, 0, .ro, 0x0, none, false⟩]⟩,
  ⟨0x580, 8, 4, 0, 1, [⟨63, 0, .ro, 0x0, none, false⟩]⟩,
  ⟨0x600, 8, 32, 0, 1, [⟨63, 48, .rw, 0x0, none, false⟩,
     ⟨47, 40, .rw, 0x1, none, false⟩,
     ⟨39, 32, .ro, 0x0, none, false⟩]⟩
  ]

def rows_pic : List RegRow := rows_pic_0 ++ rows_pic_1

/-- The registers of the `rec` page (R506). -/
def rows_rec_0 : List RegRow := [
  ⟨0x100, 0, 1, 0, 1, [⟨11, 8, .rw, 0x9, none, false⟩,
     ⟨5, 4, .rw0, 0x0, none, false⟩,
     ⟨2, 2, .w1s, 0x0, none, false⟩,
     ⟨1, 1, .w1s, 0x0, none, false⟩,
     ⟨0, 0, .rw0, 0x1, none, false⟩]⟩,
  ⟨0x108, 0, 1, 0, 1, [⟨63, 32, .ro, 0x0, none, false⟩,
     ⟨31, 24, .ro, 0x0, none, false⟩,
     ⟨23, 8, .ro, 0x0, none, false⟩,
     ⟨0, 0, .ro, 0x0, none, false⟩]⟩,
  ⟨0x110, 0, 1, 0, 1, [⟨63, 0, .ro, 0x0, none, false⟩]⟩,
  ⟨0x118, 0, 1, 0, 1, [⟨63, 0, .ro, 0x0, none, false⟩]⟩,
  ⟨0x120, 0, 1, 0, 1, [⟨63, 32, .rw, 0x0, none, false⟩,
     ⟨31, 16, .rw, 0x0, none, false⟩,
     ⟨15, 0, .rw, 0x0, none, false⟩]⟩,
  ⟨0x128, 0, 1, 0, 1, [⟨63, 63, .rw, 0x0, none, false⟩,
     ⟨47, 0, .rw, 0x0, none, false⟩]⟩,
  ⟨0x130, 0, 1, 0, 1, [⟨1, 1, .ro, 0x0, none, false⟩,
     ⟨0, 0, .ro, 0x0, none, false⟩]⟩,
  ⟨0x138, 8, 4, 0, 1, [⟨63, 0, .ro, 0x0, none, false⟩]⟩
  ]

def rows_rec_1 : List RegRow := [
  ⟨0x200, 8, 16, 0, 1, [⟨31, 16, .rw0, 0x64, none, false⟩,
     ⟨15, 0, .rw0, 0x20, none, false⟩]⟩
  ]

def rows_rec : List RegRow := rows_rec_0 ++ rows_rec_1

/-- The registers of the `recSnap` page (R506). -/
def rows_recSnap_0 : List RegRow := [
  ⟨0x100, 8, 16, 0, 1, [⟨11, 8, .rw, 0x9, none, false⟩,
     ⟨7, 3, .rw, 0x0, some (0, 16), false⟩,
     ⟨0, 0, .rw, 0x0, none, false⟩]⟩,
  ⟨0x200, 64, 16, 8, 8, [⟨63, 32, .rw, 0x0, none, false⟩,
     ⟨31, 0, .rw, 0x0, none, false⟩]⟩
  ]

def rows_recSnap : List RegRow := rows_recSnap_0

/-- The registers of the `recClr` page (R506). -/
def rows_recClr_0 : List RegRow := [
  ⟨0x100, 8, 4, 0, 1, [⟨63, 0, .ro, 0x0, none, false⟩]⟩,
  ⟨0x120, 0, 1, 0, 1, [⟨2, 2, .w1s, 0x0, none, false⟩,
     ⟨1, 1, .w1s, 0x0, none, false⟩,
     ⟨0, 0, .w1s, 0x0, none, false⟩]⟩,
  ⟨0x128, 0, 1, 0, 1, [⟨63, 0, .wo, 0x0, none, false⟩]⟩,
  ⟨0x130, 0, 1, 0, 1, [⟨15, 4, .ro, 0x0, none, false⟩,
     ⟨3, 0, .ro, 0x0, none, false⟩]⟩
  ]

def rows_recClr : List RegRow := rows_recClr_0

/-- The registers of the `sys` page (R529). -/
def rows_sys_0 : List RegRow := [
  ⟨0x100, 0, 1, 0, 1, [⟨63, 56, .ro, 0x0, none, false⟩,
     ⟨55, 52, .ro, 0x0, none, false⟩,
     ⟨15, 12, .ro, 0x0, none, false⟩,
     ⟨11, 8, .ro, 0x0, none, false⟩,
     ⟨3, 0, .ro, 0x0, none, false⟩]⟩,
  ⟨0x108, 0, 1, 0, 1, [⟨63, 32, .ro, 0x0, none, false⟩,
     ⟨31, 0, .ro, 0x0, none, false⟩]⟩,
  ⟨0x110, 0, 1, 0, 1, [⟨47, 32, .ro, 0x0, none, false⟩,
     ⟨15, 0, .ro, 0x0, none, false⟩]⟩,
  ⟨0x118, 0, 1, 0, 1, [⟨63, 56, .ro, 0x0, none, false⟩,
     ⟨55, 52, .ro, 0x0, none, false⟩,
     ⟨15, 0, .ro, 0x0, none, false⟩]⟩,
  ⟨0x120, 0, 1, 0, 1, [⟨63, 0, .ro, 0x0, none, false⟩]⟩,
  ⟨0x128, 0, 1, 0, 1, [⟨63, 32, .ro, 0x0, none, false⟩,
     ⟨31, 0, .ro, 0x0, none, false⟩]⟩,
  ⟨0x130, 0, 1, 0, 1, [⟨1, 1, .ro, 0x0, none, false⟩,
     ⟨0, 0, .rw0, 0x0, none, false⟩]⟩,
  ⟨0x200, 8, 4, 0, 1, [⟨63, 0, .ro, 0x0, none, false⟩]⟩
  ]

def rows_sys : List RegRow := rows_sys_0

/-- The registers of the `fuse` page (R529). -/
def rows_fuse_0 : List RegRow := [
  ⟨0x100, 0, 1, 0, 1, [⟨31, 28, .ro, 0x0, none, false⟩,
     ⟨27, 27, .ro, 0x0, none, false⟩,
     ⟨26, 26, .ro, 0x0, none, false⟩,
     ⟨22, 16, .ro, 0x0, none, false⟩,
     ⟨15, 12, .ro, 0x0, none, false⟩,
     ⟨11, 8, .ro, 0x0, none, false⟩,
     ⟨3, 0, .ro, 0x0, none, false⟩]⟩,
  ⟨0x108, 0, 1, 0, 1, [⟨2, 2, .w1s, 0x0, none, false⟩,
     ⟨1, 1, .w1s, 0x0, none, false⟩,
     ⟨0, 0, .w1s, 0x0, none, false⟩]⟩,
  ⟨0x110, 0, 1, 0, 1, [⟨63, 0, .wo, 0x0, none, false⟩]⟩,
  ⟨0x118, 0, 1, 0, 1, [⟨15, 4, .ro, 0x0, none, false⟩,
     ⟨3, 0, .ro, 0x0, none, false⟩]⟩,
  ⟨0x120, 8, 4, 0, 1, [⟨63, 0, .ro, 0x0, none, false⟩]⟩,
  ⟨0x200, 32, 4, 8, 4, [⟨63, 0, .ro, 0x0, none, false⟩]⟩,
  ⟨0x280, 32, 4, 8, 4, [⟨63, 0, .ro, 0x0, none, false⟩]⟩
  ]

def rows_fuse : List RegRow := rows_fuse_0

/-- The registers of the `cfg` page (R529). -/
def rows_cfg_0 : List RegRow := [
  ⟨0x100, 0, 1, 0, 1, [⟨7, 0, .rw, 0x0, none, false⟩]⟩,
  ⟨0x108, 0, 1, 0, 1, [⟨3, 3, .w1s, 0x0, none, false⟩,
     ⟨2, 2, .w1s, 0x0, none, false⟩,
     ⟨1, 1, .w1s, 0x0, none, false⟩,
     ⟨0, 0, .w1s, 0x0, none, false⟩]⟩,
  ⟨0x110, 0, 1, 0, 1, [⟨12, 0, .rw, 0x0, none, false⟩]⟩,
  ⟨0x118, 0, 1, 0, 1, [⟨63, 0, .rw, 0x0, none, false⟩]⟩,
  ⟨0x120, 0, 1, 0, 1, [⟨63, 56, .ro, 0x0, none, false⟩,
     ⟨55, 52, .ro, 0x0, none, false⟩,
     ⟨3, 0, .ro, 0x0, none, false⟩]⟩
  ]

def rows_cfg : List RegRow := rows_cfg_0

/-- The registers of the `fw` page (R529). -/
def rows_fw_0 : List RegRow := [
  ⟨0x100, 0, 1, 0, 1, [⟨3, 0, .rw0, 0x0, none, false⟩]⟩,
  ⟨0x108, 0, 1, 0, 1, [⟨49, 0, .rw0, 0x0, none, false⟩]⟩,
  ⟨0x110, 0, 1, 0, 1, [⟨31, 0, .rw0, 0x0, none, false⟩]⟩,
  ⟨0x118, 0, 1, 0, 1, [⟨2, 0, .wo, 0x0, none, true⟩]⟩,
  ⟨0x120, 0, 1, 0, 1, [⟨63, 32, .ro, 0x0, none, false⟩,
     ⟨31, 24, .ro, 0x0, none, false⟩,
     ⟨3, 0, .ro, 0x0, none, false⟩]⟩,
  ⟨0x128, 0, 1, 0, 1, [⟨0, 0, .w1s, 0x0, none, false⟩]⟩,
  ⟨0x130, 0, 1, 0, 1, [⟨9, 0, .rw0, 0x0, none, false⟩]⟩,
  ⟨0x200, 8, 6, 0, 1, [⟨63, 32, .ro, 0x0, none, false⟩,
     ⟨31, 24, .ro, 0x0, none, false⟩,
     ⟨15, 8, .ro, 0x0, none, false⟩,
     ⟨7, 7, .ro, 0x0, none, false⟩,
     ⟨6, 6, .ro, 0x0, none, false⟩,
     ⟨5, 5, .ro, 0x0, none, false⟩,
     ⟨4, 4, .ro, 0x0, none, false⟩,
     ⟨0, 0, .ro, 0x0, none, false⟩]⟩
  ]

def rows_fw_1 : List RegRow := [
  ⟨0x400, 8, 64, 0, 1, [⟨63, 0, .rw0, 0x0, none, false⟩]⟩
  ]

def rows_fw : List RegRow := rows_fw_0 ++ rows_fw_1

/-- The registers of the `header` page (R544). -/
def rows_header_0 : List RegRow := [
  ⟨0x0, 0, 1, 0, 1, [⟨63, 48, .ro, 0x0, none, false⟩,
     ⟨47, 32, .ro, 0x0, none, false⟩,
     ⟨31, 28, .ro, 0x0, none, false⟩,
     ⟨23, 16, .ro, 0x0, none, false⟩,
     ⟨15, 8, .ro, 0x1, none, false⟩,
     ⟨7, 0, .ro, 0x0, none, false⟩]⟩,
  ⟨0x8, 0, 1, 0, 1, [⟨14, 14, .ro, 0x0, none, false⟩,
     ⟨13, 13, .ro, 0x0, none, false⟩,
     ⟨12, 12, .ro, 0x0, none, false⟩,
     ⟨11, 0, .ro, 0x0, none, false⟩]⟩,
  ⟨0x10, 0, 1, 0, 1, [⟨3, 3, .w1s, 0x0, none, true⟩,
     ⟨2, 2, .w1s, 0x0, none, false⟩,
     ⟨1, 1, .rw0, 0x0, none, false⟩,
     ⟨0, 0, .rw0, 0x1, none, false⟩]⟩,
  ⟨0x18, 0, 1, 0, 1, [⟨63, 56, .ro, 0x0, none, false⟩,
     ⟨5, 5, .ro, 0x0, none, false⟩,
     ⟨4, 4, .ro, 0x0, none, false⟩,
     ⟨3, 0, .ro, 0x0, none, false⟩]⟩,
  ⟨0x20, 0, 1, 0, 1, [⟨11, 0, .w1c, 0x0, none, false⟩]⟩,
  ⟨0x28, 0, 1, 0, 1, [⟨11, 0, .rw0, 0x0, none, false⟩]⟩,
  ⟨0x30, 0, 1, 0, 1, [⟨11, 0, .w1s, 0x0, none, true⟩]⟩,
  ⟨0x38, 0, 1, 0, 1, [⟨59, 0, .rw0, 0x0, none, false⟩]⟩
  ]

def rows_header_1 : List RegRow := [
  ⟨0x40, 0, 1, 0, 1, [⟨7, 7, .ro, 0x0, none, false⟩,
     ⟨3, 2, .rw0, 0x0, none, false⟩,
     ⟨1, 0, .rw0, 0x0, none, false⟩]⟩
  ]

def rows_header : List RegRow := rows_header_0 ++ rows_header_1

end Sys2Proof.Machine
end

