-- ==== Sys2Proof/Machine/RegReset.lean ====
section
/-! DEFINITION. The page index (R547, R548), the class of every ERR_STATUS bit, the values that the tables' entries
"cfg", "fuse", "nv" and "per ..." stand for, and from these the Reset value of every register. -/

namespace Sys2Proof.Machine

/-- The kinds of pages of the page index. -/
inductive PageKind where
  | sys | fuse | cfg | fw | ctxt | dom | part | subp | linkm | coll | pwr | fc | bc | gr | loop | railSys | rail
  | cap | opt | attr | chain | pack | cell | est | estOcv | mcol | rst | hang | dump | pic | picSrc | recd | recSnap
  | recClr | phase | phaseEvt | phaseProf | hostp | bryn | tmap | acal | store | hbmf | sched | fcol | fic | ficSrc
  | hbmc | ring | eng | core | linkf | lport | tile
  deriving DecidableEq, Repr

/-- What the index gives of a page: its kind, the instance in its group, its frond (15: module), TYPE, the page's
place in its block, the pages of the block, BLK_CAPS [14:12] and the reset ACCESS_CLASS. -/
structure PageInfo where
  kind : PageKind
  inst : Nat
  frond : Nat
  type : Nat
  idx : Nat
  pages : Nat
  caps : Nat
  cls : Nat
  deriving DecidableEq, Repr

/-- The page names of the module pages (R547), but for the rails. -/
def modulePages : List (Nat × PageInfo) :=
  [(0x00, ⟨.sys, 0, 15, 0x0001, 0, 1, 0, 0x05⟩), (0x01, ⟨.fuse, 0, 15, 0x0002, 0, 1, 0, 0x80⟩),
   (0x02, ⟨.cfg, 0, 15, 0x0003, 0, 1, 0, 0x80⟩), (0x03, ⟨.fw, 0, 15, 0x0004, 0, 1, 0, 0x05⟩),
   (0x20, ⟨.ctxt, 0, 15, 0x0010, 0, 4, 0, 0x05⟩), (0x21, ⟨.dom, 0, 15, 0x0010, 1, 4, 0, 0x05⟩),
   (0x22, ⟨.part, 0, 15, 0x0010, 2, 4, 0, 0x05⟩), (0x23, ⟨.subp, 0, 15, 0x0010, 3, 4, 0, 0x05⟩),
   (0x28, ⟨.linkm, 0, 15, 0x0011, 0, 1, 0, 0x05⟩), (0x29, ⟨.coll, 0, 15, 0x0012, 0, 1, 0, 0x05⟩),
   (0x40, ⟨.pwr, 0, 15, 0x0020, 0, 1, 0, 0x05⟩), (0x41, ⟨.fc, 0, 15, 0x0021, 0, 1, 0, 0x05⟩),
   (0x42, ⟨.bc, 0, 15, 0x0022, 0, 1, 0, 0x05⟩), (0x43, ⟨.gr, 0, 15, 0x0023, 0, 1, 0, 0x05⟩),
   (0x44, ⟨.loop, 0, 15, 0x0024, 0, 1, 0, 0x05⟩), (0x48, ⟨.railSys, 0, 15, 0x0028, 0, 1, 0, 0x05⟩)] ++
  [(0x60, ⟨.cap, 0, 15, 0x0030, 0, 1, 0, 0x05⟩), (0x61, ⟨.opt, 0, 15, 0x0031, 0, 1, 0, 0x05⟩),
   (0x62, ⟨.attr, 0, 15, 0x0032, 0, 1, 0, 0x05⟩), (0x68, ⟨.chain, 0, 15, 0x0038, 0, 3, 0, 0x05⟩),
   (0x69, ⟨.pack, 0, 15, 0x0038, 1, 3, 0, 0x05⟩), (0x6A, ⟨.cell, 0, 15, 0x0038, 2, 3, 0, 0x05⟩),
   (0x70, ⟨.est, 0, 15, 0x0039, 0, 2, 0, 0x05⟩), (0x71, ⟨.estOcv, 0, 15, 0x0039, 1, 2, 0, 0x05⟩),
   (0x80, ⟨.mcol, 0, 15, 0x0040, 0, 1, 0, 0x05⟩), (0x82, ⟨.rst, 0, 15, 0x0041, 0, 1, 0, 0x05⟩),
   (0x83, ⟨.hang, 0, 15, 0x0042, 0, 1, 0, 0x05⟩), (0x84, ⟨.dump, 0, 15, 0x0043, 0, 1, 0, 0x05⟩),
   (0x86, ⟨.pic, 0, 15, 0x0044, 0, 2, 0, 0x05⟩), (0x87, ⟨.picSrc, 0, 15, 0x0044, 1, 2, 0, 0x05⟩),
   (0x88, ⟨.recd, 0, 15, 0x0045, 0, 3, 0, 0x05⟩), (0x89, ⟨.recSnap, 0, 15, 0x0045, 1, 3, 0, 0x05⟩),
   (0x8A, ⟨.recClr, 0, 15, 0x0045, 2, 3, 0, 0x80⟩), (0xA0, ⟨.phase, 0, 15, 0x0048, 0, 3, 0, 0x05⟩),
   (0xA1, ⟨.phaseEvt, 0, 15, 0x0048, 1, 3, 0, 0x05⟩), (0xA2, ⟨.phaseProf, 0, 15, 0x0048, 2, 3, 0, 0x05⟩),
   (0xA8, ⟨.hostp, 0, 15, 0x0049, 0, 1, 0, 0x05⟩), (0xA9, ⟨.bryn, 0, 15, 0x004A, 0, 1, 0, 0x05⟩)]

/-- A frond page by its number on frond A (R548); `f` is the frond it lies on. -/
def frondPage (q f : Nat) : Option PageInfo :=
  if q = 0x100 then some ⟨.tmap, 0, f, 0x0100, 0, 1, 0, 0x05⟩
  else if q = 0x101 then some ⟨.acal, 0, f, 0x0101, 0, 1, 0, 0x05⟩
  else if q = 0x102 then some ⟨.store, 0, f, 0x0102, 0, 1, 0, 0x05⟩
  else if q = 0x104 then some ⟨.hbmf, 0, f, 0x0103, 0, 1, 0, 0x05⟩
  else if q = 0x106 then some ⟨.sched, 0, f, 0x0104, 0, 1, 0, 0x05⟩
  else if q = 0x108 then some ⟨.fcol, 0, f, 0x0105, 0, 1, 1, 0x05⟩
  else if q = 0x10A then some ⟨.fic, 0, f, 0x0106, 0, 5, 0, 0x05⟩
  else if 0x10B ≤ q ∧ q ≤ 0x10E then some ⟨.ficSrc, q - 0x10B, f, 0x0106, q - 0x10A, 5, 0, 0x05⟩
  else if 0x110 ≤ q ∧ q ≤ 0x113 then some ⟨.hbmc, q - 0x110 + 4 * f, f, 0x0107, 0, 1, 1, 0x05⟩
  else if q = 0x120 then some ⟨.ring, 0, f, 0x0108, 0, 1, 0, 0x05⟩
  else if 0x140 ≤ q ∧ q ≤ 0x16B then some ⟨.eng, q - 0x140, f, 0x0109, 0, 1, 7, 0x05⟩
  else if 0x180 ≤ q ∧ q ≤ 0x187 then some ⟨.core, q - 0x180, f, 0x010A, 0, 1, 7, 0x00⟩
  else if q = 0x1C0 then some ⟨.linkf, 0, f, 0x010B, 0, 1, 0, 0x05⟩
  else if 0x1D0 ≤ q ∧ q ≤ 0x1DB then some ⟨.lport, q - 0x1D0 + 12 * f, f, 0x010C, 0, 1, 7, 0x05⟩
  else if 0x200 ≤ q ∧ q ≤ 0x283 then some ⟨.tile, q - 0x200, f, 0x010D, 0, 1, 3, 0x05⟩
  else none

/-- The entry of a list of pairs at a key. -/
def assoc {α : Type} : List (Nat × α) → Nat → Option α
  | [], _ => none
  | (k', v) :: t, k => if k = k' then some v else assoc t k

/-- The page index (R547, R548): what a page is, or none where the page is unmapped (R532). -/
def pageInfo (p : Nat) : Option PageInfo :=
  if p < 0x100 then
    if 0x50 ≤ p ∧ p ≤ 0x5B then some ⟨.rail, p - 0x50, 15, 0x0029, 0, 1, 0, 0x05⟩ else assoc modulePages p
  else if p < 0x300 then frondPage p 0
  else if p < 0x500 then frondPage (p - 0x200) 1
  else none

/-- The classes of errors (R447). -/
inductive ErrClass where
  | CE
  | DE
  | UC
  | FE
  deriving DecidableEq, Repr

/-- The class's code (R447). -/
def ErrClass.num : ErrClass → Nat
  | .CE => 0
  | .DE => 1
  | .UC => 2
  | .FE => 3

/-- The assigned ERR_STATUS bits of a kind of page and their classes. The tables of PHASE (R61) and TMAP (R102) give
no class; CE is a DESIGN CHOICE of notes/assumptions. -/
def errBits (k : PageKind) : List (Nat × ErrClass) :=
  match k with
  | .phase => [(3, .CE), (2, .CE), (1, .CE), (0, .CE)]
  | .tile => [(5, .CE), (4, .CE), (3, .UC), (2, .CE), (1, .CE), (0, .CE)]
  | .tmap => [(1, .CE), (0, .CE)]
  | .store => [(1, .DE), (0, .CE)]
  | .hbmf => [(3, .FE), (2, .CE), (1, .CE), (0, .CE)]
  | .hbmc => [(4, .UC), (3, .CE), (2, .UC), (1, .DE), (0, .CE)]
  | .eng => [(2, .UC), (1, .UC), (0, .CE)]
  | .core => [(1, .DE), (0, .CE)]
  | .ctxt => [(2, .CE), (1, .DE), (0, .CE)]
  | .dom => [(0, .CE)]
  | .part => [(0, .CE)]
  | .subp => [(0, .CE)]
  | .linkm => [(2, .CE), (1, .CE), (0, .CE)]
  | .linkf => [(2, .CE), (1, .CE), (0, .CE)]
  | .lport => [(3, .UC), (2, .CE), (1, .CE), (0, .CE)]
  | .coll => [(0, .CE)]
  | .hostp => [(2, .CE), (1, .CE), (0, .CE)]
  | .bryn => [(3, .CE), (2, .CE), (1, .CE), (0, .CE)]
  | .pwr => [(3, .FE), (2, .UC), (1, .CE), (0, .CE)]
  | .fc => [(3, .UC), (2, .UC), (1, .UC), (0, .CE)]
  | .bc => [(3, .UC), (2, .UC), (1, .CE), (0, .UC)]
  | .gr => [(0, .CE)]
  | .loop => [(0, .CE)]
  | .rail => [(8, .UC), (7, .FE), (6, .FE), (5, .UC), (4, .CE), (3, .CE), (2, .CE), (1, .CE), (0, .CE)]
  | .cap => [(3, .UC), (2, .CE), (1, .CE), (0, .CE)]
  | .opt => [(0, .UC)]
  | .attr => [(1, .CE), (0, .CE)]
  | .chain => [(4, .CE), (3, .UC), (2, .CE), (1, .CE), (0, .UC)]
  | .pack => [(5, .FE), (4, .UC), (3, .UC), (2, .CE), (1, .CE), (0, .CE)]
  | .est => [(3, .CE), (2, .CE), (1, .CE)]
  | .estOcv => [(0, .CE)]
  | .mcol => [(4, .FE), (3, .UC), (2, .FE), (1, .FE), (0, .FE)]
  | .fcol => [(3, .UC), (2, .FE), (1, .UC), (0, .FE)]
  | .rst => [(1, .FE), (0, .UC)]
  | .hang => [(1, .CE), (0, .UC)]
  | .dump => [(0, .CE)]
  | .fic => [(1, .UC), (0, .CE)]
  | .pic => [(1, .UC), (0, .CE)]
  | .recd => [(0, .CE)]
  | .sys => [(3, .UC), (2, .CE), (1, .CE), (0, .CE)]
  | .fuse => [(1, .UC), (0, .CE)]
  | _ => []

/-- The class of a page's ERR_STATUS bit; a bit that no table assigns counts as CE. (DESIGN CHOICE, log 12) -/
def errClass (p bit : Nat) : ErrClass :=
  match pageInfo p with
  | some i => (assoc (errBits i.kind) bit).getD .CE
  | none => .CE

/-- BLK_CAPS.ERR_IMPL of a kind of page (R544). -/
def errImpl (k : PageKind) : Nat := (errBits k).foldl (fun n b => setBitN n b.1) 0

/-- The rows of a kind of page. -/
def rowsOf (k : PageKind) : List RegRow :=
  match k with
  | .sys => rows_sys
  | .fuse => rows_fuse
  | .cfg => rows_cfg
  | .fw => rows_fw
  | .ctxt => rows_ctxt
  | .dom => rows_dom
  | .part => rows_part
  | .subp => rows_subp
  | .linkm => rows_linkm
  | .coll => rows_coll
  | .pwr => rows_pwr
  | .fc => rows_fc
  | .bc => rows_bc
  | .gr => rows_gr
  | .loop => rows_loop
  | .railSys => rows_railSys
  | .rail => rows_rail
  | .cap => rows_cap
  | .opt => rows_opt
  | .attr => rows_attr
  | .chain => rows_chain
  | .pack => rows_pack
  | .cell => rows_cell
  | .est => rows_est
  | .estOcv => rows_estOcv
  | .mcol => rows_mcol
  | .rst => rows_rst
  | .hang => rows_hang
  | .dump => rows_dump
  | .pic => rows_pic
  | .picSrc => rows_ficSrc
  | .recd => rows_rec
  | .recSnap => rows_recSnap
  | .recClr => rows_recClr
  | .phase => rows_phase
  | .phaseEvt => rows_phaseEvt
  | .phaseProf => rows_phaseProf
  | .hostp => rows_hostp
  | .bryn => rows_bryn
  | .tmap => rows_tmap
  | .acal => rows_acal
  | .store => rows_store
  | .hbmf => rows_hbmf
  | .sched => rows_sched
  | .fcol => rows_fcol
  | .fic => rows_fic
  | .ficSrc => rows_ficSrc
  | .hbmc => rows_hbmc
  | .ring => rows_ring
  | .eng => rows_eng
  | .core => rows_core
  | .linkf => rows_linkf
  | .lport => rows_lport
  | .tile => rows_tile

/-- The index of an offset in a row, when the row covers it. -/
def rowAt (r : RegRow) (off : Nat) : Option (Nat × Nat) :=
  if off < r.base then none
  else
    let d := off - r.base
    let i := if r.s1 = 0 then 0 else min (d / r.s1) (r.n1 - 1)
    let e := d - i * r.s1
    let j := if r.s2 = 0 then 0 else min (e / r.s2) (r.n2 - 1)
    if e = j * r.s2 then some (i, j) else none

/-- The row of a list that covers an offset, with its index. -/
def findRow : List RegRow → Nat → Option (RegRow × Nat × Nat)
  | [], _ => none
  | r :: t, off => match rowAt r off with
    | some ij => some (r, ij)
    | none => findRow t off

/-- The register at a key of a mapped page: the page, its row and index. Offsets below 0x100 are the header's. -/
def lookupReg (key : Nat) : Option (PageInfo × RegRow × Nat × Nat) :=
  match pageInfo (key / 4096) with
  | none => none
  | some i =>
    let off := key % 4096
    let rows := if off < 0x100 then rows_header else rowsOf i.kind
    match findRow rows off with
    | some (r, ij) => some (i, r, ij)
    | none => none

/-- The word that a list of fields' Reset values make. (DESIGN CHOICE, log 8) -/
def fieldsReset : List FieldSpec → Nat
  | [] => 0
  | f :: t => f.rst * 2 ^ f.lo + fieldsReset t

/-! ### Values of the entries "cfg", "fuse" and "per ..." -/

/-- The rails of R335: range in 0.5 mV units, maximum current (A), phases, MIN_PH and SAFE (0.5 mV). -/
def railSpec (r : Nat) : Nat × Nat × Nat × Nat × Nat × Nat :=
  if r ≤ 1 then (1100, 1900, 2400, 48, 4, 1500)
  else if r ≤ 3 then (1200, 1800, 180, 6, 2, 1500)
  else if r ≤ 5 then (2100, 2300, 120, 4, 1, 2200)
  else if r ≤ 7 then (800, 800, 60, 2, 1, 800)
  else if r = 8 then (3600, 3600, 8, 2, 1, 3600)
  else if r = 9 then (1500, 1500, 300, 8, 2, 1500)
  else if r = 10 then (2400, 2400, 40, 2, 1, 2400)
  else (1600, 1600, 120, 4, 1, 1600)

/-- Phases of a rail (R335). -/
def railPhases (r : Nat) : Nat := (railSpec r).2.2.2.1

/-- Maximum current of a rail, A (R335). -/
def railImax (r : Nat) : Nat := (railSpec r).2.2.1

/-- Master (15: none), TRACK, stage and start target (0.5 mV) of a rail (R357). -/
def railStart (r : Nat) : Nat × Nat × Nat × Nat :=
  if r = 0 then (2, 2, 2, 1200) else if r = 1 then (3, 2, 2, 1200)
  else if r ≤ 3 then (15, 0, 2, 1500)
  else if r ≤ 5 then (8, 1, 1, 2200)
  else if r = 6 then (4, 2, 1, 800) else if r = 7 then (5, 2, 1, 800)
  else if r = 8 then (15, 0, 1, 3600)
  else if r = 9 then (10, 2, 3, 1500)
  else if r = 10 then (15, 0, 3, 2400)
  else (15, 0, 0, 1600)

/-- The ROM default of a RAIL register's "cfg" and "per R335" fields (R335, R337, R347-R349, R357). STEP_A of a rail
other than VC and the slew of RAIL_CMD are DESIGN CHOICES of notes/assumptions. (DESIGN CHOICE, log 10) -/
def railDefault (r off : Nat) : Nat :=
  let (vmin, vmax, imax, ph, minPh, safe) := railSpec r
  let (m, tr, st, tgt) := railStart r
  if off = 0x100 then m * 2 ^ 12 + tr * 2 ^ 10 + st * 2 ^ 8 + minPh * 4 + b2n (decide (r ≤ 1)) * 2
  else if off = 0x108 then 100 * 2 ^ 16 + tgt
  else if off = 0x110 then imax * 2 ^ 32 + ph * 2 ^ 20
  else if off = 0x120 then vmax * 2 ^ 48 + vmin * 2 ^ 32 + safe * 2 ^ 16
  else if off = 0x128 then (imax * 10 / 12) * 2 ^ 48 + (imax * 7 / ph) * 2 ^ 32 + (imax * 3 / ph) * 2 ^ 16
  else if off = 0x130 then b2n (decide (r ≤ 3)) * 12
  else 0

/-- The slot assignment of R332: PERIOD_N, MEAS_SRC, DEST, FF_SRC. (DESIGN CHOICE, log 11) -/
def loopDefault (slot : Nat) : Nat × Nat × Nat × Nat :=
  if slot = 0 then (5, 1, 1, 0) else if slot = 1 then (5, 2, 2, 1) else if slot = 2 then (20, 3, 8, 0)
  else if slot = 3 then (1000, 4, 8, 0) else if slot = 4 then (100000, 5, 3, 0)
  else if slot ≤ 8 then (10000, slot + 2, slot - 1, 0)
  else (4, 0, 0, 0)

/-- The ROM default of a LOOP register's "cfg" fields (R332). Coefficients and limits are 0 (DESIGN CHOICE).
(DESIGN CHOICE, log 11) -/
def loopReset (slot w : Nat) : Nat :=
  let (n, src, dst, ff) := loopDefault slot
  if w = 0 then n * 2 ^ 32 + src * 2 ^ 16 + dst * 2 ^ 8 + ff * 2 ^ 4
  else if w = 1 ∧ slot ≤ 1 then 2 ^ 32 + 2 * 2 ^ 28 + 4
  else 0

/-- The nominal voltage of an operating point, 0.5 mV units (R363). -/
def opVolt (n : Nat) : Nat :=
  if n ≤ 12 then 1200 + 25 * n else if n = 13 then 1560 else if n = 14 then 1630 else 1700

/-- The factory coefficients of R378, pJ. -/
def factoryCoef (i : Nat) : Nat :=
  [4900, 2460, 2050, 400, 13, 520, 5100, 410, 1800, 8200, 650, 1500000].getD i 0

/-- Default reactions of a class (R447): bit 0 LOG, 1 IRQ, 2 FENCE, 3 ESC, 4 PIN. (DESIGN CHOICE, log 12) -/
def classAction : ErrClass → Nat
  | .CE => 1
  | .DE => 3
  | .UC => 7
  | .FE => 27

/-- The ROM default of a page's ERR_ACTION (R447, R448). (DESIGN CHOICE, log 12) -/
def errAction (k : PageKind) : Nat :=
  (errBits k).foldl (fun n b =>
    let a := if (k = .eng ∧ 1 ≤ b.1) ∨ (k = .hang ∧ b.1 = 0) then 11
      else if k = .mcol ∧ (b.1 = 1 ∨ b.1 = 2) then 19 else classAction b.2
    n + a * 2 ^ (5 * b.1)) 0

/-- SENSE and WIRED of an interrupt source (R482): 0 level or 1 edge, and whether it has a line. -/
def srcWiring (pic : Bool) (s : Nat) : Nat × Nat :=
  if pic then
    if s ≤ 26 then (0, 1) else if 32 ≤ s ∧ s ≤ 39 then (1, 1) else if 40 ≤ s ∧ s ≤ 43 then (0, 1)
    else if s = 44 ∨ s = 45 then (1, 1) else (1, 0)
  else
    if s ≤ 14 then (0, 1) else if 16 ≤ s ∧ s ≤ 23 then (1, 1) else if s = 24 then (0, 1)
    else if s = 25 ∨ s = 26 then (1, 1) else if 32 ≤ s ∧ s ≤ 58 then (0, 1) else (1, 0)

/-- Header values "per index" and "per page" (R544, R547, R548). (DESIGN CHOICE, log 8) -/
def headerReset (p : PageInfo) (off : Nat) : Nat :=
  if off = 0x000 then
    p.type * 2 ^ 48 + p.inst * 2 ^ 32 + p.frond * 2 ^ 28 + p.idx * 2 ^ 16 + 1 * 2 ^ 8 + p.pages
  else if off = 0x008 then p.caps * 2 ^ 12 + errImpl p.kind
  else if off = 0x010 then 1
  else if off = 0x038 then errAction p.kind
  else if off = 0x040 then p.cls
  else 0

/-- What a register's "cfg", "fuse", "nv" and "per ..." fields hold at reset, over zeros in its other fields.
Fields without a figure in the spec are 0 but for those notes/assumptions name.
(DESIGN CHOICE, log 8; DESIGN CHOICE, log 9; DESIGN CHOICE, log 10) -/
def specialReset (p : PageInfo) (off i : Nat) : Nat :=
  match p.kind with
  | .rail => railDefault p.inst off
  | .loop => if 0x200 ≤ off then loopReset ((off - 0x200) / 64) ((off - 0x200) % 64 / 8) else 0
  | .opt => if 0x200 ≤ off then (600 + 50 * i) * 2 ^ 32 + opVolt i else 0
  | .attr => if 0x200 ≤ off ∧ off < 0x280 then factoryCoef i * 2 ^ 32 + factoryCoef i else 0
  | .cap => if 0x200 ≤ off then (railImax i * 10) * 2 ^ 48 else 0
  | .tmap => if 0x200 ≤ off then i else 0
  | .ficSrc => let (se, wi) := srcWiring false (p.inst * 256 + i); se * 2 ^ 30 + wi
  | .picSrc => let (se, wi) := srcWiring true i; se * 2 ^ 30 + wi
  | .phase => if off = 0x118 then 250000000 else 0
  | .pack => if off = 0x100 then 96 * 2 ^ 56 + 3000 * 2 ^ 40 else 0
  | .est => if off = 0x128 then 2351 else 0
  | .bryn => if off = 0x100 then 1 else 0
  | _ => 0

/-- The Reset value of a register (R12); an offset that holds no register reads 0 (R538). (DESIGN CHOICE, log 8) -/
def resetOf (key : Nat) : Word :=
  match lookupReg key with
  | none => 0
  | some (p, r, i, _) =>
    let off := key % 4096
    if off < 0x100 then BitVec.ofNat 64 (if off = 0x018 then 0 else headerReset p off)
    else BitVec.ofNat 64 (fieldsReset r.fields + specialReset p off i)

end Sys2Proof.Machine
end

