-- ==== Sys2Proof/Machine/RegFile.lean ====
section
/-! DEFINITION. The register file, memory, and the interrupt controllers as named operations, which every command's
meaning is written in. -/

namespace Sys2Proof.Machine

/-! ### Registers (R533) -/

/-- The register at a key. -/
def State.reg (s : State) (k : Nat) : Word := Sparse.get resetOf s.regs k

/-- The state with a register set whole. -/
def State.setReg (s : State) (k : Nat) (w : Word) : State := { s with regs := Sparse.set resetOf s.regs k w }

/-- A field's value. -/
def State.rd (s : State) (f : Field) : Nat := f.get (s.reg f.key)

/-- The state with a field set, modulo its width. -/
def State.wr (s : State) (f : Field) (v : Nat) : State := s.setReg f.key (f.put (s.reg f.key) v)

/-- A signed field's value. -/
def State.rdS (s : State) (f : Field) : Int := bitsInt f.width (s.rd f)

/-- The state with a signed field set, saturating at the field's range. -/
def State.wrS (s : State) (f : Field) (v : Int) : State :=
  s.wr f (intBits f.width (clampInt (-(2 ^ (f.width - 1) : Int)) (2 ^ (f.width - 1) - 1) v))

/-- The state with an unsigned field set, saturating. -/
def State.wrSat (s : State) (f : Field) (v : Nat) : State := s.wr f (min v (2 ^ f.width - 1))

/-- A field is not 0. -/
def State.on (s : State) (f : Field) : Bool := s.rd f != 0

/-- A counter field that wraps, raised. -/
def State.inc (s : State) (f : Field) (n : Nat := 1) : State := s.wr f (s.rd f + n)

/-- A counter field that saturates, raised. -/
def State.incSat (s : State) (f : Field) (n : Nat := 1) : State := s.wr f (satAdd f.width (s.rd f) n)

/-- Bit `i` of a field set. -/
def State.setBit (s : State) (f : Field) (i : Nat) : State := s.wr f (setBitN (s.rd f) i)

/-- Bit `i` of a field cleared. -/
def State.clrBit (s : State) (f : Field) (i : Nat) : State := s.wr f (clrBitN (s.rd f) i)

/-- `g` applied to the state when `c` holds. -/
def State.when (s : State) (c : Bool) (g : State → State) : State := if c then g s else s

/-- PHASE_TIME (R33). -/
def State.now (s : State) : Nat := s.phase.time

/-- A free value: nothing constrains it, and each draw is another. (DESIGN CHOICE, log 6) -/
def State.free (s : State) : Nat := Config.freeNat s.draws

/-- The state after a free value has been drawn. (DESIGN CHOICE, log 6) -/
def State.drawn (s : State) : State := { s with draws := s.draws + 1 }

/-- The state with a message put out. (DESIGN CHOICE, log 14) -/
def State.put (s : State) (o : Out) : State := { s with outbox := o :: s.outbox }

/-- An in-band interrupt with its byte, under a dynamic address and while DISEC has not turned interrupts off (R477,
R557). (PRESUMED, log 72) -/
def State.ibi (s : State) (byte : Nat) : State :=
  if s.tray.address.isSome && s.tray.events % 2 == 1 then (s.put (.ibi byte)).wr F.RST_TRAY_LAST_IBI byte else s

/-- The frond's copy of the phase (R55). -/
def State.copyOf (s : State) : Frond → FrondCopy
  | .A => s.phase.copyA
  | .B => s.phase.copyB

/-- The step that a copy is in, by its number and by the restarts that did not raise the number. -/
def FrondCopy.mark (c : FrondCopy) : Nat := c.odd * 2 ^ 32 + c.step

/-! ### Memory (R134-R147) -/

/-- A byte that memory does not list reads 0 (R139, R164). (DESIGN CHOICE, log 7) -/
def memDefault : Nat → Byte := fun _ => 0

/-- The canonical form of memory: addresses rise strictly and no entry is 0. -/
def Memory.wf (m : List Host.Cell) : Bool := Sparse.wf memDefault m

/-- One byte of memory. (DESIGN CHOICE, log 7) -/
def State.byte (s : State) (a : Nat) : Byte := Sparse.get memDefault s.mem a

/-- The state with one byte of memory set. -/
def State.setByte (s : State) (a : Nat) (b : Byte) : State := { s with mem := Sparse.set memDefault s.mem a b }

/-- `n` bytes from `a`, little-endian (R8). -/
def State.bytesAt (s : State) (a : Nat) : Nat → Nat
  | 0 => 0
  | n + 1 => (s.byte a).toNat + 256 * State.bytesAt s (a + 1) n

/-- The state with `n` bytes from `a` set to a number, little-endian. -/
def State.setBytes (s : State) (a : Nat) : Nat → Nat → State
  | 0, _ => s
  | n + 1, v => State.setBytes (s.setByte a (BitVec.ofNat 8 v)) (a + 1) n (v / 256)

/-! ### Pages -/

/-- The pages of frond `f` lie 0x200 above those of frond A (R548). -/
def frondPg (f : Frond) (p : Nat) : Nat := p + 0x200 * f.idx

/-- The page of a physical tile. -/
def tilePage (f : Frond) (t : Nat) : Nat := frondPg f (0x200 + t)

/-- The page of an engine. -/
def engPage (f : Frond) (n : Nat) : Nat := frondPg f (0x140 + n)

/-- The page of a control core. -/
def corePage (f : Frond) (n : Nat) : Nat := frondPg f (0x180 + n)

/-- The page of a Henyr port by its module number 0-23. -/
def portPage (n : Nat) : Nat := if n < 12 then 0x1D0 + n else 0x3D0 + (n - 12)

/-- The page of an HBM stack by its module number 0-7. -/
def hbmcPage (n : Nat) : Nat := if n < 4 then 0x110 + n else 0x310 + (n - 4)

/-- The page of a rail. -/
def railPage (r : Nat) : Nat := 0x50 + r

/-! ### Interrupt controllers (R481-R490) -/

/-- A controller's own state. -/
def State.ctl (s : State) : Ctl → IntCtl
  | .fic .A => s.ficA
  | .fic .B => s.ficB
  | .pic => s.pic

/-- The state with a controller's own state set. -/
def State.setCtl (s : State) (c : Ctl) (v : IntCtl) : State :=
  match c with
  | .fic .A => { s with ficA := v }
  | .fic .B => { s with ficB := v }
  | .pic => { s with pic := v }

/-- The page of a controller (R492). -/
def ctlPage : Ctl → Nat
  | .fic f => frondPg f 0x10A
  | .pic => 0x86

/-- A field of a source's SRC register. -/
def srcField (c : Ctl) (f : Field) (src : Nat) : Field := (f.pg (ctlPage c + 1 + src / 256)).i (src % 256)

/-- A bit of one of the PEND, ACTIVE or LINE words. -/
def wordBit (s : State) (c : Ctl) (f : Field) (src : Nat) : Bool :=
  bitOf (s.rd ((f.pg (ctlPage c)).i (src / 64))) (src % 64)

/-- The state with a bit of one of those words set or cleared. -/
def setWordBit (s : State) (c : Ctl) (f : Field) (src : Nat) (b : Bool) : State :=
  let g := (f.pg (ctlPage c)).i (src / 64)
  if b then s.setBit g (src % 64) else s.clrBit g (src % 64)

/-- The source is pending (R484). -/
def State.irqPending (s : State) (c : Ctl) (src : Nat) : Bool := wordBit s c F.FIC_PEND_SET_PEND src

/-- The filtered line is high. -/
def State.irqLine (s : State) (c : Ctl) (src : Nat) : Bool := wordBit s c F.FIC_LINE_LINE src

/-- The source is claimed and awaits its EOI. -/
def State.irqActive (s : State) (c : Ctl) (src : Nat) : Bool := wordBit s c F.FIC_ACTIVE_ACTIVE src

/-- The target of a source; on the PIC a target other than 1 counts as 0 (R492). -/
def State.irqTarget (s : State) (c : Ctl) (src : Nat) : Nat :=
  let t := s.rd (srcField c F.SRC_TARGET src)
  match c with
  | .pic => if t = 1 then 1 else 0
  | .fic _ => t

/-- The bits of a word that are set, lowest first. -/
def bitsOf (w : Nat) : List Nat := if w = 0 then [] else (List.range 64).filter (bitOf w)

/-- The pending sources of a controller, lowest ID first. -/
def State.irqPendingIds (s : State) (c : Ctl) : List Nat :=
  (List.range 16).flatMap (fun w =>
    (bitsOf (s.rd ((F.FIC_PEND_SET_PEND.pg (ctlPage c)).i w))).map (fun b => 64 * w + b))

/-- The pending sources of a moderation group. -/
def State.irqGroupIds (s : State) (c : Ctl) (g : Nat) : List Nat :=
  (s.irqPendingIds c).filter (fun i =>
    s.on (srcField c F.SRC_MOD_EN i) && s.rd (srcField c F.SRC_MOD_GRP i) == g)

/-- The running-priority stack of a target, top first. -/
def State.irqStack (s : State) (c : Ctl) (t : Nat) : List (Nat × Nat) := Sparse.get (fun _ => []) (s.ctl c).claims t

/-- The priority a target runs at: none on an empty stack (R485). -/
def State.irqRunning (s : State) (c : Ctl) (t : Nat) : Option Nat := (s.irqStack c t).head?.map (·.2)

/-- A pending source qualifies for its target (R485). -/
def State.irqQualifies (s : State) (c : Ctl) (t src : Nat) : Bool :=
  let prio := s.rd (srcField c F.SRC_PRIO src)
  s.irqPending c src && s.on (srcField c F.SRC_ENABLE src) && !s.irqActive c src
    && (!s.on (srcField c F.SRC_MOD_EN src) || (s.ctl c).released.contains src)
    && s.irqTarget c src == t
    && decide (s.rd ((F.FIC_CORE_THRESH.pg (ctlPage c)).i t) ≤ prio)
    && (match s.irqRunning c t with | none => true | some r => decide (r < prio))

/-- A request that would be presented but for its target's full stack is counted (R488). (DESIGN CHOICE, log 75) -/
def State.irqHeldBack (s : State) (c : Ctl) (src : Nat) : State :=
  let t := s.irqTarget c src
  if 16 ≤ (s.irqStack c t).length ∧ s.irqQualifies c t src then s.incSat (F.FIC_STATS_STACK_FULL.pg (ctlPage c)) else s

/-- What an unlisted moderation group holds. -/
def modDefault : Nat → ModGroup := fun _ => ⟨0, 0⟩

/-- A group releases every pending source held in it; its count and timer restart (R489). -/
def State.irqRelease (s : State) (c : Ctl) (g : Nat) : State :=
  let k := s.ctl c
  let ids := s.irqGroupIds c g
  let k' := { k with released := ids ++ k.released.filter (fun i => !ids.contains i),
                     groups := Sparse.set modDefault k.groups g (modDefault g) }
  ids.foldl (fun s i => s.irqHeldBack c i) ((s.setCtl c k').wr ((F.FIC_MOD_HELD.pg (ctlPage c)).i g) 0)

/-- The target idles in WFI (R490): of a control core CORE_STATUS.STATE says so. -/
def State.irqIdle (s : State) (c : Ctl) (t : Nat) : Bool :=
  match c with
  | .fic f => s.rd (F.CORE_STATUS_STATE.pg (corePage f t)) == 2
  | .pic => s.pic.wfi.contains t

/-- A group counts an event of one of its sources, and releases at COUNT, 0 counting as 1 (R489), or at once when
the source's target idles in WFI (R490). A released source stays so until it is claimed or cleared. -/
def State.irqCountEvent (s : State) (c : Ctl) (src : Nat) : State :=
  if s.on (srcField c F.SRC_MOD_EN src) then
    let g := s.rd (srcField c F.SRC_MOD_GRP src)
    let k := s.ctl c
    let m := Sparse.get modDefault k.groups g
    let m' : ModGroup := ⟨m.count + 1, if m.count = 0 then s.now else m.since⟩
    let s := s.setCtl c { k with groups := Sparse.set modDefault k.groups g m' }
    let s := s.wrSat ((F.FIC_MOD_HELD.pg (ctlPage c)).i g) m'.count
    if max 1 (s.rd ((F.FIC_MOD_COUNT.pg (ctlPage c)).i g)) ≤ m'.count || s.irqIdle c (s.irqTarget c src)
    then s.irqRelease c g else s
  else s

/-- A source that was not pending has become so: an event of its group, or a request that a full stack holds back
(R488, R489). -/
def State.irqCome (s : State) (c : Ctl) (src : Nat) : State :=
  if s.on (srcField c F.SRC_MOD_EN src) then s.irqCountEvent c src else s.irqHeldBack c src

/-- An edge or a software set: the source becomes pending until it is claimed or cleared; one that arrives while the
source is pending merges and is counted (R484). -/
def State.irqEdge (s : State) (c : Ctl) (src : Nat) : State :=
  if s.irqPending c src then
    let k := s.ctl c
    ((s.incSat (F.FIC_STATS_MERGED.pg (ctlPage c))).setCtl c
      { k with latched := if k.latched.contains src then k.latched else src :: k.latched }).irqCountEvent c src
  else
    let k := s.ctl c
    let s := setWordBit s c F.FIC_PEND_SET_PEND src true
    let s := s.setCtl c { k with latched := src :: k.latched }
    s.irqCome c src

/-- The source stops being pending. -/
def State.irqUnpend (s : State) (c : Ctl) (src : Nat) : State :=
  let k := s.ctl c
  (setWordBit s c F.FIC_PEND_SET_PEND src false).setCtl c
    { k with latched := k.latched.filter (· != src), released := k.released.filter (· != src) }

/-- The filtered line of a source takes a level (R483): an edge source becomes pending at a rise, a level source is
pending while it is high. -/
def State.irqLineTo (s : State) (c : Ctl) (src : Nat) (level : Bool) : State :=
  let was := s.irqLine c src
  let s := setWordBit s c F.FIC_LINE_LINE src level
  if s.on (srcField c F.SRC_SENSE src) then
    if level && !was then s.irqEdge c src else s
  else if level && !was then
    if s.irqPending c src then s.irqCountEvent c src
    else (setWordBit s c F.FIC_PEND_SET_PEND src true).irqCome c src
  else if !level && !(s.ctl c).latched.contains src then s.irqUnpend c src
  else s

/-- A source's SRC register has been written: a level source is pending while its line is high (R483, R484). -/
def State.irqSrcSync (s : State) (c : Ctl) (src : Nat) : State :=
  if s.on (srcField c F.SRC_SENSE src) then s
  else if s.irqLine c src then
    if s.irqPending c src then s else ((setWordBit s c F.FIC_PEND_SET_PEND src true).irqCountEvent c src).irqHeldBack c src
  else if (s.ctl c).latched.contains src then s else s.irqUnpend c src

/-- A unit drives its raw line: an unfiltered line passes at once; a filtered one waits for IRQ_LINE_CHANGE. -/
def State.irqRaw (s : State) (c : Ctl) (src : Nat) (level : Bool) : State :=
  if s.rd (srcField c F.SRC_FILT src) = 0 then s.irqLineTo c src level else s

/-- A unit pulses an edge source's raw line. -/
def State.irqPulse (s : State) (c : Ctl) (src : Nat) : State :=
  if s.rd (srcField c F.SRC_FILT src) = 0 then s.irqEdge c src else s

/-- Of two requests the one with the higher priority, the first on a tie. -/
def irqBetter (s : State) (c : Ctl) (best : Option Nat) (src : Nat) : Option Nat :=
  match best with
  | none => some src
  | some b => if s.rd (srcField c F.SRC_PRIO b) < s.rd (srcField c F.SRC_PRIO src) then some src else some b

/-- The request a controller presents to a target: highest PRIO, lowest ID on a tie; nothing while EN is 0 or the
stack holds 16 entries (R485, R488). -/
def State.irqPresented (s : State) (c : Ctl) (t : Nat) : Option Nat :=
  if !s.on (F.FIC_CTRL_EN.pg (ctlPage c)) || decide (16 ≤ (s.irqStack c t).length) then none
  else ((s.irqPendingIds c).filter (s.irqQualifies c t)).foldl (irqBetter s c) none

end Sys2Proof.Machine
end

