-- ==== Sys2Proof/Machine/Units.lean ====
section
/-! DEFINITION. The units as the register file and every other family see them: accessors of the units' own state, the
states that R200 and R201 report, the waits of contexts and tiles, the phase angle and the preferred point, the fenced
units, and the other values that registers show without holding them. -/

namespace Sys2Proof.Machine


/-- Frond `n` (0 or 1) is fenced (R454). -/
def State.frondFenced (s : State) (n : Nat) : Bool :=
  if n = 0 then s.on F.MCOL_STATUS_FROND_A_FENCED else s.on F.MCOL_STATUS_FROND_B_FENCED

/-- P2 of event 0x0070 (R540). -/
def reqCode (r : Req) : Nat :=
  match r.kind with
  | .steward => 0
  | .power => 1
  | .core f n => 2 + (f.idx * 8 + n.val) * 256
  | .host slot => 3 + slot.val * 256
  | .relay slot => 3 + slot.val * 256

/-- The key under which a field held per requester is kept (R235): the requester and the register; a relayed session has a
copy of its own beside the local one of its slot. -/
def selKey (r : Req) (k : Nat) : Nat :=
  (reqCode r + match r.kind with | .relay _ => 2 ^ 15 | _ => 0) * 2 ^ 32 + k

/-- A field held per requester. -/
def State.sel (s : State) (r : Req) (k : Nat) : Nat := Sparse.get (fun _ => 0) s.sels (selKey r k)

/-- The state with a field held per requester set. -/
def State.setSel (s : State) (r : Req) (k v : Nat) : State :=
  { s with sels := Sparse.set (fun _ => 0) s.sels (selKey r k) v }

def sessDefault : Nat → Session := fun _ => Session.init

/-- Session slot `n`. -/
def State.sess (s : State) (n : Nat) : Session := Sparse.get sessDefault s.sessions n

def State.setSess (s : State) (n : Nat) (x : Session) : State := { s with sessions := Sparse.set sessDefault s.sessions n x }

/-- Live tags of a session: records whose response has not been sent (R288). -/
def Session.live (x : Session) : Nat := x.tags.length + (x.sendq.filter (fun e => e.1 == 5 || e.1 == 9)).length

/-- Live tags of all sessions. -/
def State.tagsOut (s : State) : Nat := (s.sessions.map (fun e => e.2.live)).foldl (· + ·) 0

/-- What an unlisted tile, engine, context, domain or frond's memory controllers hold. -/
def tileDefault : Nat → TileUnit := fun _ => TileUnit.init

def engDefault : Nat → EngUnit := fun _ => EngUnit.init

def ctxDefault : Nat → Ctx := fun _ => Ctx.init

def domDefault : Nat → Domain := fun _ => Domain.init

def hbmDefault : Nat → HbmFrond := fun _ => HbmFrond.init

/-- The tile `t` of frond `f`, physical. -/
def State.tile (s : State) (f : Frond) (t : Nat) : TileUnit := Sparse.get tileDefault s.tiles (f.idx * 132 + t)

def State.setTile (s : State) (f : Frond) (t : Nat) (u : TileUnit) : State :=
  { s with tiles := Sparse.set tileDefault s.tiles (f.idx * 132 + t) u }

def State.updTile (s : State) (f : Frond) (t : Nat) (g : TileUnit → TileUnit) : State :=
  s.setTile f t (g (s.tile f t))

/-- Engine `n` of frond `f`. -/
def State.eng (s : State) (f : Frond) (n : Nat) : EngUnit := Sparse.get engDefault s.ring.engines (f.idx * 64 + n)

/-- An engine without a running descriptor. -/
def EngUnit.rest (u : EngUnit) : EngUnit := { u with running := none, done := none, reads := [] }

def State.setEng (s : State) (f : Frond) (n : Nat) (u : EngUnit) : State :=
  { s with ring := { s.ring with engines := Sparse.set engDefault s.ring.engines (f.idx * 64 + n) u } }

/-- Context `c`; the chip resets have advanced every generation, of unlisted contexts too (R473). -/
def State.ctx (s : State) (c : Nat) : Ctx :=
  let x := Sparse.get ctxDefault s.work.ctxs c
  { x with gen := (x.gen + s.work.genBase) % 256 }

def State.setCtx (s : State) (c : Nat) (x : Ctx) : State :=
  { s with work := { s.work with
      ctxs := Sparse.set ctxDefault s.work.ctxs c { x with gen := (x.gen + 256 - s.work.genBase % 256) % 256 } } }

def State.updCtx (s : State) (c : Nat) (g : Ctx → Ctx) : State := s.setCtx c (g (s.ctx c))

/-- Domain `d`. -/
def State.dom (s : State) (d : Nat) : Domain := Sparse.get domDefault s.work.doms d

def State.setDom (s : State) (d : Nat) (x : Domain) : State :=
  { s with work := { s.work with doms := Sparse.set domDefault s.work.doms d x } }

/-- The memory controllers of frond `f` (0, 1). -/
def State.hbmF (s : State) (f : Nat) : HbmFrond := Sparse.get hbmDefault s.hbm f

def State.setHbmF (s : State) (f : Nat) (x : HbmFrond) : State := { s with hbm := Sparse.set hbmDefault s.hbm f x }

/-- The allocated contexts, ascending. -/
def State.ctxIds (s : State) : List Nat := (s.work.ctxs.filter (fun e => e.2.alloc)).map (·.1)

/-- The entry of logical tile `t`. -/
def mapField (g : Field) (f : Frond) (t : Nat) : Field := (g.pg (frondPg f 0x100)).i t

/-- The physical tile that logical tile `t` is mapped to, if any. -/
def State.physOf (s : State) (f : Frond) (t : Nat) : Option Nat :=
  if 128 ≤ t then none
  else if s.on (mapField F.TMAP_ENTRY_VALID f t) then some (s.rd (mapField F.TMAP_ENTRY_PHYS f t)) else none

/-- The logical tile of a physical tile: TILE_STATUS.LOGICAL, 0xFF for none. -/
def State.logicalOf (s : State) (f : Frond) (p : Nat) : Nat := s.rd (F.TILE_STATUS_LOGICAL.pg (tilePage f p))

/-- TILE_STATUS.STATE (R97). -/
def State.tileState (s : State) (f : Frond) (p : Nat) : Nat := s.rd (F.TILE_STATUS_STATE.pg (tilePage f p))

/-- A physical tile is out of service: a SPARE or FENCED one carries no work, also while a mapping still names it (R17, R97,
R98). (DESIGN CHOICE, log 26) -/
def State.tileOut (s : State) (f : Frond) (p : Nat) : Bool := decide (3 ≤ s.tileState f p)

/-- A field of a physical tile's page. -/
def tf (g : Field) (f : Frond) (p : Nat) : Field := g.pg (tilePage f p)

/-- TSEQ_STATUS.STATE. -/
def State.seqState (s : State) (f : Frond) (p : Nat) : Nat := s.rd (tf F.TSEQ_STATUS_STATE f p)

/-- A threshold is met: the difference as a signed 32-bit number is 0 or more (R110, R208). -/
def reached (v threshold : Nat) : Bool := decide (0 ≤ bitsInt 32 ((v % 2 ^ 32 + 2 ^ 32 - threshold % 2 ^ 32) % 2 ^ 32))

/-- Tile counter `n` of a physical tile. -/
def tcnt (f : Frond) (p n : Nat) : Field := (tf F.TCNT_VALUE f p).i n

def State.partState (s : State) (p : Nat) : Nat := s.rd (F.PART_STATUS_STATE.i p)

def State.partFrond (s : State) (p : Nat) : Frond := Frond.at (s.rd (F.PART_CFG_FROND.i p))

def State.partDomain (s : State) (p : Nat) : Nat := s.rd (F.PART_CFG_DOMAIN.i p)

/-- The logical tiles of a rectangle (R223). -/
def rectTiles (col row w h : Nat) : List Nat :=
  (List.range h).flatMap (fun y => (List.range w).map (fun x => (row + y) * 16 + col + x))

/-- The logical tiles of partition `p`. -/
def State.partTiles (s : State) (p : Nat) : List Nat :=
  rectTiles (s.rd (F.PART_CFG_COL0.i p)) (s.rd (F.PART_CFG_ROW0.i p)) (s.rd (F.PART_CFG_WIDTH.i p))
    (s.rd (F.PART_CFG_HEIGHT.i p))

/-- The physical tiles of partition `p` that are mapped. -/
def State.partPhys (s : State) (p : Nat) : List Nat := (s.partTiles p).filterMap (s.physOf (s.partFrond p))

/-- A field of an engine's page. -/
def ef (g : Field) (f : Frond) (n : Nat) : Field := g.pg (engPage f n)

/-- The engines that serve partition `p`: those whose ENG_STATUS names it (R168, R226). -/
def State.partEngs (s : State) (p : Nat) : List Nat :=
  let f := s.partFrond p
  (List.range 44).filter (fun n => s.on (ef F.ENG_STATUS_PART_VALID f n) && s.rd (ef F.ENG_STATUS_PART f n) == p)

/-- The partition is built, being rebuilt or in reset: its tiles and engines belong to it. -/
def State.partHeld (s : State) (p : Nat) : Bool := decide (2 ≤ s.partState p)

/-- The allocated contexts bound to partition `p`. -/
def State.partCtxs (s : State) (p : Nat) : List Nat := s.ctxIds.filter (fun c => (s.ctx c).part == p)

/-- The partition that a logical tile belongs to. -/
def State.partOfTile (s : State) (f : Frond) (t : Nat) : Option Nat :=
  (List.range 64).find? (fun p => s.partHeld p && s.partFrond p == f && (s.partTiles p).contains t)

/-- Items in the ring. -/
def Ctx.count (x : Ctx) : Nat := (x.tail + 2 ^ 17 - x.head) % 2 ^ 17

/-- A queue head of the tile waits under WT (R107): its op names a counter that is below 1 (R110). -/
def State.headWaits (s : State) (f : Frond) (p : Nat) (q : TileQ) : Bool :=
  bitOf q.word 6 && decide (bitsInt 32 ((s.rd ((tf F.TCNT_VALUE f p).i (q.word / 2 ^ 12 % 16)) + 2 ^ 32 - 1) % 2 ^ 32) < 0)

/-- The queue heads of a tile that wait under WT. -/
def State.wtHeads (s : State) (f : Frond) (p : Nat) : List TileQ :=
  (s.tile f p).queues.filterMap (fun e => match e.2 with
    | [] => none
    | q :: _ => if s.headWaits f p q then some q else none)

/-- What the tile's program waits for (R201): 2 a tile counter, 3 the phase, 0 nothing. -/
def State.tileWait (s : State) (f : Frond) (p : Nat) : Nat :=
  let st := s.seqState f p
  if st = 3 then 3
  else if st = 2 then 2
  else if (s.tile f p).fly = [] ∧ s.wtHeads f p ≠ [] then 2
  else 0

/-- Kind of an item. -/
def itemKind (w : List Nat) : Nat := w.headD 0 % 256

/-- Every outstanding item is a tile program that waits (R200). -/
def State.allWait (s : State) (x : Ctx) : Bool :=
  x.outstanding.all (fun o => itemKind o.words == 0x80 && o.tiles != [] &&
    o.tiles.all (fun p => s.tileWait (s.partFrond x.part) p != 0))

/-- The state that CTX_STATUS reports (R200, R201). -/
def State.ctxState (s : State) (c : Nat) : Nat :=
  let x := s.ctx c
  if !x.alloc then 0
  else if x.resetting then 7
  else if x.faulted then 5
  else if x.stopped then 6
  else
    let empty := x.count == 0
    match x.wait with
    | some w =>
      if w.kind = 1 ∨ (3 ≤ w.kind ∧ w.kind ≤ 5) then 4 else 2
    | none =>
      if empty then
        if x.outstanding = [] then 1 else if s.allWait x then 4 else 3
      else 2

/-- CTX_STATUS.WAIT_KIND (R201). -/
def State.ctxWaitKind (s : State) (c : Nat) : Nat :=
  let x := s.ctx c
  if x.alloc && x.count != 0 && s.partState x.part != 2 then 8
  else
    match x.wait with
    | some w => w.kind
    | none =>
    if s.ctxState c = 4 then
      if x.outstanding.any (fun o => o.tiles.any (fun p => s.tileWait (s.partFrond x.part) p == 2)) then 2 else 3
    else 0

/-- A field of a port's page. -/
def pf (g : Field) (p : Nat) : Field := g.pg (portPage p)

def State.portState (s : State) (p : Nat) : Nat := s.rd (pf F.LPORT_STATUS_STATE p)

/-- A field of a frond's HBMF page. -/
def hf (g : Field) (f : Nat) : Field := g.pg (frondPg (Frond.at f) 0x104)

/-- Bit `pc` of HBMF_FENCE, or of HBMF_MAP. -/
def State.pcBit (s : State) (g : Field) (f pc : Nat) : Bool := bitOf (s.rd ((hf g f).i (pc / 64))) (pc % 64)

/-- `n` bytes of memory from a key. -/
def State.rdKeys (s : State) (k n : Nat) : List Nat := (List.range n).map (fun i => (s.byte (k + i)).toNat)

/-- Little-endian numbers of `w` bytes from bytes, and back. -/
def toWords (w : Nat) : Nat → List Nat → List Nat
  | 0, _ => []
  | fuel + 1, l => if l = [] then [] else
      (l.take w).foldr (fun b acc => b + 256 * acc) 0 :: toWords w fuel (l.drop w)

/-- The words of an item of context `c` by its place in the ring, without the side effects of a read. -/
def State.itemPeek (s : State) (c i : Nat) : List Nat :=
  let x := s.ctx c
  toWords 8 64 (s.rdKeys (x.ringBase % 2 ^ 44 + i % 2 ^ x.ringLog * 64) 64)

/-- The words of the item at the head of context `c`. -/
def State.headPeek (s : State) (c : Nat) : List Nat := s.itemPeek c (s.ctx c).head

/-- The tile counters of a physical tile that its program waits on, in WAIT or under WT (R110, R122). -/
def State.tileAwaits (s : State) (f : Frond) (p : Nat) : List Nat :=
  if s.tileWait f p != 2 then []
  else if s.seqState f p = 2 then [s.rd (tf F.TSEQ_WAIT_COUNTER f p)]
  else (s.wtHeads f p).map (fun q => q.word / 2 ^ 12 % 16)

/-- A tile counter in the INDEX layout of R169. -/
def tcIndex (f : Frond) (logical n : Nat) : Nat := f.idx * 2 ^ 11 + logical % 128 * 16 + n

/-- The tiles that the outstanding LAUNCH items of a context run on. -/
def Ctx.tiles (x : Ctx) : List Nat := x.outstanding.flatMap (·.tiles)

/-- The domain of a context: that of its partition (R199); 0 for a FREE context. -/
def State.ctxDom (s : State) (c : Nat) : Nat :=
  let x := s.ctx c
  if x.alloc then s.partDomain x.part else 0

/-- A protection-epoch fence is pending and changed domain `d` (R231). -/
def State.heldDom (s : State) (d : Nat) : Bool := s.on F.PROT_EPOCH_STATUS_PENDING && s.work.changed.contains d

/-- The first tile of a context that waits as `kind` says: 2 a counter, 3 the phase. -/
def State.waitTile (s : State) (c kind : Nat) : Option Nat :=
  (s.ctx c).tiles.find? (fun p => s.tileWait (s.partFrond (s.ctx c).part) p == kind)

/-- CTX_WAIT: the counter awaited and the threshold or angle (R201). -/
def State.ctxWait (s : State) (c : Nat) : Nat × Nat :=
  let f := s.partFrond (s.ctx c).part
  let w := s.headPeek c
  match s.ctxWaitKind c with
  | 1 => if itemKind w = 0x81 then (w.getD 2 0 % 2 ^ 17, w.getD 3 0 % 2 ^ 32) else (w.getD 1 0 % 2 ^ 17, 0)
  | 2 => (match s.waitTile c 2 with
    | none => (0, 0)
    | some p =>
      let v := if s.seqState f p = 2 then s.rd (tf F.TSEQ_WAIT_VALUE f p) else 1
      (tcIndex f (s.logicalOf f p) ((s.tileAwaits f p).headD 0), v))
  | 3 => (match (s.ctx c).wait, s.waitTile c 3 with
    | some _, _ => (0, w.getD 2 0 % 2 ^ 32)
    | none, some p => (0, (match (s.tile f p).pwait with | some a => a.1 | none => 0))
    | none, none => (0, 0))
  | _ => (0, 0)

/-- CTX_STATUS, CTX_WAIT and CTX_FAULT of a context as software reads them. -/
def State.ctxStatusWord (s : State) (c : Nat) : Word :=
  BitVec.ofNat 64 ((s.ctx c).gen * 2 ^ 56 + min 65535 (s.ctx c).outstanding.length * 2 ^ 32
    + s.ctxWaitKind c * 2 ^ 28 + s.ctxState c)

def State.ctxWaitWord (s : State) (c : Nat) : Word :=
  BitVec.ofNat 64 ((s.ctxWait c).2 * 2 ^ 32 + (s.ctxWait c).1)

/-- What an unlisted rail is. -/
def railInit : Nat → RailUnit := fun _ => RailUnit.init

/-- A rail beyond its registers. -/
def State.rail (s : State) (r : Nat) : RailUnit := Sparse.get railInit s.rails r

/-- A field of rail `r`'s page. -/
def rf (f : Field) (r : Nat) : Field := f.pg (railPage r)

/-- All rails. -/
def allRails : List Nat := List.range 12

/-- A chip reset is in progress (R461: recovery step 4). -/
def State.chipReset (s : State) : Bool := s.rd F.RST_STATUS_STEP == 4

/-- The dispatcher may take items of this context: allocated, not in FAULTED, STOPPED or RESET, an item in the ring, its
partition BUILT, SCHED_CTRL.EN = 1, no stop and no chip reset (R200-R202, R225, R325, R466). -/
def State.headLive (s : State) (c : Nat) : Bool :=
  let x := s.ctx c
  x.alloc && !x.resetting && !x.faulted && !x.stopped && x.count != 0 && s.partState x.part == 2
    && s.on (F.SCHED_CTRL_EN.pg (frondPg (s.partFrond x.part) 0x106)) && !s.frondFenced (s.partFrond x.part).idx
    && !s.on F.PWR_STATUS_STOPPING && !s.chipReset

/-- Contexts of a frond whose head LAUNCH waits for its tiles. -/
def State.launchWaiters (s : State) (f : Frond) : List Nat :=
  s.ctxIds.filter (fun c =>
    let x := s.ctx c
    s.headLive c && s.partFrond x.part == f && (match x.wait with | some w => w.kind == 6 | none => false))

/-- Of two waiting contexts the one with the higher priority, then the longer wait. -/
def reserveBetter (s : State) (best : Option Nat) (c : Nat) : Option Nat :=
  match best with
  | none => some c
  | some b =>
    let since : Nat → Nat := fun c => match (s.ctx c).wait with | some w => w.since | none => 0
    if (s.ctx b).prio < (s.ctx c).prio ∨ ((s.ctx b).prio = (s.ctx c).prio ∧ since c < since b) then some c else some b

/-- The context that holds the tile reservation of a frond (R207). -/
def State.reserveHolder (s : State) (f : Frond) : Option Nat := (s.launchWaiters f).foldl (reserveBetter s) none

/-- PHASE_STATUS.LOCK_STATE: 0 FREE, 1 ACQUIRE, 2 LOCKED, 3 HOLDOVER (R35). -/
def State.lock (s : State) : Nat := s.rd F.PHASE_STATUS_LOCK_STATE

/-- LOCKED or HOLDOVER. -/
def State.locked (s : State) : Bool := decide (2 ≤ s.lock)

/-- The phase angle of an accumulator value (R32). -/
def angleOf (acc : Nat) : Nat := acc / 2 ^ 32 % 2 ^ 32

/-- The phase angle now. -/
def State.angle (s : State) : Nat := angleOf s.phase.acc

/-- Word `i` of the active segments. -/
def State.segWord (s : State) (i : Nat) : Word := Sparse.get (fun _ => 0) s.phase.seg i

/-- Of two valid segments the one with the larger START, the higher index on a tie. -/
def segBetter (s : State) (best : Option Nat) (i : Nat) : Option Nat :=
  match best with
  | none => some i
  | some b => if F.PHASE_SEG_START.get (s.segWord b) ≤ F.PHASE_SEG_START.get (s.segWord i) then some i else some b

/-- The active segment at an angle, or none when no segment is valid (R50). -/
def State.segAt (s : State) (angle : Nat) : Option Nat :=
  let valid := (List.range 8).filter (fun i => F.PHASE_SEG_VALID.get (s.segWord i) == 1)
  match (valid.filter (fun i => decide (F.PHASE_SEG_START.get (s.segWord i) ≤ angle))).foldl (segBetter s) none with
  | some i => some i
  | none => valid.foldl (segBetter s) none

/-- The preferred operating point (R50). -/
def State.prefOp (s : State) : Nat :=
  match s.segAt s.angle with
  | some i => if s.locked then s.phase.opPref.getD (F.PHASE_SEG_PREF_OP.get (s.segWord i)) else s.rd F.PHASE_DEF_OP_OP
  | none => s.rd F.PHASE_DEF_OP_OP

/-- The field that holds bin `k`. -/
def binField (k : Nat) : Field :=
  (match k % 4 with
   | 0 => F.PROF_BIN_BIN0 | 1 => F.PROF_BIN_BIN1 | 2 => F.PROF_BIN_BIN2 | _ => F.PROF_BIN_BIN3).i (k / 4)

/-- The bin that an angle lies in. -/
def binOf (angle : Nat) : Nat := angle / 2 ^ 24 % 256

/-- PHASE_FF.PROF_OUT: the bin at phase + LEAD while PROF_VALID is 1, else 0 (R53). -/
def State.profOut (s : State) : Nat :=
  if s.on F.PHASE_STATUS_PROF_VALID then s.rd (binField (binOf ((s.angle + s.rd F.PHASE_FF_LEAD) % 2 ^ 32))) else 0

/-- RAIL_SYS_STATUS.DETAIL (R359). -/
def State.railDetail (s : State) : Bool :=
  (decide (5 ≤ s.rd F.SYS_BOOT_STEP) && decide (s.rd F.SYS_BOOT_STEP ≤ 11)) || s.chipReset
    || (match s.railSys.faultAt with | some t => decide (s.now ≤ t + 2500000000) | none => false)
    || allRails.any (fun r => (s.rail r).test.isSome) || bitOf s.phase.testOpen 1
    || s.rd F.RAIL_SYS_CTRL_TELEM == 1

/-- A field of phase `p` of rail `r`. -/
def phf (f : Field) (r p : Nat) : Field := (rf f r).i p

/-- ERR_STATUS, ERR_MASK, ERR_INJECT of a page as fields. -/
def errStatus (p : Nat) : Field := F.ERR_STATUS_ERR.pg p

/-- The bits of a page that hold its pin. -/
def State.pinBits (s : State) (p : Nat) : Nat :=
  (BitVec.ofNat 64 (s.rd (errStatus p)) &&& ~~~ BitVec.ofNat 64 (s.rd (F.ERR_MASK_MASK.pg p))).toNat

/-- Units of each kind that are fenced. -/
def State.fencedUnits (s : State) : Nat :=
  let fr := fun (g : Frond → Nat) => g .A + g .B
  let count := fun (n : Nat) (c : Nat → Bool) => ((List.range n).filter c).length
  fr (fun f => count 132 (fun p => s.tileState f p == 4))
    + fr (fun f => count 660 (fun k => s.rd ((tf F.ARR_STATUS_ARR_STATE f (k / 5)).i (k % 5)) == 2))
    + fr (fun f => count 44 (fun n => s.rd (ef F.ENG_STATUS_STATE f n) == 2))
    + fr (fun f => count 8 (fun n => s.rd (F.CORE_STATUS_STATE.pg (corePage f n)) == 4))
    + count 24 (fun p => s.portState p == 6)
    + fr (fun f => count 128 (fun c => s.pcBit F.HBMF_FENCE_PC f.idx c))
    + count 8 (fun k => s.rd (F.HBMC_STATUS_STATE.pg (hbmcPage k)) == 5)
    + (allRails.map (fun r => count 48 (fun p => s.on (phf F.RAIL_PH_FENCE r p)))).foldl (· + ·) 0
    + count 12 (fun p => !bitOf (s.rd F.BC_STATUS_PHASES_OK) p)
    + b2n (s.frondFenced 0) + b2n (s.frondFenced 1)

/-- One hour in ticks. -/
def hourTicks : Nat := 3600 * 250000000

/-- Chip resets that started within the last hour (R467). -/
def State.chipsHour (s : State) : List Nat := s.rst.chips.filter (fun t => decide (s.now ≤ t + hourTicks))

/-- MCOL_STATUS as software reads it: FENCED_UNITS and DEGRADED follow the units. -/
def State.mcolStatusWord (s : State) : Word :=
  let n := s.fencedUnits
  F.MCOL_STATUS_DEGRADED.put (F.MCOL_STATUS_FENCED_UNITS.put (s.reg F.MCOL_STATUS_FE.key) (min 65535 n)) (b2n (n != 0))

/-- FCOL_TILE_SRC, FCOL_ENG_SRC and FCOL_UNIT_SRC: the pages of a frond whose pins are asserted. -/
def State.fcolTileSrc (s : State) (f : Frond) : Word :=
  let l := (List.range 132).filter (fun p => s.pinBits (tilePage f p) != 0)
  BitVec.ofNat 64 (min 255 l.length * 2 ^ 56 + l.headD 0)

def State.fcolEngSrc (s : State) (f : Frond) : Word :=
  BitVec.ofNat 64 ((List.range 44).foldl (fun m n => if s.pinBits (engPage f n) != 0 then setBitN m n else m) 0)

def State.fcolUnitSrc (s : State) (f : Frond) : Word :=
  let cores := (List.range 8).foldl (fun m n => if s.pinBits (corePage f n) != 0 then setBitN m n else m) 0
  let ports := (List.range 12).foldl (fun m n => if s.pinBits (portPage (12 * f.idx + n)) != 0 then setBitN m n else m) 0
  BitVec.ofNat 64 (ports * 2 ^ 8 + cores)

/-- A calibration window is open for the frond (R87, R89). -/
def State.calOpen (s : State) (f : Frond) : Bool := bitOf s.phase.calOpen f.idx

/-- BLK_CAPS bit `b` of a page: 0 FENCEABLE, 1 RESETTABLE, 2 ENABLE_CTL (R544, R548). -/
def capOf (p b : Nat) : Bool := match pageInfo p with | some i => bitOf i.caps b | none => false

/-- The unit that a page names is fenced (R545). -/
def State.blkFenced (s : State) (p : Nat) : Bool :=
  match pageInfo p with
  | none => false
  | some i =>
    let f := Frond.at i.frond
    match i.kind with
    | .tile => s.tileState f i.inst == 4
    | .eng => s.rd (F.ENG_STATUS_STATE.pg p) == 2
    | .core => s.rd (F.CORE_STATUS_STATE.pg p) == 4
    | .lport => s.portState i.inst == 6
    | .hbmc => s.rd (F.HBMC_STATUS_STATE.pg p) == 5 || s.rd (F.HBMC_STATUS_FENCED.pg p) == 2 ^ 32 - 1
    | .fcol => s.frondFenced i.frond
    | _ => false

/-- The cells and the units of the configured pack (R384). -/
def State.cells (s : State) : Nat := min 112 (s.rd F.PACK_CFG_CELLS)

/-- A bit of a pair of 64-bit registers. -/
def State.bit128 (s : State) (f : Field) (c : Nat) : Bool := bitOf (s.rd (f.i (c / 64))) (c % 64)

/-- A confirmed open line 1-15 bounds the cell: it is half of a pair (R405). -/
def State.cellPaired (s : State) (c : Nat) : Bool :=
  let line (k : Nat) : Bool := decide (1 ≤ k) && decide (k ≤ 15) && s.bit128 F.OW_LINES_LINES (17 * (c / 16) + k)
  line (c % 16) || line (c % 16 + 1)

/-- The cell is unmonitored (R405). -/
def State.cellUnmon (s : State) (c : Nat) : Bool := s.bit128 F.CELL_UNMON_CELLS c

/-- The capacity factor times 10^10: max(0.70, 1 - k × N_efc) (R428). -/
def State.capFactor (s : State) : Nat := max 7000000000 (10 ^ 10 - s.rd F.EST_CAP_K_E8 * s.rd F.EST_CAP_N_EFC)

/-- The effective capacity in pC. -/
def State.cEff (s : State) : Nat := s.rd F.PACK_CFG_CAP_MAH * 360 * s.capFactor

/-- What an unlisted cell holds. -/
def cellInit : Nat → CellEst := fun _ => CellEst.init

/-- A cell of the estimator. -/
def State.cellEst (s : State) (c : Nat) : CellEst := Sparse.get cellInit s.est.cells c

/-- A cell's SOC as a fraction times 10^6, within 0 to 1 (R419); with a capacity
of 0 the quotient is open. -/
def State.soc6 (s : State) (c : Nat) : Nat :=
  let ce := s.cEff
  if ce = 0 then min 1000000 (Config.noCapacity (s.cellEst c).q) else (clampInt 0 1000000 ((s.cellEst c).q * 1000000 / ce)).toNat

/-- A fraction times 10^6 in 0.01 %, rounded to nearest. -/
def pct6 (x : Nat) : Nat := (x + 50) / 100

/-- A fraction times 10^12 in 0.01 %, rounded to nearest. -/
def pct12 (x : Nat) : Nat := (x + 50000000) / 100000000

/-- Word `i` of the configuration buffer. -/
def State.cfgBuf (s : State) (i : Nat) : Word := Sparse.get (fun _ => 0) s.cfg.buf i

/-- The dump that DUMP_SEL names: the SRAM copy in slot 0, a flash slot else. -/
def State.dumpSel (s : State) : Option Dump :=
  if s.rd F.DUMP_SEL_SLOT = 0 then s.dump.sram else Sparse.get (fun _ => none) s.dump.slots (s.rd F.DUMP_SEL_SLOT)

/-- The word of the selected dump at OFFSET; 0 where the dump holds none. -/
def State.dumpWord (s : State) : Word :=
  match s.dumpSel with
  | some d => d.words.getD (s.rd F.DUMP_SEL_OFFSET) 0
  | none => 0

/-- The bridge has failed (R144). (DESIGN CHOICE, log 27; DESIGN CHOICE, log 28) -/
def State.bridgeDown (s : State) : Bool :=
  s.rd (hf F.BRIDGE_STATUS_STATE 0) == 2 || s.rd (hf F.BRIDGE_STATUS_STATE 1) == 2

/-- An access from frond `frm` to frond `f` needs no bridge, or has one (R144). (DESIGN CHOICE, log 28) -/
def State.bridged (s : State) (frm : Option Nat) (f : Nat) : Bool := !s.bridgeDown || frm.getD f == f

/-- The contexts whose partition lies on a frond. -/
def State.frondCtxs (s : State) (f : Frond) : List Nat := s.ctxIds.filter (fun c => s.partFrond (s.ctx c).part == f)

/-- The gain and the offset of a column under calibration `k` of its array (R73, R82), by range × 128 + column; those of
Reset before the first. A calibration passes only with a gain of 0.75 to 1.25 and an offset within ±64 LSB (R102).
(DESIGN CHOICE, log 23) -/
def colGain (k i : Nat) : Nat := if k = 0 then 0x8000 else 0x6000 + Config.arrayGain k i % 0x4001

/-- (DESIGN CHOICE, log 23) -/
def colOffset (k i : Nat) : Int := if k = 0 then 0 else Config.arrayOffset k i % 2049 - 1024

end Sys2Proof.Machine
end

