-- ==== Sys2Proof/Machine/Views.lean ====
section
/-! DEFINITION. What a read of a register returns (R534, R535): the stored word, with the fields that a unit computes put
in. Registers held per requester, and those that a selector of the requester points, take the requester; a read by no
requester (a snapshot of R499) sees them as selector 0. -/

namespace Sys2Proof.Machine

/-- A field held per requester, as a reader sees it. -/
def State.selOf (s : State) (r : Option Req) (k : Nat) : Nat :=
  match r with
  | some r => s.sel r k
  | none => 0

/-- A number as a word. -/
def nw (n : Nat) : Word := BitVec.ofNat 64 n

/-- Whole seconds from one instant of PHASE_TIME to now. -/
def State.ageS (s : State) (t : Nat) : Nat := (s.now - t) / 250000000

/-! ### The header (R544, R545) -/

/-- The reset that RESET_REQ starts runs: the tile's partition in RESET, the engine in reset, the port in retrain. -/
def State.blkResets (s : State) (p : Nat) : Bool :=
  match pageInfo p with
  | none => false
  | some i =>
    let f := Frond.at i.frond
    match i.kind with
    | .tile => (match s.partOfTile f (s.logicalOf f i.inst) with | some q => s.partState q == 4 | none => false)
    | .eng => s.rd (F.ENG_STATUS_STATE.pg p) == 3
    | .lport => s.portState i.inst == 4
    | _ => false

/-- BLK_STATUS.STATE: FENCED, RESET, INIT or OFF as the unit's own state says, READY otherwise. (DESIGN CHOICE, log 69) -/
def State.blkState (s : State) (p : Nat) : Nat :=
  match pageInfo p with
  | none => 0
  | some i =>
    if s.blkFenced p then 4
    else if s.blkResets p && i.kind != .lport then 3
    else
      match i.kind with
      | .tile => if s.tileState (Frond.at i.frond) i.inst = 1 then 1 else if s.tileState (Frond.at i.frond) i.inst = 0 then 0 else 2
      | .core => if s.rd (F.CORE_STATUS_STATE.pg p) = 0 then 3 else 2
      | .lport =>
        let st := s.portState i.inst
        if st = 0 ∨ st = 7 then 0 else if st = 1 ∨ st = 4 then 1 else 2
      | .hbmc =>
        let st := s.rd (F.HBMC_STATUS_STATE.pg p)
        if st = 0 then 0 else if st = 1 ∨ st = 2 then 1 else 2
      | _ => if s.boot.up then 2 else 0

/-- BLK_STATUS.BUSY: a tile not IDLE, an engine with a descriptor, a core that runs or is halted outside WFI, a port
training. (DESIGN CHOICE, log 69) -/
def State.blkBusy (s : State) (p : Nat) : Bool :=
  match pageInfo p with
  | none => false
  | some i =>
    let f := Frond.at i.frond
    match i.kind with
    | .tile => s.seqState f i.inst != 0
    | .eng => (s.eng f i.inst).running.isSome || (s.eng f i.inst).queue != []
    | .core => s.rd (F.CORE_STATUS_STATE.pg p) == 1 || s.rd (F.CORE_STATUS_STATE.pg p) == 3
    | .lport => s.portState i.inst == 1 || s.portState i.inst == 4
    | _ => false

/-- The registers of the header whose words a unit computes. -/
def State.headerView (s : State) (p off : Nat) (w : Word) : Word :=
  if off = 0x010 then
    F.BLK_CTRL_FENCE.put (F.BLK_CTRL_RESET_REQ.put w (b2n (s.blkResets p))) (b2n (s.blkFenced p))
  else if off = 0x018 then
    let gen := if (pageInfo p).any (fun i => i.kind == .eng) then s.rd (F.ENG_STATUS_GEN.pg p) else 0
    F.BLK_STATUS_STATE.put (F.BLK_STATUS_BUSY.put (F.BLK_STATUS_LOCKED.put (F.BLK_STATUS_GEN.put 0 gen)
      (s.rd (F.BLK_CTRL_CFG_LOCK.pg p))) (b2n (s.blkBusy p))) (s.blkState p)
  else w

/-! ### Phase, tiles, HBM -/

/-- PHASE page (R61). -/
def State.phaseView (s : State) (off : Nat) (w : Word) : Word :=
  if off = 0x108 then
    F.PHASE_STATUS_PREF_OP.put (F.PHASE_STATUS_ACTIVE_SEG.put w ((s.segAt s.angle).getD 15)) s.prefOp
  else if off = 0x110 then nw (s.phase.step % 2 ^ 32 * 2 ^ 32 + s.angle)
  else if off = 0x170 then F.PHASE_FF_PROF_OUT.put w s.profOut
  else if off = 0x1C0 then nw s.now
  else w

/-- The counter that the head of queue `k` waits on under WT (R107). -/
def State.wtHead (s : State) (f : Frond) (p k : Nat) : Option Nat :=
  match Sparse.get (fun _ => []) (s.tile f p).queues k with
  | [] => none
  | q :: _ =>
    let c := q.word / 2 ^ 12 % 16
    if bitOf q.word 6 && !reached (s.rd (tcnt f p c)) 1 then some c else none

/-- TILE pages (R102, R133): CAL_AGE, STALE by age, the coefficients that CORR_ADDR names, and in TSEQ_WAIT the first queue
head that waits under WT while issue itself does not wait. (DESIGN CHOICE, log 18) -/
def State.tileView (s : State) (f : Frond) (p off : Nat) (w : Word) : Word :=
  let u := s.tile f p
  if 0x120 ≤ off ∧ off < 0x148 then
    let since := Sparse.get (fun _ => 0) u.calAt ((off - 0x120) / 8)
    let w := F.ARR_STATUS_CAL_AGE.put w (min 65535 (s.ageS since))
    if 600 * 250000000 < s.now - since then F.ARR_STATUS_STALE.put w 1 else w
  else if off = 0x178 then
    let k := Sparse.get (fun _ => 0) u.calNo (s.rd (tf F.CORR_ADDR_ARRAY f p))
    let i := s.rd (tf F.CORR_ADDR_RANGE f p) * 128 + s.rd (tf F.CORR_ADDR_COLUMN f p)
    F.CORR_DATA_OFFSET.put (F.CORR_DATA_GAIN.put 0 (colGain k i)) (intBits 12 (colOffset k i))
  else if off = 0x208 ∧ s.seqState f p ≠ 2 ∧ s.seqState f p ≠ 3 then
    match (List.range 9).findSome? (s.wtHead f p) with
    | none => w
    | some c => F.TSEQ_WAIT_BY_WT.put (F.TSEQ_WAIT_COUNTER.put (F.TSEQ_WAIT_VALUE.put 0 1) c) 1
  else w

/-- HBMF pages (R166): the retirement entry that RET_INDEX names. -/
def State.hbmfView (s : State) (f off : Nat) (w : Word) : Word :=
  if off = 0x138 then
    match (s.hbmF f).table[s.rd ((F.HBMF_RET_INDEX_INDEX).pg (frondPg (Frond.at f) 0x104))]? with
    | none => 0
    | some e => F.HBMF_RET_DATA_TARGET.put (F.HBMF_RET_DATA_PAGE.put (F.HBMF_RET_DATA_SRC.put
        (F.HBMF_RET_DATA_VALID.put 0 1) e.src) e.page) e.target
  else w

/-! ### Contexts, domains, partitions (R235) -/

/-- CTXT page. -/
def State.ctxView (s : State) (r : Option Req) (off : Nat) (w : Word) : Word :=
  let c := s.selOf r F.CTX_SEL_ID.key % 65536
  let x := s.ctx c
  if off = 0x100 then nw c
  else if off = 0x108 then F.CTX_CFG_PART.put (F.CTX_CFG_PRIO.put (F.CTX_CFG_WEIGHT.put 0 x.weight) x.prio) x.part
  else if off = 0x110 then nw (x.ringBase / 4096 * 4096 + x.ringLog)
  else if off = 0x118 then nw (x.tail * 2 ^ 32 + x.head)
  else if off = 0x120 then
    s.ctxStatusWord c
  else if off = 0x128 then s.ctxWaitWord c
  else if off = 0x130 then x.fault
  else if off = 0x138 then nw (x.energy / 1000000)
  else if 0x148 ≤ off ∧ off < 0x188 then nw (Sparse.get (fun _ => 0) x.prods ((off - 0x148) / 8))
  else w

/-- Tiles of a frond whose SIGNAL op waits at its check (R122, R231). -/
def State.tileSigHeld (s : State) (f : Frond) (p : Nat) : Bool :=
  let w := s.bytesAt (0xC0000000000 + f.idx * 0x100000000 + p * 0x1000000 + s.rd (tf F.TSEQ_STATUS_PC f p)) 4
  s.seqState f p == 1 && s.heldDom (s.ctxDom (s.rd (tf F.TSEQ_STATUS_CTX f p))) && w / 2 ^ 21 % 8 == 4 && w / 2 ^ 16 % 32 == 10

/-- The accesses of a context that wait at their check: of its head item, and of completed LAUNCHes. -/
def State.ctxHeld (s : State) (c : Nat) : Nat :=
  let k := itemKind (s.headPeek c)
  b2n (s.headLive c && (k == 0x80 || k == 0x81 || k == 0x82))
    + ((s.ctx c).outstanding.filter (fun o => itemKind o.words == 0x80 && o.tiles == [])).length

/-- PROT_EPOCH_STATUS.HELD: the accesses of changed domains that wait at their check while a fence is pending (R231): those
that came from outside or in a RELAY, a running descriptor's next one, and those of tiles and items.
(DESIGN CHOICE, log 36) -/
def State.heldNow (s : State) : Nat :=
  if !s.on F.PROT_EPOCH_STATUS_PENDING then 0
  else
    let fs := [Frond.A, Frond.B]
    let engs := fs.map (fun f => ((List.range 44).filter (fun n => match (s.eng f n).running with
      | some d => s.heldDom (s.ctxDom d.ctx)
      | none => false)).length)
    let tiles := fs.map (fun f => ((List.range 132).filter (fun p => s.tileSigHeld f p)).length)
    let ctxs := (s.ctxIds.filter (fun c => s.heldDom (s.ctxDom c))).map (fun c => s.ctxHeld c)
    min 65535 (s.work.held.length + s.work.heldRelays.length + (engs ++ tiles ++ ctxs).foldl (· + ·) 0)

/-- A domain's selected settings, and a window's words in it. -/
def State.domView (s : State) (r : Option Req) (off : Nat) (w : Word) : Word :=
  let sel := s.selOf r F.DOM_SEL_DOMAIN.key
  let d := s.dom (sel % 4096)
  let set := if bitOf sel 16 then d.active else d.staged
  let win := sel / 4096 % 16
  if off = 0x100 then nw (sel % 2 ^ 17)
  else if off = 0x108 then Sparse.get (fun _ => 0) set.base win
  else if off = 0x110 then Sparse.get (fun _ => 0) set.size win
  else if off = 0x118 then nw (b2n (d.staged != d.active) * 2 + b2n set.enable)
  else if off = 0x120 then nw (d.energy / 1000000)
  else if off = 0x128 then nw (s.rd F.PROT_EPOCH_STATUS_PENDING)
  else if off = 0x130 then F.PROT_EPOCH_STATUS_HELD.put w s.heldNow
  else w

/-- SCHED_STATUS. -/
def State.schedWord (s : State) (f : Frond) : Word :=
  let l := s.frondCtxs f
  let ready := (List.range 8).foldl (fun m k =>
    if l.any (fun c => s.ctxState c == 2 && (s.ctx c).prio == k) then setBitN m k else m) 0
  nw (min 65535 (l.filter (fun c => 1 < s.ctxState c)).length * 2 ^ 48 + (s.reserveHolder f).getD 0 * 2 ^ 32 + ready)

/-! ### Host, loops, rest, interrupts, recorder -/

/-- BRYN page (R298). -/
def State.brynView (s : State) (r : Option Req) (off : Nat) (w : Word) : Word :=
  let n := s.selOf r F.HSESS_SEL_SLOT.key % 64
  let x := s.sess n
  let shake := match s.host.shake with | some k => k.slot == n | none => false
  if off = 0x108 then
    nw (b2n s.host.shake.isSome * 2 ^ 32 + s.tagsOut * 2 ^ 16 + (s.sessions.filter (fun e => e.2.open_)).length)
  else if off = 0x118 then nw n
  else if off = 0x120 then
    if shake then
      match s.host.shake with
      | some k => nw ((k.gen * 256 + n) % 65536 * 2 ^ 48 + k.level.num * 2 ^ 46 + k.domain * 2 ^ 34 + k.key * 2 ^ 30 + 1)
      | none => 0
    else nw ((if x.open_ ∨ x.state ≠ 0 then x.gen * 256 + n else 0) % 65536 * 2 ^ 48 + x.level.num * 2 ^ 46 +
      x.domain * 2 ^ 34 + x.key * 2 ^ 30 + x.state)
  else if off = 0x128 then nw (b2n x.udp * 2 ^ 48 + x.mac % 2 ^ 48)
  else if off = 0x130 then nw (x.rxAck % 2 ^ 32 * 2 ^ 32 + x.txSeq % 2 ^ 32)
  else if off = 0x138 then nw (x.evMinSev * 2 ^ 16 + x.evRanges)
  else w

/-- What an unlisted slot is. -/
def slotInit : Nat → LoopSlot := fun _ => LoopSlot.init

/-- A loop slot beyond its registers. -/
def State.slot (s : State) (i : Nat) : LoopSlot := Sparse.get slotInit s.power.slots i

/-- The set point in use of a slot, Q4.28 (R330, R332): registers for LS2-LS8, the held cascade for LS0, LS1 and an
enabled LS_CASC, LS_SP.SP otherwise. -/
def State.lsSp (s : State) (i : Nat) : Int :=
  if i ≤ 1 then (s.slot i).sp
  else if i = 2 then rneDiv ((s.rd F.PWR_IB_SP_MV : Int) * q28) 64000
  else if i = 3 then satBits 32 (rneDiv (s.power.pset * q28) 32000000)
  else if i = 4 then rneDiv ((s.rd F.PWR_SOC_TARGET : Int) * q28) 100
  else if i ≤ 6 then rneDiv ((s.rd F.CAP_THERM_FROND_SP_C : Int) * q28) 128
  else if i ≤ 8 then rneDiv ((s.rd F.CAP_THERM_HBM_SP_C : Int) * q28) 128
  else if s.on (F.LS_CASC_EN.i i) then (s.slot i).sp
  else s.rdS (F.LS_SP_SP.i i)

/-- LOOP page (R334): LS_SP.SP reads the set point in use of a cascaded slot, and of one that registers give it (R330,
R332). -/
def State.loopView (s : State) (off : Nat) (w : Word) : Word :=
  if off = 0x100 then
    F.LOOP_STATUS_SAT.put w ((List.range 16).foldl (fun m i =>
      if s.on (F.LS_STATE_SAT_OUT.i i) || s.on (F.LS_STATE_SAT_INT.i i) || s.on (F.LS_STATE_SAT_ACC.i i) then setBitN m i
      else m) 0)
  else if off = 0x108 then nw (s.now / 250)
  else
    let i := (off - 0x200) / 64
    if 0x200 ≤ off ∧ off % 64 = 0x30 ∧ i < 16 ∧ (i ≤ 8 ∨ s.on (F.LS_CASC_EN.i i)) then
      F.LS_SP_SP.put w (intBits 32 (s.lsSp i))
    else w

/-- EST page (R442). -/
def State.estView (s : State) (r : Option Req) (off : Nat) (w : Word) : Word :=
  let c := s.selOf r F.EST_CELL_SEL_CELL.key % 128
  if off = 0x150 then
    F.EST_REST_LAST_AGE_S.put w (min (2 ^ 32 - 1) (s.ageS (s.est.lastRest.getD 0)))
  else if off = 0x160 then nw c
  else if off = 0x168 then
    let x := s.cellEst c
    if s.est.cells.any (fun e => e.1 == c) then
      nw (pct6 (s.soc6 c) * 2 ^ 48 + min 65535 (pct12 x.u) * 2 ^ 32 + pct6 x.ocv * 2 ^ 16 + b2n x.conf * 2 +
        b2n (s.cellPaired c || s.cellUnmon c))
    else nw (b2n (s.cellPaired c || s.cellUnmon c))
  else w

/-- An interrupt controller's page (R492). -/
def State.ficView (s : State) (c : Ctl) (off : Nat) (w : Word) : Word :=
  let t := (off - 0x200) / 32
  if 0x200 ≤ off ∧ off < 0x300 ∧ off % 32 = 8 then
    match s.irqStack c t with
    | [] => nw 0x3FF
    | (id, prio) :: l => nw (prio * 2 ^ 27 + (l.length + 1) * 2 ^ 16 + id)
  else if 0x200 ≤ off ∧ off < 0x300 ∧ off % 32 = 24 then
    match s.irqPresented c t with
    | none => nw 0x3FF
    | some id => nw (s.rd (srcField c F.SRC_PRIO id) * 2 ^ 10 + id)
  else if 0x480 ≤ off ∧ off < 0x500 then s.reg ((ctlPage c) * 4096 + off - 0x80)
  else w

/-- A source register's PENDING and ACTIVE. -/
def State.srcView (s : State) (c : Ctl) (src : Nat) (w : Word) : Word :=
  F.SRC_PENDING.put (F.SRC_ACTIVE.put w (b2n (s.irqActive c src))) (b2n (s.irqPending c src))

/-- REC page (R502, R506). -/
def State.recView (s : State) (r : Option Req) (off : Nat) (w : Word) : Word :=
  if off = 0x108 then
    F.REC_STATUS_FREEZE_MS.put w
      (if s.on F.REC_CTRL_FREEZE then min 65535 ((s.now - s.recorder.frozenAt) / 250000) else 0)
  else if off = 0x128 then nw (s.selOf r F.REC_RD_SEL_INDEX.key)
  else if off = 0x130 then nw (s.selOf r F.REC_RD_STATUS_BUSY.key)
  else if 0x138 ≤ off ∧ off < 0x158 then nw (s.selOf r (0x88 * 4096 + off))
  else w

/-! ### A whole register -/

/-- The word that a read of a register returns; an offset that holds no register reads 0 (R538). -/
def State.view (s : State) (r : Option Req) (key : Nat) : Word :=
  let p := key / 4096
  let off := key % 4096
  let w := s.reg key
  match pageInfo p with
  | none => 0
  | some i =>
    if off < 0x100 then s.headerView p off w
    else
      let f := Frond.at i.frond
      match i.kind with
      | .phase => s.phaseView off w
      | .tile => s.tileView f i.inst off w
      | .acal => if off = 0x118 then F.ACAL_STATUS_WINDOW_OPEN.put w (b2n (s.calOpen f)) else w
      | .hbmf => s.hbmfView i.frond off w
      | .hbmc => if off = 0x110 then F.HBMC_REF_STATUS_WINDOW_OPEN.put w (b2n (bitOf s.phase.refreshOpen i.inst)) else w
      | .ctxt => s.ctxView r off w
      | .dom => s.domView r off w
      | .part =>
        if 0x100 ≤ off ∧ off < 0x900 ∧ off % 32 = 16 then
          F.PART_STATUS_CTX_BOUND.put w (min 65535 (s.partCtxs ((off - 0x100) / 32)).length)
        else w
      | .sched => if off = 0x108 then s.schedWord f else w
      | .bryn => s.brynView r off w
      | .loop => s.loopView off w
      | .railSys => if off = 0x108 then F.RAIL_SYS_STATUS_DETAIL.put w (b2n s.railDetail) else w
      | .est => s.estView r off w
      | .rst => if off = 0x110 then F.RST_STATUS_CHIPS_HOUR.put w (min 255 s.chipsHour.length) else w
      | .mcol => if off = 0x110 then s.mcolStatusWord else w
      | .fcol =>
        if off = 0x110 then s.fcolTileSrc f else if off = 0x118 then s.fcolEngSrc f
        else if off = 0x120 then s.fcolUnitSrc f else w
      | .fic => s.ficView (.fic f) off w
      | .pic => s.ficView .pic off w
      | .ring => if 0x118 ≤ off ∧ off < 0x138 then 0 else w
      | .linkm => if 0x128 ≤ off ∧ off < 0x148 then 0 else w
      | .ficSrc => if 0x900 ≤ off then w else s.srcView (.fic f) ((i.idx - 1) * 256 + (off - 0x100) / 8 % 256) w
      | .picSrc => if 0x900 ≤ off then w else s.srcView .pic ((off - 0x100) / 8 % 256) w
      | .recd => s.recView r off w
      | .dump => if off = 0x118 then s.dumpWord else w
      | .cfg => if off = 0x118 then s.cfgBuf (s.rd F.CFG_PTR_WORD) else w
      | _ => w

end Sys2Proof.Machine
end

