-- ==== Sys2Proof/Machine/Ops.lean ====
section
/-! DEFINITION. The named operations over the event recorder, the sessions that it sends to, the error latches and the
access checks. -/

namespace Sys2Proof.Machine

/-! ### Event recorder (R493-R501) -/

/-- The recording block's SOURCE (R493): its MFS bit, or 0x40 or 0x80 plus its FFS bit. -/
def sourceOf (p : Nat) : Nat :=
  match pageInfo p with
  | none => 2
  | some i =>
    let base := if i.frond = 0 then 0x40 else 0x80
    match i.kind with
    | .tile => base | .tmap => base + 1 | .store => base + 2 | .hbmf => base + 3
    | .hbmc => base + 4 + i.inst % 4 | .ring => base + 8 | .eng => base + 9 | .core => base + 10
    | .linkf => base + 11 | .lport => base + 12 | .fic => base + 13 | .ficSrc => base + 13 | .fcol => base + 14
    | .acal => base | .sched => base
    | .sys => 2 | .fuse => 2 | .cfg => 2 | .fw => 2
    | .ctxt => 3 | .dom => 3 | .part => 3 | .subp => 3
    | .linkm => 4 | .coll => 5 | .pwr => 6 | .fc => 7 | .bc => 8 | .gr => 9 | .loop => 10
    | .railSys => 11 | .rail => 11 | .cap => 12 | .opt => 13 | .attr => 14 | .chain => 15
    | .pack => 16 | .cell => 16 | .est => 17 | .estOcv => 17
    | .phase => 18 | .phaseEvt => 18 | .phaseProf => 18 | .hostp => 19 | .bryn => 20
    | .pic => 21 | .picSrc => 21 | .recd => 22 | .recSnap => 22 | .recClr => 22
    | .hang => 23 | .rst => 24 | .dump => 25 | .mcol => 26

/-- The codes that their chapter pairs with an ERR_STATUS bit, with the bit's class (R494). -/
def pairedCodes : List (Nat × ErrClass) :=
  [(0x1002, .CE), (0x1005, .CE), (0x1012, .UC), (0x1040, .CE), (0x1050, .CE), (0x1051, .CE), (0x1052, .UC),
   (0x1053, .CE), (0x1061, .CE), (0x2010, .CE), (0x2011, .CE), (0x2020, .FE), (0x2021, .FE), (0x2024, .UC),
   (0x2030, .UC), (0x3010, .CE), (0x3011, .UC), (0x3020, .CE), (0x3021, .UC), (0x3031, .UC), (0x3051, .CE)] ++
  [(0x4003, .CE), (0x4012, .CE), (0x4030, .CE), (0x4040, .CE), (0x6001, .CE), (0x6002, .DE), (0x6004, .CE),
   (0x6005, .UC), (0x6010, .CE), (0x6011, .DE), (0x0010, .CE), (0x0020, .CE), (0x0033, .CE), (0x0041, .CE),
   (0x9020, .UC), (0x9021, .CE), (0xF021, .CE)]

/-- The CLASS field of a code: 0 INFO, else the class of its bit plus 1 (R493, R494). -/
def codeClass (code : Nat) : Nat :=
  match assoc pairedCodes code with
  | some c => c.num + 1
  | none => 0

/-- Severity of a CLASS field and code (R494). -/
def severity (cls code : Nat) : Nat :=
  if cls = 0 then
    if code = 0x1001 ∨ code = 0x1010 ∨ (0x9030 ≤ code ∧ code ≤ 0x9035) ∨ code = 0xA002 ∨ code = 0xA003 ∨
      code = 0xF010 then 5 else 1
  else 3 * cls

/-- The time mode of records: TMODE_SEL, and under AUTO TAI while PTP is LOCKED or HOLDOVER (R495). -/
def State.timeMode (s : State) : Nat :=
  let sel := s.rd F.REC_CTRL_TMODE_SEL
  if sel = 1 then 0 else if sel = 2 then 1
  else if s.rd F.PTP_STATUS_STATE = 3 ∨ s.rd F.PTP_STATUS_STATE = 4 then 1 else 0

/-- W1 of a record made now (R493, R495). -/
def State.timeWord (s : State) : Word :=
  if s.timeMode = 1 then BitVec.ofNat 64 (2 ^ 63 + s.rd F.PTP_TIME_TAI_NS % 2 ^ 63)
  else BitVec.ofNat 64 (s.rd F.SYS_UPTIME_POWER_CYCLES % 2 ^ 31 * 2 ^ 32 + s.rd F.SYS_UPTIME_OP_SECONDS)

/-- Bit 31 of W0: continuation records follow (R493). -/
def Rec.sev (r : Rec) : Nat := r.w0.toNat / 2 ^ 19 % 16

/-- The event code of a record. -/
def Rec.code (r : Rec) : Nat := r.w0.toNat % 2 ^ 16

/-- REC_NEW pulses the FIC and PIC sources for a primary record at or above IRQ_SEV (R500, R482). -/
def State.recNew (s : State) (r : Rec) : State :=
  if r.primary && decide (s.rd F.REC_CTRL_IRQ_SEV ≤ r.sev) then
    ((s.irqPulse (.fic .A) 25).irqPulse (.fic .B) 25).irqPulse .pic 45
  else s

/-! ### Sending to hosts (R276, R285, R288, R295) -/

/-- The configured IPv6 address. -/
def State.ip6 (s : State) : Nat := s.rd F.HOSTP_IP6_HI_ADDR * 2 ^ 64 + s.rd F.HOSTP_IP6_LO_ADDR

/-- The sum of big-endian 16-bit words. -/
def sum16 : List Nat → Nat
  | a :: b :: t => a * 256 + b + sum16 t
  | [a] => a * 256
  | [] => 0

/-- The Internet checksum of bytes. (PRESUMED, log 13) -/
def inetSum (l : List Nat) : Nat :=
  let fold := fun n => n / 65536 + n % 65536
  65535 - fold (fold (sum16 l))

/-- UDP over IPv6 from the module to a host, both ports PORT, with its checksum (R278). (PRESUMED, log 13) -/
def State.udpBytes (s : State) (ip : Nat) (l : List Nat) : List Nat :=
  let port := beBytes 2 (s.rd F.HOSTP_UDP_PORT)
  let n := 8 + l.length
  let ends := beBytes 16 s.ip6 ++ beBytes 16 ip
  let sum := inetSum (ends ++ beBytes 4 n ++ beBytes 4 17 ++ port ++ port ++ beBytes 2 n ++ [0, 0] ++ l)
  beBytes 4 (6 * 2 ^ 28 + Config.ip6Open 0 % 2 ^ 28) ++ beBytes 2 n ++ [17, Config.ip6Open 1 % 256] ++ ends ++
    port ++ port ++ beBytes 2 n ++ beBytes 2 (if sum = 0 then 65535 else sum) ++ l

/-- The 802.1Q tag of a frame that goes out on a priority, when VLAN_EN is set (R274). -/
def State.vlanTag (s : State) (prio : Nat) : Option Nat :=
  if s.on F.HOSTP_CFG_VLAN_EN then some (prio % 8 * 2 ^ 13 + s.rd F.HOSTP_CFG_VID) else none

/-- The Ethernet frame around a Brynir frame: addresses, the tag, the EtherType, and over UDP its headers (R278). -/
def State.ethBytes (s : State) (prio mac : Nat) (udp : Bool) (ip : Nat) (wire : List Nat) : List Nat :=
  let tag := match s.vlanTag prio with
    | none => []
    | some v => beBytes 2 0x8100 ++ beBytes 2 v
  beBytes 6 mac ++ beBytes 6 (s.rd F.HOSTP_MAC_MAC) ++ tag ++
    (if udp then beBytes 2 0x86DD ++ s.udpBytes ip wire else beBytes 2 (s.rd F.HOSTP_CFG_ETHERTYPE) ++ wire)

/-- A message is put out, a Brynir frame with its bytes. -/
def State.hostPut (s : State) (prio : Nat) (m : HostMsg) : State :=
  let s := s.put (.host (s.vlanTag prio) m)
  match m with
  | .frame mac udp ip _ _ wire => s.put (.eth (s.ethBytes prio mac udp ip wire))
  | _ => s

/-- The peer has paused a priority, and its bit in RX_EN lets the pause count (R276). -/
def State.pausedNow (s : State) (prio : Nat) : Bool := bitOf s.host.paused prio && bitOf (s.rd F.HOSTP_PFC_RX_EN) prio

/-- A message leaves the host port on a priority; while the link is down or the priority is paused it waits. -/
def State.hostOut (s : State) (prio : Nat) (m : HostMsg) : State :=
  if s.rd F.HOSTP_STATUS_STATE = 2 ∧ s.pausedNow prio = false then (s.hostPut prio m).inc F.HOSTP_TX_FRAMES_COUNT
  else { s with host := { s.host with txq := s.host.txq ++ [(prio, m)] } }

/-- The priority of a frame type (R276). -/
def State.brynPrio (s : State) (typ : Nat) : Nat :=
  if 7 ≤ typ ∧ typ ≤ 9 then s.rd F.HOSTP_CFG_PCP_DATA else s.rd F.HOSTP_CFG_PCP_CTRL

/-- Each open session's part of the pool of requests. (DESIGN CHOICE, log 45) -/
def State.creditShare (s : State) : Nat := 8192 / max 1 (s.rd F.BRYN_CTRL_MAX_SESS)

/-- How many more request records a session may send: its own part, and what the other open sessions' parts leave (R288).
(DESIGN CHOICE, log 45) -/
def State.credit (s : State) (n : Nat) : Nat :=
  let share := s.creditShare
  let kept := ((s.sessions.filter (fun e => e.1 != n && e.2.open_)).map (fun e => share - e.2.live)).foldl (· + ·) 0
  max (share - (s.sess n).live) (8192 - s.tagsOut - kept)

/-- SACK: the frames received beyond the next one expected. -/
def Session.sack (x : Session) : Nat :=
  (List.range 32).foldl (fun m i => if (x.rxHeld.any (fun e => e.1 == x.rxAck + 1 + i)) then setBitN m i else m) 0

/-- The 32 bytes of a header with PLEN (R279). -/
def BHead.bytes (h : BHead) (plen : Nat) : List Nat :=
  [h.session * 2 ^ 48 + h.typ * 2 ^ 40 + h.sub * 2 ^ 32 + 1 * 2 ^ 28 + b2n h.retx * 2 ^ 25 + b2n h.unseq * 2 ^ 24
      + plen % 2 ^ 14,
    h.ack % 2 ^ 32 * 2 ^ 32 + h.seq % 2 ^ 32, h.sack * 2 ^ 32 + h.credit * 2 ^ 16, h.txc].flatMap (leBytes 8)

/-- The key and the IV of a direction, 0 from the host and 1 to it, from a session's 72 bytes (R282, R284). -/
def brynKey (keys : List Nat) (dir : Nat) : List (List Nat) := aesKeys ((keys.drop (32 * dir)).take 32)

def brynIv (keys : List Nat) (dir txc : Nat) : List Nat := (keys.drop (64 + 4 * dir)).take 4 ++ leBytes 8 txc

/-- A frame's bytes: header, the payload under AES-256-GCM, and its tag (R278, R284). -/
def brynSeal (keys : List Nat) (dir : Nat) (h : BHead) (payload : List Nat) : List Nat :=
  let head := h.bytes payload.length
  let k := brynKey keys dir
  let iv := brynIv keys dir h.txc
  let c := gcmStream k iv payload
  head ++ c ++ gcmTag k iv head c

/-- A frame of a session is transmitted: it takes the next TXC, and carries ACK, SACK and CREDIT (R279, R284, R285). -/
def State.bsendRaw (s : State) (n typ sub : Nat) (payload : List Nat) (unseq retx : Bool) (seq : Nat) : State :=
  let x := s.sess n
  let h : BHead := ⟨x.gen * 256 + n, typ, sub, retx, unseq, seq, x.rxAck, x.sack, min 65535 (s.credit n), x.txc⟩
  let s := s.setSess n { x with txc := x.txc + 1, ackDue := 0 }
  s.hostOut (s.brynPrio typ) (.frame x.mac x.udp x.ip h payload (brynSeal x.keys 1 h payload))

/-- A sequenced frame: it takes the next SEQ and is held until acknowledged; with 1,024 outstanding it waits (R285, R286). -/
def State.bsend (s : State) (n typ sub : Nat) (payload : List Nat) : State :=
  let x := s.sess n
  if 1024 ≤ x.unacked.length then s.setSess n { x with sendq := x.sendq ++ [(typ, sub, payload)] }
  else
    let s := s.setSess n { x with
      txSeq := x.txSeq + 1
      unacked := x.unacked ++ [(⟨x.txSeq, typ, sub, payload, 0, s.now, false⟩ : TxFrame)] }
    s.bsendRaw n typ sub payload false false x.txSeq

/-- The eight bytes of a word. -/
def wordBytes (w : Word) : List Nat := (List.range 8).map (fun i => w.toNat / 256 ^ i % 256)

/-- A record goes to a session as an EVENT frame, or is missed while its transmit window is full (R295). -/
def State.eventTo (s : State) (n : Nat) (r : Rec) : State :=
  let x := s.sess n
  if 1024 ≤ x.unacked.length then s.setSess n { x with evMissed := x.evMissed + 1 }
  else
    let w0 : Word := BitVec.ofNat 64 (1 + x.evMissed % 2 ^ 32 * 2 ^ 16)
    (s.setSess n { x with evMissed := 0 }).bsend n 0x0A 0 ([w0, r.w0, r.w1, r.w2, r.w3].flatMap wordBytes)

/-- A session asks for records of a code and severity (R295). -/
def Session.asks (x : Session) (r : Rec) : Bool := bitOf x.evRanges (r.code / 4096) && decide (x.evMinSev ≤ r.sev)

/-- A record is sent to every open session that asks for its range and severity (R295). -/
def State.eventFrames (s : State) (r : Rec) : State :=
  (s.sessions.map (·.1)).foldl (fun s n =>
    if (s.sess n).open_ && (s.sess n).asks r && r.primary then s.eventTo n r else s) s

/-- A record goes to the SRAM ring at the next ring index; the oldest of 16,384 is overwritten, and counted in
REC_LOST.MIRROR when it was not mirrored (R500). -/
def State.recPush (s : State) (r : Rec) : State :=
  let idx := s.rd F.REC_WRITTEN_INDEX
  let r := { r with idx := idx }
  let lost := decide (16384 ≤ s.recorder.ring.length) && decide (s.rd F.REC_MIRRORED_INDEX + 16384 ≤ idx)
  let s := { s with recorder := { s.recorder with ring := (r :: s.recorder.ring).take 16384 } }
  let s := s.wr F.REC_WRITTEN_INDEX (idx + 1)
  let s := s.when lost (fun s => s.incSat F.REC_LOST_MIRROR)
  (s.recNew r).eventFrames r

/-- SEQ, then the low half of W0 (R493). -/
def mkW0 (seq cont source sev cls code : Nat) : Word :=
  BitVec.ofNat 64 (seq * 2 ^ 32 + cont * 2 ^ 31 + source * 2 ^ 23 + sev * 2 ^ 19 + cls * 2 ^ 16 + code)

/-- Two parameters in a word. -/
def pair32 (hi lo : Nat) : Word := BitVec.ofNat 64 (hi % 2 ^ 32 * 2 ^ 32 + lo % 2 ^ 32)

/-- What an unlisted code's bucket holds. -/
def bucketDefault : Nat → Bucket := fun _ => Bucket.init

/-- A code's bucket brought up to the present: RATE tokens per second up to BURST, 0 counting as 1 (R498). -/
def State.bucketNow (s : State) (code : Nat) : Bucket :=
  let b := Sparse.get bucketDefault s.recorder.buckets code
  let rate := s.rd (F.REC_RATE_RATE.i (code / 4096))
  let burst := max 1 (s.rd (F.REC_RATE_BURST.i (code / 4096)))
  { b with level := min (burst * 250000000) (b.level + (s.now - b.since) * rate), since := s.now }

/-- The state with a code's bucket set. -/
def State.setBucket (s : State) (code : Nat) (b : Bucket) : State :=
  { s with recorder := { s.recorder with buckets := Sparse.set bucketDefault s.recorder.buckets code b } }

/-- The register a snapshot tag names, and ERR for an unmapped page or a page of a fenced frond (R497, R499).
(DESIGN CHOICE, log 61) -/
def State.snapshot (s : State) (tag : Nat) : Nat × Word :=
  let page := tag / 4096 % 65536
  let fenced := match pageInfo page with
    | none => true
    | some i => (i.frond == 0 && s.on F.MCOL_STATUS_FROND_A_FENCED) || (i.frond == 1 && s.on F.MCOL_STATUS_FROND_B_FENCED)
  if fenced then (tag % 2 ^ 28 + 2 ^ 31, 0) else (tag % 2 ^ 28, s.view none (page * 4096 + tag % 4096 / 8 * 8))

/-- The SNAPSHOT continuations of a record: the registers from pair `k` on, pair 0 under INDEX `first` (R497, R499). -/
def State.snapConts (s : State) (seq code r first : Nat) : Nat → Nat → List Rec
  | 0, _ => []
  | fuel + 1, k =>
    let n := s.rd (F.REC_SNAP_CFG_COUNT.i r)
    if n ≤ 2 * k then []
    else
      let a := s.snapshot (s.rd (F.REC_SNAP_TAG_TAG_A.ij r k))
      let b := if 2 * k + 1 < n then s.snapshot (s.rd (F.REC_SNAP_TAG_TAG_B.ij r k)) else (0, 0)
      let more := if n ≤ 2 * k + 2 then 0 else 1
      let w0 := BitVec.ofNat 64 (seq * 2 ^ 32 + more * 2 ^ 31 + (first + k) * 2 ^ 23 + 0 * 2 ^ 19 + 5 * 2 ^ 16 + code)
      ⟨0, false, w0, pair32 b.1 a.1, a.2, b.2⟩ :: State.snapConts s seq code r first fuel (k + 1)

/-- A record is accepted: it takes the next SEQ, with its SUPPRESSED and SNAPSHOT continuations, and is appended or,
while frozen, held with all of them or dropped with all of them (R496-R501). (DESIGN CHOICE, log 61) -/
def State.recAccept (s : State) (source cls code p0 p1 p2 p3 : Nat) (sup : Option Bucket) : State :=
  let seq := s.rd F.REC_STATUS_NEXT_SEQ
  let sev := severity cls code
  let r := code / 4096
  let snaps := if s.on (F.REC_SNAP_CFG_EN.i r) && decide (s.rd (F.REC_SNAP_CFG_MIN_SEV.i r) ≤ sev)
    then s.snapConts seq code r (if sup.isSome then 2 else 1) 8 0 else []
  let supRec := match sup with
    | none => []
    | some b => [(⟨0, false, BitVec.ofNat 64 (seq * 2 ^ 32 + (if snaps = [] then 0 else 1) * 2 ^ 31 + 1 * 2 ^ 23 +
        1 * 2 ^ 19 + 5 * 2 ^ 16 + code), BitVec.ofNat 64 (min b.count (2 ^ 32 - 1)), b.first, b.last⟩ : Rec)]
  let conts := supRec ++ snaps
  let main : Rec := ⟨0, true, mkW0 seq (if conts = [] then 0 else 1) source sev cls code, s.timeWord,
    pair32 p1 p0, pair32 p3 p2⟩
  let s := s.wr F.REC_STATUS_NEXT_SEQ (seq + 1)
  let all := main :: conts
  if s.on F.REC_CTRL_FREEZE then
    if s.recorder.held.length + all.length ≤ 64 then
      { s with recorder := { s.recorder with held := s.recorder.held ++ all } }.wrSat F.REC_STATUS_HELD
        (s.recorder.held.length + all.length)
    else
      { s with recorder := { s.recorder with dropped := s.recorder.dropped + 1 } }.incSat F.REC_LOST_FREEZE
  else all.foldl State.recPush s

/-- A record is offered to the recorder: EN, then the code's bucket; codes from 0xF000 are never limited (R498). -/
def State.recOffer (s : State) (source cls code p0 p1 p2 p3 : Nat) : State :=
  if !s.on F.REC_CTRL_EN then s
  else if 0xF000 ≤ code then s.recAccept source cls code p0 p1 p2 p3 none
  else
    let b := s.bucketNow code
    if b.level < 250000000 then
      let b' := { b with count := b.count + 1, first := if b.count = 0 then s.timeWord else b.first,
                         last := s.timeWord }
      (s.setBucket code b').incSat F.REC_LOST_SUPPRESSED
    else
      let s := s.setBucket code { b with level := b.level - 250000000, count := 0 }
      s.recAccept source cls code p0 p1 p2 p3 (if b.count = 0 then none else some b)

/-- Unmirrored records were lost since REC_LOST.MIRROR read `lost`: this is recorded once (R500). -/
def State.mirrorLost (s : State) (lost : Nat) : State :=
  if lost < s.rd F.REC_LOST_MIRROR then s.recOffer 22 0 0xF020 0 0 0 0 else s

/-- An event is recorded by the block of page `p` under a CLASS of R493. -/
def State.eventAs (s : State) (p cls code p0 p1 p2 p3 : Nat) : State :=
  (s.recOffer (sourceOf p) cls code p0 p1 p2 p3).mirrorLost (s.rd F.REC_LOST_MIRROR)

/-- An event is recorded by the block of page `p`, with the class of its code. (DESIGN CHOICE, log 61) -/
def State.event (s : State) (p code : Nat) (p0 : Nat := 0) (p1 : Nat := 0) (p2 : Nat := 0) (p3 : Nat := 0) : State :=
  s.eventAs p (codeClass code) code p0 p1 p2 p3

/-! ### Errors (R443) -/

/-- Bit `b` of page `p` is detected, by an injection or not: the bit sets; a change from 0 of an unmasked bit is a latch on
its way to the collector (R443). -/
def State.errAs (s : State) (p b : Nat) (inj : Bool) : State :=
  if bitOf (s.rd (errStatus p)) b then s
  else
    let s := s.setBit (errStatus p) b
    if bitOf (s.rd (F.ERR_MASK_MASK.pg p)) b then s else { s with latches := s.latches ++ [(p, b, inj)] }

/-- An injection of bit `b` of page `p` is armed (R452). -/
def State.armed (s : State) (p b : Nat) : Bool := bitOf (s.rd (F.ERR_INJECT_INJECT.pg p)) b

/-- A checker of page `p` detects the condition of bit `b`. While an injection of the bit is armed, this is the injected
error, and ERR_INJECT clears (R452). -/
def State.err (s : State) (p b : Nat) : State :=
  if bitOf (s.rd (F.ERR_INJECT_INJECT.pg p)) b then (s.clrBit (F.ERR_INJECT_INJECT.pg p) b).errAs p b true
  else s.errAs p b false

/-! ### Access checks (R539-R541) -/

/-- The least privileged level that a two-bit class field permits; the reserved code counts as L0 (R541). -/
def classLevel (c : Nat) : Nat := if c = 1 then 1 else if c = 2 then 2 else 0

/-- The requester's level passes ACCESS_CLASS; a write passes READ as well (R541). -/
def State.classOk (s : State) (r : Req) (p : Nat) (write : Bool) : Bool :=
  decide (r.level.num ≤ classLevel (s.rd (F.ACCESS_CLASS_READ.pg p)))
    && (!write || decide (r.level.num ≤ classLevel (s.rd (F.ACCESS_CLASS_WRITE.pg p))))

/-- In RECOVERY a session reaches only the pages SYS, FUSE, CFG and FW (R511). (DESIGN CHOICE, log 44) -/
def State.recoveryShut (s : State) (r : Req) (p : Nat) : Bool :=
  s.rd F.SYS_BOOT_STATE == 3 && decide (3 < p) && (match r.kind with
    | .host _ => true
    | _ => false)

/-- A control core's access to a register page of the other frond needs the bridge (R144). (DESIGN CHOICE, log 28) -/
def State.bridgeCuts (s : State) (r : Req) (frond : Nat) : Bool :=
  match r.kind with
  | .core f _ => decide (frond < 2) && f.idx != frond && s.bridgeDown
  | _ => false

/-- The reason an access to a page fails under R539, if any: 1 UNMAPPED, 3 PRIV, 4 FENCED (a frond that a failed bridge cuts
off too), 5 RESET (R144, R511, R540). (DESIGN CHOICE, log 70) -/
def State.pageFault (s : State) (r : Req) (p : Nat) (write : Bool) : Option Nat :=
  match pageInfo p with
  | none => some 1
  | some i =>
    if !s.classOk r p write || s.recoveryShut r p then some 3
    else if i.frond < 2 ∧ s.frondFenced i.frond then some 4
    else if i.frond < 2 ∧ s.frondReset then some 5
    else if s.bridgeCuts r i.frond then some 4
    else none

/-- Event 0x0070 REG_DENIED (R540). (DESIGN CHOICE, log 70) -/
def State.denied (s : State) (r : Req) (p off reason : Nat) : State := s.event 0 0x0070 p off (reqCode r) reason

/-- An access fails: the event, and an access error to the requester (R539). -/
def State.accessError (s : State) (r : Req) (p off reason : Nat) : State :=
  (s.denied r p off reason).put (.answer false false [])

/-- A privilege error reaches the requester: a core as a store access fault; a session or a relay has it as the STATUS of
its record (R11, R290). -/
def State.privAnswer (s : State) (r : Req) : State :=
  match r.kind with
  | .host _ => s
  | .relay _ => s
  | _ => s.put (.answer false false [])

/-- A write that acts on a field that is L0 only is refused: the event, and the privilege error (R11). -/
def State.fieldPriv (s : State) (r : Req) (p off : Nat) : State := (s.denied r p off 6).privAnswer r

/-- A write by `r` of a command or field at `off` of page `p`: it is refused and recorded when the page refuses it or
when it is L0 only and `r` is not at L0 (R10, R11, R539), and otherwise acts. -/
def State.cmd (s : State) (r : Req) (p off : Nat) (l0 : Bool) (act : State → State) : State :=
  match s.pageFault r p true with
  | some reason => s.accessError r p off reason
  | none => if l0 && r.level != .L0 then s.fieldPriv r p off else act s

/-- `cmd` at the page and offset of a field. -/
def State.cmdAt (s : State) (r : Req) (f : Field) (l0 : Bool) (act : State → State) : State :=
  s.cmd r f.page f.off l0 act

end Sys2Proof.Machine
end

