-- ==== Sys2Proof/Machine/PhaseOps.lean ====
section
/-! DEFINITION. The parts of the phase unit that other families read or share: the lock state, the period in use,
segments and the preferred point, the profile, the event table's firings (R32-R55). -/

namespace Sys2Proof.Machine

/-- The period in use, in ticks (R35). -/
def State.period (s : State) : Nat :=
  let nom := s.rd F.PHASE_NOM_PERIOD_PERIOD
  max 1 (if s.lock = 0 then nom else if s.lock = 1 then s.phase.lastPeriod.getD nom
    else s.rd F.PHASE_PERIOD_EST_PERIOD)

/-- The increment of the accumulator per tick, rounded down (R32). -/
def State.phaseInc (s : State) : Nat := 2 ^ 64 / s.period

/-! ### The profile (R51-R54) -/

/-- The line of PIC source 40: any of PHASE_EVENTS [6:0] (R482). -/
def State.phaseLine (s : State) : State :=
  s.irqRaw .pic 40 (s.reg F.PHASE_EVENTS_LOCK_CHG.key &&& 0x7F != 0)

/-- A bit of PHASE_EVENTS is raised. -/
def State.phaseEvent (s : State) (f : Field) : State := (s.wr f 1).phaseLine

/-- PROF_VALID follows PROF_STEPS and the lock state; a change from 0 to 1 raises PROF_READY (R53). -/
def State.profCheck (s : State) : State :=
  let v := b2n (decide (4 ≤ s.rd F.PROF_STATUS_PROF_STEPS) && s.locked)
  let was := s.rd F.PHASE_STATUS_PROF_VALID
  let s := (s.wr F.PHASE_STATUS_PROF_STEPS (s.rd F.PROF_STATUS_PROF_STEPS)).wr F.PHASE_STATUS_PROF_VALID v
  if v = 1 ∧ was = 0 then s.phaseEvent F.PHASE_EVENTS_PROF_READY else s

/-- The profile is cleared (R54). -/
def State.profClear (s : State) : State :=
  let s := (List.range 64).foldl (fun s i => s.setReg (F.PROF_BIN_BIN0.i i).key 0) s
  let s := (s.wr F.PROF_STATUS_PROF_STEPS 0).wr F.PROF_STATUS_PROF_PERIOD 0
  (s.phaseEvent F.PHASE_EVENTS_PROF_CLEARED).profCheck

/-- One bin's new value: the mean itself on the first fold, else a step of 1 / 2^PROF_SHIFT toward it, rounded down
(R52). -/
def foldBin (old mean shift steps : Nat) : Nat :=
  if steps = 0 then min mean 0xFFFF
  else ((old : Int) + ((mean : Int) - (old : Int)) / (2 ^ shift : Int)).toNat % 2 ^ 16

/-- A finished step is folded into the profile; the caller has tested R52's conditions. -/
def State.profFold (s : State) (sums : BinSums) (estAfter : Nat) : State :=
  let steps := s.rd F.PROF_STATUS_PROF_STEPS
  let shift := s.rd F.PHASE_FF_PROF_SHIFT
  let s := sums.foldl (fun s b =>
    if b.2.2 = 0 then s
    else s.wr (binField b.1) (foldBin (s.rd (binField b.1)) (min (b.2.1 / b.2.2) 0xFFFF) shift steps)) s
  ((s.wr F.PROF_STATUS_PROF_STEPS (min 255 (steps + 1))).wr F.PROF_STATUS_PROF_PERIOD estAfter).profCheck

/-! ### Lock state (R35, R47, R60) -/

/-- The lock state takes a value: LOCK_CHG, event 0xB001; windows close in FREE and ACQUIRE; HOLD_STEPS reads 0
outside HOLDOVER (R35, R42, R47, R60). -/
def State.setLock (s : State) (v : Nat) : State :=
  if s.lock = v then s
  else
    let s := s.wr F.PHASE_STATUS_LOCK_STATE v
    let s := s.when (v != 3) (fun s => s.wr F.PHASE_STATUS_HOLD_STEPS 0)
    let s := s.when (v == 0) (fun s => s.wr F.PHASE_STATUS_LOCK_COUNT 0)
    let ph := s.phase
    let ph := if v < 2 then { ph with refreshOpen := 0, calOpen := 0, testOpen := 0 } else ph
    let ph := if v = 2 then ph else { ph with lockedAll := false, lockedPrev := false }
    let s := { s with phase := { ph with offPeriods := 0, wraps := 0 }
                      chain := { s.chain with sweepAsks := if v < 2 then 0 else s.chain.sweepAsks } }
    ((s.phaseEvent F.PHASE_EVENTS_LOCK_CHG).event 0xA0 0xB001).profCheck

/-! ### Sources (R36) -/

/-- The rank of a source code: the lowest slot of PRIO that holds it, or 4 when none does. -/
def State.srcRank (s : State) (src : Nat) : Nat :=
  let prio := s.rd F.PHASE_SRC_PRIO
  (firstWhere (fun i => prio / 16 ^ i % 16 == src) (List.range 4)).getD 4

/-- The source is enabled (R36). -/
def State.srcEnabled (s : State) (src : Nat) : Bool := bitOf (s.rd F.PHASE_SRC_EN) (src - 1)

/-- The source has delivered a mark within the last two periods in use. -/
def State.srcLive (s : State) (src : Nat) : Bool :=
  match Sparse.get (fun _ => none) s.phase.srcMarks src with
  | none => false
  | some t => decide (s.now ≤ t + 2 * s.period)

/-- The active source by R36: the enabled, named, live source of the highest rank; 0 when none. -/
def State.srcPick (s : State) : Nat :=
  ([1, 2, 3, 4].filter (fun c => s.srcEnabled c && decide (s.srcRank c < 4) && s.srcLive c)).foldl
    (fun best c => if best = 0 ∨ s.srcRank c < s.srcRank best then c else best) 0

/-- The active source follows R36; a change raises SRC_CHG and records event 0xB003. -/
def State.srcUpdate (s : State) : State :=
  let a := s.srcPick
  if s.rd F.PHASE_STATUS_ACTIVE_SRC = a then s
  else ((s.wr F.PHASE_STATUS_ACTIVE_SRC a).phaseEvent F.PHASE_EVENTS_SRC_CHG).event 0xA0 0xB003

/-! ### The event table (R45, R46, R567, R568) -/

/-- The angle word of entry `n` of the active table. -/
def State.evtAngle (s : State) (n : Nat) : Word := Sparse.get (fun _ => 0) s.phase.evt (2 * n)

/-- The action word of entry `n` of the active table. -/
def State.evtAct (s : State) (n : Nat) : Word := Sparse.get (fun _ => 0) s.phase.evt (2 * n + 1)

/-- The action code is assigned, and TARGET and ARG fit its fields (R568). -/
def evtGood (w : Word) : Bool :=
  let a := F.PHEV_ACT_ACTION.get w
  let t := F.PHEV_ACT_TARGET.get w
  let g := F.PHEV_ACT_ARG.get w
  if a = 0x01 then decide (t < 131072)
  else if a = 0x02 ∨ a = 0x03 then decide (t < 256)
  else if a = 0x04 ∨ a = 0x05 ∨ a = 0x06 then decide (t < 4)
  else if a = 0x08 then decide (g < 16)
  else if a = 0x09 then decide (t < 256)
  else if a = 0x0A then decide (t < 4) && decide (g < 8)
  else if a = 0x0C ∨ a = 0x0D then decide (t < 32)
  else decide (a ≤ 0x0D)

/-- The lock state is one that STATES permits. -/
def State.evtState (s : State) (w : Word) : Bool :=
  let v := F.PHEV_ANGLE_STATES.get w
  if v = 2 then true else if v = 1 then s.locked else s.lock == 2

/-- Entry `n` would fire in this step, its angle apart (R45). -/
def State.evtFires (s : State) (n : Nat) : Bool :=
  let w := s.evtAngle n
  let e := F.PHEV_ANGLE_EVERY.get w + 1
  F.PHEV_ANGLE_ENABLE.get w == 1 && s.on F.PHASE_CTRL_EVT_ENABLE && s.evtState w
    && s.phase.step % e == F.PHEV_ANGLE_OFFSET.get w % e

/-- Entry `n`'s angle is passed: it falls due when it fires, or sets EV_BAD_ACTION (R45, R568). An armed injection of
EVT_PARITY meets the entry: it does not fire (R61, R452). (DESIGN CHOICE, log 56) -/
def State.evtPass (s : State) (n : Nat) : State :=
  let s := { s with phase := { s.phase with passed := setBitN s.phase.passed n } }
  if s.evtFires n then
    if s.armed 0xA0 0 then s.err 0xA0 0
    else if evtGood (s.evtAct n) then
      { s with phase := { s.phase with queue := s.phase.queue ++ [⟨n, s.evtAct n, false⟩] } }
    else s.err 0xA0 3
  else s

/-- The entries whose angle the present step has not passed, in index order. -/
def State.evtUnpassed (s : State) : List Nat := (List.range 64).filter (fun n => !bitOf s.phase.passed n)

/-- Every entry whose angle the phase has reached falls due (R45). -/
def State.evtCollect (s : State) : State :=
  (s.evtUnpassed.filter (fun n => decide (F.PHEV_ANGLE_ANGLE.get (s.evtAngle n) ≤ s.angle))).foldl State.evtPass s

/-- `n` put into a list of entries that rises by angle, after those of an equal angle. (DESIGN CHOICE, log 17) -/
def State.evtInsert (s : State) (n : Nat) : List Nat → List Nat
  | [] => [n]
  | m :: t => if F.PHEV_ANGLE_ANGLE.get (s.evtAngle n) < F.PHEV_ANGLE_ANGLE.get (s.evtAngle m) then n :: m :: t
      else m :: State.evtInsert s n t

/-- At an autonomous wrap every angle has been passed (R46). -/
def State.evtAll (s : State) : State :=
  (s.evtUnpassed.foldl (fun l n => s.evtInsert n l) []).foldl State.evtPass s

/-- The entries of the step that a mark ends fall due when LATE_FIRE is 1, in angle order, then index order (R46). -/
def State.evtLate (s : State) : State :=
  let late := s.evtUnpassed.filter (fun n => F.PHEV_ANGLE_LATE_FIRE.get (s.evtAngle n) == 1)
  (late.foldl (fun l n => s.evtInsert n l) []).foldl State.evtPass s

/-! ### The step start (R34, R40, R43, R49, R59) -/

/-- A STEP_OUT pulse of OUT_MODE `m` (R59). -/
def State.stepOutPulse (s : State) (m : Nat) : State :=
  if s.rd F.PHASE_STEP_IO_OUT_MODE = m then { s with phase := { s.phase with stepOut := true } } else s

/-- OUT_MODE OFF holds STEP_OUT low (R59). -/
def State.stepOutMode (s : State) : State :=
  if s.rd F.PHASE_STEP_IO_OUT_MODE = 0 then { s with phase := { s.phase with stepOut := false } } else s

/-- The words of the shadow event table and segments, as they stand in the register file (R49). -/
def State.shadowEvt (s : State) : Sparse Word :=
  (List.range 64).foldr (fun n l =>
    (2 * n, s.reg (F.PHEV_ANGLE_ANGLE.i n).key) :: (2 * n + 1, s.reg (F.PHEV_ACT_ACTION.i n).key) :: l) []

/-- The words of the shadow segments. -/
def State.shadowSeg (s : State) : Sparse Word :=
  (List.range 8).map (fun i => (i, s.reg (F.PHASE_SEG_START.i i).key))

/-- The shadow becomes active when COMMIT waits: PHASE_COMMIT_APPLY (R49). -/
def State.commitApply (s : State) : State :=
  if s.on F.PHASE_CTRL_COMMIT then
    let s := { s with phase := { s.phase with
      evt := s.shadowEvt.filter (fun e => decide (e.2 ≠ 0)), seg := s.shadowSeg.filter (fun e => decide (e.2 ≠ 0)) } }
    ((s.wr F.PHASE_CTRL_COMMIT 0).wr F.PHASE_STATUS_COMMIT_PEND 0).phaseEvent F.PHASE_EVENTS_COMMIT_DONE
  else s

/-- The phase part of a step start at accumulator `acc` with step number `step`; `late` is the restart of R40, after
which no entry that fired earlier in the step fires again. A waiting COMMIT is applied at the restart of R40 too, and the
angles that the step has passed stay passed for the new entries. (DESIGN CHOICE, log 74) -/
def State.stepBegin (s : State) (byMark late : Bool) (acc step : Nat) : State :=
  let ph := s.phase
  let ph := { ph with acc := acc, step := step % 2 ^ 32, startTime := ph.time, startAcc := acc, byMark := byMark,
                      byWrap := !byMark, trace := [], odd := if step % 2 ^ 32 = (ph.step + 1) % 2 ^ 32 then ph.odd else ph.odd + 1,
                      pendStep := none, lockedAll := s.lock == 2 }
  let ph := if late then ph
    else { ph with passed := 0, queue := ph.queue.map (fun q => { q with ended := true }),
                   offWin := if ph.offWin = 1 then 2 else 0 }
  let s := { s with phase := ph }
  let s := s.when (!late) (fun s => { s with chain := { s.chain with swept := [], sweptPrev := s.chain.swept } })
  let s := s.when (!late) (fun s => s.wr F.PHEV_FIRED_FIRED 0)
  s.commitApply.stepOutPulse 1

end Sys2Proof.Machine
end

