-- ==== Sys2Proof/Machine/RailOps.lean ====
section
/-! DEFINITION. The rail regulators: state, commands, phases, faults, start and stop (R335-R361). -/

namespace Sys2Proof.Machine

/-- The state with a rail's own state set. -/
def State.setRail (s : State) (r : Nat) (u : RailUnit) : State := { s with rails := Sparse.set railInit s.rails r u }

/-- RAIL_STATUS.STATE: 0 OFF, 1 STARTING, 2 REGULATING, 3 STOPPING, 4 FAULT. -/
def State.railState (s : State) (r : Nat) : Nat := s.rd (rf F.RAIL_STATUS_STATE r)

/-- The line of PIC source 42: any RAIL_EVENTS bit of any rail (R482). -/
def State.railLine (s : State) : State :=
  s.irqRaw .pic 42 (allRails.any (fun r => s.reg (rf F.RAIL_EVENTS_CMD_DONE r).key != 0))

/-- A bit of RAIL_EVENTS is raised. -/
def State.railEvent (s : State) (r : Nat) (f : Field) : State := (s.wr (rf f r) 1).railLine

/-- ERR_STATUS.REJECT of a rail. -/
def State.railReject (s : State) (r : Nat) : State := s.err (railPage r) 0

/-! ### Telemetry (R359) -/

/-- A sample joins a telemetry sum. -/
def TelSum.add (t : TelSum) (v i p tmp : Int) : TelSum := ⟨t.n + 1, t.v + v, t.i + i, t.p + p, t.t + tmp⟩

/-- The mean of a telemetry sum, rounded down. -/
def telMean (sum : Int) (n : Nat) : Int := if n = 0 then 0 else sum / (n : Int)

/-- A telemetry register takes the means of a full sum. -/
def State.telShow (s : State) (fv fi fp ft : Field) (t : TelSum) : State :=
  (((s.wr fv (telMean t.v t.n).toNat).wrS fi (telMean t.i t.n)).wr fp (telMean t.p t.n).toNat).wrS ft (telMean t.t t.n)

/-- The held peaks take a sample (R359). -/
def State.railPeaks (s : State) (r : Nat) (v : Nat) (i : Int) : State :=
  let u := s.rail r
  if u.peakOn then
    let s := s.wr (rf F.RAIL_PEAK_V_MAX r) (max v (s.rd (rf F.RAIL_PEAK_V_MAX r)))
    let s := s.wr (rf F.RAIL_PEAK_V_MIN r) (min v (s.rd (rf F.RAIL_PEAK_V_MIN r)))
    let s := s.wrS (rf F.RAIL_PEAK_I_MAX r) (max i (s.rdS (rf F.RAIL_PEAK_I_MAX r)))
    s.wrS (rf F.RAIL_PEAK_I_MIN r) (min i (s.rdS (rf F.RAIL_PEAK_I_MIN r)))
  else
    let s := (s.wr (rf F.RAIL_PEAK_V_MAX r) v).wr (rf F.RAIL_PEAK_V_MIN r) v
    let s := (s.wrS (rf F.RAIL_PEAK_I_MAX r) i).wrS (rf F.RAIL_PEAK_I_MIN r) i
    s.setRail r { u with peakOn := true }

/-- The measurements of one PWM period: RAIL_MEAS, RAIL_ENERGY, CAP_RAIL.I_AVG over 2 µs, and while DETAIL is 1 the
means over each 1 ms and 100 ms and the peaks (R359, R367). -/
def State.railMeasure (s : State) (r v : Nat) (i temp : Int) : State :=
  let u := s.rail r
  let s := ((s.wr (rf F.RAIL_MEAS_V r) v).wrS (rf F.RAIL_MEAS_I r) i).wrS (rf F.RAIL_MEAS_TEMP r) temp
  let s := s.wrS (F.CAP_RAIL_I_AVG.i r) ((u.lastI + i) / 2)
  let e := (u.energyFrac : Int) + v * i
  let s := s.wr (rf F.RAIL_ENERGY_UJ r) ((((s.rd (rf F.RAIL_ENERGY_UJ r) : Int) + e / 20000) % 2 ^ 64).toNat)
  let u := { u with energyFrac := (e % 20000).toNat }
  if s.railDetail then
    let p : Int := (v : Int) * i / 20000
    let t1 := u.tel1.add v i p temp
    let t100 := u.tel100.add v i p temp
    let s := if 1000 ≤ t1.n then s.telShow (rf F.RAIL_TEL_1MS_V r) (rf F.RAIL_TEL_1MS_I r) (rf F.RAIL_TEL_1MS_P r)
      (rf F.RAIL_TEL_1MS_T r) t1 else s
    let s := if 100000 ≤ t100.n then s.telShow (rf F.RAIL_TEL_100MS_V r) (rf F.RAIL_TEL_100MS_I r)
      (rf F.RAIL_TEL_100MS_P r) (rf F.RAIL_TEL_100MS_T r) t100 else s
    let u := { u with tel1 := if 1000 ≤ t1.n then TelSum.init else t1,
                      tel100 := if 100000 ≤ t100.n then TelSum.init else t100 }
    (s.setRail r u).railPeaks r v i
  else s.setRail r { u with tel1 := TelSum.init, tel100 := TelSum.init, peakOn := false }

/-! ### Phases (R347, R354) -/

/-- RAIL_PH_p.STATE: 0 OFF, 1 ON, 2 SHEDDING, 3 ADDING, 4 TEST, 5 FENCED. -/
def State.phState (s : State) (r p : Nat) : Nat := s.rd (phf F.RAIL_PH_STATE r p)

/-- The phases of a rail in a state. -/
def State.phIn (s : State) (r st : Nat) : List Nat := (List.range (railPhases r)).filter (fun p => s.phState r p == st)

/-- RAIL_STATUS.PHASES_ON follows the ON phases. -/
def State.phCount (s : State) (r : Nat) : State := s.wr (rf F.RAIL_STATUS_PHASES_ON r) (s.phIn r 1).length

/-- The number of unfenced phases, and the maximum current that they leave (R31, R354). -/
def State.phHealthy (s : State) (r : Nat) : State :=
  let ok := ((List.range (railPhases r)).filter (fun p => !s.on (phf F.RAIL_PH_FENCE r p))).length
  (s.wr (rf F.RAIL_STATUS_PHASES_OK r) ok).wr (rf F.RAIL_STATUS_IMAX r) (railImax r * ok / railPhases r)

/-- A phase turns ON: last in the order of those that have been on longest. -/
def State.phOn (s : State) (r p : Nat) : State :=
  let u := s.rail r
  ((s.wr (phf F.RAIL_PH_STATE r p) 1).setRail r { u with onOrder := p :: u.onOrder.filter (· != p) }).phCount r

/-- A phase leaves the ON phases in a state. -/
def State.phLeave (s : State) (r p st : Nat) : State :=
  let u := s.rail r
  ((s.wr (phf F.RAIL_PH_STATE r p) st).setRail r { u with
    onOrder := u.onOrder.filter (· != p),
    adding := u.adding.filter (fun a => a.1 != p) }).phCount r

/-- A phase begins to be added; it carries its full share 2 PWM periods later, its trim frozen until then (R346, R347). -/
def State.phAdd (s : State) (r p : Nat) : State :=
  let s := s.wr (phf F.RAIL_PH_STATE r p) 3
  let u := s.rail r
  s.setRail r { u with adding := u.adding ++ [(p, 2)] }

/-- Up to 12 phases return to service, with a trim of 0, until `want` are ON or being added (R346, R347). -/
def State.phAddTo (s : State) (r want : Nat) : State :=
  let have_ := (s.phIn r 1).length + (s.phIn r 3).length
  ((s.phIn r 0).take (min 12 (want - have_))).foldl (fun s p => (s.wr (phf F.RAIL_PH_TRIM r p) 0).phAdd r p) s

/-- One PWM period of the phases being added. -/
def State.phAdding (s : State) (r : Nat) : State :=
  let u := s.rail r
  let left := u.adding.map (fun a => (a.1, a.2 - 1))
  let s := s.setRail r { u with adding := left.filter (fun a => a.2 != 0) }
  (left.filter (fun a => a.2 == 0)).foldl (fun s a => s.phOn r a.1) s

/-! ### The last-fault record (R360) -/

/-- The four words of the last-fault record. -/
def lfKeys : List Nat := [F.RAIL_LF_0_VALID.key, F.RAIL_LF_1_POWER_CYCLE.key, F.RAIL_LF_2_TARGET.key,
  F.RAIL_LF_3_PHASES_OK.key]

/-- The last-fault record takes a rail's values and code at once; its flash write starts over (R360). -/
def State.railLastFault (s : State) (r code phase : Nat) : State :=
  let ok := (List.range (railPhases r)).foldl
    (fun m p => if s.on (phf F.RAIL_PH_FENCE r p) then m else setBitN m p) 0
  let s := (((s.wr F.RAIL_LF_0_VALID 1).wr F.RAIL_LF_0_RAIL r).wr F.RAIL_LF_0_CODE code).wr F.RAIL_LF_0_PHASE phase
  let s := (s.wr F.RAIL_LF_1_POWER_CYCLE (s.rd F.SYS_UPTIME_POWER_CYCLES)).wr F.RAIL_LF_1_OP_SECONDS
    (s.rd F.SYS_UPTIME_OP_SECONDS)
  let s := ((s.wr F.RAIL_LF_2_TARGET ((s.rail r).goal / 5)).wr F.RAIL_LF_2_V (s.rd (rf F.RAIL_MEAS_V r))).wr
    F.RAIL_LF_2_I (s.rd (rf F.RAIL_MEAS_I r))
  let s := (s.wr F.RAIL_LF_2_TEMP (s.rd (rf F.RAIL_MEAS_TEMP r))).wr F.RAIL_LF_3_PHASES_OK ok
  { s with railSys := { s.railSys with lfDirty := true } }

/-- A phase is fenced (R354, R360, R449): it stops switching, the rail's maximum current falls, PHASE_FENCE and event
0x2011, and the last-fault record when the rail's own protection did it. A shed of the phase ends with it. -/
def State.phFence (s : State) (r p : Nat) (code : Option Nat) : State :=
  if s.on (phf F.RAIL_PH_FENCE r p) then s
  else
    let u := s.rail r
    let s := if u.shed = some p then s.setRail r { u with shed := none, shedEnd := some (s.now, p) } else s
    let s := (s.phLeave r p 5).wr (phf F.RAIL_PH_FENCE r p) 1
    let s := s.phHealthy r
    let s := match code with | some c => s.railLastFault r c p | none => s
    ((s.err (railPage r) 2).event (railPage r) 0x2011).event (railPage r) 0xA002

/-! ### Voltage commands (R337-R342) -/

/-- A target within the rail's range, and at most SAFE while on local sense (R339). -/
def State.railClamp (s : State) (r target : Nat) : Nat :=
  let t := clampNat (s.rd (rf F.RAIL_LIMIT_VMIN r)) (s.rd (rf F.RAIL_LIMIT_VMAX r)) target
  if s.on (rf F.RAIL_STATUS_SENSE_LOCAL r) then min t (s.rd (rf F.RAIL_LIMIT_SAFE r)) else t

/-- SLEWING follows the reference and its goal, and REF shows the reference in 0.5 mV. -/
def State.railShow (s : State) (r : Nat) : State :=
  let u := s.rail r
  (s.wr (rf F.RAIL_STATUS_REF r) (u.ref / 5)).wr (rf F.RAIL_STATUS_SLEWING r) (b2n (u.ref != u.goal))

/-- A command is latched: an earlier one that has not completed is superseded (R338-R340). -/
def State.railLatch (s : State) (r target slew : Nat) : State :=
  let t := s.railClamp r target
  let u := s.rail r
  let s := ((s.wr (rf F.RAIL_CMD_TARGET r) target).wr (rf F.RAIL_CMD_SLEW r) slew).wr (rf F.RAIL_STATUS_CLAMPED r)
    (b2n (t != target))
  let s := s.when u.busy (fun s => s.railEvent r F.RAIL_EVENTS_SUPERSEDED)
  let s := s.wr (rf F.RAIL_STATUS_DONE r) 0
  (s.setRail r { u with cmd := none, goal := 5 * t, step := max 1 slew, busy := true, settle := 0 }).railShow r

/-- A command reaches a rail: held while STARTING, ignored with REJECT while STOPPING, OFF or in FAULT, and
otherwise it waits for the next PWM boundary, the last one winning (R339, R342). -/
def State.railCommand (s : State) (r target slew : Nat) : State :=
  let u := s.rail r
  if s.railState r = 1 then s.setRail r { u with held := some (target, slew) }
  else if s.railState r = 2 then s.setRail r { u with cmd := some (target, slew) }
  else s.railReject r

/-! ### Compensators (R343-R345) -/

/-- 0.95 in Q4.28, the upper limit of a duty (R343). -/
def dutyMax : Int := 255013683

/-- The coefficients of compensator C0 or C1. -/
def State.compCoef (s : State) (r : Nat) (c1 : Bool) : LawCoef :=
  let g (f0 f1 : Field) : Int := s.rdS (rf (if c1 then f1 else f0) r)
  { kp := g F.RAIL_COMP0_KPI_KP F.RAIL_COMP1_KPI_KP, ki := g F.RAIL_COMP0_KPI_KI F.RAIL_COMP1_KPI_KI,
    kd := g F.RAIL_COMP0_KDF_KD F.RAIL_COMP1_KDF_KD, kf := g F.RAIL_COMP0_KDF_KF F.RAIL_COMP1_KDF_KF,
    kff := 0, outMin := 0, outMax := dutyMax }

/-- A compensator's memory. -/
def CompState.mem (c : CompState) : LawMem := ⟨c.integ, c.deriv, c.ePrev, c.atLim⟩

/-- A compensator from a memory and its output. -/
def compOf (m : LawMem) (out : Int) : CompState := ⟨m.integ, m.deriv, m.ePrev, out, m.atLim⟩

/-- The compensators' error in Q4.28: reference less sensed output, 1.0 being 2.0 V (R343). -/
def railError (ref v : Nat) : Int := rneDiv (((ref : Int) - 5 * v) * 2 ^ 28) 20000

/-- C1 drives. -/
def State.compActive (s : State) (r : Nat) : Bool := s.on (rf F.RAIL_STATUS_ACTIVE_COMP r)

/-- The handover of a swap: the open compensator takes over without a step of the duty (R345). -/
def State.compHandover (s : State) (r : Nat) (e : Int) : State :=
  let u := s.rail r
  let a := s.compActive r
  let out := (if a then u.comp1 else u.comp0).out
  let fresh := compOf (bumpless (s.compCoef r (!a)) out e 0) out
  let u := if a then { u with comp0 := fresh } else { u with comp1 := fresh }
  let s := ((s.setRail r u).wr (rf F.RAIL_STATUS_ACTIVE_COMP r) (b2n !a)).wr (rf F.RAIL_CTRL_SWAP r) 0
  (s.railEvent r F.RAIL_EVENTS_HANDOVER).event (railPage r) 0x2031

/-- One period of the driving compensator; its integrator is held during a brake (R343, R351). -/
def State.compRun (s : State) (r : Nat) (e : Int) : State :=
  let u := s.rail r
  let a := s.compActive r
  let c := if a then u.comp1 else u.comp0
  let o := loopLaw (s.compCoef r a) c.mem e 0
  let m := if s.on (rf F.RAIL_STATUS_BRAKING r) then { o.mem with integ := c.integ } else o.mem
  let c' := compOf m o.out
  s.setRail r (if a then { u with comp1 := c' } else { u with comp0 := c' })

/-! ### Shedding (R347-R350) -/

/-- The phase lies within RAIL_SYS_GUARD.ANGLE before the START of a valid segment (R349). -/
def State.guardBand (s : State) : Bool :=
  (List.range 8).any (fun i =>
    let w := s.segWord i
    let left := (F.PHASE_SEG_START.get w + 2 ^ 32 - s.angle) % 2 ^ 32
    F.PHASE_SEG_VALID.get w == 1 && decide (0 < left) && decide (left ≤ s.rd F.RAIL_SYS_GUARD_ANGLE))

/-- The guard band holds sheds: GUARD_EN in LOCKED or HOLDOVER (R349). -/
def State.railGuarded (s : State) (r : Nat) : Bool := s.on (rf F.RAIL_CTRL_GUARD_EN r) && s.locked && s.guardBand

/-- The fast throttle is active on the rail (R350, R367). -/
def State.railFt (s : State) (r : Nat) : Bool := bitOf (s.rd F.CAP_FT_FT_ACTIVE) r

/-- No rule holds sheds on the rail: guard band, inhibit, fast throttle, brake, a shed under way (R347-R350). -/
def State.shedFree (s : State) (r : Nat) : Bool :=
  !s.railGuarded r && !s.on (rf F.RAIL_STATUS_SHED_INH r) && !s.railFt r && !s.on (rf F.RAIL_STATUS_BRAKING r)
    && (s.rail r).shed.isNone

/-- A shed of phase `p` starts (R347). -/
def State.shedStart (s : State) (r p : Nat) : State :=
  let s := s.phLeave r p 2
  let u := s.rail r
  s.setRail r { u with shed := some p, shedStart := some s.now }

/-- A load step during a shed or a check, or within 20 µs after a shed ended, aborts it (R348, R355): the phases, also one
whose shed has ended, come back (that one with a trim of 0, R346), further phases are added as the load needs, and sheds are
inhibited. -/
def State.shedAbort (s : State) (r : Nat) : State :=
  let u := s.rail r
  let ended := match u.shed, u.shedEnd with
    | none, some (_, p) => if s.phState r p = 0 then [p] else []
    | _, _ => []
  let back := (match u.shed with | some p => [p] | none => []) ++ (match u.test with | some t => [t.1] | none => []) ++ ended
  let s := s.setRail r { u with shed := none, test := none, shedEnd := none }
  let s := ended.foldl (fun s p => s.wr (phf F.RAIL_PH_TRIM r p) 0) s
  let s := back.foldl (fun s p => s.phAdd r p) s
  let s := s.wr (rf F.RAIL_STATUS_SHED_INH r) 1
  (s.railEvent r F.RAIL_EVENTS_SHED_ABORT).event (railPage r) 0x2003

/-- A shed runs, or one ended within the last 20 µs, or a check runs. -/
def State.shedRecent (s : State) (r : Nat) : Bool :=
  let u := s.rail r
  u.shed.isSome || u.test.isSome || (match u.shedEnd with | some e => decide (s.now ≤ e.1 + 5000) | none => false)

/-- A load step of R348: the current rose by more than STEP_A in one period, or the output is more than 2 % low. -/
def State.loadStep (s : State) (r v : Nat) (i : Int) : Bool :=
  decide ((s.rail r).lastI + s.rd (rf F.RAIL_SHED_STEP_A r) < i) || decide (500 * v < 98 * (s.rail r).ref)

/-- The add rule of R347: more than ADD_A per ON phase adds phases until ⌈I / ADD_A⌉ are ON. -/
def State.phAddRule (s : State) (r : Nat) (i : Int) : State :=
  let on := (s.phIn r 1).length
  let a := s.rd (rf F.RAIL_SHED_ADD_A r)
  if s.on (rf F.RAIL_SHED_SHED_EN r) && decide (((on * a : Nat) : Int) < i) then
    s.phAddTo r (if a = 0 then railPhases r else (i.toNat + a - 1) / a)
  else s

/-- In the guard band with PREADD_EN every healthy phase is added, 12 per boundary (R349). -/
def State.phPreadd (s : State) (r : Nat) : State :=
  if s.railGuarded r && s.on (rf F.RAIL_CTRL_PREADD_EN r) then s.phAddTo r (railPhases r) else s

/-! ### Start, stop and trips (R353-R358) -/

/-- The rail's start target in 0.1 mV: its command's target. -/
def State.railTarget (s : State) (r : Nat) : Nat := 5 * s.railClamp r (s.rd (rf F.RAIL_CMD_TARGET r))

/-- The master that the rail tracks during start and stop (R356). -/
def State.railMaster (s : State) (r : Nat) : Option Nat :=
  let m := s.rd (rf F.RAIL_CFG_MASTER r)
  let t := s.rd (rf F.RAIL_CFG_TRACK r)
  if m < 12 ∧ (t = 1 ∨ t = 2) then some m else none

/-- The rail tracks `m`, directly or through another tracking rail (R358). -/
def State.railTracks (s : State) (r m : Nat) : Nat → Bool
  | 0 => false
  | n + 1 => match s.railMaster r with
    | none => false
    | some x => x == m || State.railTracks s x m n

/-- The rail and every rail that tracks it (R353, R358). -/
def State.railGroup (s : State) (r : Nat) : List Nat := r :: allRails.filter (fun x => x != r && s.railTracks x r 12)

/-- The rail's switches are off and its reference is 0, in state `st` (0 OFF or 4 FAULT). -/
def State.railOff (s : State) (r st : Nat) : State :=
  let s := (List.range (railPhases r)).foldl
    (fun s p => if s.phState r p = 5 then s else s.wr (phf F.RAIL_PH_STATE r p) 0) s
  let u := s.rail r
  let s := s.setRail r { u with
    cmd := none, held := none, ref := 0, goal := 0, busy := false, settle := 0,
    shed := none, adding := [], onOrder := [], test := none, rampN := 0, rampFrom := 0 }
  let s := (s.wr (rf F.RAIL_STATUS_STATE r) st).clrBit F.RAIL_SYS_STATUS_PGOOD r
  let s := (s.wr F.RAIL_SYS_STATUS_ALL_PGOOD 0).wr (rf F.RAIL_STATUS_BRAKING r) 0
  (s.railShow r).phCount r

/-- A rail trips (R353): its error bit, the event, the last-fault record; it and its trackers stop. -/
def State.railTrip (s : State) (r bit code ev : Nat) : State :=
  let s := (s.err (railPage r) bit).event (railPage r) ev
  let s := s.railLastFault r code 0
  let s := { s with railSys := { s.railSys with faultAt := some s.now } }
  (s.railGroup r).foldl (fun s x => if x = r then s.railOff x 4 else if s.railState x = 0 ∨ s.railState x = 4 then s
    else s.railOff x 0) s

/-- The reference of a rail that starts or stops, `n` boundaries into its ramp: a master's line from `rampFrom` to its
end in RAMP_US, a slave's by TRACK from its master's reference (R356-R358). -/
def State.rampRef (s : State) (r : Nat) : Nat :=
  let u := s.rail r
  let tgt := s.railTarget r
  match s.railMaster r with
  | some m =>
    let mr := (s.rail m).ref
    let base := if s.rd (rf F.RAIL_CFG_TRACK r) = 1 then
        (if s.railTarget m = 0 then 0 else mr * tgt / s.railTarget m) else min mr tgt
    if s.railState r = 3 then min u.ref base else base
  | none =>
    let len := max 1 (s.rd F.RAIL_SYS_SEQ_RAMP_US)
    let n := min u.rampN len
    if s.railState r = 3 then u.rampFrom - u.rampFrom * n / len else tgt * n / len

/-- One boundary of a start or stop ramp; a stopping rail at 0 is OFF, and the stop ends with the last of them. -/
def State.rampStep (s : State) (r : Nat) : State :=
  let u := s.rail r
  let s := s.setRail r { u with rampN := u.rampN + 1 }
  let ref := s.rampRef r
  let s := (s.setRail r { s.rail r with ref := ref }).railShow r
  if s.railState r = 3 ∧ ref = 0 then
    let s := s.railOff r 0
    if allRails.all (fun x => s.railState x == 0 || s.railState x == 4) then
      ({ s with railSys := { s.railSys with seq := 0 } }).wr F.RAIL_SYS_STATUS_SEQ_BUSY 0
    else s
  else s

/-- A rail begins to start: every healthy phase is ON, its trim 0, and the ramp runs from 0 (R346, R357). -/
def State.railStart (s : State) (r : Nat) : State :=
  let tgt := s.railTarget r
  let s := s.wr (rf F.RAIL_STATUS_STATE r) 1
  let s := (List.range (railPhases r)).foldl (fun s p => if s.on (phf F.RAIL_PH_FENCE r p) then s
      else (s.wr (phf F.RAIL_PH_TRIM r p) 0).phOn r p)
    (s.setRail r { s.rail r with onOrder := [] })
  let u := s.rail r
  let s := s.setRail r { u with
    cmd := none, held := none, ref := 0, goal := tgt, rampN := 0, rampFrom := 0,
    busy := false, settle := 0, onOrder := u.onOrder.reverse, armed := true, lastV := 0, lastI := 0 }
  s.railShow r

/-- The rails of a stage (R357). -/
def State.stageRails (s : State) (stage : Nat) : List Nat :=
  allRails.filter (fun r => s.rd (rf F.RAIL_CFG_STAGE r) == stage)

/-- A stop of the rails begins (R325, R357, R358): stages follow in reverse order. -/
def State.railsStop (s : State) : State :=
  ({ s with railSys := { s.railSys with seq := 2 } }).wr F.RAIL_SYS_STATUS_SEQ_BUSY 1

/-- A rail begins to stop: its ramp to 0 starts (R358). -/
def State.railStopOne (s : State) (r : Nat) : State :=
  if s.railState r = 1 ∨ s.railState r = 2 then
    let u := s.rail r
    let s := s.setRail r { u with
      cmd := none, held := none, rampN := 0, rampFrom := u.ref, goal := 0, busy := false,
      shed := none, test := none }
    let s := (s.wr (rf F.RAIL_STATUS_STATE r) 3).clrBit F.RAIL_SYS_STATUS_PGOOD r
    (s.wr F.RAIL_SYS_STATUS_ALL_PGOOD 0).railShow r
  else s

end Sys2Proof.Machine
end

