-- ==== Sys2Proof/Machine/BudgetOps.lean ====
section
/-! DEFINITION. The budget: operating points, grants, throttles, the division of the budget, and counted activity
(R363-R380). -/

namespace Sys2Proof.Machine

/-! ### Lines and events of the power path -/

/-- The line of PIC source 41: any PWR_EVENTS bit (R482). -/
def State.pwrLine (s : State) : State := s.irqRaw .pic 41 (s.reg F.PWR_EVENTS_MODE_CHG.key != 0)

/-- A bit of PWR_EVENTS is raised. -/
def State.pwrEvent (s : State) (f : Field) : State := (s.wr f 1).pwrLine

/-- PWR_STATUS.MODE: 0 STANDBY, 1 BUS_ONLY, 2 BUFFERED, 3 GRID_RESPONSE, 4 RIDE_THROUGH (R22). -/
def State.mode (s : State) : Nat := s.rd F.PWR_STATUS_MODE

/-- BUFFERED or GRID_RESPONSE. -/
def State.drawMode (s : State) : Bool := s.mode == 2 || s.mode == 3

/-- IB load in mW. -/
def State.ibLoadMw (s : State) : Nat := ((s.rdS F.PWR_MEAS_IB_LOAD) * 250).toNat

/-- FC output at P_set, mW: P_set times the measured efficiency; 0 for an export (R372). -/
def State.fcOutMw (s : State) : Nat := (s.power.pset / 4 * (s.rd F.FC_STATUS_EFF : Int) / 10000).toNat

/-- FC output at P_set in mW, below 0 while it exports: the BC then supplies the load plus the export (R305, R312). The
export's own losses are not counted. (DESIGN CHOICE, log 49) -/
def State.fcIbMw (s : State) : Int := if s.power.pset < 0 then s.power.pset / 4 else (s.fcOutMw : Int)

/-- An FC fault is held: OC, OT or SWITCH of ERR_STATUS on the FC page (R323). -/
def State.fcFaultHeld (s : State) : Bool := s.rd (errStatus 0x41) &&& 0b1110 != 0

/-- A BC fault is held (R24): SWITCH, OT or OC of ERR_STATUS on the BC page. -/
def State.bcFaultHeld (s : State) : Bool := s.rd (errStatus 0x42) &&& 0b1101 != 0

/-- Healthy BC phases. -/
def State.bcPhases (s : State) : Nat := (bitsOf (s.rd F.BC_STATUS_PHASES_OK)).length

/-- The BC discharge limit of BC_CFG, derated by fenced phases, mW (R301). -/
def State.bcDisMw (s : State) : Nat := min (s.rd F.BC_CFG_P_DIS_MAX * 1000) (4800000 * s.bcPhases / 12)

/-- The source limit in mW (R372). -/
def State.sourceMw (s : State) : Nat :=
  if s.mode = 0 then 0
  else if s.mode = 1 ∨ s.on F.PWR_STATUS_FALLBACK then 4200000
  else if s.mode = 4 then s.bcDisMw
  else if s.on F.PWR_STATUS_REST then (if s.power.restTarget.isSome then s.fcOutMw else 4200000)
  else if s.on F.PWR_STATUS_DISCH_INHIBIT || s.on F.PACK_STATUS_DIS_LIMIT then s.fcOutMw
  else (s.fcIbMw + s.bcDisMw).toNat

/-! ### Operating points (R363-R366) -/

/-- OP_GRANT of a frond. -/
def gf (f : Field) (fr : Frond) : Field := f.i fr.idx

/-- The voltage of a point, 0.5 mV. -/
def State.opV (s : State) (k : Nat) : Nat := s.rd (F.OPT_ENTRY_VOLT.i k)

/-- The relative compute power of a point, V² f (R363). -/
def State.opRel (s : State) (k : Nat) : Nat := s.opV k * s.opV k * s.rd (F.OPT_ENTRY_FREQ_MHZ.i k)

/-- The frond's VC rail. -/
def vcRail (f : Frond) : Nat := f.idx

/-- FAST_HOLD of a frond. -/
def BudgetUnit.hold (b : BudgetUnit) : Frond → Option Nat
  | .A => b.holdA
  | .B => b.holdB

/-- The budget with a frond's FAST_HOLD set. -/
def BudgetUnit.setHold (b : BudgetUnit) (f : Frond) (v : Option Nat) : BudgetUnit :=
  match f with
  | .A => { b with holdA := v }
  | .B => { b with holdB := v }

/-- The grant of a frond is held after a timeout. -/
def BudgetUnit.stuck (b : BudgetUnit) : Frond → Bool
  | .A => b.stuckA
  | .B => b.stuckB

/-- The budget with that set. -/
def BudgetUnit.setStuck (b : BudgetUnit) (f : Frond) (v : Bool) : BudgetUnit :=
  match f with
  | .A => { b with stuckA := v }
  | .B => { b with stuckB := v }

/-- The budget limit of a frond. -/
def BudgetUnit.lim (b : BudgetUnit) : Frond → Nat × Nat
  | .A => b.limA
  | .B => b.limB

/-- The STOP limit of R364 applies: a stop, a chip reset, a fenced frond, or start-up before step 6 (R366). -/
def State.opStop (s : State) (f : Frond) : Bool :=
  s.power.stopPhase != 0 || s.chipReset || s.frondFenced f.idx
    || (decide (s.rd F.SYS_BOOT_STATE ≤ 1) && decide (s.rd F.SYS_BOOT_STEP < 6))

/-- The highest point whose voltage is at or below SAFE (R364, SENSE). -/
def State.opSafe (s : State) (f : Frond) : Nat :=
  ((List.range 16).filter (fun k => decide (s.opV k ≤ s.rd (rf F.RAIL_LIMIT_SAFE (vcRail f))))).foldl max 0

/-- The limits of R364 that apply to a frond, as (reason, point), the lowest reason first. -/
def State.opLimits (s : State) (f : Frond) : List (Nat × Nat) :=
  let lim := s.budget.lim f
  [(0, s.prefOp), (1, s.rd F.OPT_CTRL_MAX_OP), (lim.2, lim.1)]
    ++ (match s.budget.hold f with | some k => [(5, k)] | none => [])
    ++ (if s.on (rf F.RAIL_STATUS_SENSE_LOCAL (vcRail f)) then [(6, s.opSafe f)] else [])
    ++ (if s.opStop f then [(7, 0)] else [])

/-- The lowest limit, the lowest reason on a tie (R364). -/
def opLowest : List (Nat × Nat) → Nat × Nat
  | [] => (0, 0)
  | [x] => x
  | x :: t => let y := opLowest t; if x.2 ≤ y.2 then x else y

/-- The arbiter commands VC of a frond to a point's voltage, when the rail takes commands from it and runs (R337,
R342, R365). -/
def State.opCommand (s : State) (f : Frond) (k : Nat) : State :=
  let r := vcRail f
  if s.on (rf F.RAIL_CFG_CMD_SRC r) && (s.railState r == 1 || s.railState r == 2) then
    s.railCommand r (s.opV k) (s.rd F.OPT_CTRL_SLEW)
  else s

/-- The tile clock of a frond steps to a point (R365). -/
def State.clockStep (s : State) (f : Frond) (k : Nat) : State :=
  let old := s.rd (gf F.OP_GRANT_CLOCK_OP f)
  let s := s.wr (gf F.OP_GRANT_CLOCK_OP f) k
  if old < k then s.inc F.OP_CHANGES_RAISES else if k < old then s.inc F.OP_CHANGES_LOWERS else s

/-- The power cores hand over to a new image: allocations and grants hold, and the arbiter raises nothing (R524). -/
def State.coresHand (s : State) : Bool := s.rd F.FW_STATUS_STATE == 5 && s.fw.unit == 1

/-- The arbiter sets a frond's grant (R364, R365): to raise it commands VC and waits, to lower it steps the clock and
then commands VC; a grant held after a timeout stays at the clock's point. -/
def State.arbEval (s : State) (f : Frond) : State :=
  let clock := s.rd (gf F.OP_GRANT_CLOCK_OP f)
  let (reason, low) := opLowest (s.opLimits f)
  let grant := if s.budget.stuck f then min low clock
    else if s.coresHand then min low (s.rd (gf F.OP_GRANT_GRANT_OP f)) else low
  let s := ((s.wr (gf F.OP_GRANT_GRANT_OP f) grant).wr (gf F.OP_GRANT_REASON f) reason).wr (gf F.OP_GRANT_PREF_OP f)
    s.prefOp
  let s := s.wr (gf F.OP_GRANT_LIMIT_OP f) (s.budget.lim f).1
  let target := s.rd (gf F.OP_GRANT_TARGET_OP f)
  if clock < grant then
    if target = grant then s
    else ((s.wr (gf F.OP_GRANT_TARGET_OP f) grant).wr (gf F.OP_GRANT_RAISING f) 1).opCommand f grant
  else
    let s := s.clockStep f grant
    if target = grant then s.wr (gf F.OP_GRANT_RAISING f) 0
    else ((s.wr (gf F.OP_GRANT_TARGET_OP f) grant).wr (gf F.OP_GRANT_RAISING f) 0).opCommand f grant

/-- The arbiter re-evaluates both fronds. -/
def State.arbBoth (s : State) : State := (s.arbEval .A).arbEval .B

/-- VC of a frond reports completion: the clock steps once to the raised point, and a held grant is free (R365). -/
def State.vcDone (s : State) (f : Frond) : State :=
  let s := { s with budget := s.budget.setStuck f false }
  if s.on (gf F.OP_GRANT_RAISING f) then
    (s.wr (gf F.OP_GRANT_RAISING f) 0).clockStep f (s.rd (gf F.OP_GRANT_TARGET_OP f))
  else s

/-! ### Throttles (R367-R377) -/

/-- A fast-throttle level. -/
def State.fastLvl (s : State) (k : Nat) : Nat := Sparse.get (fun _ => 0) s.budget.fast k

/-- An allocator level. -/
def State.allocLvl (s : State) (k : Nat) : Nat := Sparse.get (fun _ => 0) s.budget.alloc k

/-- The largest of some fast-throttle levels. -/
def State.fastMax (s : State) (ks : List Nat) : Nat := (ks.map s.fastLvl).foldl max 0

/-- CAP_THR shows each class's level: the largest of the allocator's, the fast throttles' and the deepest level under
TEMP_MAX, and no deeper than the class goes (R367-R369, R374, R377). (DEDUCED, log 76) -/
def State.thrUpdate (s : State) : State :=
  let hot (b lvl : Nat) : Nat := if bitOf s.budget.tempMax b then lvl else 0
  let s := s.wr F.CAP_THR_LINK_LVL (min 6 (max (s.allocLvl 0) (s.fastMax [9, 10, 11])))
  let s := s.wr F.CAP_THR_MEM_A_LVL (min 6 (max (max (s.allocLvl 1) (s.fastMax [4, 6, 8])) (hot 2 6)))
  let s := s.wr F.CAP_THR_MEM_B_LVL (min 6 (max (max (s.allocLvl 2) (s.fastMax [5, 7, 8])) (hot 3 6)))
  let s := s.wr F.CAP_THR_COMP_A_LVL (max (max (s.allocLvl 3) (s.fastMax [0, 2, 12])) (hot 0 7))
  s.wr F.CAP_THR_COMP_B_LVL (max (max (s.allocLvl 4) (s.fastMax [1, 3, 12])) (hot 1 7))

/-- The state with a fast-throttle level set. -/
def State.setFast (s : State) (k lvl : Nat) : State :=
  ({ s with budget := { s.budget with fast := Sparse.set (fun _ => 0) s.budget.fast k lvl } }).thrUpdate

/-- A limit acts: the throttle takes FAST_LVL, 0 counting as 1, or keeps a larger level (R367, R369). -/
def State.fastHit (s : State) (k : Nat) : State :=
  s.setFast k (max (s.fastLvl k) (max 1 (s.rd F.CAP_FAST_FAST_LVL)))

/-- The field of a class's hottest sensor in CAP_THERM, its maximum and its set point (R376, R377). -/
def thermField (f : Frond) (hbm : Bool) : Field :=
  match f, hbm with
  | .A, false => F.CAP_THERM_FROND_A_T
  | .B, false => F.CAP_THERM_FROND_B_T
  | .A, true => F.CAP_THERM_HBM_A_T
  | .B, true => F.CAP_THERM_HBM_B_T

/-- The bit of `tempMax` for a class. -/
def thermBit (f : Frond) (hbm : Bool) : Nat := f.idx + (if hbm then 2 else 0)

/-- A hottest-sensor reading in °C (R377): at its maximum the class goes to its deepest throttle with TEMP_MAX and
event 0x1052; below its set point the class is released. -/
def State.thermRead (s : State) (f : Frond) (hbm : Bool) (t : Int) : State :=
  let s := s.wrS (thermField f hbm) t
  let b := thermBit f hbm
  let sp : Int := s.rd (if hbm then F.CAP_THERM_HBM_SP_C else F.CAP_THERM_FROND_SP_C)
  if (if hbm then 95 else 105) ≤ t then
    let s := ({ s with budget := { s.budget with tempMax := setBitN s.budget.tempMax b } }).thrUpdate
    (s.err 0x60 3).event 0x60 0x1052
  else if t < sp then ({ s with budget := { s.budget with tempMax := clrBitN s.budget.tempMax b } }).thrUpdate
  else s

/-! ### The division of the budget (R371-R375) -/

/-- Output power of a rail, in 0.05 mW. -/
def State.railOut (s : State) (r : Nat) : Nat := ((s.rd (rf F.RAIL_MEAS_V r) : Int) * s.rdS (rf F.RAIL_MEAS_I r)).toNat

/-- Output power of some rails, 0.05 mW. -/
def State.railsOut (s : State) (rs : List Nat) : Nat := (rs.map s.railOut).foldl (· + ·) 0

/-- A class's measured power in mW: its rails' output scaled so that the classes sum to the IB load; `half` counts
half of VPP with one frond's memory (R373). -/
def State.classMw (s : State) (rs : List Nat) (vpp : Bool) : Nat :=
  let total := s.railsOut allRails
  if total = 0 then 0 else s.ibLoadMw * (2 * s.railsOut rs + (if vpp then s.railOut 8 else 0)) / (2 * total)

/-- Power over the admitted fraction (8 - level) / 8 (R373, R374). -/
def demandOf (p lvl : Nat) : Nat := p * 8 / (8 - min lvl 7)

/-- The smallest level up to `deep` that fits a share (R374). -/
def fitLevel (demand share deep : Nat) : Nat :=
  (firstWhere (fun n => decide (demand * (8 - n) ≤ share * 8)) (List.range deep)).getD deep

/-- The thermal cap of loop LS(5 + i) in mW, none while the slot is OFF (R331, R376). -/
def State.thermCap (s : State) (i : Nat) : Option Nat :=
  if s.rd (F.LS_STATE_MODE.i (5 + i)) = 0 then none
  else some ((Sparse.get (fun _ => 0) s.power.dest (4 + i) * 8000000 / q28).toNat)

/-- A share under its cap. -/
def capped (x : Nat) (cap : Option Nat) : Nat := match cap with | some c => min x c | none => x

/-- The classes in the order of CAP_CLASS.ORDER: 0 LINK, 1 MEMORY, 2 COMPUTE (R373). -/
def classOrder (o : Nat) : List Nat :=
  if o = 1 then [0, 2, 1] else if o = 2 then [1, 0, 2] else if o = 3 then [1, 2, 0]
  else if o = 4 then [2, 0, 1] else if o = 5 then [2, 1, 0] else [0, 1, 2]

/-- Allowances by R373: each class in turn receives max(floor, min(demand, remainder - floors of those to come)). -/
def serve (floor demand : Nat → Nat) : List Nat → Nat → List (Nat × Nat)
  | [], _ => []
  | c :: t, rem =>
    let later := (t.map floor).foldl (· + ·) 0
    let a := max (floor c) (min (demand c) (rem - later))
    (c, a) :: serve floor demand t (rem - a)

/-- The allowance of a class in a list. -/
def allowOf (l : List (Nat × Nat)) (c : Nat) : Nat := (assoc l c).getD 0

/-- Two shares of an allowance in proportion to demands, each under its cap, unused share passed to the other
(R375). -/
def shares (total dA dB : Nat) (capA capB : Option Nat) : Nat × Nat :=
  let a := if dA + dB = 0 then total / 2 else total * dA / (dA + dB)
  let a1 := capped (min a dA) capA
  let b1 := capped (min (total - a) dB) capB
  let a2 := capped (min (total - b1) dA) capA
  let b2 := capped (min (total - a2) dB) capB
  (max a1 a2, max b1 (min b2 (total - max a1 a2)))

/-- The throttle level in force of a frond's compute, and of its memory. -/
def State.compLvl (s : State) (f : Frond) : Nat :=
  s.rd (match f with | .A => F.CAP_THR_COMP_A_LVL | .B => F.CAP_THR_COMP_B_LVL)

/-- See `compLvl`. -/
def State.memLvl (s : State) (f : Frond) : Nat :=
  s.rd (match f with | .A => F.CAP_THR_MEM_A_LVL | .B => F.CAP_THR_MEM_B_LVL)

/-- A frond's compute power at point `k`, mW: P_meas × rel(k) / rel(now) / f_adm (R375). -/
def State.compAt (s : State) (f : Frond) (k : Nat) : Nat :=
  let p := s.classMw [f.idx, 2 + f.idx] false
  let now := s.opRel (s.rd (gf F.OP_GRANT_CLOCK_OP f))
  if s.frondFenced f.idx ∨ now = 0 then 0 else demandOf p (s.compLvl f) * s.opRel k / now

/-- The budget limit of a frond for a share: the highest point that fits, 0 when none does (R375). -/
def State.limOp (s : State) (f : Frond) (share : Nat) : Nat :=
  ((List.range 16).filter (fun k => decide (s.compAt f k ≤ share))).foldl max 0

/-- The burst bucket after some microseconds at the present load (R371): its energy in 0.25 µJ, and BURST. -/
def State.bucketStep (s : State) (us : Nat) : State :=
  let sust := s.rd F.CAP_MODULE_SUST_W
  let cap := (s.rd F.CAP_MODULE_PEAK_W - sust) * s.rd F.CAP_MODULE_PEAK_MS * 4000
  let e : Int := s.budget.bucket + (4 * (sust : Int) - s.rdS F.PWR_MEAS_IB_LOAD) * us
  let e := (clampInt 0 cap e).toNat
  let burst := if e = 0 then false else if cap ≤ e then true else s.budget.burst
  (({ s with budget := { s.budget with bucket := e, burst := burst } }).wr F.CAP_STATUS_BUCKET (e / 40000)).wr
    F.CAP_STATUS_BURST (b2n burst)

/-- The allocator's period (R371-R375): the budget B, the classes' demands, floors and allowances, levels and the
fronds' budget limits. -/
def State.allocate (s : State) (us : Nat) : State :=
  let s := s.bucketStep us
  let lSust := (if s.budget.burst then s.rd F.CAP_MODULE_PEAK_W else s.rd F.CAP_MODULE_SUST_W) * 1000
  let src := s.sourceMw
  let b := min lSust src
  let linkD := demandOf (s.classMw [9, 10, 11] false) (s.rd F.CAP_THR_LINK_LVL)
  let memA := demandOf (s.classMw [4, 6] true) (s.memLvl .A)
  let memB := demandOf (s.classMw [5, 7] true) (s.memLvl .B)
  let compA := s.compAt .A s.prefOp
  let compB := s.compAt .B s.prefOp
  let demand (c : Nat) : Nat := if c = 0 then linkD else if c = 1 then memA + memB else compA + compB
  let floor (c : Nat) : Nat :=
    if c = 0 then linkD * 2 / 8 else if c = 1 then (memA + memB) * 2 / 8
    else (s.compAt .A 0 + s.compAt .B 0) / 8
  let short := decide (b < floor 0 + floor 1 + floor 2)
  let alw := if short then [(0, floor 0), (1, floor 1), (2, floor 2)]
    else serve floor demand (classOrder (s.rd F.CAP_CLASS_ORDER)) b
  let (mA, mB) := shares (allowOf alw 1) memA memB (s.thermCap 2) (s.thermCap 3)
  let (cA, cB) := shares (allowOf alw 2) compA compB (s.thermCap 0) (s.thermCap 1)
  let reason (i share : Nat) : Nat :=
    if s.thermCap i = some share then 4 else if src < lSust then 3 else 2
  let kA := s.limOp .A cA
  let kB := s.limOp .B cB
  let alloc : Sparse Nat := [(0, fitLevel linkD (allowOf alw 0) 6), (1, fitLevel memA mA 6), (2, fitLevel memB mB 6),
    (3, if kA = 0 then fitLevel (s.compAt .A 0) cA 7 else 0), (4, if kB = 0 then fitLevel (s.compAt .B 0) cB 7 else 0)]
  let s := { s with budget := { s.budget with
    alloc := alloc.filter (fun e => e.2 != 0), limA := (kA, reason 0 cA), limB := (kB, reason 1 cB) } }
  let s := ((s.wrSat F.CAP_STATUS_BUDGET_W (b / 1000)).wrSat F.CAP_STATUS_SOURCE_W (src / 1000)).wr F.CAP_STATUS_OVER
    (b2n short)
  let s := ((s.wrSat F.CAP_ALLOC_LINK_W (allowOf alw 0 / 1000)).wrSat F.CAP_ALLOC_MEM_W (allowOf alw 1 / 1000)).wrSat
    F.CAP_ALLOC_COMP_W (allowOf alw 2 / 1000)
  let s := ((s.wrSat F.CAP_DEMAND_LINK_W (linkD / 1000)).wrSat F.CAP_DEMAND_MEM_W ((memA + memB) / 1000)).wrSat
    F.CAP_DEMAND_COMP_W ((compA + compB) / 1000)
  let s := s.thrUpdate
  if short then (s.err 0x60 2).event 0x60 0x1053 else s

/-! ### Counted activity (R378) -/

/-- The classes whose coefficient scales with the square of the VC voltage (R378). -/
def clsScaled (i : Nat) : Bool := i ≤ 3 || (decide (5 ≤ i) && decide (i ≤ 7)) || i == 11

/-- The weight of `n` counts of class `i` on frond `f`: n × V² for a scaled class, n × 1,500² for another. -/
def State.actWeight (s : State) (f : Frond) (i n : Nat) : Nat :=
  let v := if clsScaled i then s.rd (rf F.RAIL_MEAS_V (vcRail f)) else 1500
  n * v * v

/-- Weights of one holder and class join. -/
def actAdd (a : Act) : List Act → List Act
  | [] => [a]
  | x :: t => if x.ctx = a.ctx ∧ x.dom = a.dom ∧ x.cls = a.cls then { x with w := x.w + a.w } :: t
      else x :: actAdd a t

/-- `n` counts of activity class `i` on frond `f`, charged to a context (with its generation), a domain, or neither
(R378); during a chip reset the fronds count nothing (R381). -/
def State.activity (s : State) (f : Frond) (i n : Nat) (ctx : Option (Nat × Nat)) (dom : Option Nat) : State :=
  if s.frondReset then s else
  let w := s.actWeight f i n
  let s := s.inc (F.ATTR_COUNT_COUNT.i i) n
  { s with budget := { s.budget with
      acts := actAdd ⟨ctx, dom, i, w⟩ s.budget.acts
      actStep := Sparse.set (fun _ => 0) s.budget.actStep i (Sparse.get (fun _ => 0) s.budget.actStep i + w) } }

/-- The price of a weight in pJ: times the coefficient, over 1,500². -/
def State.actPrice (s : State) (i w : Nat) : Nat := w * s.rd (F.ATTR_COEF_COEF.i i) / 2250000

/-- The priced activity of the present step, pJ (R319). -/
def State.stepPj (s : State) : Nat := (s.budget.actStep.map (fun e => s.actPrice e.1 e.2)).foldl (· + ·) 0

/-! ### The coefficient fit (R380) -/

/-- A fit window starts. -/
def State.fitStart (s : State) : State :=
  (({ s with budget := { s.budget with fitSteps := [] } }).wr F.ATTR_FIT_STATE 1).wr F.ATTR_FIT_PROGRESS 0

/-- A new coefficient of class `i` from the fit: a free value within 0.25 to 4.0 times the factory value; a class that
saw no activity keeps its value (R380). -/
def State.fitCoef (s : State) (i : Nat) : State :=
  let seen := s.budget.fitSteps.any (fun e => Sparse.get (fun _ => 0) e.1 i != 0)
  let fac := s.rd (F.ATTR_COEF_FACTORY.i i)
  if seen then (s.wr (F.ATTR_COEF_COEF.i i) (clampNat ((fac + 3) / 4) (4 * fac) s.free)).drawn else s

/-- The energy that a step's weights explain under the coefficients, nJ. -/
def State.fitNj (s : State) (ws : Sparse Nat) : Int :=
  ((ws.map (fun e => s.actPrice e.1 e.2)).foldl (· + ·) 0 : Nat) / 1000

/-- The residual of E_meas - BASE_W × t in the window exceeds DIV_PCT of its E_meas (R380). -/
def State.fitBad (s : State) (l : List (Sparse Nat × Int × Int)) : Bool :=
  let res := (l.map (fun e => (e.2.1 - e.2.2 - s.fitNj e.1).natAbs)).foldl (· + ·) 0
  let tot := (l.map (fun e => e.2.1.natAbs)).foldl (· + ·) 0
  decide (max 1 (s.rd F.PWR_DIV_DIV_PCT) * tot < 100 * res)

/-- A collected window is applied at a step start: ATTR_FIT_APPLY (R380). -/
def State.fitApply (s : State) : State :=
  if s.rd F.ATTR_FIT_STATE = 1 ∧ s.rd F.ATTR_FIT_STEPS ≤ s.rd F.ATTR_FIT_PROGRESS then
    let t := (List.range 12).foldl State.fitCoef s
    if t.fitBad t.budget.fitSteps then
      let s := { s with draws := t.draws }
      let s := ((s.wr F.ATTR_CTRL_FIT_REQ 0).err 0x62 1).event 0x62 0x1061
      if s.on F.PWR_STATUS_FF_DIVERGE then s.fitStart else s.wr F.ATTR_FIT_STATE 3
    else ((t.wr F.ATTR_FIT_STATE 2).wr F.ATTR_CTRL_FIT_REQ 0).event 0x62 0x1060
  else s

/-- A step that ends joins a window under way: its weights, E_meas and BASE_W × t in nJ. -/
def State.fitCollect (s : State) (eMeas baseNj : Int) : State :=
  if s.rd F.ATTR_FIT_STATE = 1 then
    ({ s with budget := { s.budget with fitSteps := (s.budget.actStep, eMeas, baseNj) :: s.budget.fitSteps } }).wrSat
      F.ATTR_FIT_PROGRESS (s.rd F.ATTR_FIT_PROGRESS + 1)
  else s

end Sys2Proof.Machine
end

