-- ==== Sys2Proof/Machine/Budget.lean ====
section
/-! DEFINITION. The commands of the arbiter, the fast limits, the allocator and the coefficient fit (R363-R380), but
for reconciliation. -/

namespace Sys2Proof.Machine

/-- ARBITER_EVALUATION (R364). -/
def execArbiterEvaluation (s : State) : Host.Outcome State Fault Refusal := .next s.arbBoth

/-- RAISE_TIMEOUT (R365): VC is commanded back to the clock's point, and the grant is held there. -/
def execRaiseTimeout (f : Frond) (s : State) : Host.Outcome State Fault Refusal :=
  if s.on (gf F.OP_GRANT_RAISING f) then
    let k := s.rd (gf F.OP_GRANT_CLOCK_OP f)
    let s := ((s.wr (gf F.OP_GRANT_RAISING f) 0).wr (gf F.OP_GRANT_TARGET_OP f) k).wr (gf F.OP_GRANT_GRANT_OP f) k
    let s := { s with budget := s.budget.setStuck f true }
    .next ((s.err 0x61 0).opCommand f k)
  else .next s

/-- FAST_HOLD_END (R370). -/
def execFastHoldEnd (f : Frond) (s : State) : Host.Outcome State Fault Refusal :=
  .next { s with budget := s.budget.setHold f none }

/-- The current limit of a rail in 0.1 A: the lower of ILIM and the derated maximum current (R367). -/
def State.railLimit (s : State) (r : Nat) : Nat :=
  min (s.rd (F.CAP_RAIL_ILIM.i r)) (10 * s.rd (rf F.RAIL_STATUS_IMAX r))

/-- A fast throttle on a compute rail lowers the frond's grant by one point at the arbiter's next evaluation (R370).
(DESIGN CHOICE, log 51) -/
def State.fastHold (s : State) (r : Nat) : State :=
  if r < 4 then
    let f := Frond.at (r % 2)
    { s with budget := s.budget.setHold f (some (s.rd (gf F.OP_GRANT_GRANT_OP f) - 1)) }
  else s

/-- RAIL_FAST_THROTTLE (R367): `avg` is the rail's 2 µs average, signed 0.1 A. -/
def execRailFastThrottle (rail : Fin 12) (avg : BitVec 16) (s : State) : Host.Outcome State Fault Refusal :=
  let s := s.wr (F.CAP_RAIL_I_AVG.i rail) avg.toNat
  if (s.railLimit rail : Int) < avg.toInt then
    let s := (s.fastHit rail).setBit F.CAP_FT_FT_ACTIVE rail
    let s := (s.setBit F.CAP_FT_FT_SEEN rail).incSat F.CAP_FT_COUNT_RAIL
    .next (((s.err 0x60 1).event 0x60 0x1050).fastHold rail)
  else .next s

/-- MODULE_FAST_LIMIT (R368): `load` is the IB load averaged over 20 µs, in mW. (DESIGN CHOICE, log 51) -/
def execModuleFastLimit (load : Nat) (s : State) : Host.Outcome State Fault Refusal :=
  if min (s.rd F.CAP_MODULE_PEAK_W * 1000) s.sourceMw < load then
    let s := (s.fastHit 12).wr F.CAP_FT_MOD_ACTIVE 1
    let s := (s.wr F.CAP_FT_MOD_SEEN 1).incSat F.CAP_FT_COUNT_MOD
    .next ((s.err 0x60 0).event 0x60 0x1051)
  else .next s

/-- FAST_THROTTLE_RELEASE (R369): one level lifts, of a rail's throttle or of the module limit's. -/
def execFastThrottleRelease (src : Option (Fin 12)) (s : State) : Host.Outcome State Fault Refusal :=
  let k := match src with | some r => r.val | none => 12
  let lvl := s.fastLvl k - 1
  let s := s.setFast k lvl
  if lvl = 0 then
    .next (match src with | some r => s.clrBit F.CAP_FT_FT_ACTIVE r | none => s.wr F.CAP_FT_MOD_ACTIVE 0)
  else .next s

/-- BUDGET_ALLOCATION (R371-R375), `elapsedUs` after the last one. -/
def execBudgetAllocation (elapsedUs : Nat) (s : State) : Host.Outcome State Fault Refusal :=
  .next (if s.coresHand then s else s.allocate elapsedUs)

/-- TEMP_MAX_THROTTLE (R377): a hottest-sensor reading in °C. -/
def execTempMaxThrottle (f : Frond) (hbm : Bool) (tempC : BitVec 8) (s : State) : Host.Outcome State Fault Refusal :=
  .next (s.thermRead f hbm tempC.toInt)

/-- ATTR_FIT_REQ (R380): a window starts, unless one is being collected. (DESIGN CHOICE, log 51) -/
def execAttrFitReq (r : Req) (s : State) : Host.Outcome State Fault Refusal :=
  .next (s.cmdAt r F.ATTR_CTRL_FIT_REQ true (fun s =>
    let s := s.wr F.ATTR_CTRL_FIT_REQ 1
    if s.rd F.ATTR_FIT_STATE = 1 then s else s.fitStart))

end Sys2Proof.Machine
end

