-- ==== Sys2Proof/Machine/RegWrite.lean ====
section
/-! DEFINITION. A write of a whole register: each field under its own access code, with the partial write of R10 and
R11, CFG_LOCK (R546) and the static clamps. -/

namespace Sys2Proof.Machine

/-- A field of a written word: the value it takes, and whether the write would act on a field that is L0 only. -/
def fieldMerge (l0 lock : Bool) (f : FieldSpec) (old new : Nat) : Nat × Bool :=
  let shut := !l0 && (f.l0 || f.acc == .rw0 || (lock && f.acc == .rw))
  match f.acc with
  | .ro => (old, false)
  | .wo => (0, shut)
  | .w1s => (old, shut && new != 0)
  | .w1c => if shut then (old, new != 0) else ((BitVec.ofNat 64 old &&& ~~~ BitVec.ofNat 64 new).toNat, false)
  | _ => if shut then (old, old != new)
      else (match f.clamp with | some c => clampNat c.1 c.2 new | none => new, false)

/-- A field of a table row as a place in its word. -/
def placeOf (f : FieldSpec) : Field := ⟨0, 0, 0, 0, f.hi, f.lo⟩

/-- CFG_LOCK of a page (R546). -/
def State.cfgLock (s : State) (p : Nat) : Bool := s.on (F.BLK_CTRL_CFG_LOCK.pg p)

/-- The word that a register which reads `old` takes when `v` is written at a level, and whether the write is a privilege
error (R10, R11). -/
def State.mergeFrom (s : State) (l0 : Bool) (key : Nat) (old v : Word) : Word × Bool :=
  match lookupReg key with
  | none => (old, false)
  | some (_, row, _, _) =>
    let lock := s.cfgLock (key / 4096) && (decide (0x100 ≤ key % 4096) || key % 4096 == 0x040)
    row.fields.foldl (fun a f =>
      let m := fieldMerge l0 lock f ((placeOf f).get a.1) ((placeOf f).get v)
      ((placeOf f).put a.1 m.1, a.2 || m.2)) (old, false)

/-- The word that a stored register takes. -/
def State.mergeWord (s : State) (l0 : Bool) (key : Nat) (v : Word) : Word × Bool := s.mergeFrom l0 key (s.reg key) v

/-- A write of a whole register by `r`: refused and recorded where the page refuses it; otherwise `act` receives the
merged word, and a privilege error is recorded after it (R10, R11, R539, R540). -/
def State.cmdWord (s : State) (r : Req) (key : Nat) (v : Word) (act : Word → State → State) : State :=
  match s.pageFault r (key / 4096) true with
  | some reason => s.accessError r (key / 4096) (key % 4096) reason
  | none =>
    let m := s.mergeWord (r.level == .L0) key v
    let s := act m.1 s
    if m.2 then s.fieldPriv r (key / 4096) (key % 4096) else s

/-- A write by `r` of a field or word that is L0 only: one that carries the value held (`same`) is no error (R11). -/
def State.cmdHeld (s : State) (r : Req) (f : Field) (same : Bool) (act : State → State) : State :=
  if same && r.level != .L0 then s.cmd r f.page f.off false id else s.cmd r f.page f.off true act

end Sys2Proof.Machine
end

