-- ==== Sys2Proof/Machine/WorkOps.lean ====
section
/-! DEFINITION. Contexts, partitions and protection domains as other families see them: accessors, the state that
R200 and R201 report, the rights of a domain and the checks of an access (R216, R229, R257), and the unit records of
tiles and engines. -/

namespace Sys2Proof.Machine

/-! ### Partitions (R223) -/

/-- The (context, generation) that activity is attributed to, none for a FREE context (R378). -/
def State.ctxTag (s : State) (c : Nat) : Option (Nat × Nat) :=
  let x := s.ctx c
  if x.alloc then some (c, x.gen) else none

/-! ### Rights (R227-R231) -/

/-- A window is valid and grants the right of bit `right` of its size word (40 X, 39 W, 38 R) at page `pg` of the
50-bit space. -/
def winGrants (base size : Word) (right pg : Nat) : Bool :=
  let b := base.toNat / 4096 % 2 ^ 38
  let n := size.toNat % 2 ^ 38
  bitOf size.toNat 63 && decide (1 ≤ n) && decide (b + n ≤ 2 ^ 38) && bitOf size.toNat right
    && decide (b ≤ pg) && decide (pg < b + n)

/-- A window that is in use and breaks the rules of R227. -/
def winBad (base size : Word) : Bool :=
  let n := size.toNat % 2 ^ 38
  bitOf size.toNat 63 && (n == 0 || decide (2 ^ 38 < base.toNat / 4096 % 2 ^ 38 + n))

/-- Some window of the settings grants the right at the page; overlapping rights add. (DESIGN CHOICE, log 36) -/
def DomSet.grants (d : DomSet) (right pg : Nat) : Bool :=
  d.size.any (fun e => winGrants (Sparse.get (fun _ => 0) d.base e.1) e.2 right pg)

/-- The settings hold an invalid window in use. -/
def DomSet.bad (d : DomSet) : Bool := d.size.any (fun e => winBad (Sparse.get (fun _ => 0) d.base e.1) e.2)

/-- The module's own index (R246). -/
def State.modIdx (s : State) : Nat := s.rd F.LINK_ID_MOD_INDEX

/-- A local address as a global one (R173). -/
def State.globalOf (s : State) (a : Nat) : Nat := s.modIdx * 2 ^ 44 + a

/-- The built partitions of a domain. -/
def State.domParts (s : State) (d : Nat) : List Nat :=
  (List.range 64).filter (fun p => s.partState p == 2 && s.partDomain p == d)

/-- R and W that a domain holds over the tile windows and tile counters of its built partitions' tiles (R229). -/
def State.domTile (s : State) (d a : Nat) : Bool :=
  if 0xC0000000000 ≤ a ∧ a < 0xC0200000000 then
    let f := Frond.at ((a - 0xC0000000000) / 0x100000000)
    let t := (a - 0xC0000000000) % 0x100000000 / 0x1000000
    (s.domParts d).any (fun p => s.partFrond p == f && (s.partTiles p).contains t)
  else false

/-- W that a domain holds over the submission slots of contexts bound to its built partitions (R229). -/
def State.domSlot (s : State) (d a : Nat) : Bool :=
  if 0xE1000000000 ≤ a ∧ a < 0xE1000400000 then
    let x := s.ctx ((a - 0xE1000000000) / 64)
    x.alloc && (s.domParts d).contains x.part
  else false

/-- The domain's active settings grant a right over part of one 4 KB page, `n` bytes from global address `g`. -/
def State.domPage (s : State) (d right g n : Nat) : Bool :=
  (s.dom d).active.grants right (g / 4096)
    || (g / 2 ^ 44 % 64 == s.modIdx && right != 40
        && (s.domTile d (g % 2 ^ 44)
            || (right == 39 && (List.range ((g % 64 + n + 63) / 64)).all (fun i => s.domSlot d ((g / 64 + i) * 64 % 2 ^ 44)))))

/-- The parts of `n` bytes from `a` that lie in one aligned block of `size` bytes each. -/
def spans (size : Nat) : Nat → Nat → Nat → List (Nat × Nat)
  | 0, _, _ => []
  | _, _, 0 => []
  | fuel + 1, a, n + 1 =>
    let k := min (n + 1) (size - a % size)
    (a, k) :: spans size fuel (a + k) (n + 1 - k)

/-- The domain is permitted the right at every byte (R229). Domain 0 binds nothing (R227). -/
def State.domMay (s : State) (d right g n : Nat) : Bool :=
  d != 0 && (s.dom d).active.enable && (spans 4096 (n / 4096 + 2) g n).all (fun e => s.domPage d right e.1 e.2)

/-- The rights by their bits in DOM_WIN_SIZE. -/
def rightX : Nat := 40

def rightW : Nat := 39

def rightR : Nat := 38

/-! ### Sessions and remote admission -/

/-- The bit of LINK_ADMIT.REGIONS for a local address; none for register space and what lies beyond (R257). -/
def regionBit (a : Nat) : Option Nat :=
  if a < 0xC0000000000 then some 0
  else if a < 0xD0000000000 then some 1
  else if a < 0xE0000000000 then some 4
  else if a < 0xE1000000000 then some 2
  else if a < 0xF0000000000 then some 3
  else none

/-- The destination admits a request of module `m` to a local address (R257). -/
def State.admits (s : State) (m a : Nat) : Bool :=
  match regionBit a with
  | none => false
  | some b => s.on (F.LINK_ADMIT_ALLOW.i m) && bitOf (s.rd (F.LINK_ADMIT_REGIONS.i m)) b

/-- An accessor passes the check that its kind undergoes for `n` bytes at a local address: a control core and a host
session at L0 or L1 none, an L2 session its domain, an engine or tile the domain of its context, a remote module the
admission tables (R218, R229, R230, R257, R292). -/
def State.mayAccess (s : State) (who : Accessor) (right a n : Nat) : Bool :=
  match who with
  | .core _ _ => true
  | .engine _ c => s.domMay (s.ctxDom c.toNat) right (s.globalOf a) n
  | .tile _ c => s.domMay (s.ctxDom c.toNat) right (s.globalOf a) n
  | .remote m _ => s.admits m.toNat a
  | .host slot =>
    let x := s.sess slot.val
    x.open_ && (x.level != .L2 || s.domMay x.domain right (s.globalOf a) n)

/-- The frond from which an accessor reaches the fabric: a remote request that of its port; a host session reaches either
frond directly (R144, R274). (DESIGN CHOICE, log 28) -/
def accFrond : Accessor → Option Nat
  | .core f _ => some f.idx
  | .engine f _ => some f.idx
  | .tile f _ => some f.idx
  | .remote _ f => some f.idx
  | .host _ => none

/-- SUB_LAST_REJECT.SOURCE of an accessor (R235). -/
def accSource : Accessor → Nat
  | .core _ _ => 0
  | .engine _ _ => 1
  | .tile _ _ => 2
  | .remote _ _ => 3
  | .host _ => 4

/-- A check that failed leaves its mark: a remote refusal raises ADMIT_REJECT (R257). -/
def State.refusedBy (s : State) (who : Accessor) : State :=
  match who with
  | .remote _ _ => s.err 0x28 1
  | _ => s

/-! ### Signal counters (R219-R221) -/

def State.counterWord (s : State) (n : Nat) : Nat := Sparse.get (fun _ => 0) s.work.counters n

def State.setCounterWord (s : State) (n v : Nat) : State :=
  { s with work := { s.work with counters := Sparse.set (fun _ => 0) s.work.counters n v } }

/-- The value of a counter. -/
def State.counter (s : State) (n : Nat) : Nat := s.counterWord n % 2 ^ 32

/-- A counter's EXTERNAL bit. -/
def State.counterExt (s : State) (n : Nat) : Bool := bitOf (s.counterWord n) 32

/-- The counter takes a value; EXTERNAL stays. -/
def State.counterSet (s : State) (n v : Nat) : State :=
  s.setCounterWord n (s.counterWord n / 2 ^ 32 * 2 ^ 32 + v % 2 ^ 32)

/-- The counter rises, wrapping. -/
def State.counterAdd (s : State) (n v : Nat) : State := s.counterSet n (s.counter n + v)

/-- EXTERNAL takes a value; the counter stays. -/
def State.counterSetExt (s : State) (n : Nat) (b : Bool) : State :=
  s.setCounterWord n (b2n b * 2 ^ 32 + s.counter n)

/-- A tile counter rises, wrapping. -/
def State.tcAdd (s : State) (f : Frond) (p n v : Nat) : State := s.wr (tcnt f p n) (s.rd (tcnt f p n) + v)

end Sys2Proof.Machine
end

