-- ==== Sys2Proof/Machine/Attrib.lean ====
section
/-! DEFINITION. Energy attribution (R233, R378-R381): the reconciliation of counted activity with the measured load. -/

namespace Sys2Proof.Machine

/-- The priced values of the interval, pJ, with who they are charged to; activity of a context whose generation has changed
is charged to its domain only (R381). -/
def State.priced (s : State) : List (Option Nat × Option Nat × Nat) :=
  s.budget.acts.map (fun a =>
    (match a.ctx with
      | some (c, g) => if (s.ctx c).gen = g then some c else none
      | none => none,
     a.dom, s.actPrice a.cls a.w))

/-- A priced value has a context or a domain to charge. -/
def isCharged (e : Option Nat × Option Nat × Nat) : Bool := e.1.isSome || e.2.1.isSome

/-- The sum of priced values. -/
def priceSum (l : List (Option Nat × Option Nat × Nat)) : Nat := (l.map (fun e => e.2.2)).foldl (· + ·) 0

/-- A context's and a domain's counters take one charge; the domain receives its contexts' shares (R233). -/
def State.chargeOne (s : State) (e : Option Nat × Option Nat × Nat) : State :=
  let s := match e.1 with
    | some c => s.updCtx c (fun x => { x with energy := x.energy + e.2.2 })
    | none => s
  match e.2.1 with
  | some d => s.setDom d { s.dom d with energy := (s.dom d).energy + e.2.2 }
  | none => s

/-- Every priced value times `num / den`. -/
def scaleBy (num den : Nat) (l : List (Option Nat × Option Nat × Nat)) : List (Option Nat × Option Nat × Nat) :=
  l.map (fun e => (e.1, e.2.1, e.2.2 * num / den))

/-- k of R379 in Q16.16 while feed-forward has diverged, and 1 otherwise; with nothing counted the quotient has no value.
(DESIGN CHOICE, log 50) -/
def State.attrScale (s : State) (measPj : Int) (total : Nat) : Nat :=
  if !s.on F.PWR_STATUS_FF_DIVERGE then 65536
  else
    let base : Int := (s.rd F.ATTR_BASE_BASE_W * (s.now - s.power.intSince) * 4000 : Nat)
    let q := if total = 0 then s.free else ((measPj - base) * 65536 / (total : Int)).toNat
    clampNat 16384 262144 q

/-- ENERGY_RECONCILE (R379). (DESIGN CHOICE, log 50) -/
def State.reconcile (s : State) : State :=
  let all := s.priced
  let meas := s.power.eInt * 1000
  let k := s.attrScale meas (priceSum all)
  let s := if s.on F.PWR_STATUS_FF_DIVERGE && priceSum all == 0 then s.drawn else s
  let charged := if s.on F.ATTR_CTRL_EN then scaleBy k 65536 (all.filter isCharged) else []
  let sum := priceSum charged
  let neg := decide (meas < (sum : Int))
  let charged := if neg then scaleBy meas.toNat sum charged else charged
  let un := if neg then 0 else (meas - (sum : Int)).toNat
  let s := charged.foldl State.chargeOne s
  let s := s.wr F.ATTR_SCALE_K k
  let s := (s.wrSat F.ATTR_LAST_CHARGED ((if neg then meas.toNat else sum) / 1000000000)).wrSat F.ATTR_LAST_UNATTR (un / 1000000000)
  let s := { s with budget := { s.budget with acts := [], unattr := s.budget.unattr + un }
                    power := { s.power with eInt := 0, intSince := s.now } }
  let s := s.wr F.ATTR_UNATTR_UJ (s.budget.unattr / 1000000)
  s.when neg (fun s => s.err 0x62 0)

/-- ENERGY_RECONCILE (R379). -/
def execEnergyReconcile (s : State) : Host.Outcome State Fault Refusal := .next s.reconcile

end Sys2Proof.Machine
end

