-- ==== Sys2Proof/Machine/RouteOps.lean ====
section
/-! DEFINITION. Henyr ports, routing and the issue of transactions: what a transaction that leaves this module does to a
port, the tracker and the write groups (R236-R263). -/

namespace Sys2Proof.Machine

/-! ### Ports (R237-R245) -/

def portDefault : Nat → PortUnit := fun _ => PortUnit.init

def State.port (s : State) (p : Nat) : PortUnit := Sparse.get portDefault s.link.ports p

def State.setPort (s : State) (p : Nat) (u : PortUnit) : State :=
  { s with link := { s.link with ports := Sparse.set portDefault s.link.ports p u } }

/-- The frond of a port. -/
def portFrond (p : Nat) : Frond := Frond.at (p / 12)

/-- The frond from which a port's requests reach the fabric (R144, R236). -/
def portFrm (p : Nat) : Option Nat := some (portFrond p).idx

/-- A field of a frond's LINKF page. -/
def lf (g : Field) (f : Frond) : Field := g.pg (frondPg f 0x1C0)

/-- UP_X4 or UP_X2: the port carries traffic (R241). -/
def State.portUp (s : State) (p : Nat) : Bool := s.portState p == 2 || s.portState p == 3

/-- The key of a slot and its domain, none for an empty slot: stored as key + 1 so that 0 stands for empty (R191). -/
def State.cryptoKey (s : State) (f : Frond) (slot : Nat) : Option (Nat × Nat) :=
  match Sparse.get (fun _ => (0, 0)) s.ring.keys (f.idx * 32 + slot) with
  | (0, _) => none
  | (k + 1, d) => some (k, d)

/-- The key that an encrypted port uses, plus 1; 0 when its slot is empty (R240). (DESIGN CHOICE, log 38) -/
def State.portKey (s : State) (p : Nat) : Nat :=
  match s.cryptoKey (portFrond p) (s.rd (pf F.LPORT_CFG_KEY_SLOT p)) with
  | none => 0
  | some k => k.1 + 1

/-- The bytes of a transaction in a flit's body, less the tag of an encrypted one (R237, R240). -/
def bodyRoom (crypt : Bool) : Nat := if crypt then 232 else 248

/-- The flits of a transaction of so many data bytes. A transaction begins a flit of its own. (DESIGN CHOICE, log 38) -/
def flitsOf (crypt : Bool) (bytes : Nat) : Nat := let b := bodyRoom crypt; (32 + bytes + b - 1) / b

/-- Flits that wait for room in the replay buffer. -/
def PortUnit.queued (u : PortUnit) : Nat := sumNat (u.queue.map (fun e => flitsOf u.crypt e.2.1.data.length))

/-! ### Bytes on the wire (R236, R237, R240, R253) -/

/-- The header words H0 to H3 (R253). -/
def txnWords (t : Txn) : List Nat :=
  [t.opc.toNat * 2 ^ 56 + t.dest.toNat * 2 ^ 50 + t.src.toNat * 2 ^ 44 + t.srcFrond.idx * 2 ^ 43 + t.trk.toNat * 2 ^ 28
      + t.gen.toNat * 2 ^ 16 + t.issue.toNat,
    (t.len.toNat - 1) % 2 ^ 12 * 2 ^ 52 + t.age.toNat * 2 ^ 44 + t.addr.toNat,
    b2n t.dl * 2 ^ 57 + b2n t.esc * 2 ^ 56 + t.status.toNat * 2 ^ 52 + t.aop.toNat * 2 ^ 48 + t.afmt.toNat * 2 ^ 46
      + t.coll.toNat * 2 ^ 32 + t.aux.toNat,
    t.h3.toNat]

/-- The bytes of a transaction: its header, little-endian, then its data (R236, R253). -/
def txnWire (t : Txn) : List Nat := (txnWords t).flatMap (leBytes 8) ++ t.data.map BitVec.toNat

/-- A list cut or filled with zeros to `n` bytes. -/
def padTo (n : Nat) (l : List Nat) : List Nat := (l ++ List.replicate n 0).take n

/-- A flit of 256 bytes: FTYPE, VC, SEQ and ACK, the body, and CRC-32C over bytes 0-251 (R237). -/
def flitBytes (ftype vc seq ack : Nat) (body : List Nat) : List Nat :=
  let l := leBytes 4 (ftype * 2 ^ 28 + vc * 2 ^ 24 + seq * 2 ^ 12 + ack) ++ padTo 248 body
  l ++ leBytes 4 (crc32c l)

/-- SEQ of the last DATA flit received in order, the ACK of every flit (R237). -/
def PortUnit.ack (u : PortUnit) : Nat := (u.rxSeq + 4095) % 4096

/-- The IV of an encrypted body: the key epoch, then the flit count of the direction, little-endian (R240).
(DESIGN CHOICE, log 38) -/
def PortUnit.iv (u : PortUnit) (count : Nat) : List Nat := leBytes 4 u.epoch ++ leBytes 8 count

/-- A DATA body as it goes out: plain, or under AES-256-GCM with its tag in the last 16 bytes (R240). -/
def PortUnit.seal (u : PortUnit) (count : Nat) (body : List Nat) : List Nat :=
  if u.crypt then
    let keys := aesKeys (leBytes 32 (u.key - 1))
    let c := gcmStream keys (u.iv count) (padTo 232 body)
    c ++ gcmTag keys (u.iv count) [] c
  else body

/-- Flit `i` of a transaction in the replay buffer. -/
def PortUnit.dataFlit (u : PortUnit) (e : SentTxn) (i : Nat) : List Nat :=
  let b := bodyRoom u.crypt
  flitBytes 1 e.vc ((e.seq + i) % 4096) u.ack (u.seal (e.count + i) (((txnWire e.txn).drop (b * i)).take b))

/-- Flits of a transaction from number `i` on are put out, in order. -/
def State.flitsPut (s : State) (p : Nat) (e : SentTxn) (i : Nat) : State :=
  ((List.range e.flits).drop i).foldl (fun s k => s.put (.flit p ((s.port p).dataFlit e k))) s

/-! ### Ages (R262) -/

/-- The AGE at which a transaction is discarded (R262). -/
def State.ageLimit (s : State) : Nat := s.rd F.LINK_CTRL_TRK_TIMEOUT_MS * 1000 / 256 - 1

/-- The transaction has aged: it is discarded, and counted on a frond. -/
def State.agedDrop (s : State) (f : Frond) : State := (s.incSat (lf F.TRK_COUNTS_AGED f)).err (frondPg f 0x1C0) 2

def State.aged (s : State) (t : Txn) : Bool := decide (s.ageLimit ≤ t.age.toNat)

/-- AGE takes a hold since a PHASE_TIME: nothing up to 10 µs, else units of 256 µs rounded up, saturating (R262). -/
def State.ageBy (s : State) (t : Txn) (since : Nat) : Txn :=
  let held := s.now - since
  if held ≤ 2500 then t else { t with age := BitVec.ofNat 8 (min 255 (t.age.toNat + (held + 63999) / 64000)) }

/-! ### The transmit queue (R238) -/

/-- One transaction leaves the queue for the replay buffer and the wire; one that has aged is discarded (R237, R262). -/
def State.portTx (s : State) (p : Nat) (e : Nat × Txn × Nat) : State :=
  let t := s.ageBy e.2.1 e.2.2
  if s.aged t then s.agedDrop (portFrond p)
  else
    let u := s.port p
    let n := flitsOf u.crypt t.data.length
    let x : SentTxn := ⟨u.txSeq, n, e.1, t, s.now, u.txCount⟩
    let s := s.setPort p { u with
      sent := u.sent ++ [x], unacked := u.unacked + n, txSeq := (u.txSeq + n) % 4096, txCount := (u.txCount + n) % 2 ^ 64 }
    (s.flitsPut p x 0).inc (pf F.LPORT_TX_FLITS_COUNT p) n

/-- Transactions of the queue leave, oldest first, while their flits fit in the replay buffer of 2,048; the rest waits. -/
def State.portPumpOf (s : State) (p : Nat) : List (Nat × Txn × Nat) → State
  | [] => s
  | e :: l =>
    let u := s.port p
    if u.unacked + flitsOf u.crypt e.2.1.data.length ≤ 2048 then State.portPumpOf (s.portTx p e) p l
    else s.setPort p { u with queue := e :: l }

/-- Transactions that wait enter the replay buffer and are sent (R238). -/
def State.portPump (s : State) (p : Nat) : State :=
  let u := s.port p
  if u.queue.isEmpty then s else (s.setPort p { u with queue := [] }).portPumpOf p u.queue

/-- A port enters RETRAIN: its transmit queue and replay buffer are discarded and counted (R243). (DESIGN CHOICE, log 38) -/
def State.portRetrain (s : State) (p : Nat) : State :=
  let u := s.port p
  let s := s.incSat (pf F.LPORT_LOST_COUNT p) (u.unacked + u.queued)
  let s := s.setPort p { u with
    unacked := 0, sent := [], queue := [], replays := 0, naked := false, test := false, uncorr := [] }
  let s := (s.wr (pf F.LPORT_STATUS_STATE p) 4).wr (pf F.LPORT_STATUS_REJOIN_WAIT p) 0
  s.incSat (pf F.LPORT_STATUS_RETRAINS p)

/-- The port may train: enabled on both pages, a cable present, its frond not fenced, link microcode running (R241, R454,
R510, R545, R553). -/
def State.portMay (s : State) (p : Nat) : Bool :=
  s.on (pf F.LPORT_CFG_EN p) && s.on (pf F.BLK_CTRL_ENABLE p) && !bitOf s.link.absent p && !s.frondFenced (p / 12)
    && !bitOf s.fw.dead 3

/-- A trigger of R243 reaches a port that is not fenced, disabled or in test. (DESIGN CHOICE, log 38) -/
def State.portTrigger (s : State) (p : Nat) : State :=
  if s.portState p ≤ 3 && s.portMay p then s.portRetrain p else s

/-! ### Routing (R246-R250) -/

/-- The class of an opcode (R254): 0 REQ, 1 RSP, 2 COLL, 3 CTRL. -/
def opcClass (opc : Nat) : Nat :=
  if opc ≤ 0x04 then 0
  else if opc = 0x20 ∨ opc = 0x21 ∨ opc = 0x23 then 3
  else if opc = 0x30 ∨ opc = 0x31 then 2 else 1

/-- The route entry of a module is valid; one whose ESC is no subset of MASK routes nothing (R246). (DESIGN CHOICE, log 37) -/
def State.routeBad (s : State) (m : Nat) : Bool :=
  let e := s.rd (F.LINK_ROUTE_ESC.i m)
  s.on (F.LINK_ROUTE_VALID.i m) && e &&& s.rd (F.LINK_ROUTE_MASK.i m) != e

/-- The UP ports of a bundle that traffic of a frond can reach, across the bridge where they lie on the other (R144, R250);
requests leave out those that wait to rejoin (R244, R248). (DESIGN CHOICE, log 37) -/
def State.bundle (s : State) (f : Frond) (mask : Nat) (req : Bool) : List Nat :=
  (List.range 24).filter (fun p => bitOf mask p && s.portUp p && !(req && s.on (pf F.LPORT_STATUS_REJOIN_WAIT p))
    && s.bridged (some f.idx) (portFrond p).idx)

/-- The hash that places a flow on a port (R248). (DESIGN CHOICE, log 37) -/
def flowHash (t : Txn) (p : Nat) : Nat := Config.linkHash t.src.toNat t.srcFrond.idx (t.addr.toNat / 4096) p

/-- Of two ports the one with the higher hash, the first on a tie. -/
def hashBetter (t : Txn) (best : Option Nat) (p : Nat) : Option Nat :=
  match best with
  | none => some p
  | some b => if flowHash t b < flowHash t p then some p else some b

/-- The port of the ESC bundle that a transaction takes. (DESIGN CHOICE, log 37; DESIGN CHOICE, log 38) -/
def State.escPort (s : State) (f : Frond) (t : Txn) : Option Nat :=
  (s.bundle f (s.rd (F.LINK_ROUTE_ESC.i t.dest.toNat)) (opcClass t.opc.toNat == 0)).foldl (hashBetter t) none

/-- Free credits of a port for a VC. -/
def State.creditOf (s : State) (p vc : Nat) : Nat := Sparse.get (fun _ => 0) (s.port p).credits vc

/-- The UP port of MASK with the most free A-channel credits, the lowest on a tie (R248). (DESIGN CHOICE, log 38) -/
def State.adaptPort (s : State) (f : Frond) (t : Txn) : Option Nat :=
  let vc := 3 * opcClass t.opc.toNat
  ((s.bundle f (s.rd (F.LINK_ROUTE_MASK.i t.dest.toNat)) false).filter (fun p => decide (0 < s.creditOf p vc))).foldl
    (fun best p => match best with
      | none => some p
      | some b => if s.creditOf b vc < s.creditOf p vc then some p else some b) none

/-- Where a transaction goes: no route, a port and VC, or a wait for a credit. -/
inductive Hop where
  | none
  | port (p vc : Nat)
  | wait
  deriving DecidableEq, Repr

/-- The choice of R248 for a transaction that comes from frond `f`; a source or router that finds no UP port in the ESC bundle
has no route (R250). `esc` moves the transaction to the ESC bundle. -/
def State.hop (s : State) (f : Frond) (t : Txn) (esc : Bool) : Hop :=
  let c := opcClass t.opc.toNat
  if !s.on F.LINK_CTRL_ROUTE_EN || !s.on (F.LINK_ROUTE_VALID.i t.dest.toNat) || s.routeBad t.dest.toNat then .none
  else
    match s.escPort f t with
    | Option.none => .none
    | some p =>
      let e := 3 * c + (if t.dl then 2 else 1)
      if c = 0 ∨ c = 3 ∨ t.esc ∨ esc then .port p e
      else
        match s.adaptPort f t with
        | some q => .port q (3 * c)
        | Option.none => .wait

/-- A transaction enters a port's transmit queue, a MARK before all others (R270): its flits, and the activity of a transaction
of context `tag` (R237, R248, R378). -/
def State.portSend (s : State) (p vc : Nat) (t : Txn) (tag : Option (Nat × Nat)) : State :=
  let u := s.port p
  let n := flitsOf u.crypt t.data.length
  let t := { t with dl := t.dl || s.on (pf F.LPORT_CFG_DATELINE p), esc := t.esc || vc % 3 != 0 }
  let s := s.setPort p { u with
    queue := if t.opc = 0x20 then (vc, t, s.now) :: u.queue else u.queue ++ [(vc, t, s.now)]
    credits := if vc % 3 = 0 then Sparse.set (fun _ => 0) u.credits vc (Sparse.get (fun _ => 0) u.credits vc - n)
      else u.credits }
  let s := (s.activity (portFrond p) 9 n tag none).put (.txn p vc t)
  s.portPump p

/-- A transaction without a route is counted on a frond (R250). (DESIGN CHOICE, log 37; DESIGN CHOICE, log 41) -/
def State.noRoute (s : State) (f : Frond) (t : Txn) : State :=
  let s := if s.routeBad t.dest.toNat then s.err 0x28 0 else s
  (s.incSat (lf F.TRK_COUNTS_NOROUTE f)).err (frondPg f 0x1C0) 0

/-- A transaction leaves by the choice of R248: whether it found a route. -/
def State.txnSend (s : State) (f : Frond) (t : Txn) (tag : Option (Nat × Nat)) : State × Bool :=
  match s.hop f t false with
  | .none => (s.noRoute f t, false)
  | .port p vc => (s.portSend p vc t tag, true)
  | .wait => ({ s with link := { s.link with waiting := s.link.waiting ++ [(f, t, s.now)] } }, true)

/-- A transaction that waited tries again: it keeps its place in time while it still waits, and one that has aged is
discarded (R262). -/
def State.waitRetry (s : State) (e : Frond × Txn × Nat) : State :=
  let t := s.ageBy e.2.1 e.2.2
  if s.aged t then s.agedDrop e.1
  else
    match s.hop e.1 t false with
    | .wait => { s with link := { s.link with waiting := s.link.waiting ++ [e] } }
    | _ => (s.txnSend e.1 t none).1

/-- The waiting transactions that find a credit now leave, oldest first (R248). -/
def State.waitPump (s : State) : State :=
  let l := s.link.waiting
  let s := { s with link := { s.link with waiting := [] } }
  l.foldl State.waitRetry s

/-! ### The tracker and the write groups (R255, R259-R263) -/

def genDefault : Nat → Nat := fun _ => 0

/-- TRK_STATUS follows the tracker. -/
def State.trkSync (s : State) : State :=
  [Frond.A, Frond.B].foldl (fun s f =>
    let s := s.wr (lf F.TRK_STATUS_OUTSTANDING f) (s.link.live.filter (fun e => e.frond == f)).length
    s.wr (lf F.TRK_STATUS_GROUPS_BUSY f) (s.link.groups.filter (fun e => e.frond == f)).length) s

/-- The lowest free number below `n`. -/
def lowestFree (used : List Nat) : Nat → Nat → Option Nat
  | 0, _ => none
  | fuel + 1, k => if used.contains k then lowestFree used fuel (k + 1) else some k

/-- ISSUE_US now. -/
def State.issueUs (s : State) : Nat := s.now / 250 % 65536

/-- The record of a failure of a transaction (R261's TRK_LAST). -/
def State.trkLast (s : State) (f : Frond) (ctx gen cause opc g : Nat) : State :=
  let s := (s.wr (lf F.TRK_LAST_CTX f) ctx).wr (lf F.TRK_LAST_CTX_GEN f) gen
  let s := (s.wr (lf F.TRK_LAST_DEST f) (g / 2 ^ 44 % 64)).wr (lf F.TRK_LAST_CAUSE f) cause
  (s.wr (lf F.TRK_LAST_OPC f) opc).wr (lf F.TRK_LAST_ADDR_ADDR f) g

/-- The context that a user acts for, with its generation; 0 for none. -/
def State.userCtx (s : State) (f : Frond) (u : LinkUser) : Nat × Nat :=
  match u with
  | .engine n => match (s.eng f n).running with | some d => (d.ctx, d.gen) | none => (0, 0)
  | .item c _ => (c, (s.ctx c).gen)
  | _ => (0, 0)

/-- The transaction from this module that opcode, global address and the rest of a header make. -/
def State.txnOf (s : State) (f : Frond) (opc g : Nat) : Txn :=
  ⟨BitVec.ofNat 8 opc, BitVec.ofNat 6 (g / 2 ^ 44), BitVec.ofNat 6 s.modIdx, f, 0, 0, BitVec.ofNat 16 s.issueUs, 0, 0,
    BitVec.ofNat 44 g, false, false, 0, 0, 0, 0, 0, 0, []⟩

/-- The key of a tracker entry or write group in the record of who held it (R177). -/
def ownerKey (f : Frond) (group : Bool) (k : Nat) : Nat := if group then 65536 + f.idx * 256 + k else f.idx * 32768 + k

/-- An entry or group is taken: an engine is recorded with its generation (R177). -/
def State.ownerTake (s : State) (f : Frond) (group : Bool) (k : Nat) (user : LinkUser) : State :=
  let v := match user with
    | .engine n => 1 + n + 64 * s.rd (ef F.ENG_STATUS_GEN f n)
    | _ => 0
  { s with link := { s.link with owners := Sparse.set (fun _ => 0) s.link.owners (ownerKey f group k) v } }

/-- A reply that names no live entry or group is dropped and counted (R260); one that returns to an engine under an older
generation counts there too (R177). -/
def State.lateDrop (s : State) (f : Frond) (group : Bool) (k : Nat) : State :=
  let s := s.incSat (lf F.TRK_COUNTS_LATE_DROP f)
  let v := Sparse.get (fun _ => 0) s.link.owners (ownerKey f group k)
  let n := (v - 1) % 64
  if v != 0 && (v - 1) / 64 != s.rd (ef F.ENG_STATUS_GEN f n) then s.incSat (ef F.ENG_LATE_DROP_COUNT f n) else s

/-- A non-posted transaction leaves with a tracker entry (R259): none while all are in use, else whether it found a
route. (DESIGN CHOICE, log 41) -/
def State.askOpen (s : State) (f : Frond) (user : LinkUser) (t : Txn) (g : Nat) : State × Option Bool :=
  match lowestFree ((s.link.live.filter (fun e => e.frond == f)).map (·.trk)) 32768 0 with
  | none => (s, none)
  | some k =>
    let key := f.idx * 32768 + k
    let gen := Sparse.get genDefault s.link.gens key
    let t := { t with trk := BitVec.ofNat 15 k, gen := BitVec.ofNat 12 gen }
    let c := s.userCtx f user
    let s := s.ownerTake f false k user
    let r := s.txnSend f t (s.ctxTag c.1)
    if r.2 then
      let s := r.1
      ({ s with link := { s.link with
          live := s.link.live ++ [(⟨f, k, gen, s.issueUs, s.now, user, t.opc.toNat, g⟩ : Trk)]
          gens := Sparse.set genDefault s.link.gens key ((gen + 1) % 4096) } }.trkSync, some true)
    else (r.1.trkLast f c.1 c.2 2 t.opc.toNat g, some false)

/-- A tracker entry is freed. -/
def State.trkFree (s : State) (e : Trk) : State :=
  { s with link := { s.link with live := s.link.live.filter (fun x => !(x.frond == e.frond && x.trk == e.trk)) } }.trkSync

/-- The write group of a user. -/
def State.groupOf (s : State) (f : Frond) (user : LinkUser) : Option WGroup :=
  s.link.groups.find? (fun g => g.frond == f && g.user == user)

/-- A user's writes that have no WDONE yet. -/
def State.groupCount (s : State) (f : Frond) (user : LinkUser) : Nat :=
  match s.groupOf f user with
  | some g => g.count
  | none => 0

/-- A group is replaced. -/
def State.groupPut (s : State) (g : WGroup) : State :=
  { s with link := { s.link with groups := s.link.groups.map (fun x =>
      if x.frond = g.frond ∧ x.num = g.num then g else x) } }

/-- The tracker entries of a user are freed; their GENs have advanced (R263). -/
def State.trkFreeOf (s : State) (f : Frond) (user : LinkUser) : State :=
  { s with link := { s.link with live := s.link.live.filter (fun x => !(x.frond == f && x.user == user)) } }.trkSync

/-- A user's group is returned; its GEN has advanced (R261, R263). -/
def State.groupFree (s : State) (f : Frond) (user : LinkUser) : State :=
  { s with link := { s.link with groups := s.link.groups.filter (fun g => !(g.frond == f && g.user == user)) } }.trkSync

/-- An engine's descriptor has ended: its tracker entries and its write group are freed (R263). -/
def State.engLinksFree (s : State) (f : Frond) (n : Nat) : State :=
  (s.groupFree f (.engine n)).trkFreeOf f (.engine n)

/-- The number of the group that a user takes: of 256 the first eight belong to the control cores, the lowest free of the
others to a descriptor or a signal (R255). (DESIGN CHOICE, log 41) -/
def State.groupNum (s : State) (f : Frond) (user : LinkUser) : Option Nat :=
  match user with
  | .core n => some n
  | _ => lowestFree ((s.link.groups.filter (fun g => g.frond == f)).map (·.num)) 248 8

/-- The group that a user holds or takes: none when all are in use (R255). -/
def State.groupTake (s : State) (f : Frond) (user : LinkUser) : State × Option WGroup :=
  match s.groupOf f user with
  | some g => (s, some g)
  | none =>
    match s.groupNum f user with
    | none => (s, none)
    | some k =>
      let s := s.ownerTake f true k user
      let key := f.idx * 256 + k
      let gen := Sparse.get genDefault s.link.groupGens key
      let g : WGroup := ⟨f, k, gen, user, 0, s.now, 0, 0⟩
      ({ s with link := { s.link with
          groups := s.link.groups ++ [g]
          groupGens := Sparse.set genDefault s.link.groupGens key ((gen + 1) % 4096) } }.trkSync, some g)

/-- A posted write leaves and counts in its user's group (R255): none while no group is free, else whether it found a
route. -/
def State.postTry (s : State) (f : Frond) (user : LinkUser) (t : Txn) (g : Nat) : State × Option Bool :=
  let c := s.userCtx f user
  match s.groupTake f user with
  | (s, none) => (s, none)
  | (s, some w) =>
    let t := { t with trk := BitVec.ofNat 15 w.num, gen := BitVec.ofNat 12 w.gen }
    let r := s.txnSend f t (s.ctxTag c.1)
    if r.2 then (r.1.groupPut { w with count := w.count + 1, since := s.now, opc := t.opc.toNat, g := g }, some true)
    else
      let s := r.1.trkLast f c.1 c.2 2 t.opc.toNat g
      (if w.count = 0 then s.groupFree f user else s, some false)

/-- A request waits at its source (R255, R259). -/
def State.stall (s : State) (x : Stalled) : State := { s with link := { s.link with stalled := s.link.stalled ++ [x] } }

/-- A posted write leaves, or waits for a group: false where it finds no route. -/
def State.post (s : State) (f : Frond) (user : LinkUser) (t : Txn) (g : Nat) : State × Bool :=
  match s.postTry f user t g with
  | (s, none) => (s.stall ⟨f, user, t, g, true⟩, true)
  | (s, some b) => (s, b)

/-- Bytes of a posted write, with the poison of their 64-byte blocks. -/
def State.writeTxn (s : State) (f : Frond) (opc g aop fmt : Nat) (d : List Nat) (poison : Nat) : Txn :=
  { s.txnOf f opc g with
    aop := BitVec.ofNat 4 aop, afmt := BitVec.ofNat 2 fmt, h3 := BitVec.ofNat 64 poison, len := BitVec.ofNat 13 d.length,
    data := d.map (BitVec.ofNat 8) }

/-- The poison map of bytes at an address that are poisoned one by one: by its 64-byte blocks, the first of which holds the
first byte (R258). (DESIGN CHOICE, log 39) -/
def poisonMap (a : Nat) (l : List Bool) : Nat :=
  let l := List.replicate (a % 64) false ++ l
  (List.range 64).foldl (fun m b => if ((l.drop (64 * b)).take 64).any id then setBitN m b else m) 0

end Sys2Proof.Machine
end

