-- ==== Sys2Proof/Machine/LinkPorts.lean ====
section
/-! DEFINITION. The commands of the Henyr ports and the router: flits, training, tests, forwarding (R237-R248, R262). -/

namespace Sys2Proof.Machine

/-! ### Flits (R237, R238) -/

/-- A flit is discarded: one NAK for the expected SEQ until it arrives (R238). -/
def State.portNak (s : State) (p : Nat) : State :=
  let u := s.port p
  if u.naked then s
  else (s.setPort p { u with naked := true }).put (.flit p (flitBytes 3 0 0 u.ack (leBytes 2 u.rxSeq)))

/-- Transactions some of whose flits are among the last `n` of the replay buffer. -/
def sentLeft (txSeq n : Nat) (l : List SentTxn) : List SentTxn :=
  l.filter (fun e => decide ((txSeq + 4096 - e.seq) % 4096 < n + e.flits))

/-- Flits of the replay buffer up to a SEQ leave it (R237): `next` is the SEQ after the last one received in order. -/
def State.portAck (s : State) (p next : Nat) : State :=
  let u := s.port p
  let n := (next + 8192 - (u.txSeq + 4096 - u.unacked)) % 4096
  if n = 0 ∨ u.unacked < n then s
  else (s.setPort p { u with
    unacked := u.unacked - n, sent := sentLeft u.txSeq (u.unacked - n) u.sent, replays := 0 }).portPump p

/-- A codeword that cannot be corrected: counted; more than 64 within 1 ms retrain the port (R238, R243). -/
def State.portUncorr (s : State) (p : Nat) : State :=
  let s := (s.incSat (pf F.LPORT_ERR_COUNT_UNCORR p)).err (portPage p) 0
  let u := s.port p
  let l := s.now :: u.uncorr.filter (fun t => decide (s.now < t + 250000))
  let s := s.setPort p { u with uncorr := l }
  if 64 < l.length then s.portRetrain p else s.portNak p

/-- A DATA flit: in order it is accepted; a gap is a loss; one received before is discarded. -/
def State.portData (s : State) (p seq : Nat) : State :=
  let u := s.port p
  if seq = u.rxSeq then
    (s.setPort p { u with rxSeq := (seq + 1) % 4096, naked := false, rxCount := (u.rxCount + 1) % 2 ^ 64 }).inc
      (pf F.LPORT_RX_FLITS_COUNT p)
  else if (u.rxSeq + 4096 - seq) % 4096 ≤ 2048 then s
  else s.portNak p

/-- Credits granted per VC. -/
def State.portCredit (s : State) (p : Nat) (l : List (Fin 12 × BitVec 12)) : State :=
  let u := s.port p
  let c := l.foldl (fun c e => Sparse.set (fun _ => 0) c e.1.val (Sparse.get (fun _ => 0) c e.1.val + e.2.toNat)) u.credits
  (s.setPort p { u with credits := c }).waitPump

/-- A transaction in the replay buffer is sent again from the first flit that the peer lacks; the hold adds to its AGE
(R238, R262). -/
def State.portResend (s : State) (p : Nat) (e : SentTxn) : State :=
  let u := s.port p
  let e' := { e with txn := s.ageBy e.txn e.since, since := s.now }
  let s := s.setPort p { u with sent := u.sent.map (fun x => if x = e then e' else x) }
  s.flitsPut p e' ((u.txSeq + 4096 - e.seq) % 4096 - u.unacked)

/-- A NAK asks for a SEQ (R238): the sender replays from it; each replayed flit counts; the sixteenth replay of one flit
retrains the port. -/
def State.portReplay (s : State) (p seq : Nat) : State :=
  let s := s.portAck p seq
  let u := s.port p
  if u.unacked = 0 ∨ (u.txSeq + 4096 - u.unacked) % 4096 ≠ seq then s
  else
    let k := if u.nakSeq = seq then u.replays + 1 else 1
    let s := s.setPort p { u with nakSeq := seq, replays := k }
    let s := u.sent.foldl (fun s e => s.portResend p e) s
    let s := (s.incSat (pf F.LPORT_ERR_COUNT_RETRY p) u.unacked).err (portPage p) 1
    let s := s.inc (pf F.LPORT_TX_FLITS_COUNT p) u.unacked
    if 16 ≤ k then s.portRetrain p else s

/-- The little-endian number in bytes `i` to `i + n - 1` of a flit (R236). -/
def flitNum (x : Flit) (i n : Nat) : Nat := ((x.bytes.drop i).take n).foldr (fun b a => b.toNat + 256 * a) 0

/-- FTYPE, SEQ and ACK (R237). -/
def flitType (x : Flit) : Nat := flitNum x 0 4 / 2 ^ 28

def flitSeq (x : Flit) : Nat := flitNum x 0 4 / 2 ^ 12 % 4096

def flitAck (x : Flit) : Nat := flitNum x 0 4 % 4096

/-- CRC-32C over bytes 0-251 agrees with bytes 252-255. -/
def flitCrcOk (x : Flit) : Bool := x.bytes.length == 256 && crc32c ((x.bytes.take 252).map BitVec.toNat) == flitNum x 252 4

/-- The credits of a CREDIT flit: a 16-bit word for each VC from the start of the body, [11:0] its credits.
(DESIGN CHOICE, log 38) -/
def flitCredits (x : Flit) : List (Fin 12 × BitVec 12) :=
  ((List.range 12).map (fun v => (Fin.ofNat 12 v, BitVec.ofNat 12 (flitNum x (4 + 2 * v) 2)))).filter (fun e => e.2 != 0)

/-- The tag of an encrypted DATA flit that comes in order does not hold (R240). -/
def PortUnit.tagBad (u : PortUnit) (x : Flit) : Bool :=
  let body := ((x.bytes.drop 4).take 248).map BitVec.toNat
  u.crypt && flitType x == 1 && flitSeq x == u.rxSeq
    && gcmTag (aesKeys (leBytes 32 (u.key - 1))) (u.iv u.rxCount) [] (body.take 232) != body.drop 232

/-- A flit that passed its checks acts by its type; one of a reserved type is discarded (R237). -/
def State.portFlit (s : State) (p : Nat) (x : Flit) : State :=
  if 5 ≤ flitType x then s
  else
    let s := s.portAck p ((flitAck x + 1) % 4096)
    match flitType x with
    | 1 => s.portData p (flitSeq x)
    | 2 => s.portCredit p (flitCredits x)
    | 3 => s.portReplay p (flitNum x 4 2 % 4096)
    | _ => s

/-- FLIT_RECEIVE (R237, R238, R240): an injection fails the FEC or the CRC of the flit (R452). -/
def execFlitReceive (port : Fin 24) (flit : Flit) (s : State) : Host.Outcome State Fault Refusal :=
  let p := port.val
  if !s.portUp p then .next s
  else
    let s := s.incSat (pf F.LPORT_ERR_COUNT_CORR_SYMBOLS p) flit.symbols.toNat
    .next (
      if !flit.fecOk || s.armed (portPage p) 0 then s.portUncorr p
      else if s.armed (portPage p) 1 then (s.err (portPage p) 1).portNak p
      else if !flitCrcOk flit || (s.port p).tagBad flit then s.portNak p
      else s.portFlit p flit)

/-- NAK_RECEIVE (R238). -/
def execNakReceive (port : Fin 24) (seq : BitVec 12) (s : State) : Host.Outcome State Fault Refusal :=
  .next (if s.portUp port.val then s.portReplay port.val seq.toNat else s)

/-! ### Training (R241-R244) -/

/-- PEER_TRAINING_START (R243). -/
def execPeerTrainingStart (port : Fin 24) (s : State) : Host.Outcome State Fault Refusal :=
  .next (s.portTrigger port.val)

/-- The port comes up in a state: sequences restart, the key epoch advances, the encryption of LPORT_CFG takes effect, and
it waits to rejoin request routing (R240, R242, R244). -/
def State.portCome (s : State) (p st lanes pm pp : Nat) : State :=
  let u := s.port p
  let s := s.setPort p { PortUnit.init with
    epoch := (u.epoch + 1) % 2 ^ 32, crypt := s.on (pf F.LPORT_CFG_CRYPT p), key := s.portKey p }
  let s := (s.wr (pf F.LPORT_STATUS_STATE p) st).wr (pf F.LPORT_STATUS_LANES_GOOD p) lanes
  let s := (s.wr (pf F.LPORT_STATUS_PEER_MOD p) pm).wr (pf F.LPORT_STATUS_PEER_PORT p) pp
  (s.wr (pf F.LPORT_STATUS_PEER_VALID p) 1).wr (pf F.LPORT_STATUS_REJOIN_WAIT p) 1

/-- A training fails: DOWN; a retraining is tried again, and the third failure in a row is DOWN with RETRAIN_FAIL (R242,
R243). (DESIGN CHOICE, log 38) -/
def State.portFail (s : State) (p : Nat) : State :=
  let u := s.port p
  let s := s.wr (pf F.LPORT_STATUS_LANES_GOOD p) 0
  if s.portState p = 4 then
    if 2 ≤ u.fails then
      ((s.setPort p { u with fails := 0 }).wr (pf F.LPORT_STATUS_STATE p) 0).err (portPage p) 3
    else (s.setPort p { u with fails := u.fails + 1 }).incSat (pf F.LPORT_STATUS_RETRAINS p)
  else s.wr (pf F.LPORT_STATUS_STATE p) 0

/-- PORT_TRAINING_DONE (R240, R242): `keysMatch` that the peer names the same key; an encrypted port whose own slot is empty
has none to match. -/
def execPortTrainingDone (port : Fin 24) (lanes : BitVec 4) (peerMod : BitVec 6) (peerPort : BitVec 5) (keysMatch : Bool)
    (s : State) : Host.Outcome State Fault Refusal :=
  let p := port.val
  let st := s.portState p
  let l := lanes.toNat
  .next (
    if st != 1 && st != 4 then s
    else if s.on (pf F.LPORT_CFG_CRYPT p) && (!keysMatch || s.portKey p == 0) then s.portFail p
    else if l = 15 then s.portCome p 2 15 peerMod.toNat peerPort.toNat
    else if s.on (pf F.LPORT_CFG_ALLOW_X2 p) && (l &&& 3 == 3 || l &&& 12 == 12) then
      (s.portCome p 3 (if l &&& 3 = 3 then 3 else 12) peerMod.toNat peerPort.toNat).err (portPage p) 2
    else s.portFail p)

/-- PORT_TRAINING_RETRY (R241). -/
def execPortTrainingRetry (port : Fin 24) (s : State) : Host.Outcome State Fault Refusal :=
  let p := port.val
  .next (s.when (s.portState p == 0 && s.portMay p) (fun s => s.wr (pf F.LPORT_STATUS_STATE p) 1))

/-- REJOIN_WAIT_END (R244). -/
def execRejoinWaitEnd (port : Fin 24) (s : State) : Host.Outcome State Fault Refusal :=
  .next (s.wr (pf F.LPORT_STATUS_REJOIN_WAIT port.val) 0)

/-- LPORT_CMD_RETRAIN (R243). -/
def execLportCmdRetrain (r : Req) (port : Fin 24) (s : State) : Host.Outcome State Fault Refusal :=
  .next (s.cmdAt r (pf F.LPORT_CMD_CMD port.val) false (fun s => s.portTrigger port.val))

/-! ### Port tests (R245) -/

/-- LPORT_CMD_TEST (R245). -/
def execLportCmdTest (r : Req) (port : Fin 24) (s : State) : Host.Outcome State Fault Refusal :=
  let p := port.val
  .next (s.cmdAt r (pf F.LPORT_CMD_CMD p) true (fun s =>
    s.when (s.portUp p) (fun s => s.setPort p { s.port p with test := true })))

/-- The gate of a port test: TEST_GATE 0, an open test window of the links, or SELFTEST_FORCE of the frond. -/
def State.testGate (s : State) (p : Nat) : Bool :=
  !s.on F.LINK_CTRL_TEST_GATE || bitOf s.phase.testOpen 3
    || s.on (F.ACAL_CTRL_SELFTEST_FORCE.pg (frondPg (portFrond p) 0x101))

/-- PORT_TEST_START (R245): the port drains its queues, leaves all routing and signals TEST to its peer. -/
def execPortTestStart (port : Fin 24) (s : State) : Host.Outcome State Fault Refusal :=
  let p := port.val
  let u := s.port p
  if u.test && s.portUp p && s.testGate p then
    let s := u.queue.foldl (fun s e => s.portTx p e) (s.setPort p { u with queue := [] })
    let s := (s.setPort p { s.port p with test := false, unacked := 0, sent := [] }).put (.portTest p)
    .next ((s.wr (pf F.LPORT_STATUS_STATE p) 5).wr (pf F.LPORT_STATUS_REJOIN_WAIT p) 0)
  else .next s

/-- A port is fenced (R241). -/
def State.portFence (s : State) (p : Nat) : State :=
  let s := (s.wr (pf F.LPORT_STATUS_STATE p) 6).wr (pf F.BLK_CTRL_FENCE p) 1
  (s.wr (pf F.LPORT_STATUS_LANES_GOOD p) 0).wr (pf F.LPORT_STATUS_REJOIN_WAIT p) 0

/-- PORT_TEST_DONE (R245). -/
def execPortTestDone (port : Fin 24) (errors : BitVec 32) (pass : Bool) (s : State) : Host.Outcome State Fault Refusal :=
  let p := port.val
  if s.portState p != 5 then .next s
  else
    let s := (s.wr (pf F.LPORT_TEST_ERRORS p) errors.toNat).wr (pf F.LPORT_TEST_RESULT p) (if pass then 1 else 2)
    .next (if pass then s.portRetrain p else s.portFence p)

/-! ### Forwarding (R248, R250, R262) -/

/-- A response to a transaction, with STATUS, AUX, data and poison (R253, R257). -/
def State.respond (s : State) (port : Nat) (t : Txn) (opc status aux : Nat) (d : List Nat) (poison : Nat) : State :=
  let f := portFrond port
  (s.txnSend f { t with
    opc := BitVec.ofNat 8 opc, dest := t.src, src := BitVec.ofNat 6 s.modIdx, srcFrond := f, age := 0, dl := false,
    esc := false, status := BitVec.ofNat 4 status, aop := 0, afmt := 0, coll := 0, aux := BitVec.ofNat 32 aux,
    h3 := BitVec.ofNat 64 poison, len := BitVec.ofNat 13 d.length, data := d.map (BitVec.ofNat 8) } none).1

/-- The opcodes of R254. -/
def opcKnown (opc : Nat) : Bool :=
  [0x01, 0x02, 0x03, 0x04, 0x10, 0x11, 0x12, 0x20, 0x21, 0x22, 0x23, 0x24, 0x30, 0x31].contains opc

/-- A transaction for this module whose opcode is unknown is dropped; one below 0x10, where the requests lie, expects a
response, a READ_RESP with OPC_BAD (R254). (DESIGN CHOICE, log 39) -/
def State.opcUnknown (s : State) (port : Nat) (t : Txn) : State :=
  if t.opc.toNat < 0x10 then s.respond port t 0x10 4 0 [] 0 else s

/-- ROUTER_FORWARD (R248, R250, R254, R262): a transaction that came in on a port, for another module, or for this one with an
opcode that no other command takes. -/
def execRouterForward (port : Fin 24) (t : Txn) (s : State) : Host.Outcome State Fault Refusal :=
  let f := portFrond port.val
  .next (
    if !s.portUp port.val then s
    else if s.aged t then s.agedDrop f
    else if t.dest.toNat != s.modIdx then (s.txnSend f t none).1
    else if opcKnown t.opc.toNat then s
    else s.opcUnknown port.val t)

/-- ESCAPE_VC_TIMEOUT (R248): the n-th waiting transaction moves to the ESC bundle. -/
def execEscapeVcTimeout (n : BitVec 16) (s : State) : Host.Outcome State Fault Refusal :=
  match s.link.waiting[n.toNat]? with
  | none => .next s
  | some e =>
    let s := { s with link := { s.link with waiting := s.link.waiting.eraseIdx n.toNat } }
    let t := s.ageBy e.2.1 e.2.2
    .next (
      if s.aged t then s.agedDrop e.1
      else
        match s.hop e.1 t true with
        | .port p vc => s.portSend p vc t none
        | _ => s.noRoute e.1 t)

end Sys2Proof.Machine
end

