-- ==== Sys2Proof/Machine/Mem.lean ====
section
/-! DEFINITION. Memory: the address map, the HBM controllers' errors, fences and relocation, the stores and the core
local memories with their poison, the signal counters and the submission window as addresses (R134-R166, R196, R214-R219). -/

namespace Sys2Proof.Machine

/-! ### HBM geometry (R143, R155) -/

/-- The pseudo-channel of granule `g` (R143). -/
def granulePc (g : Nat) : Nat :=
  (g % 128) ^^^ (g / 2 ^ 7 % 128) ^^^ (g / 2 ^ 14 % 128) ^^^ (g / 2 ^ 21 % 128)

/-- The byte offset within the pseudo-channel of frond-relative address `a` (R143). -/
def pcOffset (a : Nat) : Nat := a / 1024 / 128 * 1024 + a % 1024

/-- Size of the visible range of frond `f` in bytes (R155). -/
def State.visible (s : State) (f : Nat) : Nat := s.rd (hf F.HBMF_STATUS_VISIBLE_MB f) * 2 ^ 20

/-- The first address of the spare pool (R143). -/
def poolBase : Nat := 0x4FC0000000

/-- Pseudo-channels that the map was built around. -/
def State.mapped (s : State) (f : Nat) : List Nat := (List.range 128).filter (s.pcBit F.HBMF_MAP_PC f)

/-- The entry of the retirement table that redirects a page. -/
def State.redirect (s : State) (f page : Nat) : Option Retired :=
  (s.hbmF f).table.find? (fun e => e.current && e.page == page)

/-- Rank of granule `g` among the granules whose pseudo-channel lies in `l`, from granule `base` (both multiples of 128
granules apart hold each pseudo-channel once). -/
def rankIn (l : List Nat) (base g : Nat) : Nat :=
  (g / 128 - base / 128) * l.length + ((List.range (g % 128)).filter (fun i => l.contains (granulePc (g / 128 * 128 + i)))).length

/-- Granule of rank `r` among those from `base` whose pseudo-channel does not lie in `l`. -/
def nthHealthy (l : List Nat) (base r : Nat) : Nat :=
  let per := 128 - l.length
  if per = 0 then base
  else
    let row := base / 128 + r / per
    let ok := (List.range 128).filter (fun i => !l.contains (granulePc (row * 128 + i)))
    row * 128 + ok.getD (r % per) 0

/-- The granule that holds granule `g` of frond `f`: itself, its place in a pool page once its page is redirected, or
its place in the withdrawn range (R150, R155). -/
def State.homeGranule (s : State) (f g : Nat) : Nat :=
  match s.redirect f (g / 4) with
  | some e => poolBase / 1024 + e.target * 4 + g % 4
  | none =>
    if s.pcBit F.HBMF_MAP_PC f (granulePc g) then
      let l := s.mapped f
      nthHealthy l (s.visible f / 1024) (rankIn l 0 g)
    else g

/-- Granule `g` is relocated by the map (R155). -/
def State.relocated (s : State) (f g : Nat) : Bool :=
  (s.redirect f (g / 4)).isNone && s.pcBit F.HBMF_MAP_PC f (granulePc g)

/-- The pseudo-channel that serves frond-relative address `a`. -/
def State.pcOf (s : State) (f a : Nat) : Nat := granulePc (s.homeGranule f (a / 1024))

/-- A field of the HBMC page of the stack that holds pseudo-channel `pc` of frond `f`. -/
def hc (g : Field) (f pc : Nat) : Field := g.pg (hbmcPage (4 * f + pc / 32))

def hcPage (f pc : Nat) : Nat := hbmcPage (4 * f + pc / 32)

/-! ### Fences and retirement (R149-R155) -/

/-- A pseudo-channel is fenced (R154). (DESIGN CHOICE, log 27) -/
def State.pcFence (s : State) (f pc : Nat) : State :=
  if s.pcBit F.HBMF_FENCE_PC f pc then s
  else
    let s := s.setBit ((hf F.HBMF_FENCE_PC f).i (pc / 64)) (pc % 64)
    let s := s.setBit (hc F.HBMC_STATUS_FENCED f pc) (pc % 32)
    let s := s.incSat (hf F.HBMF_STATUS_FENCED_PC f)
    ((s.err (hcPage f pc) 2).event (hcPage f pc) 0x6005).event (hcPage f pc) 0xA002

/-- Pool pages whose four granules avoid the pseudo-channels of `page` and every fenced one; the lowest that no entry
holds, of the first `fuel` from `k` (R150). -/
def State.poolFind (s : State) (f page : Nat) (used : List Nat) : Nat → Nat → Option Nat
  | 0, _ => none
  | fuel + 1, k =>
    let gs := (List.range 4).map (fun i => granulePc (poolBase / 1024 + k * 4 + i))
    let own := (List.range 4).map (fun i => granulePc (page * 4 + i))
    if used.contains k || gs.any (fun p => own.contains p || s.pcBit F.HBMF_FENCE_PC f p || s.pcBit F.HBMF_MAP_PC f p)
    then s.poolFind f page used fuel (k + 1) else some k

/-- The number of pool pages (R143). -/
def poolPages : Nat := 262144

/-- A frond's retirement table holds no free entry. -/
def State.tableFull (s : State) (f : Nat) : Bool := decide (4096 ≤ (s.hbmF f).table.length)

/-- RETIRE_FULL and event 0x6004 (R151). -/
def State.retireFull (s : State) (f : Nat) : State :=
  (s.err (frondPg (Frond.at f) 0x104) 1).event (frondPg (Frond.at f) 0x104) 0x6004

/-- A page is retired: an entry is allocated and its copy begins; with the table full, or no pool page left, RETIRE_FULL
(R150, R151). (DESIGN CHOICE, log 27) -/
def State.retire (s : State) (f page src : Nat) : State :=
  let h := s.hbmF f
  if h.table.any (fun e => e.page == page) then s
  else if s.tableFull f then s.retireFull f
  else
    match s.poolFind f page (h.table.map (·.target)) poolPages 0 with
    | none => s.retireFull f
    | some k => s.setHbmF f { h with table := h.table ++ [⟨src, page, k, false⟩] }

/-- A page becomes a candidate: retired at once, or reported for L0; a full table is reported either way (R149, R151). -/
def State.candidate (s : State) (f page src : Nat) : State :=
  if s.visible f ≤ page * 4096 ∨ (s.hbmF f).table.any (fun e => e.page == page) then s
  else if s.on (hf F.HBMF_CTRL_AUTO_RETIRE f) then s.retire f page src
  else
    let s := s.when (s.tableFull f) (fun s => s.retireFull f)
    ((s.wr (hf F.HBMF_RET_CAND_PEND f) 1).wr (hf F.HBMF_RET_CAND_SRC f) src).wr (hf F.HBMF_RET_CAND_PAGE f) page

/-- HBMC_ERR_LOG records a block. -/
def State.hbmLog (s : State) (f pc a cls sym : Nat) (scrub : Bool) : State :=
  let s := (s.wr (hc F.HBMC_ERR_LOG_CLASS f pc) cls).wr (hc F.HBMC_ERR_LOG_SCRUB f pc) (b2n scrub)
  let s := (s.wr (hc F.HBMC_ERR_LOG_PC f pc) (pc % 32)).wr (hc F.HBMC_ERR_LOG_ADDR f pc) (a / 64)
  s.wr (hc F.HBMC_ERR_LOG_SYMBOL f pc) sym

/-- A correctable error of a block is counted and logged; CE_THRESH of them in a page within the window name it (R146,
R149). -/
def State.hbmCE (s : State) (f a sym : Nat) (scrub : Bool) : State :=
  let pc := s.pcOf f a
  let s := (s.incSat (hc F.HBMC_ERR_COUNT_CE f pc)).hbmLog f pc a 0 sym scrub
  let s := (s.err (hcPage f pc) 0).event (hcPage f pc) 0x6001
  let h := s.hbmF f
  let win := max 1 (s.rd (hf F.HBMF_RET_POLICY_CE_WINDOW_H f)) * hourTicks
  let l := s.now :: (Sparse.get (fun _ => []) h.ceAt (a / 4096)).filter (fun t => decide (s.now ≤ t + win))
  let s := s.setHbmF f { h with ceAt := Sparse.set (fun _ => []) h.ceAt (a / 4096) l }
  if max 1 (s.rd (hf F.HBMF_RET_POLICY_CE_THRESH f)) ≤ l.length then s.candidate f (a / 4096) 0 else s

/-- A command/address parity error: the retry counts a CE (R140, R165). -/
def State.hbmParity (s : State) (f a : Nat) : State :=
  let pc := s.pcOf f a
  ((s.incSat (hc F.HBMC_ERR_COUNT_CE f pc)).err (hcPage f pc) 3).event (hcPage f pc) 0x6001

/-- A DE of a block is counted and logged, names its page, and fences a pseudo-channel with more than 64 in an hour
(R146, R149, R154). -/
def State.hbmDE (s : State) (f a : Nat) (scrub : Bool) : State :=
  let pc := s.pcOf f a
  let s := (s.incSat (hc F.HBMC_ERR_COUNT_DE f pc)).hbmLog f pc a 1 0x3F scrub
  let s := (s.err (hcPage f pc) 1).event (hcPage f pc) 0x6002
  let h := s.hbmF f
  let l := s.now :: (Sparse.get (fun _ => []) h.deAt pc).filter (fun t => decide (s.now ≤ t + hourTicks))
  let s := s.setHbmF f { h with deAt := Sparse.set (fun _ => []) h.deAt pc l }
  let s := s.candidate f (a / 4096) 1
  if 64 < l.length then s.pcFence f pc else s

/-! ### Poison -/

/-- The poison of the granule with key `k`. -/
def State.poisoned (s : State) (k : Nat) : Bool := Sparse.get (fun _ => false) s.poison k

def State.setPoison (s : State) (k : Nat) (b : Bool) : State :=
  { s with poison := Sparse.set (fun _ => false) s.poison k b }

/-! ### The address map -/

/-- What an address reaches: HBM (frond, frond-relative address), a store (frond, physical tile, tile-local address), a
tile counter (frond, physical tile, offset in the counters), a core's local memory, a signal counter region, the
submission window; or nothing. -/
inductive Place where
  | hbm (f a : Nat)
  | store (f t a : Nat)
  | tcnt (f t o : Nat)
  | core (a : Nat)
  | ctr (o : Nat)
  | sub (o : Nat)
  | none
  deriving DecidableEq, Repr

/-- Frond `f` answers accesses from frond `frm` (R144, R454, R466). (DESIGN CHOICE, log 28) -/
def State.reaches (s : State) (frm : Option Nat) (f : Nat) : Bool := !s.frondFenced f && !s.frondReset && s.bridged frm f

/-- A requester on frond `frm` reaches signal counter `n` (R144). -/
def State.counterNear (s : State) (frm : Option Nat) (n : Nat) : Bool := s.bridged frm (Config.counterFrond n).val

/-- Address `a` lies in the region released for a memory test (R163). -/
def State.inTest (s : State) (f a : Nat) : Bool :=
  s.on (hf F.HBMF_TEST_CTRL_RELEASE f) && decide (s.rd (hf F.HBMF_TEST_BASE_BASE f) / 4096 * 4096 ≤ a)
    && decide (a < s.rd (hf F.HBMF_TEST_BASE_BASE f) / 4096 * 4096 + s.rd (hf F.HBMF_TEST_SIZE_SIZE f) / 4096 * 4096)

/-- The local memory of a core in effect, in bytes (R196). -/
def State.lmBytes (s : State) (f c : Nat) : Nat :=
  match Sparse.get (fun _ => 0) s.ring.lmSize (f * 8 + c) with
  | 0 => 0
  | n => 0x20000 * 2 ^ n

/-- What local address `a` reaches for a requester on frond `frm` (none: directly). (DESIGN CHOICE, log 27) -/
def State.placeOf (s : State) (frm : Option Nat) (a : Nat) : Place :=
  if a < 0xA000000000 then
    let f := a / 0x5000000000
    let o := a % 0x5000000000
    if s.reaches frm f && decide (o < s.visible f) && !s.inTest f o then .hbm f o else .none
  else if 0xC0000000000 ≤ a ∧ a < 0xC0200000000 then
    let f := (a - 0xC0000000000) / 0x100000000
    let o := a % 0x1000000
    match s.physOf (Frond.at f) (a % 0x100000000 / 0x1000000) with
    | Option.none => .none
    | some t =>
      if !s.reaches frm f || s.tileOut (Frond.at f) t then .none
      else if o < 0xE00000 then .store f t o
      else if o < 0xE00080 then .tcnt f t (o - 0xE00000)
      else .none
  else if 0xD0000000000 ≤ a ∧ a < 0xD0002000000 then
    let o := a - 0xD0000000000
    let f := o / 0x1000000
    if o % 0x200000 < s.lmBytes f (o % 0x1000000 / 0x200000) && s.reaches frm f then .core a else .none
  else if 0xE0000000000 ≤ a ∧ a < 0xE0000300000 then
    if s.counterNear frm (a % 0x100000 / 8) then .ctr (a - 0xE0000000000) else .none
  else if 0xE1000000000 ≤ a ∧ a < 0xE1000400000 then .sub (a - 0xE1000000000)
  else .none

/-- The granule in which poison is kept: 64 B, in a store 32 B. -/
def granuleOf (a : Nat) : Nat := if 0xC0000000000 ≤ a ∧ a < 0xD0000000000 then 32 else 64

/-- The memory key of a store byte: its window's base by PHYSICAL tile. (DESIGN CHOICE, log 7) -/
def storeKey (f t o : Nat) : Nat := 0xC0000000000 + f * 0x100000000 + t * 0x1000000 + o

/-- The memory key of an HBM byte: its local address. (DESIGN CHOICE, log 7) -/
def hbmKey (f a : Nat) : Nat := f * 0x5000000000 + a

/-- The outcome of an access: an access error, or done with the poison and the bytes read. -/
structure Res where
  ok : Bool
  poison : Bool
  data : List Nat
  deriving DecidableEq, Repr

def Res.err : Res := ⟨false, false, []⟩

/-- Bytes into memory from a key on. -/
def State.wrKeys (s : State) (k : Nat) : List Nat → State
  | [] => s
  | b :: t => State.wrKeys (s.setByte k (BitVec.ofNat 8 b)) (k + 1) t

/-- A block of a relocated granule has been written since the map build, or returned with its region (R155, R163). -/
def HbmFrond.relocValid (h : HbmFrond) (a : Nat) : Bool :=
  Sparse.get (fun _ => false) h.relocWritten (a / 64) || h.relocZeroed.any (fun e => decide (e.1 ≤ a) && decide (a < e.2))

/-- A block of HBM reads poisoned: its poison bit, or relocated and not yet written (R155). -/
def State.blockPoison (s : State) (f a : Nat) : Bool :=
  s.poisoned (hbmKey f a / 64 * 64) || (s.relocated f (a / 1024) && !(s.hbmF f).relocValid a)

/-- Stored data at memory address `k` has just been written: an armed CE or DE injection of its checker's page, not yet
placed, inverts its check bits; else they are right (R452). (DESIGN CHOICE, log 56) -/
def State.injPlace (s : State) (page k : Nat) : State :=
  let want := fun b => bitOf (s.rd (F.ERR_INJECT_INJECT.pg page)) b && !s.col.placed.contains (page, b)
  let v := if want 0 then 1 else if want 1 then 2 else 0
  { s with col := { s.col with
      inverted := Sparse.set (fun _ => 0) s.col.inverted k v,
      placed := if v = 0 then s.col.placed else (page, v - 1) :: s.col.placed } }

def State.invertedAt (s : State) (k : Nat) : Nat := Sparse.get (fun _ => 0) s.col.inverted k

/-- The symbol code meets inverted check bits of a block: a corrected block is written back; an uncorrectable one (true)
stays as it is (R146). (DESIGN CHOICE, log 56) -/
def State.hbmSee (s : State) (f a : Nat) (scrub : Bool) : State × Bool :=
  let k := hbmKey f a / 64 * 64
  match s.invertedAt k with
  | 0 => (s, false)
  | 1 =>
    let s := (s.drawn).hbmCE f (a / 64 * 64) (s.free % 36) scrub
    ({ s with col := { s.col with inverted := Sparse.erase s.col.inverted k } }, false)
  | _ => (s.hbmDE f (a / 64 * 64) scrub, true)

/-- What a demand read finds in a block that is not fenced, and whether it is poisoned or uncorrectable (R140, R146). -/
def State.hbmFind (s : State) (f a : Nat) (e : Ecc) : State × Bool :=
  if s.blockPoison f a then (s, true)
  else
    match e with
    | .clean => s.hbmSee f a false
    | .corrected sym => (s.hbmCE f (a / 64 * 64) sym.val false, false)
    | .bad => (s.hbmDE f (a / 64 * 64) false, true)
    | .parity => (s.hbmParity f a).hbmSee f a false

/-- A demand read of part of one HBM block (R146, R154). -/
def State.hbmRead (s : State) (f a n : Nat) (e : Ecc) : State × Res :=
  let d := s.rdKeys (hbmKey f a) n
  if s.pcBit F.HBMF_FENCE_PC f (s.pcOf f a) then (s.hbmDE f (a / 64 * 64) false, ⟨true, true, d⟩)
  else
    let v := s.hbmFind f a e
    (v.1, ⟨true, v.2, d⟩)

/-- The poison bit of a block as it is written, its check bits, and its validity in a relocated granule (R147, R155). -/
def State.hbmMark (s : State) (f a : Nat) (poison : Bool) : State :=
  let s := (s.setPoison (hbmKey f a / 64 * 64) poison).injPlace (hcPage f (s.pcOf f a)) (hbmKey f a / 64 * 64)
  if s.relocated f (a / 1024) then
    let h := s.hbmF f
    s.setHbmF f { h with relocWritten := Sparse.set (fun _ => false) h.relocWritten (a / 64) true }
  else s

/-- A write of part of one HBM block: a whole block takes the write's poison, a part is merged with what a read finds
(R147, R154). -/
def State.hbmWrite (s : State) (f a : Nat) (d : List Nat) (poison : Bool) (e : Ecc) : State :=
  let pc := s.pcOf f a
  if s.pcBit F.HBMF_FENCE_PC f pc then s.incSat (hc F.HBMC_ERR_COUNT_LOST f pc)
  else if d.length = 64 then (s.hbmMark f a poison).wrKeys (hbmKey f a) d
  else
    let v := s.hbmFind f a e
    (v.1.hbmMark f a (poison || v.2)).wrKeys (hbmKey f a) d

def fromWords (w : Nat) (l : List Nat) : List Nat :=
  l.flatMap (fun v => (List.range w).map (fun i => v / 2 ^ (8 * i) % 256))

/-- A reduce-on-write of part of one block by the near-memory unit (R158): format, operation (1 ADD, 2 MAX, 3 MIN).
(DESIGN CHOICE, log 27) -/
def State.hbmReduce (s : State) (f a fmt red : Nat) (d : List Nat) (poison : Bool) (e : Ecc) : State :=
  let pc := s.pcOf f a
  if s.pcBit F.HBMF_FENCE_PC f pc then s.incSat (hc F.HBMC_ERR_COUNT_LOST f pc)
  else
    let w := if fmt = 1 then 2 else 4
    let old := toWords w d.length (s.rdKeys (hbmKey f a) d.length)
    let rs := List.zipWith (reduceElem fmt red) old (toWords w d.length d)
    let v := s.hbmFind f a e
    let s := (v.1.inc (hc F.HBMC_NMU_OPS f pc)).incSat (hc F.HBMC_NMU_SAT f pc) (rs.filter (·.2)).length
    (s.hbmMark f a (poison || v.2)).wrKeys (hbmKey f a) (fromWords w (rs.map (·.1)))

/-- What a code finds in a word of a store, at tile-local address `o`: a CE is corrected, a DE poisons the beat; both are
counted and logged (R137, R165). -/
def State.storeEcc (s : State) (f t o : Nat) (e : Ecc) : State :=
  let pg := frondPg (Frond.at f) 0x102
  let log := fun (s : State) (ue : Nat) =>
    let s := (s.wr (F.STORE_ERR_LOG_TILE.pg pg) t).wr (F.STORE_ERR_LOG_STACK.pg pg) (b2n (decide (0x400000 ≤ o)))
    (s.wr (F.STORE_ERR_LOG_UE.pg pg) ue).wr (F.STORE_ERR_LOG_ADDR.pg pg) (o / 8 * 8)
  match e with
  | .clean => s
  | .parity => s
  | .corrected _ => (((log s 0).incSat (F.STORE_ERR_COUNT_CE.pg pg)).err pg 0).event pg 0x6010
  | .bad =>
    (((log (s.setPoison (storeKey f t (o / 32 * 32)) true) 1).incSat (F.STORE_ERR_COUNT_DE.pg pg)).err pg 1).event pg 0x6011

/-- The code of a store meets inverted check bits among the words of `n` bytes at tile-local address `o`: a corrected word
is written back (R137). (DESIGN CHOICE, log 56) -/
def State.storeSee (s : State) (f t o n : Nat) : State :=
  let lo := storeKey f t (o / 8 * 8)
  let hi := storeKey f t (o + n)
  (s.col.inverted.filter (fun e => decide (lo ≤ e.1) && decide (e.1 < hi))).foldl (fun s e =>
    if e.2 = 1 then
      let s := s.storeEcc f t (e.1 - storeKey f t 0) (.corrected 0)
      { s with col := { s.col with inverted := Sparse.erase s.col.inverted e.1 } }
    else s.storeEcc f t (e.1 - storeKey f t 0) .bad) s

/-- Bytes of a store at tile-local addresses have been written: their words' check bits are right, but for an injection in
the first. -/
def State.storeTouch (s : State) (f t : Nat) (addrs : List Nat) : State :=
  let ks := addrs.map (fun a => storeKey f t (a / 8 * 8))
  let s := { s with col := { s.col with inverted := s.col.inverted.filter (fun e => !ks.contains e.1) } }
  match ks with
  | [] => s
  | k :: _ => s.injPlace (frondPg (Frond.at f) 0x102) k

/-- What the code of a store finds as the beats of `n` bytes at tile-local address `o` are read: inverted check bits, and `e`
in the first word (R137). -/
def State.storeFind (s : State) (f t o n : Nat) (e : Ecc) : State := (s.storeSee f t o n).storeEcc f t o e

/-- A beat among those of `n` bytes is poisoned. -/
def State.beatsPoison (s : State) (f t o n : Nat) : Bool :=
  (spans 32 (n + 1) o n).any (fun p => s.poisoned (storeKey f t (p.1 / 32 * 32)))

/-- A write of part of one beat of a store or of one line of a local memory: a whole granule takes the write's poison,
a part leaves it or adds to it (R137, R147). -/
def State.granuleWrite (s : State) (k size : Nat) (d : List Nat) (poison : Bool) : State :=
  let g := k / size * size
  let p := if d.length = size then poison else poison || s.poisoned g
  (s.setPoison g p).wrKeys k d

/-! ### Ring and submission (R214-R218) -/

/-- A rejection is counted and recorded (R216). -/
def State.subReject (s : State) (c source reason : Nat) : State :=
  let s := (s.incSat F.SUB_COUNT_REJECTED).wr F.SUB_LAST_REJECT_CTX c
  let s := (s.wr F.SUB_LAST_REJECT_SOURCE source).wr F.SUB_LAST_REJECT_REASON reason
  s.err 0x23 0

/-- The frond-relative place of a local HBM address. -/
def hbmSplit (a : Nat) : Nat × Nat := (a / 0x5000000000, a % 0x5000000000)

/-- The place of a slot of a context's ring, by the number of its item. -/
def State.ringSlot (s : State) (c i : Nat) : Nat × Nat :=
  let x := s.ctx c
  hbmSplit (x.ringBase % 2 ^ 44 + i % 2 ^ x.ringLog * 64)

/-- A slot of the ring lies in a region released for a memory test, so that its access is an access error (R163). -/
def State.ringShut (s : State) (c i : Nat) : Bool :=
  let p := s.ringSlot c i
  s.inTest p.1 p.2

/-- The reason why context `c` refuses `n` items: 2 CTX_STATE, 3 RING_FULL (R216, R217); a ring that a memory test has
released refuses with CTX_STATE. (DESIGN CHOICE, log 27) -/
def State.subRefusal (s : State) (c n : Nat) : Option Nat :=
  let x := s.ctx c
  if c = 0 ∨ !x.alloc ∨ x.resetting then some 2
  else if (List.range n).any (fun i => s.ringShut c (x.tail + i)) then some 2
  else if 2 ^ x.ringLog < x.count + n then some 3 else none

/-- One item is written into the ring at TAIL, with CTX and CTX_GEN overwritten, and TAIL advances (R170, R204, R216); the
port's write counts as activity of no context (R378). -/
def State.subAppend (s : State) (c : Nat) (item : List Nat) : State :=
  let x := s.ctx c
  let bytes := item.take 4 ++ [c % 256, c / 256, x.gen] ++ item.drop 7
  let p := s.ringSlot c x.tail
  let s := (s.hbmWrite p.1 p.2 bytes false .clean).activity (Frond.at p.1) 8 1 none none
  (s.updCtx c (fun x => { x with tail := (x.tail + 1) % 2 ^ 17 })).incSat F.SUB_COUNT_ACCEPTED

/-- Items for one context, all or none: the reason of a refusal, or the state with all of them in the ring. -/
def State.submit (s : State) (c source : Nat) (items : List (List Nat)) : State × Option Nat :=
  match s.subRefusal c items.length with
  | some r => (s.subReject c source r, some r)
  | none => (items.foldl (fun s i => s.subAppend c i) s, none)

/-! ### Accesses to the whole map -/

/-- Reads of part of one granule. -/
def State.rdPiece (s : State) (frm : Option Nat) (a n : Nat) (e : Ecc) : State × Res :=
  match s.placeOf frm a with
  | .hbm f o => s.hbmRead f o n e
  | .store f t o =>
    let s := s.storeFind f t o n e
    (s, ⟨true, s.beatsPoison f t o n, s.rdKeys (storeKey f t o) n⟩)
  | .tcnt f t o =>
    if n = 8 ∧ o % 8 = 0 then (s, ⟨true, false, leBytes 8 (s.rd (tcnt (Frond.at f) t (o / 8)))⟩) else (s, Res.err)
  | .core k => (s, ⟨true, s.poisoned (k / 64 * 64), s.rdKeys k n⟩)
  | .ctr o =>
    if n = 8 ∧ o % 8 = 0 then
      let i := o % 0x100000 / 8
      (s, ⟨true, false, leBytes 8 (if o < 0x200000 then s.counterWord i else b2n (s.counterExt i))⟩)
    else (s, Res.err)
  | .sub _ => (s, ⟨true, false, List.replicate n 0⟩)
  | .none => (s, Res.err)

/-- A write of part of one granule; a counter takes an aligned 64-bit write (R125, R219), and EXTERNAL when a host adds to
it or sets it (R221, R292); the submission window takes a whole slot (R215). `e` is what the read of a partial write finds. -/
def State.wrPiece (s : State) (frm : Option Nat) (src a : Nat) (d : List Nat) (poison : Bool) (e : Ecc) : State × Bool :=
  match s.placeOf frm a with
  | .hbm f o => (s.hbmWrite f o d poison e, true)
  | .store f t o =>
    let s := if d.length = 32 then s else s.storeFind f t (o / 32 * 32) 32 e
    ((s.granuleWrite (storeKey f t o) 32 d poison).storeTouch f t ((List.range d.length).map (o + ·)), true)
  | .tcnt f t o =>
    if d.length = 8 ∧ o % 8 = 0 then
      (s.tcAdd (Frond.at f) t (o / 8) ((d.take 4).foldr (fun b acc => b + 256 * acc) 0), true)
    else (s, false)
  | .core k => (s.granuleWrite k 64 d poison, true)
  | .ctr o =>
    let v := (d.take 4).foldr (fun b acc => b + 256 * acc) 0
    let i := o % 0x100000 / 8
    if d.length = 8 ∧ o % 8 = 0 then
      let s' := if src = 4 then s.counterSetExt i true else s
      (if o < 0x100000 then s'.counterAdd i v else if o < 0x200000 then s'.counterSet i v
       else s.counterSetExt i (v % 2 == 1), true)
    else (s, false)
  | .sub o =>
    if o % 64 = 0 ∧ d.length = 64 then
      let r := s.submit (o / 64) src [d]
      (r.1, r.2.isNone)
    else (s.subReject (o / 64) src 1, false)
  | .none => (s, false)

/-- Reads over several granules, in ascending order; the first failing one ends the access. -/
def State.rdSpans (s : State) (frm : Option Nat) (acc : Res) : List (Nat × Nat) → State × Res
  | [] => (s, acc)
  | p :: t =>
    let r := s.rdPiece frm p.1 p.2 .clean
    if r.2.ok then State.rdSpans r.1 frm ⟨true, acc.poison || r.2.poison, acc.data ++ r.2.data⟩ t else (r.1, Res.err)

/-- `n` bytes read from local address `a` by a requester on frond `frm`. -/
def State.rdMem (s : State) (frm : Option Nat) (a n : Nat) : State × Res :=
  s.rdSpans frm ⟨true, false, []⟩ (spans (granuleOf a) (n + 1) a n)

/-- Writes over several granules; the first failing one ends the access, and those before it stand. `e` is what the read of
the first finds. -/
def State.wrSpans (s : State) (frm : Option Nat) (src : Nat) (poison : Nat → Bool) (d : List Nat) (e : Ecc) :
    List (Nat × Nat) → State × Bool
  | [] => (s, true)
  | p :: t =>
    let r := s.wrPiece frm src p.1 (d.take p.2) (poison p.1) e
    if r.2 then State.wrSpans r.1 frm src poison (d.drop p.2) .clean t else r

/-- Bytes written at local address `a`, each granule with the poison that `poison` gives its address; `src` is the
SOURCE that a submission records. -/
def State.wrMemP (s : State) (frm : Option Nat) (src a : Nat) (d : List Nat) (poison : Nat → Bool) (e : Ecc) : State × Bool :=
  s.wrSpans frm src poison d e (spans (granuleOf a) (d.length + 1) a d.length)

/-- Bytes written at local address `a`. -/
def State.wrMem (s : State) (frm : Option Nat) (src a : Nat) (d : List Nat) (poison : Bool) : State × Bool :=
  s.wrMemP frm src a d (fun _ => poison) .clean

/-- Reduces over several blocks: HBM only. -/
def State.redSpans (s : State) (frm : Option Nat) (fmt red : Nat) (poison : Nat → Bool) (d : List Nat) (e : Ecc) :
    List (Nat × Nat) → State × Bool
  | [] => (s, true)
  | p :: t =>
    match s.placeOf frm p.1 with
    | .hbm f o =>
      State.redSpans (s.hbmReduce f o fmt red (d.take p.2) (poison p.1) e) frm fmt red poison (d.drop p.2) .clean t
    | _ => (s, false)

/-- A reduce-on-write of bytes at local address `a` (R158). -/
def State.redMem (s : State) (frm : Option Nat) (a fmt red : Nat) (d : List Nat) (poison : Nat → Bool) (e : Ecc) :
    State × Bool :=
  s.redSpans frm fmt red poison d e (spans 64 (d.length + 1) a d.length)

/-- SIG_VALUE is added to the target of a W1 word on this module, by a requester on frond `frm`: a counter or a tile
counter (R169, R172). One that cannot be reached (R144), and a tile that is unmapped or out of service, is an access error. -/
def State.signalLocal (s : State) (frm : Option Nat) (w1 : Nat) : State × Bool :=
  let v := w1 / 2 ^ 32
  if w1 / 2 ^ 30 % 4 = 1 then
    if s.counterNear frm (w1 % 2 ^ 17) then (s.counterAdd (w1 % 2 ^ 17) v, true) else (s, false)
  else
    let f := Frond.at (w1 / 2 ^ 11 % 2)
    match s.physOf f (w1 / 2 ^ 4 % 128) with
    | none => (s, false)
    | some t => if s.tileOut f t || !s.bridged frm f.idx then (s, false) else (s.tcAdd f t (w1 % 16) v, true)

/-- The global address of a W1 target (R169, R125, R219). -/
def State.signalAddr (s : State) (w1 : Nat) : Nat :=
  let m := if bitOf w1 23 then w1 / 2 ^ 17 % 64 else s.modIdx
  m * 2 ^ 44 + (if w1 / 2 ^ 30 % 4 = 1 then 0xE0000000000 + 8 * (w1 % 2 ^ 17)
    else 0xC0000000000 + w1 / 2 ^ 11 % 2 * 0x100000000 + w1 / 2 ^ 4 % 128 * 0x1000000 + 0xE00000 + 8 * (w1 % 16))

/-- The W1 target lies on another module. -/
def State.signalRemote (s : State) (w1 : Nat) : Bool := bitOf w1 23 && w1 / 2 ^ 17 % 64 != s.modIdx

/-- W1 is a signal target of R169 with no reserved bit or value set. -/
def signalGood (w1 : Nat) : Bool :=
  let k := w1 / 2 ^ 30 % 4
  k != 3 && w1 / 2 ^ 24 % 64 == 0 && (k != 2 || w1 / 2 ^ 12 % 32 == 0)

/-- The add of W1's SIG_VALUE is made, here or as a write to another module on behalf of `user` (R172, R252): 0, or the
failing code: 4 ADDR_BAD for a tile that is unmapped or fenced, 9 REMOTE where there is no route (R174, R250). -/
def State.signalAdd (s : State) (f : Frond) (user : LinkUser) (w1 : Nat) : State × Nat :=
  if w1 / 2 ^ 30 % 4 = 0 then (s, 0)
  else if s.signalRemote w1 then
    let g := s.signalAddr w1
    let r := s.post f user (s.writeTxn f 0x02 g 0 0 (leBytes 8 (w1 / 2 ^ 32)) 0) g
    (r.1, if r.2 then 0 else 9)
  else
    let r := s.signalLocal (some f.idx) w1
    (r.1, if r.2 then 0 else 4)

end Sys2Proof.Machine
end

