-- ==== Sys2Proof/Machine/ColOps.lean ====
section
/-! DEFINITION. What the collectors see of the units, their registers, FAULT_N and ALIVE (R443-R451), the waits of contexts
and tiles (R201, R456), and injected errors of stored data (R452). -/

namespace Sys2Proof.Machine

/-! ### Error pins (R443, R446) -/

/-- The pages whose pin is asserted. -/
def State.pinPages (s : State) : List Nat :=
  (s.regs.filter (fun e => e.1 % 4096 == 0x020 && s.pinBits (e.1 / 4096) != 0)).map (fun e => e.1 / 4096)

/-- The class on a page's pin: the highest of its unmasked bits (R443). -/
def State.pinClass (s : State) (p : Nat) : Nat :=
  ((bitsOf (s.pinBits p)).map (fun b => (errClass p b).num)).foldl max 0

/-- The collector's bit for a page: FFS bit of frond 0 or 1, or MFS bit for 15 (R444, R445). -/
def colBit (p : Nat) : Nat := sourceOf p % 64

/-- The frond of a page, 15 for a module page. -/
def pageFrond (p : Nat) : Nat := match pageInfo p with | some i => i.frond | none => 15

/-- FFS of a frond. -/
def ffs (f : Frond) : Field := F.FFS_SRC.pg (frondPg f 0x108)

/-- The pin of a source of the module collector; the pin of a frond collector follows its FFS. -/
def State.mfsPin (s : State) (b : Nat) : Bool :=
  if b ≤ 1 then s.on (ffs (Frond.at b)) else s.pinPages.any (fun p => pageFrond p == 15 && colBit p == b)

/-- The pin of a source of a frond collector. -/
def State.ffsPin (s : State) (f : Frond) (b : Nat) : Bool :=
  s.pinPages.any (fun p => pageFrond p == f.idx && colBit p == b)

/-- A class field of MCOL_CLASS or FCOL_CLASS. -/
def clsGet (w b : Nat) : Nat := w / 4 ^ b % 4

def clsSet (w b v : Nat) : Nat := w - clsGet w b * 4 ^ b + v * 4 ^ b

/-- A field takes a class when it is the higher. -/
def State.clsRaise (s : State) (g : Field) (b cls : Nat) : State :=
  if clsGet (s.rd g) b < cls then s.wr g (clsSet (s.rd g) b cls) else s

/-! ### FAULT_N and ALIVE (R450, R451) -/

/-- Some class field of the module collector holds FE. -/
def State.feHeld (s : State) : Bool := (List.range 27).any (fun b => clsGet (s.rd F.MCOL_CLASS_CLASS) b == 3)

/-- MCOL_STATUS.FE follows the class fields; ALIVE runs while the collector is healthy and holds no FE, and 0xA004 records
its stop. (DESIGN CHOICE, log 55) -/
def State.aliveSync (s : State) : State :=
  let s := s.wr F.MCOL_STATUS_FE (b2n s.feHeld)
  let run := s.on F.MCOL_STATUS_SELF_OK && !s.on F.MCOL_STATUS_FE
  if s.on F.MCOL_STATUS_ALIVE_RUN && !run then (s.wr F.MCOL_STATUS_ALIVE_RUN 0).event 0x80 0xA004
  else s.wr F.MCOL_STATUS_ALIVE_RUN (b2n run)

/-- A PIN request: FAULT_N goes low for a pulse, which a request during it restarts; one while the pin is held changes
nothing. Each fall of the pin records 0xA003 (R450). -/
def State.pinReq (s : State) : State :=
  if s.col.pulse then { s with col := { s.col with pulseAt := s.now } }
  else if s.on F.MCOL_STATUS_FAULT_N_OUT then s
  else
    (({ s with col := { s.col with pulse := true, pulseAt := s.now } }).wr F.MCOL_STATUS_FAULT_N_OUT 1).event 0x80 0xA003

/-- A held FAULT_N is released; a pulse runs to its end. (DESIGN CHOICE, log 55) -/
def State.pinRelease (s : State) : State := if s.col.pulse then s else s.wr F.MCOL_STATUS_FAULT_N_OUT 0

/-! ### Clearing MFS and FFS (R446, R482) -/

/-- The interrupt lines of a collector bit follow the bit and its latches that carried IRQ. (DESIGN CHOICE, log 55) -/
def State.mfsLine (s : State) (b : Nat) : State :=
  let hi := bitOf (s.rd F.MFS_SRC) b && bitOf s.col.irqM b
  ((s.irqRaw .pic b hi).irqRaw (.fic .A) (32 + b) hi).irqRaw (.fic .B) (32 + b) hi

/-- (DESIGN CHOICE, log 55) -/
def State.ffsLine (s : State) (f : Frond) (b : Nat) : State :=
  let irq := match f with | .A => s.col.irqA | .B => s.col.irqB
  s.irqRaw (.fic f) b (bitOf (s.rd (ffs f)) b && bitOf irq b)

/-- An MFS bit clears with its class field, when its source's pin is deasserted. -/
def State.mfsClear (s : State) (b : Nat) : State :=
  if !bitOf (s.rd F.MFS_SRC) b || s.mfsPin b then s
  else
    let s := (s.clrBit F.MFS_SRC b).wr F.MCOL_CLASS_CLASS (clsSet (s.rd F.MCOL_CLASS_CLASS) b 0)
    (({ s with col := { s.col with irqM := clrBitN s.col.irqM b } }).mfsLine b).aliveSync

/-- An FFS bit clears with its class field, when its source's pin is deasserted. -/
def State.ffsClear (s : State) (f : Frond) (b : Nat) : State :=
  if !bitOf (s.rd (ffs f)) b || s.ffsPin f b then s
  else
    let g := F.FCOL_CLASS_CLASS.pg (frondPg f 0x108)
    let s := (s.clrBit (ffs f) b).wr g (clsSet (s.rd g) b 0)
    let s := match f with
      | .A => { s with col := { s.col with irqA := clrBitN s.col.irqA b } }
      | .B => { s with col := { s.col with irqB := clrBitN s.col.irqB b } }
    s.ffsLine f b

/-! ### Recovery steps (R467, R468) -/

/-- RST_STATUS.STEP is the highest step that runs, and PHASE 0 when that is no chip reset. -/
def State.stepSync (s : State) : State :=
  let s := s.wr F.RST_STATUS_STEP (s.rst.steps.foldl (fun a x => max a x.step) 0)
  if s.rst.steps.any (fun x => x.step == 4) then s else s.wr F.RST_STATUS_PHASE 0

/-- A stop begins during recovery steps: they are abandoned, but for the power cycle that asked for it (R468). -/
def State.stepsAbandon (s : State) : State :=
  { s with rst := { s.rst with steps := s.rst.steps.filter (fun x => x.step == 5) } }.stepSync

end Sys2Proof.Machine
end

