-- ==== Sys2Proof/Machine/LinkOps.lean ====
section
/-! DEFINITION. Collective slots as other families touch them: their end, and what a context reset does to them (R263, R264,
R267). -/

namespace Sys2Proof.Machine

/-- A field of a collective slot. -/
def cf (g : Field) (n : Nat) : Field := g.i n

def collDefault : Nat → CollSlot := fun _ => CollSlot.init

def State.collSlot (s : State) (n : Nat) : CollSlot := Sparse.get collDefault s.link.coll n

def State.setCollSlot (s : State) (n : Nat) (u : CollSlot) : State :=
  { s with link := { s.link with coll := Sparse.set collDefault s.link.coll n u } }

/-- COLL_CTRL.STATE: 0 IDLE, 1 ARMED, 2 RUN, 3 DONE, 4 FAILED. -/
def State.collState (s : State) (n : Nat) : Nat := s.rd (cf F.COLL_CTRL_STATE n)

/-- COLL_STATUS follows the slots. -/
def State.collSync (s : State) : State :=
  let mask := fun st => (List.range 16).foldl (fun m n => if s.collState n = st then setBitN m n else m) 0
  (s.wr F.COLL_STATUS_ARMED (mask 1)).wr F.COLL_STATUS_RUNNING (mask 2)

/-- A slot leaves ARMED or RUN for a state, without its segments. -/
def State.collLeave (s : State) (n st : Nat) : State :=
  let s := (s.wr (cf F.COLL_CTRL_STATE n) st).setCollSlot n CollSlot.init
  ({ s with link := { s.link with armed := s.link.armed.filter (· != n) } }).collSync

/-- The completion signal is added, where the domain of CTX may (R172, R264). (DESIGN CHOICE, log 40) -/
def State.collSignal (s : State) (n : Nat) : State :=
  let c := s.rd (cf F.COLL_CTRL_CTX n)
  let w1 := s.rd (cf F.COLL_DONE_TARGET n)
  if signalGood w1 && (w1 / 2 ^ 30 % 4 == 0 || s.domMay (s.ctxDom c) rightW (s.signalAddr w1) 8)
  then (s.signalAdd (s.partFrond (s.ctx c).part) .signal w1).1 else s

/-- A slot fails with a cause: SLOT_FAIL, the signal only under SIG_ON_ERR (R267). -/
def State.collFail (s : State) (n cause : Nat) : State :=
  let s := ((s.collLeave n 4).wr (cf F.COLL_CTRL_ERR n) cause).err 0x29 0
  if s.on (cf F.COLL_CTRL_SIG_ON_ERR n) then s.collSignal n else s

/-- A context reset ends the collective slots of the context in ARMED or RUN with ABORTED (R267, R462). The tracker entries
and write group of each descriptor go as it is dropped (R263). -/
def State.linkAbort (s : State) (c : Nat) : State :=
  let other := fun (e : Stalled) => match e.user with
    | .item k _ => k != c
    | _ => true
  let s := { s with link := { s.link with stalled := s.link.stalled.filter other } }
  (List.range 16).foldl (fun s n =>
    let st := s.collState n
    if (st == 1 || st == 2) && s.rd (cf F.COLL_CTRL_CTX n) == c then s.collFail n 5 else s) s

end Sys2Proof.Machine
end

