-- ==== Sys2Proof/Machine/Recover.lean ====
section
/-! DEFINITION. Faults of contexts and what the recovery steps do to contexts, tiles and engines (R98, R113, R174, R177,
R213, R462-R465). -/

namespace Sys2Proof.Machine

/-! ### Recovery steps (R467, R469) -/

/-- A step begins and is recorded in RST_LAST. (DESIGN CHOICE, log 57) -/
def State.stepOpen (s : State) (step target cause : Nat) : State :=
  let s := { s with rst := { s.rst with steps := ⟨step, target, cause, s.now⟩ :: s.rst.steps } }
  let s := (s.wr F.RST_LAST_STEP step).wr F.RST_LAST_CAUSE cause
  let s := (s.wr F.RST_LAST_FAILED 0).wr F.RST_LAST_TARGET target
  (s.wr F.RST_LAST_DURATION_US 0).stepSync

/-- The step of this kind and target that runs. -/
def State.stepOf (s : State) (step target : Nat) : Option RstStep :=
  s.rst.steps.find? (fun x => x.step == step && x.target == target)

/-- The count of a step in RST_COUNT. -/
def stepCount (step : Nat) : Field :=
  match step with
  | 1 => F.RST_COUNT_CTX
  | 2 => F.RST_COUNT_ENG
  | 3 => F.RST_COUNT_PART
  | _ => F.RST_COUNT_CHIP

/-- A step ends: recorded, and counted when it was performed. (DESIGN CHOICE, log 57) -/
def State.stepClose (s : State) (step target : Nat) (failed : Bool) : State :=
  match s.stepOf step target with
  | none => s
  | some x =>
    let s := { s with rst := { s.rst with steps := s.rst.steps.filter (fun y => !(y.step == step && y.target == target)) } }
    let s := (s.wr F.RST_LAST_STEP step).wr F.RST_LAST_CAUSE x.cause
    let s := (s.wr F.RST_LAST_FAILED (b2n failed)).wr F.RST_LAST_TARGET target
    let s := s.wrSat F.RST_LAST_DURATION_US ((s.now - x.since) / 250)
    (if failed then s.err 0x82 0 else if step ≤ 4 then s.incSat (stepCount step) else s).stepSync

/-- The step is dropped without being performed: a higher one covers it, or a stop ends it (R468). -/
def State.stepDrop (s : State) (step target : Nat) : State :=
  { s with rst := { s.rst with
      steps := s.rst.steps.filter (fun y => !(y.step == step && y.target == target)) } }.stepSync

/-! ### Arrays of a tile (R65, R84) -/

/-- ROT_STATE of a tile (R84). -/
def State.rot (s : State) (f : Frond) (p : Nat) : Nat := s.rd (tf F.ARR_SLOT_ROT_STATE f p)

def State.setRot (s : State) (f : Frond) (p v : Nat) : State := s.wr (tf F.ARR_SLOT_ROT_STATE f p) v

/-- The SLOT field of a slot. -/
def slotField (k : Nat) : Field :=
  match k with
  | 0 => F.ARR_SLOT_SLOT0
  | 1 => F.ARR_SLOT_SLOT1
  | 2 => F.ARR_SLOT_SLOT2
  | _ => F.ARR_SLOT_SLOT3

/-- The physical array in a slot, and the spare. -/
def State.slotArr (s : State) (f : Frond) (p k : Nat) : Nat := s.rd (tf (slotField k) f p)

def State.spareArr (s : State) (f : Frond) (p : Nat) : Nat := s.rd (tf F.ARR_SLOT_SPARE f p)

/-- A field of physical array `a`. -/
def af (g : Field) (f : Frond) (p a : Nat) : Field := (tf g f p).i a

/-- The key of a bank's first byte. -/
def bankKey (a b : Nat) : Nat := (a * 2 + b) * 65664

/-- A bank takes bytes; and the spare's with it while it mirrors the slot (R84). -/
def bankFill (u : TileUnit) (a b : Nat) (w : List (Nat × Nat)) : TileUnit :=
  { u with
    bank := w.foldl (fun m e => Sparse.set (fun _ => 0) m (bankKey a b + e.1) e.2) u.bank
    bankValid := setBitN u.bankValid (a * 2 + b) }

/-- The spare mirrors slot `k`. (DEDUCED, log 24) -/
def State.mirrors (s : State) (f : Frond) (p k : Nat) : Bool :=
  decide (1 ≤ s.rot f p) && decide (s.rot f p ≤ 3) && s.rd (tf F.ARR_SLOT_TARGET f p) == k

/-- A LOAD ends: its bank takes the image, and the spare's with it while it mirrors the slot (R65, R84). (DEDUCED, log 24) -/
def State.loadRetire (s : State) (f : Frond) (p : Nat) (x : TileFly) : State :=
  let k := x.op.word / 2 ^ 58 % 4
  let b := x.op.word / 2 ^ 57 % 2
  let s := s.updTile f p (fun u => bankFill u (s.slotArr f p k) b x.writes)
  if s.mirrors f p k then s.updTile f p (fun u => bankFill u (s.spareArr f p) b x.writes) else s

/-! ### Tiles -/

/-- Memory from a key on, `n` bytes, reads 0 and clean. -/
def State.memZero (s : State) (k n : Nat) : State :=
  { s with
    mem := s.mem.filter (fun e => decide (e.1 < k) || decide (k + n ≤ e.1))
    poison := s.poison.filter (fun e => decide (e.1 < k) || decide (k + n ≤ e.1))
    col := { s.col with inverted := s.col.inverted.filter (fun e => decide (e.1 < k) || decide (k + n ≤ e.1)) } }

/-- Both stores of a tile are zeroed with clear poison (R139). -/
def State.storeZero (s : State) (f : Frond) (p : Nat) : State := s.memZero (storeKey f.idx p 0) 0xE00000

/-- The writes of an op that has ended: they become visible (R106). -/
def State.flyWrite (s : State) (f : Frond) (p : Nat) (w : List (Nat × Nat)) : State :=
  (w.foldl (fun s e => s.setByte (storeKey f.idx p e.1) (BitVec.ofNat 8 e.2)) s).storeTouch f.idx p (w.map (·.1))

/-- The beats that ascending writes cover whole: a beat counts when its 32 bytes follow one another. -/
def wholeBeats : List (Nat × Nat) → Nat → List Nat
  | [], _ => []
  | e :: t, n =>
    let n := if e.1 % 32 = n then n + 1 else if e.1 % 32 = 0 then 1 else 33
    if n = 32 then e.1 / 32 * 32 :: wholeBeats t 33 else wholeBeats t n

/-- The beats that writes cover whole lose their poison; a part of a beat leaves it (R137). -/
def State.flyClean (s : State) (f : Frond) (p : Nat) (w : List (Nat × Nat)) : State :=
  (wholeBeats w 0).foldl (fun s a => s.setPoison (storeKey f.idx p a) false) s

/-- The sequencer returns to IDLE (R112, R113). -/
def State.tileIdle (s : State) (f : Frond) (p : Nat) : State :=
  let s := s.updTile f p (fun u => { u with loops := [], pwait := none, stopping := false, wtTaken := false })
  let s := (s.wr (tf F.TSEQ_STATUS_STATE f p) 0).wr (tf F.TSEQ_STATUS_LOOP_DEPTH f p) 0
  let s := (s.wr (tf F.TSEQ_TAG_CTX f p) (s.rd (tf F.TSEQ_STATUS_CTX f p))).wr (tf F.TSEQ_STATUS_CTX f p) 0
  let s := (s.wr (tf F.TSEQ_STATUS_CTX_GEN f p) 0).wr (tf F.TSEQ_WAIT_VALUE f p) 0
  (s.wr (tf F.TSEQ_WAIT_BY_WT f p) 0).wr (tf F.TSEQ_WAIT_COUNTER f p) 0

/-- A tile stops under R113: issue stops, its queues empty, ops already started run on without their signals, and the
sequencer returns to IDLE when none is left. -/
def State.tileStop (s : State) (f : Frond) (p : Nat) : State :=
  if s.seqState f p = 0 then s
  else
    let s := s.updTile f p (fun u => { u with
      queues := [], stopping := true,
      fly := u.fly.map (fun x => { x with op := { x.op with word := clrBitN x.op.word 7 }, stat := none }) })
    if (s.tile f p).fly = [] then s.tileIdle f p else s.wr (tf F.TSEQ_STATUS_STATE f p) 4

/-- Ops already started end, without signals (R113): loads in their banks, the others in the stores. -/
def State.tileFlush (s : State) (f : Frond) (p : Nat) : State :=
  let fly := (s.tile f p).fly
  let isLoad := fun (x : TileFly) => decide (1 ≤ x.queue) && decide (x.queue ≤ 4)
  let s := (fly.filter isLoad).foldl (fun s x => s.loadRetire f p x) s
  let w := (fly.filter (fun x => !isLoad x)).flatMap (·.writes)
  ((s.flyWrite f p w).flyClean f p w).updTile f p (fun u => { u with fly := [], queues := [] })

/-- A rotation cycle in progress is abandoned: the spare returns to IDLE and a held trigger is discarded (R92).
(DESIGN CHOICE, log 26) -/
def State.rotAbandon (s : State) (f : Frond) (p : Nat) : State :=
  let st := s.rd (tf F.ARR_SLOT_ROT_STATE f p)
  let s := s.updTile f p (fun u => { u with trigger := false, verifyOnly := false })
  if 1 ≤ st ∧ st ≤ 3 then s.wr (tf F.ARR_SLOT_ROT_STATE f p) 0 else s

/-- The physical tiles of a frond that run a program of context `c`. -/
def State.tilesOf (s : State) (f : Frond) (c : Nat) : List Nat :=
  (List.range 132).filter (fun p => s.seqState f p != 0 && s.rd (tf F.TSEQ_STATUS_CTX f p) == c)

/-- The tile counters of a tile are cleared (R111). -/
def State.tcClear (s : State) (f : Frond) (p : Nat) : State :=
  (List.range 16).foldl (fun s n => s.wr (tcnt f p n) 0) s

/-! ### Engines (R169-R177) -/

def Desc.w (d : Desc) (i : Nat) : Nat := d.words.getD i 0

/-- ENG_STATUS follows the engine: QUEUED, CTX and, unless it is fenced or in reset, STATE. -/
def State.engSync (s : State) (f : Frond) (n : Nat) : State :=
  let u := s.eng f n
  let s := s.wr (ef F.ENG_STATUS_QUEUED f n) (min 7 u.queue.length)
  let s := s.wr (ef F.ENG_STATUS_CTX f n) (match u.running with | some d => d.ctx | none => 0)
  if s.rd (ef F.ENG_STATUS_STATE f n) ≤ 1 then s.wr (ef F.ENG_STATUS_STATE f n) (b2n u.running.isSome) else s

/-- Earlier items of the descriptor's context that are not complete (R171): ENGINE items with an older number. -/
def State.serialHeld (s : State) (d : Desc) : Bool :=
  bitOf (d.w 0) 16 && (s.ctx d.ctx).outstanding.any (fun o =>
    let k := itemKind o.words
    decide (1 ≤ k) && decide (k ≤ 8) && o.num != d.item
      && decide ((d.item + 2 ^ 17 - o.num) % 2 ^ 17 < 2 ^ 16))

/-- An idle engine takes the descriptor at the head of its queue (R171). -/
def State.engStart (s : State) (f : Frond) (n : Nat) : State :=
  let u := s.eng f n
  match u.running, u.queue with
  | none, d :: t =>
    if s.rd (ef F.ENG_STATUS_STATE f n) == 0 && !s.serialHeld d
    then (s.setEng f n { u with queue := t, running := some d, done := none, reads := [] }).engSync f n else s.engSync f n
  | _, _ => s.engSync f n

/-- The failure of a descriptor is recorded in the engine's registers (R174). -/
def State.engRecord (s : State) (f : Frond) (n : Nat) (d : Desc) (code addr : Nat) : State :=
  let s := (s.wr (ef F.ENG_LAST_ERR_CTX f n) d.ctx).wr (ef F.ENG_LAST_ERR_CTX_GEN f n) d.gen
  let s := (s.wr (ef F.ENG_LAST_ERR_CODE f n) code).incSat (ef F.ENG_LAST_ERR_ERRORS f n)
  let s := (s.wr (ef F.ENG_ERR_ADDR_ADDR f n) addr).wr (ef F.ENG_ERR_HDR0_W0 f n) (d.w 0)
  (s.wr (ef F.ENG_ERR_HDR1_W1 f n) (d.w 1)).err (engPage f n) 0

/-- The item of a descriptor is no longer outstanding. -/
def State.itemDone (s : State) (c num : Nat) : State :=
  s.updCtx c (fun x => { x with outstanding := x.outstanding.filter (fun o => o.num != num) })

/-- An engine drops the descriptors of context `c` without signalling (R177): queued ones are discarded, a running one
ends with ABORTED. -/
def State.engDiscard (s : State) (f : Frond) (c n : Nat) : State :=
  let u := s.eng f n
  let u := { u with queue := u.queue.filter (fun d => d.ctx != c) }
  match u.running with
  | some d =>
    if d.ctx = c then
      (((s.setEng f n u.rest).engLinksFree f n).engRecord f n d 0x0B 0).engSync f n
    else (s.setEng f n u).engSync f n
  | none => (s.setEng f n u).engSync f n

/-! ### Contexts (R213, R462, R463) -/

/-- CTX_FAULT's word. -/
def faultWord (source code gen detail item : Nat) : Word :=
  BitVec.ofNat 64 (source % 8 * 2 ^ 61 + code % 256 * 2 ^ 48 + gen % 256 * 2 ^ 40 + detail % 65536 * 2 ^ 24 + item % 2 ^ 17)

/-- What a context reset begins with (R462): dispatch stops and the ring empties, tiles stop, engines drop the context's
descriptors, its tracker entries and collective slots go. A context in RESET absorbs it (R468). -/
def State.ctxResetBody (s : State) (c : Nat) : State :=
  let x := s.ctx c
  if !x.alloc || x.resetting then s
  else
    let s := s.setCtx c { x with resetting := true, head := x.tail, wait := none, outstanding := [], epoch := none }
    let f := s.partFrond x.part
    let s := (s.tilesOf f c).foldl (fun s p => s.tileStop f p) s
    let s := (s.partPhys x.part).foldl (fun s p => s.rotAbandon f p) s
    let s := (List.range 44).foldl (fun s n => s.engDiscard f c n) s
    let s := (List.range 44).foldl (fun s n => s.engStart f n) s
    let s := { s with work := { s.work with passed := s.work.passed.filter (fun e => e.2.ctx != c) } }
    s.linkAbort c

/-- A context reset begins as a recovery step of its own. -/
def State.ctxReset (s : State) (c cause : Nat) : State :=
  let x := s.ctx c
  if !x.alloc || x.resetting then s else (s.stepOpen 1 c cause).ctxResetBody c

/-- A context reset completes: explicit producers are cleared, the generation advances, the context is IDLE.
(DESIGN CHOICE, log 33) -/
def State.ctxResetEnd (s : State) (c : Nat) : State :=
  let s := s.updCtx c (fun x => { x with
    resetting := false, faulted := false, stopped := false, prods := [], gen := (x.gen + 1) % 256, wait := none,
    outstanding := [], epoch := none })
  (s.stepClose 1 c false).event 0x82 0x9030

/-- A fault of context `c` reported under generation `gen` (R213, R472): a report of another generation is dropped and
counted, one of a context in RESET ignored; the first fault is recorded and stops dispatch, later ones count in MORE;
the frond's source 26 pulses (R482); with AUTO_CTX a context reset follows (R463), but not under a chip reset. -/
def State.ctxFault (s : State) (c gen source code detail item : Nat) : State :=
  let x := s.ctx c
  if !x.alloc || x.gen != gen then s.incSat F.RST_LATE_DROP_CTX
  else if x.resetting then s
  else if x.faulted then
    s.setCtx c { x with fault := F.CTX_FAULT_MORE.put x.fault (min 31 (F.CTX_FAULT_MORE.get x.fault + 1)) }
  else
    let s := s.setCtx c { x with faulted := true, fault := faultWord source code gen detail item, wait := none }
    let s := { s with col := { s.col with lastFault := c } }
    let s := (s.when (source == 1) (fun s => s.err 0x20 0)).irqPulse (.fic (s.partFrond x.part)) 26
    if s.on F.RST_CTRL_AUTO_CTX && !s.chipReset then s.ctxReset c 1 else s

/-- A fault that the module itself gives a context (R470). (DESIGN CHOICE, log 57) -/
def State.sysFault (s : State) (c code : Nat) : State :=
  let x := s.ctx c
  if x.alloc then s.ctxFault c x.gen 4 code 0 x.head else s

/-- The add of an item's signal fails: PROT where the target refuses it, LINK_PARTITION where it cannot be reached. -/
def State.addFault (s : State) (c code item : Nat) : State :=
  if code = 9 then s.sysFault c 0x20 else s.ctxFault c (s.ctx c).gen 1 4 0 item

/-! ### Descriptors (R172-R177) -/

/-- A running or queued descriptor ends with a failing code: recorded, signalled only under SIG_ON_ERR, reported to the
context; its item is no longer outstanding (R174). -/
def State.descFail (s : State) (f : Frond) (n : Nat) (d : Desc) (code addr : Nat) : State :=
  let s := (s.engRecord f n d code addr).itemDone d.ctx d.item
  let may := d.w 1 / 2 ^ 30 % 4 = 0 || s.domMay (s.ctxDom d.ctx) rightW (s.signalAddr (d.w 1)) 8
  let s := if bitOf (d.w 0) 17 && signalGood (d.w 1) && may then (s.signalAdd f .signal (d.w 1)).1 else s
  s.ctxFault d.ctx d.gen 3 code (f.idx * 128 + n) d.item

/-- Every engine of the frond that can takes its next descriptor. -/
def State.engKick (s : State) (f : Frond) : State := (List.range 44).foldl (fun s n => s.engStart f n) s

/-- The running descriptor of an engine ends with a failing code, and the engine takes the next (R174). -/
def State.engEnd (s : State) (f : Frond) (n : Nat) (code addr : Nat) : State :=
  match (s.eng f n).running with
  | none => s
  | some d =>
    let s := (s.setEng f n (s.eng f n).rest).engLinksFree f n
    ((s.engSync f n).descFail f n d code addr).engKick f

/-- The engine type that serves an instance (R167). -/
def engType (n : Nat) : Nat :=
  if n < 16 then 1 else if n < 20 then 2 else if n < 28 then 3 else if n < 30 then 4 else if n < 32 then 5
  else if n < 40 then 6 else if n < 42 then 7 else 8

/-- Of two engines the one with the fewer queued descriptors, the first on a tie. -/
def engFewer (s : State) (f : Frond) (best : Option Nat) (n : Nat) : Option Nat :=
  match best with
  | none => some n
  | some b => if (s.eng f n).queue.length < (s.eng f b).queue.length then some n else some b

/-- The engine that a descriptor goes to (R170): the one named by INST, or of those of TYPE in the partition the one
with the fewest queued; none fails with NO_ENGINE. A disabled engine is not chosen (R545). -/
def State.engPick (s : State) (p w0 : Nat) : Option Nat :=
  let f := s.partFrond p
  let ours := (s.partEngs p).filter (fun n => engType n == w0 % 256 && s.rd (ef F.ENG_STATUS_STATE f n) != 2
    && s.on (ef F.BLK_CTRL_ENABLE f n))
  let inst := w0 / 2 ^ 24 % 256
  if inst = 0xFF then ours.foldl (engFewer s f) none
  else if inst / 128 = f.idx && ours.contains (inst % 64) then some (inst % 64) else none

/-- A descriptor joins an engine's queue. -/
def State.engPush (s : State) (f : Frond) (n : Nat) (d : Desc) : State :=
  let u := s.eng f n
  (s.setEng f n { u with queue := u.queue ++ [d] }).engStart f n

/-- A descriptor that a fenced engine left goes to another engine, waits for room, or fails with NO_ENGINE (R177). -/
def State.engPass (s : State) (f : Frond) (n : Nat) (d : Desc) : State :=
  let p := (s.ctx d.ctx).part
  match s.engPick p (d.w 0 / 2 ^ 32 * 2 ^ 32 + 0xFF000000 + d.w 0 % 2 ^ 24) with
  | none => s.descFail f n d 0x0C 0
  | some m =>
    if (s.eng f m).queue.length < 4 then s.engPush f m d
    else { s with work := { s.work with passed := s.work.passed ++ [(f.idx, d)] } }

/-- Waiting descriptors of the frond are tried again. -/
def State.engRetry (s : State) (f : Frond) : State :=
  let mine := s.work.passed.filter (fun e => e.1 == f.idx)
  let s := { s with work := { s.work with passed := s.work.passed.filter (fun e => e.1 != f.idx) } }
  mine.foldl (fun s e => s.engPass f 0 e.2) s

/-- An engine is fenced (R177, R226): its running descriptor ends with ABORTED, its queue passes on, it leaves its
partition. -/
def State.engFence (s : State) (f : Frond) (n : Nat) : State :=
  if s.rd (ef F.ENG_STATUS_STATE f n) = 2 then s
  else
    let u := s.eng f n
    let s := (s.setEng f n EngUnit.init).engLinksFree f n
    let s := (s.wr (ef F.ENG_STATUS_STATE f n) 2).wr (ef F.ENG_STATUS_PART_VALID f n) 0
    let s := (s.engSync f n).setBit (F.RING_STATUS_FENCED.pg (frondPg f 0x120)) n
    let s := s.event (engPage f n) 0xA002
    let s := match u.running with
      | some d => s.descFail f n d 0x0B 0
      | none => s
    (u.queue.foldl (fun s d => s.engPass f n d) s).engKick f

/-- What an engine reset begins with (R464): the queue is discarded, the running descriptor ends with ABORTED, and the
contexts of all of them fault. A fenced engine, or one in reset, absorbs it. -/
def State.engResetBody (s : State) (f : Frond) (n : Nat) : State :=
  if 2 ≤ s.rd (ef F.ENG_STATUS_STATE f n) then s
  else
    let u := s.eng f n
    let s := ((s.setEng f n EngUnit.init).engLinksFree f n).wr (ef F.ENG_STATUS_STATE f n) 3
    let s := s.engSync f n
    let all := (match u.running with | some d => [d] | none => []) ++ u.queue
    let s := match u.running with
      | some d => s.engRecord f n d 0x0B 0
      | none => s
    let s := all.foldl (fun s d => s.itemDone d.ctx d.item) s
    let s := all.foldl (fun s d => s.ctxFault d.ctx d.gen 3 0x0B (f.idx * 128 + n) d.item) s
    if s.on (ef F.ENG_STATUS_PART_VALID f n)
    then (s.partPhys (s.rd (ef F.ENG_STATUS_PART f n))).foldl (fun s p => s.rotAbandon f p) s else s

/-- An engine reset begins as a recovery step of its own. -/
def State.engReset (s : State) (f : Frond) (n cause : Nat) : State :=
  if 2 ≤ s.rd (ef F.ENG_STATUS_STATE f n) then s else (s.stepOpen 2 (f.idx * 2 ^ 15 + n) cause).engResetBody f n

/-- An engine reset completes: the generation advances, the engine is IDLE (R464). -/
def State.engResetEnd (s : State) (f : Frond) (n : Nat) : State :=
  if s.rd (ef F.ENG_STATUS_STATE f n) != 3 then s
  else
    let s := (s.inc (ef F.ENG_STATUS_GEN f n)).wr (ef F.ENG_STATUS_STATE f n) 0
    ((s.stepClose 2 (f.idx * 2 ^ 15 + n) false).event 0x82 0x9031).engKick f

/-! ### Tile faults and fences (R98, R132) -/

/-- The context's item whose program runs on tile `p`. -/
def State.launchOf (s : State) (c p : Nat) : Nat :=
  match (s.ctx c).outstanding.find? (fun o => o.tiles.contains p) with
  | some o => o.num
  | none => (s.ctx c).head

/-- A program fault: the first is recorded with its op word and reported to the context; later ones count in MORE; the
tile is FAULTED (R132). -/
def State.tileFault (s : State) (f : Frond) (p code pc word : Nat) : State :=
  if s.seqState f p = 5 then s.incSat (tf F.TSEQ_FAULT_MORE f p)
  else
    let c := s.rd (tf F.TSEQ_STATUS_CTX f p)
    let g := s.rd (tf F.TSEQ_STATUS_CTX_GEN f p)
    let s := (s.wr (tf F.TSEQ_FAULT_CTX f p) c).wr (tf F.TSEQ_FAULT_CTX_GEN f p) g
    let s := (s.wr (tf F.TSEQ_FAULT_CODE f p) code).wr (tf F.TSEQ_FAULT_PC f p) pc
    let s := (s.wr (tf F.TSEQ_FAULT_MORE f p) 0).wr (tf F.TSEQ_FAULT_OP0_OP_LO f p) (word % 2 ^ 64)
    let s := (s.wr (tf F.TSEQ_FAULT_OP1_OP_HI f p) (word / 2 ^ 64)).wr (tf F.TSEQ_STATUS_STATE f p) 5
    s.ctxFault c g 2 code (s.logicalOf f p) (s.launchOf c p)

/-- Tiles of a frond in a state, counted. -/
def State.tilesIn (s : State) (f : Frond) (st : Nat) : Nat :=
  ((List.range 132).filter (fun p => s.tileState f p == st)).length

/-- TMAP_STATUS follows the tiles and the map. -/
def State.mapSync (s : State) (f : Frond) : State :=
  let un := ((List.range 128).filter (fun t => !s.on (mapField F.TMAP_ENTRY_VALID f t))).length
  let s := (s.wr (F.TMAP_STATUS_UNMAPPED.pg (frondPg f 0x100)) un).wr (F.TMAP_STATUS_FENCED.pg (frondPg f 0x100))
    (s.tilesIn f 4)
  s.wr (F.TMAP_STATUS_SPARES_FREE.pg (frondPg f 0x100)) (s.tilesIn f 3)

/-- A full calibration of a tile that is in no FENCED state begins (R83, R89, R97): the tile and its healthy arrays are in
CAL, a rotation cycle and an in-place calibration end. (DESIGN CHOICE, log 26) -/
def State.tileCalBegin (s : State) (f : Frond) (p : Nat) : State :=
  if s.tileState f p = 4 then s
  else
    let s := ((s.wr (tf F.TILE_STATUS_STATE f p) 1).rotAbandon f p).updTile f p (fun u => { u with ipSlot := none })
    (List.range 5).foldl (fun s a =>
      if s.rd (af F.ARR_STATUS_ARR_STATE f p a) = 2 then s else s.wr (af F.ARR_STATUS_ARR_STATE f p a) 3) s

/-- A tile is fenced (R98): its clock stops at once, a program on it faults with TILE_FENCED, it keeps its mapping; the
contents of its stores are lost (R139): they read as bytes that nothing has written. (DESIGN CHOICE, log 7) -/
def State.tileFence (s : State) (f : Frond) (p : Nat) : State :=
  if s.tileState f p = 4 then s
  else
    let busy := s.seqState f p != 0
    let pc := s.rd (tf F.TSEQ_STATUS_PC f p)
    let s := (s.storeZero f p).updTile f p (fun u => { u with fly := [], queues := [], ipSlot := none, recal := false })
    let s := s.wr (tf F.TILE_STATUS_STATE f p) 4
    let s := (s.event (tilePage f p) 0xA002).mapSync f
    if busy then s.tileFault f p 0x0F pc 0 else s

end Sys2Proof.Machine
end

