-- ==== Sys2Proof/Machine/AccessOps.lean ====
section
/-! DEFINITION. An access from outside the requester's own memory as one operation: the check (R218, R229-R231, R257,
R292), the hold of a pending epoch fence, and what it does at its target. -/

namespace Sys2Proof.Machine

/-- The domain that an accessor is checked by, if any. -/
def State.accDomain (s : State) : Accessor → Option Nat
  | .engine _ c => some (s.ctxDom c.toNat)
  | .tile _ c => some (s.ctxDom c.toNat)
  | .host slot => if (s.sess slot.val).level = .L2 then some (s.sess slot.val).domain else none
  | _ => none

/-- The accessor's accesses are held now. -/
def State.accHeld (s : State) (who : Accessor) : Bool :=
  match s.accDomain who with
  | some d => s.heldDom d
  | none => false

/-- An access is held at its check. (DESIGN CHOICE, log 36) -/
def State.hold (s : State) (h : Held) : State :=
  { s with work := { s.work with held := s.work.held ++ [h] } }

/-- The answer to an access. -/
def State.answer (s : State) (r : Res) : State := s.put (.answer r.ok r.poison r.data)

/-- The activity of `n` bytes at a local address (R378): HBM blocks, `mul` counts each, or store beats, charged to a
context or to none. -/
def State.countBytes (s : State) (a n mul : Nat) (tag : Option (Nat × Nat)) : State :=
  if a < 0xA000000000 then s.activity (Frond.at (a / 0x5000000000)) 8 ((a % 64 + n + 63) / 64 * mul) tag none
  else if 0xC0000000000 ≤ a ∧ a < 0xC0200000000 then
    s.activity (Frond.at ((a - 0xC0000000000) / 0x100000000)) 4 ((a % 32 + n + 31) / 32) tag none
  else s

/-- The context that an accessor's activity is charged to. -/
def State.accTag (s : State) : Accessor → Option (Nat × Nat)
  | .engine _ c => s.ctxTag c.toNat
  | .tile _ c => s.ctxTag c.toNat
  | _ => none

/-- A checked access acts on its target and is answered. -/
def State.accessDo (s : State) (h : Held) : State :=
  let s := s.countBytes h.addr (if h.kind = 0 then h.n else h.data.length) (if h.kind = 2 then 2 else 1) (s.accTag h.who)
  let frm := accFrond h.who
  match h.kind with
  | 0 =>
    if h.addr / 64 = (h.addr + h.n - 1) / 64 then
      let r := s.rdPiece frm h.addr h.n h.ecc
      r.1.answer r.2
    else
      let r := s.rdMem frm h.addr h.n
      r.1.answer r.2
  | 1 =>
    let r := s.wrMemP frm (accSource h.who) h.addr h.data (fun _ => h.poison) h.ecc
    r.1.answer ⟨r.2, false, []⟩
  | 2 =>
    let r := s.redMem frm h.addr h.fmt h.red h.data (fun _ => h.poison) h.ecc
    r.1.answer ⟨r.2, false, []⟩
  | _ => s

/-- An access passes its check or fails; a refused submission is recorded by the port, SIZE before PROT (R216). -/
def State.accessCheck (s : State) (h : Held) : State :=
  let size := if h.kind = 0 then h.n else h.data.length
  let sub := 0xE1000000000 ≤ h.addr ∧ h.addr < 0xE1000400000 ∧ h.kind ≠ 0
  if sub ∧ ¬ (h.addr % 64 = 0 ∧ size = 64) then
    (s.subReject ((h.addr - 0xE1000000000) / 64) (accSource h.who) 1).answer Res.err
  else if s.mayAccess h.who (if h.kind = 0 then rightR else rightW) h.addr size then s.accessDo h
  else
    let s := s.refusedBy h.who
    let s := if sub then s.subReject ((h.addr - 0xE1000000000) / 64) (accSource h.who) 4 else s
    s.answer Res.err

/-- An access arrives: it is held while an epoch fence of its domain is pending (R231). -/
def State.access (s : State) (h : Held) : State := if s.accHeld h.who then s.hold h else s.accessCheck h

/-- A read, and a write, as an access. -/
def readOf (who : Accessor) (a n : Nat) (e : Ecc) : Held := ⟨who, a, 0, n, 0, 0, [], false, e⟩

def writeOf (who : Accessor) (a : Nat) (d : List Nat) (poison : Bool) : Held :=
  ⟨who, a, 1, 0, 0, 0, d, poison, .clean⟩

/-- A memory operation as an access. -/
def memOf (who : Accessor) (a : Nat) : MemOp → Held
  | .read n => readOf who a n .clean
  | .write d p => writeOf who a (d.map BitVec.toNat) p

end Sys2Proof.Machine
end

