-- ==== Sys2Proof/Machine/Keccak.lean ====
section
/-! DEFINITION. The sponge of FIPS 202 with SHAKE256, which the spec names without giving it (R5, R281, R282, R517-R519), and
SHA3 as ML-KEM uses it. The 1,600 bits of a state are one number, lane x + 5y of FIPS 202 at bits 64 (x + 5y) and up.
PRESUMED: the standard's text. -/

namespace Sys2Proof.Machine

/-! ### Keccak-f[1600] (FIPS 202, 3.2) -/

/-- A pattern of the first plane repeated in all five. -/
def planes (p : Nat) : Nat := p * (1 + 2 ^ 320 + 2 ^ 640 + 2 ^ 960 + 2 ^ 1280)

/-- Theta: `c` holds the parities of the columns, `r` each lane of it rotated by 1; lane x takes the parity of lane x − 1 and the
rotated one of lane x + 1. -/
def theta (a : Nat) : Nat :=
  let c := a % 2 ^ 320 ^^^ a / 2 ^ 320 % 2 ^ 320 ^^^ a / 2 ^ 640 % 2 ^ 320 ^^^ a / 2 ^ 960 % 2 ^ 320 ^^^ a / 2 ^ 1280
  let top := c / 2 ^ 63 &&& (1 + 2 ^ 64 + 2 ^ 128 + 2 ^ 192 + 2 ^ 256)
  let r := (c ^^^ top * 2 ^ 63) * 2 ^^^ top
  a ^^^ planes ((c * 2 ^ 64 % 2 ^ 320 + c / 2 ^ 256) ^^^ (r / 2 ^ 64 + r % 2 ^ 64 * 2 ^ 256))

/-- The rotation of each lane. -/
def keccakRot : List Nat :=
  [0, 1, 62, 28, 27, 36, 44, 6, 55, 20, 3, 10, 43, 25, 39, 41, 45, 15, 21, 8, 18, 2, 61, 56, 14]

/-- For each lane after rho and pi: the weight of the lane that it comes from, of the rotation, and its own. -/
def rhoPiTable : List (Nat × Nat × Nat) := (List.range 25).map (fun i =>
  let k := 5 * (i % 5) + (i % 5 + 3 * (i / 5)) % 5
  (2 ^ (64 * k), 2 ^ keccakRot.getD k 0, 2 ^ (64 * i)))

/-- Rho and pi: lane (x, y) comes from lane (x + 3y, x), rotated. -/
def rhoPi (a : Nat) : Nat := rhoPiTable.foldr (fun e v =>
  let x := a / e.1 % 2 ^ 64 * e.2.1
  (x % 2 ^ 64 + x / 2 ^ 64) * e.2.2 + v) 0

/-- In every plane, lane x takes lane x + n. -/
def spin (n a : Nat) : Nat :=
  (a / 2 ^ (64 * n) &&& planes (2 ^ (64 * (5 - n)) - 1)) + (a &&& planes (2 ^ (64 * n) - 1)) * 2 ^ (64 * (5 - n))

/-- Chi. -/
def chi (a : Nat) : Nat := a ^^^ ((2 ^ 1600 - 1 - spin 1 a) &&& spin 2 a)

/-- The round constants of iota. -/
def keccakRc : List Nat :=
  [0x1, 0x8082, 0x800000000000808A, 0x8000000080008000, 0x808B, 0x80000001, 0x8000000080008081, 0x8000000000008009,
   0x8A, 0x88, 0x80008009, 0x8000000A] ++
  [0x8000808B, 0x800000000000008B, 0x8000000000008089, 0x8000000000008003, 0x8000000000008002, 0x8000000000000080,
   0x800A, 0x800000008000000A, 0x8000000080008081, 0x8000000000008080, 0x80000001, 0x8000000080008008]

/-- Keccak-f[1600]. (PRESUMED, log 13) -/
def keccakF (a : Nat) : Nat := keccakRc.foldl (fun a rc => chi (rhoPi (theta a)) ^^^ rc) a

/-! ### Bytes and words -/

/-- The number of bytes, least significant first. -/
def leNum (l : List Nat) : Nat := l.foldr (fun b v => b + 256 * v) 0

/-- A little-endian word from eight bytes. -/
def wordOf (l : List Nat) : Word := BitVec.ofNat 64 (leNum (l.take 8))

/-- Words of 64 bits from bytes. -/
def wordsOf : Nat → List Nat → List Word
  | 0, _ => []
  | n + 1, l => wordOf l :: wordsOf n (l.drop 8)

/-- The bytes of words. -/
def bytesOf (l : List Word) : List Nat := l.flatMap (fun w => (List.range 8).map (fun i => w.toNat / 256 ^ i % 256))

/-! ### The sponge (FIPS 202, 4) -/

/-- Whole blocks of a padded message go into the state. -/
def absorbAll (rate : Nat) : Nat → Nat → List Nat → Nat
  | 0, a, _ => a
  | n + 1, a, l => absorbAll rate n (keccakF (a ^^^ leNum (l.take rate))) (l.drop rate)

/-- The message with its suffix bits and the padding to whole blocks. -/
def spongePad (rate suffix : Nat) (l : List Nat) : List Nat :=
  let z := rate - 1 - l.length % rate
  if z = 0 then l ++ [suffix + 0x80] else l ++ suffix :: (List.replicate (z - 1) 0 ++ [0x80])

/-- The state once a message is absorbed. -/
def absorbed (rate suffix : Nat) (l : List Nat) : Nat :=
  let p := spongePad rate suffix l
  absorbAll rate (p.length / rate) 0 p

/-- `n` blocks of output. -/
def squeeze (rate : Nat) : Nat → Nat → List Nat
  | 0, _ => []
  | n + 1, a => leBytes rate a ++ squeeze rate n (keccakF a)

/-- The first `n` bytes of a sponge's output. -/
def sponge (rate suffix n : Nat) (l : List Nat) : List Nat :=
  (squeeze rate ((n + rate - 1) / rate) (absorbed rate suffix l)).take n

/-- The first `n` bytes of SHAKE256. (PRESUMED, log 13) -/
def shake256 (n : Nat) (l : List Nat) : List Nat := sponge 136 0x1F n l

/-- SHA3-256. (PRESUMED, log 13) -/
def sha3256 (l : List Nat) : List Nat := sponge 136 0x06 32 l

/-- SHA3-512. (PRESUMED, log 13) -/
def sha3512 (l : List Nat) : List Nat := sponge 72 0x06 64 l

end Sys2Proof.Machine
end

