-- ==== Sys2Proof/Machine/Falcon.lean ====
section
/-! DEFINITION. The verification of a Falcon-1024 signature, which the spec names without giving it (R5, R281, R282, R503,
R517-R522). PRESUMED: the published scheme, with the encoded public key of 1,793 bytes and the compressed signature. -/

namespace Sys2Proof.Machine

/-! ### Products in Z_q[x] / (x^n + 1) -/

/-- A polynomial as one number, 64 bits to a coefficient. -/
def packPoly (l : List Nat) : Nat := l.foldr (fun c v => c + 2 ^ 64 * v) 0

/-- `n` coefficients of 64 bits. -/
def unpackPoly : Nat → Nat → List Nat
  | 0, _ => []
  | n + 1, v => v % 2 ^ 64 :: unpackPoly n (v / 2 ^ 64)

/-- The product modulo x^n + 1 and q: the coefficients from x^n on count negative. -/
def negProduct (q n : Nat) (a b : List Nat) : List Nat :=
  let l := unpackPoly (2 * n) (packPoly a * packPoly b)
  List.zipWith (fun lo hi => (lo + q * q * n - hi) % q) (l.take n) (l.drop n)

/-! ### Encodings -/

/-- The modulus of Falcon. -/
def falconQ : Nat := 12289

/-- The polynomial of an encoded public key: 1,024 coefficients of 14 bits, the first one first, behind a byte that says
so. (PRESUMED, log 13) -/
def falconKey (key : List Nat) : Option (List Nat) :=
  let v := (key.drop 1).foldl (fun v b => 256 * v + b) 0
  let h := (List.range 1024).map (fun i => v / 2 ^ (14 * (1023 - i)) % 2 ^ 14)
  if key.take 1 = [0x0A] ∧ key.length = 1793 ∧ h.all (fun c => decide (c < falconQ)) then some h else none

/-- The bits of bytes, the most significant first. -/
def bitsMsb (l : List Nat) : List Bool := l.flatMap (fun b => (List.range 8).map (fun i => b / 2 ^ (7 - i) % 2 == 1))

/-- The zeros before the next 1, at most `fuel` of them. -/
def unary : Nat → List Bool → Option (Nat × List Bool)
  | _, [] => none
  | _, true :: l => some (0, l)
  | 0, _ => none
  | fuel + 1, false :: l => (unary fuel l).map (fun r => (r.1 + 1, r.2))

/-- `n` compressed coefficients: a sign, seven low bits, and the rest in unary; no negative zero, and nothing but zeros
behind. A coefficient with more than 128 high steps exceeds the bound of the norm. (PRESUMED, log 13) -/
def falconCoefs : Nat → List Bool → Option (List Int)
  | 0, l => if l.all (!·) then some [] else none
  | _ + 1, [] => none
  | n + 1, neg :: l =>
    match unary 128 (l.drop 7) with
    | none => none
    | some (k, r) =>
      let v := (l.take 7).foldl (fun v b => 2 * v + b.toNat) 0 + 128 * k
      if neg && v == 0 then none
      else (falconCoefs n r).map (fun t => (if neg then -(v : Int) else (v : Int)) :: t)

/-! ### Verification -/

/-- Big-endian words of 16 bits. -/
def pairsOf : List Nat → List Nat
  | a :: b :: l => (256 * a + b) :: pairsOf l
  | _ => []

/-- Words below 5q, modulo q, from blocks of a SHAKE256 output. -/
def pointFrom : Nat → Nat → List Nat
  | 0, _ => []
  | n + 1, a =>
    ((pairsOf (leBytes 136 a)).filter (fun t => decide (t < 5 * falconQ))).map (· % falconQ) ++ pointFrom n (keccakF a)

/-- The point that salt and message hash to; 32 blocks yield more than 1,024 coefficients. (PRESUMED, log 13) -/
def hashToPoint (l : List Nat) : List Nat := (pointFrom 32 (absorbed 136 0x1F l)).take 1024

/-- A residue between −(q − 1)/2 and (q − 1)/2. -/
def falconMid (c : Nat) : Int := if 2 * c < falconQ then (c : Int) else (c : Int) - (falconQ : Int)

/-- The sum of squares. -/
def sumSquares (l : List Int) : Int := l.foldl (fun v x => v + x * x) 0

/-- The signature holds for a message under an encoded public key: with s1 = c - s2 h, the vector (s1, s2) is short.
(PRESUMED, log 13) -/
def falconHolds (key msg sig : List Nat) : Bool :=
  match falconKey key, falconCoefs 1024 (bitsMsb (sig.drop 41)) with
  | some h, some s2 =>
    let c := hashToPoint ((sig.drop 1).take 40 ++ msg)
    let p := negProduct falconQ 1024 (s2.map (fun x => (x % (falconQ : Int)).toNat)) h
    let s1 := List.zipWith (fun a b => falconMid ((a + falconQ - b) % falconQ)) c p
    sig.take 1 == [0x3A] && decide (sumSquares (s1 ++ s2) ≤ 70265242)
  | _, _ => false

/-- The first SIG_LEN bytes of a signature field hold for a message. (DESIGN CHOICE, log 62) -/
def fieldHolds (key msg field : List Nat) (len : Nat) : Bool :=
  decide (len ≤ 1536) && falconHolds (key.take 1793) msg (field.take len)

end Sys2Proof.Machine
end

