-- ==== Sys2Proof/Machine/TrustOps.lean ====
section
/-! DEFINITION. Images, keys, fuse commands and configuration blocks as the steward checks them (R512-R520). -/

namespace Sys2Proof.Machine

/-! ### Bytes -/

/-- Byte `i` of flash contents; what is not written reads as erased. (DESIGN CHOICE, log 63) -/
def byteAt (l : List Nat) (i : Nat) : Nat := l.getD i 0xFF

/-- `n` bytes from `i` on. -/
def imgBytes (l : List Nat) (i n : Nat) : List Nat :=
  let t := (l.drop i).take n
  t ++ List.replicate (n - t.length) 0xFF

/-- The little-endian number at bytes `i` to `i + n − 1`. -/
def leAt (l : List Nat) (i n : Nat) : Nat := leNum (imgBytes l i n)

/-- Bytes `i` to `i + n − 1` are 0. -/
def zeroAt (l : List Nat) (i n : Nat) : Bool := (imgBytes l i n).all (· == 0)

/-! ### Keys (R519) -/

/-- The four words of a 32-byte digest. -/
def digestWords (d : List Nat) : List Nat := (wordsOf 4 d).map BitVec.toNat

/-- The 32-byte digest of a Falcon-1024 public key of 1,793 bytes. (DESIGN CHOICE, log 62) -/
def keyDigest (key : List Nat) : List Nat := shake256 32 (key.take 1793)

/-- The module's identity public key, the same at every start-up (R521). -/
def identityKey : List Nat := (List.range 1793).map (fun i => Config.identityKey i % 256)

/-- The words of a fused hash: root slot `k`, or owner slot `k`. -/
def State.fusedHash (s : State) (f : Field) (k : Nat) : List Nat := (List.range 4).map (fun w => s.rd (f.ij k w))

/-- A digest matches an unrevoked root hash. -/
def State.rootKnown (s : State) (d : List Nat) : Bool :=
  (List.range 4).any (fun k => !bitOf (s.rd F.FUSE_STATE_ROOT_REVOKED) k && s.fusedHash F.ROOT_HASH_HASH k == digestWords d)

/-- Owner slot `k` is valid and neither revoked nor spoiled. -/
def State.ownerGood (s : State) (k : Nat) : Bool :=
  bitOf (s.rd F.FUSE_STATE_OWNER_VALID) k && !bitOf (s.rd F.FUSE_STATE_OWNER_REVOKED) k
    && !bitOf (s.rd F.FUSE_STATE_OWNER_SPOILED) k

/-- A digest matches a valid, unrevoked owner hash. -/
def State.ownerKnown (s : State) (d : List Nat) : Bool :=
  (List.range 4).any (fun k => s.ownerGood k && s.fusedHash F.OWNER_HASH_HASH k == digestWords d)

/-! ### Images (R516-R518) -/

/-- The bytes of a slot of a unit (R516). -/
def slotSize (unit : Nat) : Nat :=
  match unit with
  | 0 => 4 * 2 ^ 20
  | 1 => 2 * 2 ^ 20
  | 2 => 40 * 2 ^ 20
  | 5 => 2 ^ 20
  | _ => 2 * 2 ^ 20

/-- The image in a slot. (DESIGN CHOICE, log 63) -/
def State.slotImage (s : State) (unit slot : Nat) : List Nat :=
  match Sparse.get (fun _ => none) s.fw.slots (2 * unit + slot) with
  | some l => l
  | none => Config.flashImage (2 * unit + slot)

/-- The state with a slot written. -/
def State.setSlotImage (s : State) (unit slot : Nat) (l : List Nat) : State :=
  { s with fw := { s.fw with slots := Sparse.set (fun _ => none) s.fw.slots (2 * unit + slot) (some l) } }

/-- MAGIC and the reserved bytes and flags are correct (R517). (DESIGN CHOICE, log 62) -/
def imageMagic (l : List Nat) : Bool :=
  decide (leAt l 0 4 = 0x4D4C494D) && decide (byteAt l 5 ≤ 1) && zeroAt l 6 2 && zeroAt l 24 8 && zeroAt l 96 32
    && zeroAt l 1930 6 && zeroAt l 5274 6 && zeroAt l 6816 1376

/-- The image digest D. -/
def imageDigest (l : List Nat) : List Nat := shake256 64 (imgBytes l 0 128)

/-- The Falcon-1024 signature in the field at `at_` of some bytes, its SIG_LEN at `len`, holds for a message under the key at
`key` (R503, R517, R519). (DESIGN CHOICE, log 62) -/
def sigAt (l msg : List Nat) (key len at_ : Nat) : Bool :=
  fieldHolds (imgBytes l key 1793) msg (imgBytes l at_ 1536) (leAt l len 2)

/-- The first failing test of R518, 0 when the image passes. (DESIGN CHOICE, log 62) -/
def State.imageCheck (s : State) (unit : Nat) (l : List Nat) : Nat :=
  let len := leAt l 16 8
  let svn := leAt l 12 4
  let owner := byteAt l 5 % 2 = 1 ∨ s.on F.FUSE_STATE_OWNER_REQ
  if !imageMagic l then 1
  else if byteAt l 4 ≠ unit then 2
  else if slotSize unit < 8192 + len then 3
  else if shake256 64 (imgBytes l 8192 len) ≠ imgBytes l 32 64 then 4
  else if svn < s.rd F.FUSE_STATE_ROLLBACK ∨ 64 < svn then 5
  else if !s.rootKnown (keyDigest (imgBytes l 128 1793)) then 6
  else if !sigAt l (imageDigest l) 128 1928 1936 then 7
  else if owner ∧ s.ownerKnown (keyDigest (imgBytes l 3472 1793)) = false then 8
  else if owner ∧ sigAt l (imageDigest l) 3472 5272 5280 = false then 9
  else 0

/-- VALID of a slot in FW_UNIT. -/
def validField (unit slot : Nat) : Field := (if slot = 0 then F.FW_UNIT_VALID_A else F.FW_UNIT_VALID_B).i unit

/-- The preferred slot of a unit. -/
def State.fwPrefer (s : State) (unit : Nat) : Nat := Sparse.get (fun _ => 0) s.fw.prefer unit

def State.fwSetPrefer (s : State) (unit slot : Nat) : State :=
  { s with fw := { s.fw with prefer := Sparse.set (fun _ => 0) s.fw.prefer unit slot } }

/-- The TRIAL flag of a unit and its trial count, in the boot-state record and as FW_UNIT shows them. -/
def State.fwTrial (s : State) (unit : Nat) (on : Bool) (n : Nat) : State :=
  let s := { s with fw := { s.fw with
    trial := if on then setBitN s.fw.trial unit else clrBitN s.fw.trial unit
    count := Sparse.set (fun _ => 0) s.fw.count unit n } }
  (s.wr (F.FW_UNIT_TRIAL.i unit) (b2n on)).wrSat (F.FW_UNIT_TRIAL_BOOTS.i unit) n

/-- The slot that a unit runs from (FW_UNIT.ACTIVE_SLOT). -/
def State.fwActive (s : State) (unit : Nat) : Nat := s.rd (F.FW_UNIT_ACTIVE_SLOT.i unit)

/-- A unit runs the image of a slot: FW_UNIT shows it. -/
def State.fwRun (s : State) (unit slot : Nat) : State :=
  let l := s.slotImage unit slot
  let s := { s with fw := { s.fw with
    running := Sparse.set (fun _ => 0) s.fw.running unit (slot + 1), dead := clrBitN s.fw.dead unit } }
  let s := (s.wr (F.FW_UNIT_ACTIVE_SLOT.i unit) slot).wr (F.FW_UNIT_VERSION.i unit) (leAt l 8 4)
  (s.wr (F.FW_UNIT_SVN.i unit) (leAt l 12 4)).wr (F.FW_UNIT_OWNER_SIGNED.i unit) (byteAt l 5 % 2)

/-- IMAGE_VERIFY (R518): a slot is checked, VALID shows the result. -/
def State.imageVerify (s : State) (unit slot : Nat) : State × Nat :=
  let c := s.imageCheck unit (s.slotImage unit slot)
  (s.wr (validField unit slot) (if c = 0 then 1 else 0), c)

/-- A check at start-up: a failure sets IMAGE_FAIL and is recorded (R518). -/
def State.bootVerify (s : State) (unit slot : Nat) : State × Bool :=
  let r := s.imageVerify unit slot
  if r.2 = 0 then (r.1, true) else ((r.1.err 0 0).event 0 0x0010 unit slot r.2, false)

/-- A unit goes back to its previous slot (R525). -/
def State.fwRevert (s : State) (unit : Nat) : State :=
  let s := (s.fwSetPrefer unit (1 - s.fwPrefer unit)).fwTrial unit false 0
  let s := (s.err 0 2).wr F.FW_STATUS_RESULT 0x0C
  (s.wr F.FW_STATUS_STATE 8).event 3 0x0033

/-- A third start-up of a TRIAL image without CONFIRM reverts it (R525). -/
def State.fwTrialBoot (s : State) (unit : Nat) : State :=
  if bitOf s.fw.trial unit then
    let n := Sparse.get (fun _ => 0) s.fw.count unit + 1
    if 2 < n then s.fwRevert unit else s.fwTrial unit true n
  else s

/-- A unit boots: its preferred slot, or the other where that fails; whether one runs (R509, R518). -/
def State.fwBoot (s : State) (unit : Nat) : State × Bool :=
  let s := s.fwTrialBoot unit
  let p := s.fwPrefer unit
  let a := s.bootVerify unit p
  if a.2 then (a.1.fwRun unit p, true)
  else
    let b := a.1.bootVerify unit (1 - p)
    if b.2 then ((b.1.event 0 0x0011 unit (1 - p)).fwRun unit (1 - p), true)
    else ({ b.1 with fw := { b.1.fw with
      running := Sparse.set (fun _ => 0) b.1.fw.running unit 0, dead := setBitN b.1.fw.dead unit } }, false)

/-- A firmware operation that is not in its handover is abandoned (R523, R524). (DESIGN CHOICE, log 64) -/
def State.fwAbandon (s : State) : State :=
  let u := s.fw.unit
  match s.rd F.FW_STATUS_STATE with
  | 4 => (((s.fwSetPrefer u (s.fwActive u)).fwTrial u false 0).wr F.FW_STATUS_RESULT 0x0D).wr F.FW_STATUS_STATE 0
  | 1 | 2 =>
    let s := (s.setSlotImage u (1 - s.fwActive u) []).wr (validField u (1 - s.fwActive u)) 0
    let s := { s with fw := { s.fw with opened := false } }
    (s.wr F.FW_STATUS_RESULT 0x0D).wr F.FW_STATUS_STATE 0
  | _ => s

/-! ### Configuration blocks (R512-R515) -/

/-- The words of the stored copy of a block. -/
def State.cfgStored (s : State) (id : Nat) : Option (List Word) := Sparse.get (fun _ => none) s.cfg.stored id

def State.cfgSetStored (s : State) (id : Nat) (l : Option (List Word)) : State :=
  { s with cfg := { s.cfg with stored := Sparse.set (fun _ => none) s.cfg.stored id l } }

/-- Word `i` of a block. -/
def cfgWord (l : List Word) (i : Nat) : Nat := (l.getD i 0).toNat

/-- ENTRIES and LENGTH of a block's header. -/
def cfgEntries (l : List Word) : Nat := cfgWord l 0 % 2 ^ 16

def cfgLength (l : List Word) : Nat := cfgWord l 1 % 2 ^ 32

/-- CHECK holds: CRC-32C over LENGTH bytes with the field taken as 0. -/
def cfgCrcOk (l : List Word) : Bool :=
  let m := l.take (cfgLength l / 8)
  let m := m.mapIdx (fun i w => if i = 1 then BitVec.ofNat 64 (w.toNat % 2 ^ 32) else w)
  crc32c (bytesOf m) == cfgWord l 1 / 2 ^ 32

/-- The pages that a block's REG entries may name (R513). -/
def cfgPageOk (id page off : Nat) : Bool :=
  match pageInfo page with
  | none => false
  | some i =>
    match id with
    | 1 => [PageKind.phase, .phaseEvt, .phaseProf, .recd, .recSnap, .mcol, .hang, .rst, .dump].contains i.kind
    | 2 => [PageKind.pwr, .fc, .bc, .gr, .loop, .cap, .opt, .attr].contains i.kind
    | 3 => [PageKind.railSys, .rail].contains i.kind
    | 4 => [PageKind.chain, .pack, .est, .estOcv].contains i.kind
    | 5 => off == F.ERR_MASK_MASK.off || off == F.ERR_ACTION_ACTION.off || [PageKind.pic, .picSrc, .fic, .ficSrc].contains i.kind
    | 7 => [PageKind.lport, .linkm].contains i.kind
    | 8 => [PageKind.hostp, .bryn].contains i.kind
    | _ => false

/-- The bits of a register that a write at L0 may change (R10). -/
def l0Writable (key : Nat) : Word :=
  match lookupReg key with
  | none => 0
  | some (_, row, _, _) => row.fields.foldl (fun m f =>
      if f.acc == .ro then m else m ||| Field.mask ⟨0, 0, 0, 0, f.hi, f.lo⟩) 0

/-- The register key of a local address in register space. -/
def regKey (a : Nat) : Nat := a - 0xF0000000000

/-- The reason for which an entry fails, 0 for none: 7 KIND, 8 ADDRESS, 9 MASK (R514). -/
def entryReason (id e0 e1 : Nat) : Nat :=
  let kind := e0 / 2 ^ 60
  if kind ≠ (if id = 6 then 1 else 0) then 7
  else if kind = 1 then 0
  else
    let a := e0 % 2 ^ 44
    if a % 8 ≠ 0 ∨ a < 0xF0000000000 ∨ 0xF0010000000 ≤ a then 8
    else if !cfgPageOk id (regKey a / 4096) (regKey a % 4096) then 8
    else if BitVec.ofNat 64 e1 &&& ~~~ l0Writable (regKey a) ≠ 0 then 9
    else 0

/-- Of the entries' failures the first reason in CFG_ERR order, and the first entry that has it. (DESIGN CHOICE, log 66) -/
def entriesReason (id : Nat) (l : List Word) (n : Nat) : Nat × Nat :=
  let r := (List.range n).map (fun e => entryReason id (cfgWord l (2 + 3 * e)) (cfgWord l (3 + 3 * e)))
  match [7, 8, 9].find? (fun k => r.contains k) with
  | some k => (k, r.idxOf k)
  | none => (0, 0)

/-- The reason for which a block fails at the place of an ID, with its entry; 0 for one that passes (R514).
(DESIGN CHOICE, log 66) -/
def cfgCheck (id : Nat) : Option (List Word) → Nat × Nat
  | none => (1, 0)
  | some l =>
    if cfgWord l 0 / 2 ^ 32 ≠ 0x4D4C5643 then (2, 0)
    else if cfgWord l 0 / 2 ^ 16 % 256 ≠ 1 then (3, 0)
    else if cfgLength l ≠ 16 + 24 * cfgEntries l ∨ 65536 < cfgLength l then (4, 0)
    else if !cfgCrcOk l then (5, 0)
    else if cfgWord l 0 / 2 ^ 24 % 256 ≠ id ∨ id = 0 ∨ 8 < id then (6, 0)
    else entriesReason id l (cfgEntries l)

end Sys2Proof.Machine
end

