-- ==== Sys2Proof/Machine/Record.lean ====
section
/-! DEFINITION. The commands of the event recorder (R495-R506). -/

namespace Sys2Proof.Machine

/-- A change of the time mode in use records event 0xF030, which carries the new mode (R495). -/
def State.tmodeCheck (s : State) : State :=
  if s.timeMode = s.recorder.tmode then s
  else
    let m := s.timeMode
    (({ s with recorder := { s.recorder with tmode := m } }).wr F.REC_STATUS_TMODE m).event 0x88 0xF030

/-- The records that wait for the mirror, oldest first. -/
def State.recWaiting (s : State) : List Rec :=
  (s.recorder.ring.filter (fun r => decide (s.rd F.REC_MIRRORED_INDEX ≤ r.idx))).reverse

/-- Records go to the flash ring of 262,144, and REC_MIRRORED passes them (R500). -/
def State.recMirror (s : State) (l : List Rec) : State :=
  match l.reverse with
  | [] => s
  | last :: _ =>
    ({ s with recorder := { s.recorder with flash := (l.reverse ++ s.recorder.flash).take 262144 } }).wr
      F.REC_MIRRORED_INDEX (last.idx + 1)

/-- Every waiting record is flushed (R325, R475, R503). -/
def State.recFlush (s : State) : State := s.recMirror s.recWaiting

/-- R500: a block of up to 128 waiting records is written; a write that fails is retried once in the next block,
and sets FLASH_FAIL when that fails too. -/
def execMirrorBlockWrite (ok : Bool) (s : State) : Host.Outcome State Fault Refusal :=
  .next (
    match s.recWaiting.take 128 with
    | [] => s
    | l =>
      if ok then ({ s with recorder := { s.recorder with flashRetry := false } }).recMirror l
      else if s.recorder.flashRetry then
        (({ s with recorder := { s.recorder with flashRetry := false } }).err 0x88 0).event 0x88 0xF021
      else { s with recorder := { s.recorder with flashRetry := true } })

/-- A freeze begins: event 0xF001, then records are held (R501). -/
def State.recFreeze (s : State) : State :=
  let s := s.event 0x88 0xF001
  ({ s with recorder := { s.recorder with held := [], dropped := 0, frozenAt := s.now } }).wr F.REC_CTRL_FREEZE 1

/-- A freeze in force ends with a cause (0 command, 1 timeout, 2 stop): the held records are appended, and event
0xF002 follows them (R501). -/
def State.recUnfreeze (s : State) (cause : Nat) : State :=
  if s.on F.REC_CTRL_FREEZE then
    let held := s.recorder.held
    let dropped := s.recorder.dropped
    let lost := s.rd F.REC_LOST_MIRROR
    let s := ({ s with recorder := { s.recorder with held := [], dropped := 0 } }).wr F.REC_CTRL_FREEZE 0
    let s := (held.foldl State.recPush s).wr F.REC_STATUS_HELD 0
    (s.recOffer (sourceOf 0x88) 0 0xF002 held.length dropped cause 0).mirrorLost lost
  else s

/-- R501: FREEZE, alone or with UNFREEZE, which then acts first. -/
def execRecFreeze (r : Req) (alsoUnfreeze : Bool) (s : State) : Host.Outcome State Fault Refusal :=
  .next (s.cmdAt r F.REC_CTRL_FREEZE false (fun s =>
    let s := s.when alsoUnfreeze (fun s => s.recUnfreeze 0)
    if s.on F.REC_CTRL_FREEZE then s else s.recFreeze))

/-- R501: UNFREEZE. -/
def execRecUnfreeze (r : Req) (s : State) : Host.Outcome State Fault Refusal :=
  .next (s.cmdAt r F.REC_CTRL_UNFREEZE false (fun s => s.recUnfreeze 0))

/-- R501: a freeze ends 10 s after it began. -/
def execFreezeTimeout (s : State) : Host.Outcome State Fault Refusal := .next (s.recUnfreeze 1)

/-- R502: REC_RD_SEL starts the load of a record; the register is held per requester. -/
def execRecRdSelWrite (r : Req) (flash : Bool) (index : BitVec 48) (s : State) : Host.Outcome State Fault Refusal :=
  .next (s.cmdAt r F.REC_RD_SEL_INDEX false (fun s =>
    (s.setSel r F.REC_RD_SEL_INDEX.key (b2n flash * 2 ^ 63 + index.toNat)).setSel r F.REC_RD_STATUS_BUSY.key 1))

/-- The record that a ring holds under an index. -/
def State.recAt (s : State) (flash : Bool) (index : Nat) : Option Rec :=
  firstWhere (fun x => x.idx == index) (if flash then s.recorder.flash else s.recorder.ring)

/-- The four words of a record, as the load shows them to a requester. -/
def State.recShow (s : State) (r : Req) (w0 w1 w2 w3 gone : Nat) : State :=
  ((((s.setSel r (F.REC_RD_W_WORD.i 0).key w0).setSel r (F.REC_RD_W_WORD.i 1).key w1).setSel r
    (F.REC_RD_W_WORD.i 2).key w2).setSel r (F.REC_RD_W_WORD.i 3).key w3).setSel r F.REC_RD_STATUS_BUSY.key (2 * gone)

/-- R502: the load ends with the record's words, or GONE and zeros. -/
def execRecRdLoadDone (r : Req) (s : State) : Host.Outcome State Fault Refusal :=
  .next (s.when (bitOf (s.sel r F.REC_RD_STATUS_BUSY.key) 0) (fun s =>
    let sel := s.sel r F.REC_RD_SEL_INDEX.key
    match s.recAt (bitOf sel 63) (sel % 2 ^ 48) with
    | some x => s.recShow r x.w0.toNat x.w1.toNat x.w2.toNat x.w3.toNat 0
    | none => s.recShow r 0 0 0 0 1))

/-- A fresh nonce word: a free value. (DESIGN CHOICE, log 61) -/
def State.nonceWord (s : State) (f : Field) : State := (s.wr f s.free).drawn

/-- R503: the steward writes a fresh nonce, which replaces the last. -/
def execRecClrNonceReq (r : Req) (s : State) : Host.Outcome State Fault Refusal :=
  .next (s.cmdAt r F.REC_CLR_CMD_NONCE_REQ false (fun s =>
    let s := (List.range 4).foldl (fun s w => s.nonceWord (F.REC_NONCE_NONCE.i w)) s
    { s with recorder := { s.recorder with nonceLive := true } }))

/-- R503: the word pointer of the authorisation block restarts. -/
def execRecClrPtrReset (r : Req) (s : State) : Host.Outcome State Fault Refusal :=
  .next (s.cmdAt r F.REC_CLR_CMD_PTR_RESET false (fun s =>
    ({ s with recorder := { s.recorder with authWords := [], authOver := false } }).wr F.REC_CLR_STATUS_WORDS 0))

/-- R503, R506: the next word of the block; a word beyond 424 is kept in mind for FORMAT. -/
def execRecAuthDataWrite (r : Req) (word : BitVec 64) (s : State) : Host.Outcome State Fault Refusal :=
  .next (s.cmdAt r F.REC_AUTH_DATA_WORD false (fun s =>
    if s.recorder.authWords.length < 424 then
      ({ s with recorder := { s.recorder with authWords := word :: s.recorder.authWords } }).wr
        F.REC_CLR_STATUS_WORDS (s.recorder.authWords.length + 1)
    else { s with recorder := { s.recorder with authOver := true } }))

/-- A result that refuses a clear: RESULT and event 0xF011 (R503). -/
def State.recRefuse (s : State) (result : Nat) : State :=
  (s.wr F.REC_CLR_STATUS_RESULT result).event 0x8A 0xF011 result

/-- R503: a verification starts; while frozen, verifying or erasing it returns BUSY. (DESIGN CHOICE, log 61) -/
def execRecClrVerify (r : Req) (s : State) : Host.Outcome State Fault Refusal :=
  .next (s.cmdAt r F.REC_CLR_CMD_VERIFY false (fun s =>
    if s.on F.REC_CTRL_FREEZE || s.recorder.verifying || s.recorder.erasing.isSome then s.recRefuse 1
    else ({ s with recorder := { s.recorder with verifying := true } }).wr F.REC_CLR_STATUS_RESULT 1))

/-- Word `w` of the authorisation block, the first written being word 0. -/
def authWord (l : List Word) (w : Nat) : Nat := (l.getD (423 - w) 0).toNat

/-- The format checks of R503 on a block of words, newest first. SIG_LEN fits its field of 1,536 bytes.
(DESIGN CHOICE, log 61) -/
def authFormatOk (l : List Word) (overrun : Bool) : Bool :=
  let w0 := authWord l 0
  let sig := authWord l 231 % 2 ^ 16
  decide (l.length = 424) && !overrun && decide (w0 % 2 ^ 32 = 0x4D4C5243) && decide (w0 / 2 ^ 32 % 256 ≠ 0)
    && decide (w0 / 2 ^ 32 % 256 < 4) && decide (w0 / 2 ^ 40 = 0) && decide (authWord l 1 / 2 ^ 48 = 0)
    && decide (sig ≠ 0) && decide (sig ≤ 1536) && decide (authWord l 231 / 2 ^ 16 = 0)

/-- The block carries the live nonce. -/
def State.authNonceOk (s : State) (l : List Word) : Bool :=
  s.recorder.nonceLive && (List.range 4).all (fun w => authWord l (2 + w) == s.rd (F.REC_NONCE_NONCE.i w))

/-- The bytes of the block. -/
def authBytes (l : List Word) : List Nat := bytesOf l.reverse

/-- The 32-byte digest of the key in the block. -/
def authDigest (l : List Word) : List Nat := keyDigest (imgBytes (authBytes l) 48 1793)

/-- The result of R503's checks, in the order of its table. (DESIGN CHOICE, log 62) -/
def State.recClrResult (s : State) : Nat :=
  let l := s.recorder.authWords
  if !authFormatOk l s.recorder.authOver then 3
  else if !s.authNonceOk l then 4
  else if !(s.rootKnown (authDigest l) || s.ownerKnown (authDigest l)) then 5
  else if !sigAt (authBytes l) (shake256 64 (imgBytes (authBytes l) 0 48)) 48 1848 1856 then 6
  else if authWord l 1 % 2 ^ 48 ≠ s.rd F.HOSTP_MAC_MAC then 7
  else 2

/-- R503: the verification ends. The nonce is used. On OK, 0xF010 is recorded and mirrored, and the erasure of older
records in scope begins. -/
def execRecClrResult (s : State) : Host.Outcome State Fault Refusal :=
  .next (s.when s.recorder.verifying (fun s =>
    let result := s.recClrResult
    let digest := (wordOf ((authDigest s.recorder.authWords).take 4)).toNat
    let scope := authWord s.recorder.authWords 0 / 2 ^ 32 % 4
    let s := { s with recorder := { s.recorder with verifying := false, nonceLive := false } }
    if result = 2 then
      let own := s.rd F.REC_WRITTEN_INDEX
      let s := (s.event 0x8A 0xF010 scope digest own).recFlush
      ({ s with recorder := { s.recorder with erasing := some (scope, own) } }).wr F.REC_CLR_STATUS_RESULT 2
    else s.recRefuse result))

/-- The records of a ring from an index on. -/
def recFrom (own : Nat) (l : List Rec) : List Rec := l.filter (fun r => decide (own ≤ r.idx))

/-- R503: every older record in scope is erased; indices and SEQ go on. -/
def execRecClearEraseDone (s : State) : Host.Outcome State Fault Refusal :=
  .next (
    match s.recorder.erasing with
    | none => s
    | some (scope, own) =>
      ({ s with recorder := { s.recorder with
          erasing := none,
          ring := if bitOf scope 0 then recFrom own s.recorder.ring else s.recorder.ring,
          flash := if bitOf scope 1 then recFrom own s.recorder.flash else s.recorder.flash } }).wr
        F.REC_CLR_STATUS_RESULT 2)

/-- R505: the recorder comes up. The ring is empty, SEQ and index follow the flash, buckets are full, no freeze is in
force, and event 0xF040 counts the valid records of the flash ring. -/
def State.recComeUp (s : State) : State :=
  let flash := s.recorder.flash
  let next := match flash with
    | [] => (s.rd F.REC_MIRRORED_INDEX, s.rd F.REC_STATUS_NEXT_SEQ)
    | x :: _ => (x.idx + 1, (x.w0.toNat / 2 ^ 32 + 1) % 2 ^ 32)
  let s := { s with recorder := { Recorder.init with flash := flash } }
  let s := ((s.wr F.REC_WRITTEN_INDEX next.1).wr F.REC_MIRRORED_INDEX next.1).wr F.REC_STATUS_NEXT_SEQ next.2
  s.event 0x88 0xF040 flash.length

end Sys2Proof.Machine
end

