-- ==== Sys2Proof/Machine/DumpOps.lean ====
section
/-! DEFINITION. The crash dump (R475, R476). -/

namespace Sys2Proof.Machine

/-! ### Content (R476) -/

/-- The words of the registers of a page at offsets. -/
def State.pageWords (s : State) (p : Nat) (offs : List Nat) : List Word := offs.map (fun o => s.reg (p * 4096 + o))

/-- Offsets of the common header, and of the registers of the MCOL and FCOL pages. -/
def headerOffs : List Nat := (List.range 9).map (8 * ·)

def colOffs : List Nat := headerOffs ++ (List.range 7).map (fun i => 0x100 + 8 * i)

/-- The MCOL page as software reads it. -/
def State.mcolWords (s : State) : List Word :=
  colOffs.map (fun o => if o = 0x110 then s.mcolStatusWord else s.reg (0x80 * 4096 + o))

/-- An FCOL page as software reads it. -/
def State.fcolWords (s : State) (f : Frond) : List Word :=
  colOffs.map (fun o => if o = 0x110 then s.fcolTileSrc f else if o = 0x118 then s.fcolEngSrc f
    else if o = 0x120 then s.fcolUnitSrc f else s.reg (frondPg f 0x108 * 4096 + o))

/-- What the control cores hold beyond the model's state: pc, mcause, mtval and mepc, 16 cores; free values.
(DESIGN CHOICE, log 60) -/
def State.coreWords (s : State) : List Word :=
  (List.range 64).map (fun i => BitVec.ofNat 64 (Config.freeNat (s.draws + i)))

/-- The payloads of sections 0x01 to 0x0A, in order, each with its ID. (DESIGN CHOICE, log 60) -/
def State.dumpSections (s : State) : List (Nat × List Word) :=
  let both := fun (g : Frond → List Word) => g .A ++ g .B
  let errs := s.regs.filter (fun e => e.1 % 4096 == 0x020 && s.rd (errStatus (e.1 / 4096)) != 0)
  let errs := errs.flatMap (fun e => [BitVec.ofNat 64 (e.1 / 4096), s.reg e.1, s.reg (e.1 + 8)])
  let ctxs := (s.ctxIds.filter (fun c => s.ctxState c != 0 && s.ctxState c != 1)).flatMap
    (fun c => [s.ctxStatusWord c, s.ctxWaitWord c, (s.ctx c).fault])
  let tiles := both (fun f => ((List.range 132).filter (fun p => s.seqState f p != 0)).flatMap
    (fun p => (List.range 7).map (fun i =>
      let o := 0x200 + 8 * i
      s.tileView f p o (s.reg (tilePage f p * 4096 + o)))))
  let engs := both (fun f => (List.range 44).flatMap
    (fun n => s.pageWords (engPage f n) [0x100, 0x110, 0x118, 0x120, 0x128]))
  let cores := if s.on F.FUSE_STATE_DEBUG_CLOSED then [] else [(0x06, s.coreWords)]
  let links := both (fun f => s.pageWords (frondPg f 0x1C0) [0x100, 0x110])
    ++ (List.range 24).map (fun p => s.reg (portPage p * 4096 + 0x108))
  let power := [s.reg F.PWR_STATUS_MODE.key, s.reg F.PWR_MEAS_BUS_P.key, s.reg F.CAP_STATUS_OVER.key]
    ++ allRails.flatMap (fun r => [s.reg (rf F.RAIL_STATUS_STATE r).key, s.reg (rf F.RAIL_MEAS_V r).key])
  let hang := s.pageWords 0x83 ((List.range 16).map (fun i => 0x110 + 8 * i))
  let recs := (s.recorder.ring.take 1024).reverse.flatMap (fun r => [r.w0, r.w1, r.w2, r.w3])
  [(0x01, errs), (0x02, s.mcolWords ++ both s.fcolWords), (0x03, ctxs), (0x04, tiles), (0x05, engs)] ++ cores
    ++ [(0x07, links), (0x08, power), (0x09, hang), (0x0A, recs)]

/-- Sections laid one after another into `room` words, each cut at the end of the room (TRUNC). -/
def layOut : Nat → List (Nat × List Word) → List Word
  | _, [] => []
  | room, (id, w) :: t =>
    if room = 0 then []
    else
      let body := w.take (room - 1)
      let cut := decide (room - 1 < w.length)
      BitVec.ofNat 64 (id * 2 ^ 48 + b2n cut * 2 ^ 32 + 8 * body.length) :: body ++ layOut (room - 1 - body.length) t

/-- The bytes of words, little-endian. -/
def wordsBytes (l : List Word) : List Nat := l.flatMap (fun w => leBytes 8 w.toNat)

/-- The dump that a capture takes now: at most 256 KB, header and check word (R475, R476). -/
def State.dumpNow (s : State) (seq cause step : Nat) : Dump :=
  let body := layOut 32760 s.dumpSections
  let w0 := BitVec.ofNat 64 (0x4D4C4344 * 2 ^ 32 + 1 * 2 ^ 16 + cause * 2 ^ 8 + step)
  let w1 := BitVec.ofNat 64 (seq * 2 ^ 32 + 8 * (8 + body.length))
  let w3 : Word := if s.rd F.PTP_STATUS_STATE = 3 then s.reg F.PTP_TIME_TAI_NS.key else 0
  let head := [w0, w1, s.reg F.SYS_UPTIME_OP_SECONDS.key, w3, s.reg F.MFS_SRC.key, s.reg (ffs .A).key, s.reg (ffs .B).key]
  let crc := crc32c (wordsBytes (head ++ [0] ++ body))
  ⟨seq, head ++ [BitVec.ofNat 64 crc] ++ body⟩

/-! ### Capture and flush (R475) -/

/-- A capture begins, with its cause and recovery step, after the recorder's waiting records are mirrored (R500); one asked for while a capture or flush runs is ignored.
(DESIGN CHOICE, log 60) -/
def State.dumpCapture (s : State) (cause step : Nat) : State :=
  if s.on F.DUMP_STATUS_BUSY || s.on F.DUMP_STATUS_FLUSHING then s
  else
    let s := s.recFlush.inc F.DUMP_STATUS_SEQ
    let d := s.dumpNow (s.rd F.DUMP_STATUS_SEQ) cause step
    let s := { s with dump := { s.dump with taking := some d }, draws := s.draws + 64 }
    ((s.wr F.DUMP_STATUS_BUSY 1).wr F.DUMP_STATUS_SRAM_VALID 0).event 0x84 0x9040

/-- The SRAM copy is on its way to flash. (DESIGN CHOICE, log 60) -/
def State.dumpFlush (s : State) : State :=
  if s.on F.DUMP_STATUS_BUSY || s.on F.DUMP_STATUS_FLUSHING || !s.on F.DUMP_STATUS_SRAM_VALID then s
  else s.wr F.DUMP_STATUS_FLUSHING 1

/-- A flash slot by its number 1-4. -/
def State.dumpSlot (s : State) (k : Nat) : Option Dump := Sparse.get (fun _ => none) s.dump.slots k

/-- The slot that the next dump takes: the first empty one, else the one with the lowest SEQ (R475).
(DESIGN CHOICE, log 60) -/
def State.dumpOldest (s : State) : Nat :=
  let seq := fun k => match s.dumpSlot k with | none => 0 | some d => d.seq + 1
  [2, 3, 4].foldl (fun b k => if seq k < seq b then k else b) 1

/-- Slot `k` takes a dump or none, and FLASH_VALID follows. -/
def State.dumpSetSlot (s : State) (k : Nat) (d : Option Dump) : State :=
  let s := { s with dump := { s.dump with slots := Sparse.set (fun _ => none) s.dump.slots k d } }
  if d.isSome then s.setBit F.DUMP_STATUS_FLASH_VALID (k - 1) else s.clrBit F.DUMP_STATUS_FLASH_VALID (k - 1)

end Sys2Proof.Machine
end

