-- ==== Sys2Proof/Machine/PowerBase.lean ====
section
/-! DEFINITION. The loop engine, the routing of the loops by mode, the power mode and feed-forward (R302-R307,
R316-R318, R326-R332). -/

namespace Sys2Proof.Machine

/-! ### Loop slots (R326-R331) -/

/-- The state with a slot's own state set. -/
def State.setSlot (s : State) (i : Nat) (x : LoopSlot) : State :=
  { s with power := { s.power with slots := Sparse.set slotInit s.power.slots i x } }

/-- LS_STATE.MODE of a slot: 0 OFF, 1 CLOSED, 2 OPEN_FREEZE, 3 OPEN_MANUAL (R328). -/
def State.lsMode (s : State) (i : Nat) : Nat := s.rd (F.LS_STATE_MODE.i i)

/-- A slot's coefficients. -/
def State.lsCoef (s : State) (i : Nat) : LawCoef :=
  { kp := s.rdS (F.LS_KPI_KP.i i), ki := s.rdS (F.LS_KPI_KI.i i), kd := s.rdS (F.LS_KDF_KD.i i),
    kf := s.rdS (F.LS_KDF_KF.i i), kff := s.rdS (F.LS_KFF_KFF.i i), outMin := s.rdS (F.LS_OUTLIM_OUT_MIN.i i),
    outMax := s.rdS (F.LS_OUTLIM_OUT_MAX.i i) }

/-- The feed-forward input of a slot: i_ff with 1.0 = 128 A where FF_SRC is PROFILE (R331). -/
def State.lsFf (s : State) (i : Nat) : Int :=
  if s.rd (F.LS_CFG_FF_SRC.i i) = 1 then satBits 32 (rneDiv (s.rdS F.PWR_FF_IREF_FF * q28) 128000) else 0

/-- A slot's destination: 0 for NONE, CASCADE and the reserved codes (R331). (DESIGN CHOICE, log 51) -/
def State.lsDest (s : State) (i : Nat) : Nat :=
  let d := s.rd (F.LS_CFG_DEST.i i)
  if 1 ≤ d ∧ d ≤ 7 then d else 0

/-- The value that a slot's destination holds, Q4.28: its own last output where it drives none. -/
def State.lsHeld (s : State) (i : Nat) : Int :=
  let d := s.lsDest i
  if d = 0 then s.rdS (F.LS_KFF_OUT.i i) else Sparse.get (fun _ => 0) s.power.dest d

/-- The state with a slot's output written: LS_KFF.OUT and its destination. -/
def State.lsPut (s : State) (i : Nat) (out : Int) : State :=
  let s := s.wrS (F.LS_KFF_OUT.i i) out
  let d := s.lsDest i
  if d = 0 then s else { s with power := { s.power with dest := Sparse.set (fun _ => 0) s.power.dest d out } }

/-- A slot's integrator is loaded so that its first output equals `out` (R303, R328). -/
def State.lsLoad (s : State) (i : Nat) (out : Int) : State :=
  let m := bumpless (s.lsCoef i) out (satBits 32 (s.lsSp i - s.rdS (F.LS_STATE_MEAS.i i))) (s.lsFf i)
  let x := s.slot i
  s.setSlot i { x with integ := m.integ, deriv := m.deriv, ePrev := m.ePrev, atLim := m.atLim }

/-- LS_CASC of LS0 and LS1 reflects the ratio of the periods in effect, their source's to their own (R330). -/
def State.lsRatio (s : State) (i : Nat) : State :=
  if s.on (F.LS_CASC_EN.i i) then
    s.wr (F.LS_CASC_D.i i) ((s.slot (s.rd (F.LS_CASC_SRC_SLOT.i i))).n / max 1 (s.slot i).n)
  else s

/-- LOOP_STATUS bits of a slot follow its mode. -/
def State.lsShow (s : State) (i : Nat) : State :=
  let m := s.lsMode i
  let s := if m = 1 then s.setBit F.LOOP_STATUS_CLOSED i else s.clrBit F.LOOP_STATUS_CLOSED i
  if 2 ≤ m then s.setBit F.LOOP_STATUS_OPEN i else s.clrBit F.LOOP_STATUS_OPEN i

/-- A slot closes bumplessly, its first output `out`; a new PERIOD_N takes effect (R303, R328). -/
def State.lsCloseAt (s : State) (i : Nat) (out : Int) : State :=
  let s := s.lsLoad i out
  let x := s.slot i
  let s := (s.setSlot i { x with n := max 4 (s.rd (F.LS_CFG_PERIOD_N.i i)) }).wr (F.LS_STATE_MODE.i i) 1
  ((s.lsShow i).lsRatio 0).lsRatio 1

/-! ### Routing (R302, R329) -/

/-- FALLBACK or REST is set: a substate in which the FC regulates the IB. -/
def State.subState (s : State) : Bool := s.on F.PWR_STATUS_FALLBACK || s.on F.PWR_STATUS_REST

/-- The slots of LS0-LS3 that the routing drives, each with the slot its set point comes from (R302). -/
def State.routeOf (s : State) : List (Nat × Nat) :=
  if s.mode = 0 then []
  else if s.mode = 4 then [(1, 2), (2, 2)]
  else if s.drawMode && !s.subState then [(0, 3), (1, 2), (2, 2), (3, 3)]
  else [(0, 2), (2, 2)]

/-- LS3 tracks (R302). -/
def State.ls3Tracks (s : State) : Bool := s.mode == 1 || (s.drawMode && s.subState)

/-- LS_CASC of LS0 or LS1 reflects its source: D is the ratio of the periods (R330). -/
def State.lsReflect (s : State) (i src : Nat) : State :=
  ((s.wr (F.LS_CASC_EN.i i) 1).wr (F.LS_CASC_SRC_SLOT.i i) src).lsRatio i

/-- The slot of LS0, LS1 whose set point comes from slot `i` under a routing. -/
def routeUser (rt : List (Nat × Nat)) (i : Nat) : Option Nat :=
  (rt.find? (fun e => decide (e.1 ≤ 1) && e.2 == i)).map (·.1)

/-- The value that a slot takes over (R303): LS2 and LS3 the set point that the slot they feed holds, another the value
of its destination. -/
def State.lsTakes (s : State) (i : Nat) : Int :=
  match routeUser s.routeOf i with
  | some c => (s.slot c).sp
  | none => s.lsHeld i

/-- A slot closes on the value that it takes over. -/
def State.lsClose (s : State) (i : Nat) : State := s.lsCloseAt i (s.lsTakes i)

/-- FC_STATUS.STATE by mode; an FC whose fault is held stays in FAULT. (DESIGN CHOICE, log 49) -/
def State.fcRole (s : State) : State :=
  if s.rd F.FC_STATUS_STATE = 5 ∧ s.fcFaultHeld then s
  else s.wr F.FC_STATUS_STATE
    (if s.mode = 0 ∨ s.mode = 4 then 0
     else if s.drawMode && !s.subState then (if s.power.pset < 0 then 4 else 3) else 2)

/-- BC_STATUS.STATE by mode; a BC whose fault is held stays in FAULT. (DESIGN CHOICE, log 49) -/
def State.bcRole (s : State) : State :=
  if s.rd F.BC_STATUS_STATE = 5 ∧ s.bcFaultHeld then s
  else s.wr F.BC_STATUS_STATE
    (if s.mode = 0 then 0 else if s.mode = 1 ∨ s.on F.PWR_STATUS_REST then 1
     else if s.on F.PWR_STATUS_FALLBACK then 4 else 2)

/-- One slot under a new routing: one that takes over its destination, LS2 and LS3 also another slot's set point, is
loaded bumplessly; one that is OFF closes; an open one closes with FORCED when hardware caused the change, and stays open
when it did not (R303, R329). -/
def State.routeSlot (s : State) (old : List (Nat × Nat)) (forced : Bool) (e : Nat × Nat) : State :=
  let i := e.1
  let s := if i ≤ 1 then s.lsReflect i e.2 else s
  let same := old.contains e && routeUser old i == routeUser s.routeOf i
  if s.lsMode i = 1 then (if same then s else s.lsLoad i (s.lsTakes i))
  else if s.lsMode i = 0 then s.lsClose i
  else if forced then (s.wr (F.LS_STATE_FORCED.i i) 1).lsClose i
  else s

/-- The routing follows the mode and substate, from the routing `old` (R302, R303, R329). -/
def State.reroute (s : State) (old : List (Nat × Nat)) (forced : Bool) : State :=
  let s := s.routeOf.foldl (fun s e => s.routeSlot old forced e) s
  let s := if s.mode = 0 then s
    else ((List.range 9).filter (fun i => s.lsMode i == 0)).foldl (fun s i => s.lsClose i) s
  s.fcRole.bcRole

/-! ### Draw schedules (R313-R315) -/

/-- The present time in the schedule's timebase. -/
def State.grTime (s : State) : Nat := if s.on F.GR_CTRL_TIMEBASE then s.rd F.PTP_TIME_TAI_NS else s.now

/-- The ticks or nanoseconds in a millisecond of the timebase. -/
def State.grMs (s : State) : Nat := if s.on F.GR_CTRL_TIMEBASE then 1000000 else 250000

/-- GR_START has passed: an entry has come into force, or the clock says so. -/
def State.grStarted (s : State) : Bool :=
  s.rd F.GR_STATUS_ENTRY != 0xFF || decide (s.rd F.GR_START_START ≤ s.grTime)

/-- Entry `n` can be in force: a VALID entry before the LAST one (R313, R314). -/
def State.grUsable (s : State) (n : Nat) : Bool :=
  s.on (F.GR_ENTRY_VALID.i n) && (List.range (n + 1)).all (fun k => !s.on (F.GR_ENTRY_LAST.i k))

/-- The entry by the clock: the latest usable entry whose time has passed, at least entry 0 (R314). -/
def State.grEntryNow (s : State) : Nat :=
  ((List.range 64).filter (fun n => s.grUsable n
    && decide (s.rd F.GR_START_START + s.rd (F.GR_ENTRY_T_MS.i n) * s.grMs ≤ s.grTime))).foldl max 0

/-- GR_STATUS.ACTIVE and SUSPENDED follow the mode; events 0x1032 and 0x1033 at a change of SUSPENDED (R315). -/
def State.grCheck (s : State) : State :=
  let was := s.on F.GR_STATUS_SUSPENDED
  let is := s.on F.GR_CTRL_EN && s.grStarted && s.mode != 3
  let s := (s.wr F.GR_STATUS_ACTIVE (b2n (s.mode == 3))).wr F.GR_STATUS_SUSPENDED (b2n is)
  if is && !was then s.event 0x43 0x1032
  else if was && !is && s.on F.GR_CTRL_EN then s.event 0x43 0x1033 else s

/-! ### Feed-forward (R316-R318) -/

/-- Feed-forward is permitted (R318). -/
def State.ffPermit (s : State) : Bool :=
  s.on F.PWR_CTRL_FF_EN && s.on F.PHASE_STATUS_PROF_VALID && !s.on F.PWR_STATUS_FF_DIVERGE && decide (2 ≤ s.mode)
    && decide (s.mode ≤ 4)

/-- FF_STATE takes a value: 0 OFF, 1 RAMP_IN, 2 ON, 3 RAMP_OUT; event 0x1004 (R318). -/
def State.ffSet (s : State) (v : Nat) : State := (s.wr F.PWR_STATUS_FF_STATE v).event 0x40 0x1004

/-- GAIN as the ramp counts it. -/
def State.ffGain (s : State) : Nat := s.rd F.PWR_FF_GAIN * 2 ^ 48

/-- When a condition has failed, feed-forward ramps out, at once to OFF from k = 0; P_prof and s are held when
PROF_VALID has fallen, also during the ramp (R318). -/
def State.ffCheck (s : State) (profBefore : Nat) : State :=
  let st := s.rd F.PWR_STATUS_FF_STATE
  if s.ffPermit || st == 0 then s
  else
    let held := if s.on F.PHASE_STATUS_PROF_VALID || s.power.ffHeld.isSome then s.power.ffHeld
      else some (profBefore, s.power.ffScale)
    let s := { s with power := { s.power with ffHeld := held } }
    if st = 3 then s
    else
      let s := s.ffSet 3
      if s.power.ffK = 0 then ({ s with power := { s.power with ffHeld := none } }).ffSet 0 else s

/-- At a step start permitted feed-forward ramps in, from the present k; with GAIN 0 it is ON at once:
FF_STATE_CHANGE (R318). -/
def State.ffStepStart (s : State) : State :=
  let st := s.rd F.PWR_STATUS_FF_STATE
  if s.ffPermit && (st == 0 || st == 3) then
    let s := ({ s with power := { s.power with ffHeld := none } }).ffSet 1
    if s.ffGain ≤ s.power.ffK then ({ s with power := { s.power with ffK := s.ffGain } }).ffSet 2 else s
  else s

/-! ### Modes (R22, R25) -/

/-- The mode takes a value: MODE_CHG, event 0x1001, the substates end, the routing follows (R25, R302, R329). -/
def State.setMode (s : State) (m : Nat) (forced : Bool) : State :=
  if s.mode = m then s
  else
    let old := s.routeOf
    let prof := s.profOut
    let s := (s.wr F.PWR_STATUS_MODE m).when (m != 2 && m != 3)
      (fun s => ((s.wr F.PWR_STATUS_FALLBACK 0).wr F.PWR_STATUS_SLEWING 0).wr F.PWR_STATUS_REST 0)
    let s := (s.pwrEvent F.PWR_EVENTS_MODE_CHG).event 0x40 0x1001
    ((s.reroute old forced).grCheck).ffCheck prof

/-- P_set is loaded, in 0.25 W, and approaches its target under SLEWING (R306). -/
def State.psetLoad (s : State) (p : Int) : State :=
  let s := { s with power := { s.power with pset := p * 1000 } }
  ((s.wrS F.PWR_PSET_PSET p).wr F.PWR_STATUS_SLEWING 1).wr F.PWR_STATUS_EXPORT (b2n (decide (p < 0)))

/-- A substate flag changes, with the routing (R302, R303). -/
def State.setSub (s : State) (f : Field) (v : Nat) (forced : Bool) : State :=
  let old := s.routeOf
  (s.wr f v).reroute old forced

end Sys2Proof.Machine
end

