-- ==== Sys2Proof/Machine/CellOps.lean ====
section
/-! DEFINITION. The pack's readings, passive balancing and the conditions that the pack puts on charge and discharge
(R386, R387, R400-R405). -/

namespace Sys2Proof.Machine

/-! ### Readings -/

/-- PACK_STATUS.STATE: 0 ABSENT, 1 DETECT, 2 ENUM, 3 CHECK, 4 PRECHARGE, 5 ONLINE, 6 RELEASING, 7 RELEASED, 8 FAULT. -/
def State.packState (s : State) : Nat := s.rd F.PACK_STATUS_STATE

/-- The state with PACK_STATUS.STATE set. -/
def State.setPack (s : State) (v : Nat) : State := s.wr F.PACK_STATUS_STATE v

/-- See `cells`. -/
def State.units (s : State) : Nat := s.cells / 16

/-- The contactors are closed. -/
def State.contactClosed (s : State) : Bool := s.rd F.PACK_STATUS_CONTACTOR == 2

/-- The CELL page's field of a cell's voltage. -/
def cellField (c : Nat) : Field :=
  (match c % 4 with | 0 => F.CELL_V_V0 | 1 => F.CELL_V_V1 | 2 => F.CELL_V_V2 | _ => F.CELL_V_V3).i (c / 4)

/-- The CELL page's field of thermistor `k` of unit `u`. -/
def thermCell (u k : Nat) : Field :=
  (match k with | 0 => F.CELL_T_T0 | 1 => F.CELL_T_T1 | 2 => F.CELL_T_T2 | _ => F.CELL_T_T3).i u

/-- A cell's voltage, 0.1 mV. -/
def State.cellV (s : State) (c : Nat) : Nat := s.rd (cellField c)

/-- A unit's thermistors, signed 0.1 °C. -/
def State.therms (s : State) (u : Nat) : List Int := (List.range 4).map (fun k => s.rdS (thermCell u k))

/-- A cell's temperature: the sum of its unit's four thermistors, in 0.025 °C (R418). -/
def State.cellT4 (s : State) (c : Nat) : Int := (s.therms (c / 16)).foldl (· + ·) 0

/-- The state with a bit of a pair of 64-bit registers set or cleared. -/
def State.setBit128 (s : State) (f : Field) (b : Bool) (c : Nat) : State :=
  if b then s.setBit (f.i (c / 64)) (c % 64) else s.clrBit (f.i (c / 64)) (c % 64)

/-- A cell's reading is STALE. -/
def State.cellStale (s : State) (c : Nat) : Bool := s.bit128 F.CELL_STALE_CELLS c

/-- The cell takes OCV values: neither half of a pair nor unmonitored (R418). -/
def State.cellEligible (s : State) (c : Nat) : Bool := !s.cellPaired c && !s.cellUnmon c && !s.cellStale c

/-- The cells of the pack. -/
def State.cellList (s : State) : List Nat := List.range s.cells

/-- The cells whose readings the warning and limit tests use. -/
def State.monCells (s : State) : List Nat := s.cellList.filter (fun c => !s.cellStale c && !s.cellUnmon c)

/-- The units whose readings are not STALE. -/
def State.monUnits (s : State) : List Nat := (List.range s.units).filter (fun u => !s.cellStale (16 * u))

/-- A cell's voltages for the tests of an upper and of a lower level: a pair's are taken 100 mV nearer (R405). -/
def State.testV (s : State) (c : Nat) : Nat × Nat :=
  let v := s.cellV c
  if s.cellPaired c then (v + 1000, v - 1000) else (v, v)

/-! ### Balancing (R400-R402) -/

/-- The parity group that bleeds. -/
def State.balGroup (s : State) : Nat := s.rd F.BAL_STATUS_GROUP

/-- A cell's bleed allowance, pC. -/
def State.bleedLeft (s : State) (c : Nat) : Nat := Sparse.get (fun _ => 0) s.chain.bleed c

/-- A cell bleeds (R400, R401). -/
def State.bleeds (s : State) (c : Nat) : Bool :=
  s.on F.BAL_CFG_EN && decide (c < s.cells) && c % 2 == s.balGroup && decide (0 < s.bleedLeft c)
    && !s.on F.BAL_STATUS_PAUSED && !s.on F.CHAIN_STATUS_OW_BUSY && !s.chain.balLapsed.contains (c / 16)
    && decide (20000 < s.cellV c) && (s.therms (c / 16)).all (fun t => decide (t < 10 * s.rdS F.PACK_LIM_T_OT_WARN))
    && s.mode != 0 && !s.chain.asleep

/-- BAL_ACTIVE follows the cells that bleed. -/
def State.balRefresh (s : State) : State :=
  let mask (lo : Nat) : Nat := (List.range 64).foldl (fun m i => if s.bleeds (lo + i) then setBitN m i else m) 0
  let m0 := mask 0
  let m1 := mask 64
  (s.wr (F.BAL_ACTIVE_CELLS.i 0) m0).wr (F.BAL_ACTIVE_CELLS.i 1) m1

/-- One mAh in pC. -/
def pcPerMah : Nat := 3600000000000

/-- A decision of R402 replaces every allowance: `excess` is each cell's excess in pC. -/
def State.balDecide (s : State) (excess : Nat → Nat) : State :=
  let lo := max 1 (s.rd F.BAL_CFG_MIN_MAH) * pcPerMah
  let hi := s.rd F.BAL_CFG_MAX_MAH * pcPerMah
  let l := (s.cellList.map (fun c => (c, if lo ≤ excess c then min hi (excess c) else 0))).filter (fun e => e.2 != 0)
  (({ s with chain := { s.chain with bleed := l } }).inc F.BAL_STATUS_DECISIONS).balRefresh

/-- The highest of some numbers, and the lowest with a value for none. -/
def maxOf (l : List Nat) : Nat := l.foldl max 0

/-- See `maxOf`. -/
def minOf : List Nat → Nat
  | [] => 0
  | a :: t => t.foldl min a

/-- A full-charge reading decides when the highest cell is at FULL_MV and the pack charges at 3.0 A or less (R402). -/
def State.balFull (s : State) : State :=
  let i := s.rdS F.PACK_MEAS_I_SHUNT
  let vs := s.monCells.map s.cellV
  let lo := minOf vs
  let dv := 10 * s.rd F.BAL_CFG_DV_MV
  if decide (i < 0) && decide (-3000 ≤ i) && decide (10 * s.rd F.BAL_CFG_FULL_MV ≤ maxOf vs) then
    s.balDecide (fun c => if s.cellStale c ∨ s.cellUnmon c ∨ s.cellV c ≤ lo + dv then 0
      else (s.cellV c - lo - dv) * s.rd F.BAL_GAIN_GAIN * (pcPerMah / 1000))
  else s

/-! ### Charge and discharge (R311, R386, R398, R405) -/

/-- Any confirmed open line. -/
def State.owAny (s : State) : Bool := s.rd (F.OW_LINES_LINES.i 0) != 0 || s.rd (F.OW_LINES_LINES.i 1) != 0

/-- The ring has two breaks. -/
def State.twoBreaks (s : State) : Bool := s.rd F.CHAIN_STATUS_RING == 3

/-- CELL_UNMON follows the confirmed end lines (R405). -/
def State.unmonUpdate (s : State) : State :=
  (List.range s.units).foldl (fun s u =>
    (s.setBit128 F.CELL_UNMON_CELLS (s.bit128 F.OW_LINES_LINES (17 * u)) (16 * u)).setBit128 F.CELL_UNMON_CELLS
      (s.bit128 F.OW_LINES_LINES (17 * u + 16)) (16 * u + 15)) s

/-- PACK_STATUS shows the warnings, the unmonitored cells and what they forbid. -/
def State.packFlags (s : State) : State :=
  let unmon := s.rd (F.CELL_UNMON_CELLS.i 0) != 0 || s.rd (F.CELL_UNMON_CELLS.i 1) != 0
  let s := (s.wr F.PACK_STATUS_WARN (b2n (s.chain.warn != 0))).wr F.PACK_STATUS_UNMON (b2n unmon)
  let s := s.wr F.PACK_STATUS_CHG_FORBID (b2n (bitOf s.chain.warn 0 || s.owAny || s.twoBreaks))
  s.wr F.PACK_STATUS_DIS_LIMIT (b2n (bitOf s.chain.warn 1 || unmon || s.twoBreaks))

/-- The directions that the BC is inhibited in (R311): INHIBIT is raised when one begins. -/
def State.inhibit (s : State) (dis chg : Bool) : State :=
  let new := (dis && !s.on F.PWR_STATUS_DISCH_INHIBIT) || (chg && !s.on F.PWR_STATUS_CHG_INHIBIT)
  let s := (s.wr F.PWR_STATUS_DISCH_INHIBIT (b2n dis)).wr F.PWR_STATUS_CHG_INHIBIT (b2n chg)
  if new then s.pwrEvent F.PWR_EVENTS_INHIBIT else s

/-- The inhibits by the estimator's figures and the pack (R311). -/
def State.inhibitCheck (s : State) : State :=
  s.inhibit (s.est.allowZero && s.mode != 4)
    (decide (100 * s.rd F.PWR_SOC_HI_STOP ≤ s.rd F.EST_SOC_SOC_MAX) || s.on F.PACK_STATUS_CHG_FORBID)

end Sys2Proof.Machine
end

