-- ==== Sys2Proof/Machine/EstOps.lean ====
section
/-! DEFINITION. Charge estimation: capacity, the OCV table, rest, rest windows and the insertion estimate (R418-R440). -/

namespace Sys2Proof.Machine

/-! ### Capacity (R422, R428) -/

/-- The state with a cell of the estimator set. -/
def State.setCellEst (s : State) (c : Nat) (x : CellEst) : State :=
  { s with est := { s.est with cells := Sparse.set cellInit s.est.cells c x } }

/-- An estimate is held for the pack's cells. -/
def State.estAny (s : State) : Bool := s.est.cells != []

/-- The registers of the capacity: FACTOR and C_EFF. -/
def State.capShow (s : State) : State :=
  (s.wr F.EST_CAP_FACTOR (s.capFactor / 1000000)).wrSat F.EST_ENERGY_C_EFF (s.cEff / pcPerMah)

/-- C_eff has changed from `old`: every charge is rescaled, so that each SOC stays (R428). -/
def State.capRescale (s : State) (old : Nat) : State :=
  let new := s.cEff
  let s := if old = new ∨ old = 0 then s
    else { s with est := { s.est with cells := s.est.cells.map (fun e => (e.1, { e.2 with q := e.2.q * new / old })) } }
  s.capShow

/-- N_EFC takes a value. -/
def State.setNefc (s : State) (n : Nat) : State :=
  let old := s.cEff
  (s.wrSat F.EST_CAP_N_EFC n).capRescale old

/-! ### The OCV table (R423, R424) -/

/-- The open-circuit voltage of entry `e`, 0.1 mV. -/
def State.ocvV (s : State) (e : Nat) : Int :=
  if s.est.temps = [] then Config.romOcv (2 * e) else (Sparse.get (fun _ => 0) s.est.ocv (2 * e) : Nat)

/-- U_OCV of entry `e`, 0.01 %. -/
def State.ocvU (s : State) (e : Nat) : Int :=
  if s.est.temps = [] then Config.romOcv (2 * e + 1) else (Sparse.get (fun _ => 0) s.est.ocv (2 * e + 1) : Nat)

/-- Temperature point `t`, 0.1 °C. -/
def State.ocvT (s : State) (t : Nat) : Int :=
  if s.est.temps = [] then Config.romOcvTemp t else s.est.temps.getD t 0

/-- The columns that bracket a temperature in 0.025 °C: the lower column, and the place between it and the next as a
numerator and a denominator; an end column outside their range (R424). -/
def State.ocvCols (s : State) (t4 : Int) : Nat × Int × Int :=
  if t4 ≤ 4 * s.ocvT 0 then (0, 0, 1)
  else if 4 * s.ocvT 3 ≤ t4 then (3, 0, 1)
  else
    let k := if t4 < 4 * s.ocvT 1 then 0 else if t4 < 4 * s.ocvT 2 then 1 else 2
    (k, t4 - 4 * s.ocvT k, 4 * (s.ocvT (k + 1) - s.ocvT k))

/-- A column value interpolated in temperature, times the denominator. -/
def interp (at_ : Nat → Int) (col : Nat × Int × Int) (i : Nat) : Int :=
  let a := at_ (33 * col.1 + i)
  if col.2.1 = 0 then a * col.2.2 else a * col.2.2 + (at_ (33 * (col.1 + 1) + i) - a) * col.2.1

/-- A reading of `v` (0.1 mV) at `t4` (0.025 °C) as SOC times 10^6 and U_OCV times 10^12 (R424). -/
def State.ocvRead (s : State) (v : Nat) (t4 : Int) : Nat × Nat :=
  let col := s.ocvCols t4
  let d := col.2.2
  let vs := interp s.ocvV col
  let us := interp s.ocvU col
  let x : Int := (v : Int) * d
  let ufix (n : Int) : Nat := (n * 100000000 / d).toNat
  if x < vs 0 then (0, ufix (us 0))
  else if vs 32 ≤ x then (1000000, ufix (us 32))
  else
    let i := ((List.range 32).filter (fun i => decide (vs i ≤ x))).foldl max 0
    let a := x - vs i
    let b := vs (i + 1) - vs i
    ((31250 * (i : Int) + 31250 * a / b).toNat, ((us i * b + (us (i + 1) - us i) * a) * 100000000 / (b * d)).toNat)

/-- The shadow OCV table as it stands in the register file: OCV or U_OCV of entry `e`. -/
def State.shadowOcv (s : State) (e : Nat) : Nat × Nat :=
  if e % 2 = 0 then (s.rd (F.OCV_ENTRY_OCV_A.i (e / 2)), s.rd (F.OCV_ENTRY_U_A.i (e / 2)))
  else (s.rd (F.OCV_ENTRY_OCV_B.i (e / 2)), s.rd (F.OCV_ENTRY_U_B.i (e / 2)))

/-- The shadow's temperature points. -/
def State.shadowTemps (s : State) : List Int :=
  [s.rdS F.OCV_TEMP_T0, s.rdS F.OCV_TEMP_T1, s.rdS F.OCV_TEMP_T2, s.rdS F.OCV_TEMP_T3]

/-- A list rises strictly. -/
def rises : List Int → Bool
  | a :: b :: t => decide (a < b) && rises (b :: t)
  | _ => true

/-- The shadow passes the two checks of R423. -/
def State.shadowGood (s : State) : Bool :=
  rises s.shadowTemps
    && (List.range 4).all (fun t => rises ((List.range 33).map (fun i => ((s.shadowOcv (33 * t + i)).1 : Int))))

/-- A commit of the shadow OCV table (R423). -/
def State.ocvCommit (s : State) : State :=
  if s.shadowGood then
    let l := (List.range 132).foldr (fun e l => (2 * e, (s.shadowOcv e).1) :: (2 * e + 1, (s.shadowOcv e).2) :: l) []
    let s := { s with est := { s.est with ocv := l.filter (fun e => e.2 != 0), temps := s.shadowTemps } }
    (s.wr F.OCV_STATUS_ROM 0).wr F.OCV_STATUS_TABLE_BAD 0
  else ((s.wr F.OCV_STATUS_TABLE_BAD 1).err 0x71 0).event 0x71 0x4040

/-! ### The rest schedule (R430) -/

/-- The timebase of rest windows is TAI: PTP is LOCKED or HOLDOVER. -/
def State.restTai (s : State) : Bool := s.rd F.PTP_STATUS_STATE == 3 || s.rd F.PTP_STATUS_STATE == 4

/-- LOOP_TIME in seconds. -/
def State.loopSec (s : State) : Nat := s.now / 250000000

/-- The seconds of the timebase in force. -/
def State.restSec (s : State) : Nat := if s.restTai then s.rd F.PTP_TIME_TAI_NS / 1000000000 else s.loopSec

/-- POLICY: 0 PASS, 1 CLAMP, 2 NO_REST; the reserved code is PASS. -/
def State.restPolicy (s : State) : Nat := if s.rd F.EST_CTRL_POLICY = 3 then 0 else s.rd F.EST_CTRL_POLICY

/-- INTERVAL_H in seconds. -/
def State.restInterval (s : State) : Nat := s.rd F.EST_REST_INTERVAL_H * 3600

/-- The module's stagger in seconds. -/
def State.restStagger (s : State) : Nat := s.rd F.LINK_ID_MOD_INDEX * s.rd F.EST_REST_STAGGER_S

/-- The next scheduled due time in the timebase in force (R430). -/
def State.schedNext (s : State) : Option Nat :=
  if s.restPolicy = 2 then none
  else if s.restTai then
    let since := s.loopSec - (s.est.lastEnd.getD (s.est.schedBase.getD s.loopSec))
    let ref := s.restSec - since
    let base := s.rd F.EST_REST_BASE_BASE_S + s.restStagger
    some (if ref < base then base else base + ((ref - base) / s.restInterval + 1) * s.restInterval)
  else match s.est.lastEnd with
    | some e => some (e + s.restInterval)
    | none => s.est.schedBase.map (fun b => b + s.restInterval + s.restStagger)

/-- EST_REST_NEXT follows the schedule. -/
def State.schedSet (s : State) : State :=
  let n := s.schedNext
  (({ s with est := { s.est with sched := n } }).wr F.EST_REST_NEXT_PTP (b2n s.restTai)).wr F.EST_REST_NEXT_DUE_S
    (n.getD 0)

/-- EST_STATUS.REST_STATE (R442). -/
def State.restShow (s : State) : State :=
  s.wr F.EST_STATUS_REST_STATE (if s.est.atRest then 3 else if s.on F.PWR_STATUS_REST then 2
    else if s.est.due = [] then 0 else 1)

/-- A due window waits where R431 defers it; event 0x4015 is recorded once. -/
def State.restDefer (s : State) : State :=
  if s.est.due != [] && !s.est.deferred && (s.mode == 4 || s.mode == 0 || s.packState != 5) then
    ({ s with est := { s.est with deferred := true } }).event 0x70 0x4015
  else s

/-- A window of a kind falls due. -/
def State.restDue (s : State) (kind : Nat) : State :=
  if s.est.due.contains kind then s
  else (({ s with est := { s.est with due := s.est.due ++ [kind] } }).restShow).restDefer

/-- The timebase changed: the scheduled due time is formed again, and one that has passed is due at once (R430). -/
def State.restRebase (s : State) : State :=
  if s.est.due.contains 0 || s.on F.PWR_STATUS_REST then s
  else
    let s := s.schedSet
    match s.est.sched with
    | some t => if t ≤ s.restSec then ({ s with est := { s.est with sched := none } }).restDue 0 else s
    | none => s

/-- The first entry into BUFFERED starts the LOOP_TIME schedule (R430). -/
def State.restFirst (s : State) : State :=
  if s.est.schedBase.isNone then ({ s with est := { s.est with schedBase := some s.loopSec } }).schedSet else s

/-- A forced or requested window falls due MOD_INDEX × 60 s later (R434). -/
def State.restForce (s : State) (kind : Nat) : State :=
  { s with est := { s.est with
      forcedAt := some (s.now + s.rd F.LINK_ID_MOD_INDEX * 60 * 250000000), forcedKind := kind } }

/-- A forced or requested window is due or pending. -/
def State.forcedDue (s : State) : Bool := s.est.forcedAt.isSome || s.est.due.contains 1 || s.est.due.contains 3

/-- The highest U_j, times 10^12. -/
def State.uMax (s : State) : Nat := maxOf (s.est.cells.map (fun e => e.2.u))

/-- U above FORCE_PCT makes a forced window fall due, unless one may not (R434). (DESIGN CHOICE, log 54) -/
def State.restForceCheck (s : State) : State :=
  if decide (s.rd F.EST_LIMITS_FORCE_PCT * 100000000 < s.uMax) && s.restPolicy != 2 && s.estAny
      && !s.on F.PWR_STATUS_REST && !s.forcedDue && s.est.retryAt.isNone && !s.est.due.contains 4 then s.restForce 1
  else s

/-! ### Rest windows (R431-R433) -/

/-- The draw target of a CLAMP window, 0.25 W (R432). (DESIGN CHOICE, log 50) -/
def State.clampTarget (s : State) : Int :=
  if s.mode = 3 then 4 * s.rdS (F.GR_ENTRY_DRAW_W.i (s.rd F.GR_STATUS_ENTRY))
  else if !s.on F.PHASE_STATUS_PROF_VALID || s.phase.lastBins == [] then s.power.pset / 1000
  else
    let lo := minOf (s.phase.lastBins.map (fun k => s.rd (binField k)))
    if s.rd F.FC_STATUS_EFF = 0 then s.power.pset / 1000 else (lo * 10000 / s.rd F.FC_STATUS_EFF : Nat)

/-- The kind of the window that serves all that are due (R434). (DESIGN CHOICE, log 54) -/
def State.dueKind (s : State) : Nat := if s.est.due.contains 1 then 1 else if s.est.due.contains 3 then 3 else 0

/-- A due window opens at a step start: in BUFFERED, or in GRID_RESPONSE when it is forced or requested: REST_WINDOW_OPEN
(R431). (DESIGN CHOICE, log 54) -/
def State.restOpen (s : State) : State :=
  let kind := s.dueKind
  if s.est.due != [] && !s.on F.PWR_STATUS_REST && s.packState == 5 && (s.mode == 2 || (s.mode == 3 && kind != 0)) then
    let clamp := s.restPolicy == 1 || s.mode == 3
    let tgt := if clamp then some s.clampTarget else none
    let s := { s with est := { s.est with due := [], deferred := false }, power := { s.power with restTarget := tgt } }
    let s := ((s.setSub F.PWR_STATUS_REST 1 false).wr F.PWR_STATUS_FALLBACK 0).wr F.EST_STATUS_KIND kind
    let s := (s.inc F.EST_REST_LAST_WINDOWS).restShow
    let s := s.event 0x70 0x4010
    if kind = 0 then s else s.event 0x70 0x4014
  else s.restDefer

/-- RETRY_S + MOD_INDEX × 60 s, in ticks. -/
def State.retryTicks (s : State) : Nat := (s.rd F.EST_REST_RETRY_S + s.rd F.LINK_ID_MOD_INDEX * 60) * 250000000

/-- The record of a window that ends: 1 DONE, 2 TIMEOUT, 3 ABANDONED (R433); the routing is the caller's. -/
def State.restRecord (s : State) (outcome : Nat) : State :=
  let retry := if outcome = 1 ∨ s.restPolicy = 2 then s.est.retryAt else some (s.now + s.retryTicks)
  let s := { s with
    est := { s.est with lastEnd := some s.loopSec, retryAt := retry }
    power := { s.power with restTarget := none } }
  let s := ((s.wr F.EST_STATUS_OUTCOME outcome).schedSet).restShow
  if outcome = 1 then s.event 0x70 0x4011
  else if outcome = 2 then (s.err 0x70 1).event 0x70 0x4012
  else s.event 0x70 0x4013

/-- A window ends within BUFFERED or GRID_RESPONSE: the FC re-enters draw control with the measured draw (R306, R433). -/
def State.restEnd (s : State) (outcome : Nat) : State :=
  if s.on F.PWR_STATUS_REST then
    let s := s.psetLoad (s.rdS F.PWR_MEAS_BUS_P)
    (s.setSub F.PWR_STATUS_REST 0 false).restRecord outcome
  else s

/-! ### Rest and its reading (R425-R427) -/

/-- The widest span of a unit's thermistors with the present reading exceeds 2 °C. -/
def State.spanBroken (s : State) : Bool :=
  s.monUnits.any (fun u =>
    let ts := s.therms u
    let lo := ts.foldl min (Sparse.get (fun _ => ts.getD 0 0) s.est.tMin u)
    let hi := ts.foldl max (Sparse.get (fun _ => ts.getD 0 0) s.est.tMax u)
    decide (20 < hi - lo))

/-- The thermistor spans take a sweep in. -/
def State.spanAdd (s : State) : State :=
  let add (f : Int → Int → Int) (m : Sparse Int) (u : Nat) : Sparse Int :=
    let ts := s.therms u
    Sparse.insert (Sparse.erase m u) u (ts.foldl f (Sparse.get (fun _ => ts.getD 0 0) m u))
  let lo := s.monUnits.foldl (add min) s.est.tMin
  let hi := s.monUnits.foldl (add max) s.est.tMax
  { s with est := { s.est with tMin := lo, tMax := hi } }

/-- Rest is watched at each sweep: quiet current and temperatures go on, or rest starts over (R425). -/
def State.restWatch (s : State) : State :=
  let i := s.rdS F.PACK_MEAS_I_SHUNT
  let quiet := decide (i.natAbs < 50)
  if quiet && s.est.stillSince.isSome && !s.spanBroken then
    let s := s.spanAdd
    { s with est := { s.est with shuntSum := s.est.shuntSum + i, shuntCount := s.est.shuntCount + 1 } }
  else
    let s := { s with est := { s.est with
      stillSince := if quiet then some s.now else none, atRest := false, shuntSum := if quiet then i else 0,
      shuntCount := if quiet then 1 else 0, tMin := [], tMax := [] } }
    if quiet then s.spanAdd else s

/-- The cell may take the rest reading's OCV value: eligible, and no bleeding for 600 s (R426). -/
def State.ocvTakes (s : State) (c : Nat) : Bool :=
  s.cellEligible c && (match (s.cellEst c).bledAt with | some t => decide (t + 150000000000 ≤ s.now) | none => true)

/-- One cell of a rest reading (R426): with the number of cells updated so far. A cell that takes no value at this
reading has no confident one. (DEDUCED, log 76) -/
def ocvCell (p : State × Nat) (c : Nat) : State × Nat :=
  let s := p.1
  if s.ocvTakes c then
    let r := s.ocvRead (s.cellV c) (s.cellT4 c)
    let x := s.cellEst c
    if r.2 < x.u then
      (s.setCellEst c { x with q := (r.1 * s.cEff / 1000000 : Nat), u := r.2, ocv := r.1, conf := true }, p.2 + 1)
    else (s.setCellEst c { x with ocv := r.1, conf := false }, p.2)
  else if (s.cellEst c).conf then (s.setCellEst c { s.cellEst c with conf := false }, p.2)
  else p

/-- The shunt offset from a rest reading with the BC idle and the contactors closed (R427). -/
def State.offsetZero (s : State) : State :=
  if decide (s.rd F.BC_STATUS_STATE ≤ 1) && s.contactClosed && decide (0 < s.est.shuntCount) then
    (s.wrS F.EST_SHUNT_OFFSET_UA (s.est.shuntSum * 1000 / s.est.shuntCount)).wr F.EST_STATUS_OFFSET_ZEROED 1
  else s

/-- The excess of each confident cell over the lowest confident SOC, pC (R402). -/
def State.restExcess (s : State) : Nat → Nat :=
  let lo := minOf ((s.cellList.filter (fun c => (s.cellEst c).conf)).map (fun c => (s.cellEst c).ocv))
  fun c => if (s.cellEst c).conf then ((s.cellEst c).ocv - lo) * s.cEff / 1000000 else 0

/-- A rest reading: REST_READING (R426, R427), the balance decision (R402), and the window it ends (R425, R433). -/
def State.restReading (s : State) : State :=
  let p := s.cellList.foldl ocvCell (s, 0)
  let s := p.1.offsetZero
  let s := (s.wr F.EST_STATUS_CELLS_OCV p.2).event 0x70 0x4020 p.2
  let s := if p.2 = 0 then s else s.wr F.EST_STATUS_SOURCE 3
  let s := { s with est := { s.est with
    lastRest := some s.now, atRest := false, stillSince := none, shuntSum := 0, shuntCount := 0, tMin := [], tMax := [] } }
  let s := s.balDecide s.restExcess
  if s.on F.PWR_STATUS_REST then s.restEnd 1
  else
    let s := { s with est := { s.est with due := [], deferred := false } }
    (s.wr F.EST_STATUS_KIND 2).restRecord 1

/-! ### Insertion and removal (R436, R437) -/

/-- One cell of the insertion estimate. -/
def State.insertCell (s : State) (c : Nat) : State :=
  let r := s.ocvRead (s.cellV c) (s.cellT4 c)
  s.setCellEst c ⟨(r.1 * s.cEff / 1000000 : Nat), max r.2 (s.rd F.EST_LIMITS_INS_U * 100000000), r.1, false, none⟩

/-- INSERTION_ESTIMATE (R436): none is formed while the estimator holds one for the same pack. -/
def State.insertEst (s : State) : State :=
  if s.estAny && s.est.serial == s.reg (F.GCS_SERIAL_SERIAL.i 0).key then s
  else
    let s := s.cellList.foldl State.insertCell s
    let s := { s with est := { s.est with serial := s.reg (F.GCS_SERIAL_SERIAL.i 0).key, allowZero := false } }
    (((s.wr F.EST_STATUS_HELD 1).wr F.EST_STATUS_SOURCE 1).event 0x70 0x4001).capShow

/-- ESTIMATE_DISCARD (R437): the cells go, N_efc stays with the serial of unit 0. (DESIGN CHOICE, log 54) -/
def State.estDiscard (s : State) : State :=
  ({ s with est := { s.est with
      cells := [], atRest := false, stillSince := none, shuntSum := 0, shuntCount := 0, tMin := [], tMax := [],
      allowZero := true } }).wr F.EST_STATUS_HELD 0

/-- A pack is enumerated: N_efc stands when unit 0's serial is the one it was kept with (R437). -/
def State.nefcCheck (s : State) : State :=
  if s.est.serial = s.reg (F.GCS_SERIAL_SERIAL.i 0).key then s
  else
    let s := { s with est := { s.est with serial := s.reg (F.GCS_SERIAL_SERIAL.i 0).key, cells := [] } }
    (s.wr F.EST_STATUS_NEFC_RESTORED 0).setNefc 2500000

/-- The gain g moves 1/64 of the way toward I_shunt / I_bc at a sweep with |I_shunt| at or above 1 A (R419). -/
def State.gainStep (s : State) : State :=
  let i := s.rdS F.PACK_MEAS_I_SHUNT
  let bc := s.chain.bcAt
  if 1000 ≤ i.natAbs ∧ bc ≠ 0 then
    let g : Int := s.rd F.EST_SHUNT_BC_GAIN
    s.wr F.EST_SHUNT_BC_GAIN (clampInt 0 (2 ^ 32 - 1) (g + (i * 65536 / bc - g) / 64)).toNat
  else s

/-- The first sweep after STANDBY counts as at rest (R425): 600 s in STANDBY, a tap current below 0.05 A, and every
thermistor (`before`: its last reading before STANDBY) within 2 °C. -/
def State.standbyRest (s : State) (before : Nat → List Int) : State :=
  match s.est.standbyAt with
  | none => s
  | some t =>
    if s.mode = 0 then s
    else
      let still := s.monUnits.all (fun u => ((s.therms u).zip (before u)).all (fun p =>
        decide ((p.1 - p.2).natAbs ≤ 20)))
      let rest := decide (t + 150000000000 ≤ s.now) && decide (s.est.tapMax < 50000) && still
      { s with est := { s.est with standbyAt := none, atRest := s.est.atRest || rest } }

/-- A complete sweep reaches the estimator (R418, R419, R425, R426). -/
def State.estSweep (s : State) (before : Nat → List Int) : State :=
  let s := (s.gainStep.restWatch).standbyRest before
  (if s.est.atRest then s.restReading else s).restShow

end Sys2Proof.Machine
end

