-- ==== Sys2Proof/Machine/PowerOps.lean ====
section
/-! DEFINITION. Changes of power mode, the stops, draw schedules and what the power path does at a step start (R22-R29,
R306-R325). -/

namespace Sys2Proof.Machine

/-! ### Modes (R25, R27, R315, R433) -/

/-- The entry into STANDBY is kept for the rest rule of R425. -/
def State.standbyMark (s : State) : State :=
  if s.mode = 0 then { s with est := { s.est with standbyAt := some s.now, tapMax := 0 } } else s

/-- LS4 is loaded with an output of 0, so that the trim starts from 0 (R310). -/
def State.trimZero (s : State) : State := if s.lsMode 4 = 1 then (s.lsLoad 4 0).lsPut 4 0 else s

/-- The mode changes: a rest window that the new mode does not carry is abandoned (R433), inhibits follow (R311), P_trim
is 0 outside draw control, and starts from 0 in GRID_RESPONSE (R310). -/
def State.changeMode (s : State) (m : Nat) (forced : Bool) : State :=
  if s.mode = m then s
  else
    let rest := s.on F.PWR_STATUS_REST
    let s := s.setMode m forced
    let s := if rest && !s.on F.PWR_STATUS_REST then s.restRecord 3 else s
    let s := if s.drawMode then s else s.wr F.PWR_SRC_TRIM 0
    let s := if m = 3 then s.trimZero else s
    ((s.inhibitCheck).standbyMark).restDefer

/-- The module passes to BUS_ONLY: the FC takes the load, the BC stops (R29, R322); `forced` when hardware is the cause
(R329). -/
def State.goBusOnly (s : State) (forced : Bool) : State := if s.drawMode then s.changeMode 1 forced else s

/-- BUS_ONLY by a fault or loss of the BC, the pack or the chain. (DESIGN CHOICE, log 51) -/
def State.toBusOnly (s : State) : State := s.goBusOnly true

/-- RIDE_THROUGH ends: event 0x1011, PWR_RT (R321). -/
def State.rtRecord (s : State) : State :=
  let ms := (s.now - s.power.rtSince) / 250000
  ((s.inc F.PWR_RT_COUNT).wrSat F.PWR_RT_LAST_MS ms).event 0x40 0x1011

/-! ### Stops (R325) -/

/-- The event of a stop goes to every open session (R325), also to one that does not ask for it. -/
def State.stopNotice (s : State) : State :=
  let r : Rec := ⟨0, true, mkW0 0 0 6 (severity (codeClass 0x1012) 0x1012) (codeClass 0x1012) 0x1012, s.timeWord, 0, 0⟩
  (s.sessions.map (·.1)).foldl (fun s n =>
    if (s.sess n).open_ && !(s.sess n).asks r then s.eventTo n r else s) s

/-- A stop goes on to its rails (R325, R358). -/
def State.stopRails (s : State) : State := ({ s with power := { s.power with stopPhase := 2 } }).railsStop

/-- The IB rises, or feeds rails that start, before the module has left STANDBY (R509). -/
def State.fcStarting (s : State) : Bool := s.rd F.FC_STATUS_STATE == 1 || s.rd F.FC_STATUS_STATE == 2

/-- An orderly or immediate stop begins: ORDERLY_STOP_BEGIN, IMMEDIATE_STOP (R325). During a stop's drain the cause of an
immediate stop ends the drain; CAUSE keeps the first. -/
def State.stopBegin (s : State) (cause : Nat) (immediate : Bool) : State :=
  if s.power.stopPhase = 0 then
    if s.mode = 0 ∧ s.fcStarting = false then s
    else
      let s := (s.stepsAbandon.recUnfreeze 2).fwAbandon
      let s := { s with power := { s.power with stopPhase := 1 } }
      let s := (s.wr F.PWR_STATUS_STOPPING 1).wr F.PWR_STOP_CAUSE cause
      let s := ((s.err 0x40 2).event 0x40 0x1012).stopNotice
      let s := (s.arbBoth).dumpCapture (s.rd F.RST_LAST_CAUSE) 0
      if immediate then s.stopRails else s
  else if immediate && s.power.stopPhase == 1 then s.stopRails
  else s

/-- The BC can no longer work: BUS_ONLY from draw control, an immediate stop with cause 6 from RIDE_THROUGH (R25, R29,
R323). -/
def State.bcLost (s : State) : State := if s.mode = 4 then s.stopBegin 6 true else s.toBusOnly

/-! ### Draw schedules (R313-R315) -/

/-- The entry in force becomes `n`: the latest whose time has passed, never an earlier one than is in force (R314,
R569). -/
def State.grEntry (s : State) (n : Nat) : State :=
  let cur := s.rd F.GR_STATUS_ENTRY
  s.wr F.GR_STATUS_ENTRY (if cur = 0xFF then n else max cur n)

/-- A schedule that is enabled and due takes the module from BUFFERED to GRID_RESPONSE (R314, R315). -/
def State.grEnter (s : State) : State :=
  if s.mode == 2 && s.on F.GR_CTRL_EN && s.grStarted then (s.grEntry s.grEntryNow).changeMode 3 false else s

/-- A schedule ends or is cancelled: EN clears, event 0x1031 with P0, and GRID_RESPONSE returns to BUFFERED (R314). -/
def State.grEnd (s : State) (cancel : Bool) : State :=
  let s := ((s.wr F.GR_CTRL_EN 0).wr F.GR_STATUS_ENTRY 0xFF).wr F.GR_STATUS_SUSPENDED 0
  let s := if cancel then s else s.wr F.GR_STATUS_DONE 1
  let s := s.event 0x43 0x1031 (b2n cancel)
  if s.mode = 3 then s.changeMode 2 false else s

/-- Entries 0 to m are VALID, T_MS rises strictly from 0, and entry m alone is LAST (R313). -/
def State.grWellFormed (s : State) : Bool :=
  let valid (n : Nat) : Bool := s.on (F.GR_ENTRY_VALID.i n)
  let last (n : Nat) : Bool := s.on (F.GR_ENTRY_LAST.i n)
  let t (n : Nat) : Nat := s.rd (F.GR_ENTRY_T_MS.i n)
  match firstWhere last (List.range 64) with
  | none => false
  | some m => (List.range (m + 1)).all valid && ((List.range 64).filter last).length == 1
      && t 0 == 0 && (List.range m).all (fun n => decide (t n < t (n + 1)))

/-! ### The step start (R318, R319, R380, R431) -/

/-- Consecutive counts of R319 for a step with measured energy `em` and estimate `ea`, nJ: FF_DIVERGE sets after DIV_N
diverged steps and clears after OK_N agreeing ones. -/
def State.divStep (s : State) (em ea : Int) : State :=
  let d := (ea - em).natAbs
  let dv := decide (max 1 (s.rd F.PWR_DIV_DIV_PCT) * em.natAbs < 100 * d)
  let ok := decide (100 * d ≤ max 1 (s.rd F.PWR_DIV_OK_PCT) * em.natAbs)
  let s := s.wrSat F.PWR_STATUS_DIV_STEPS (if dv then s.rd F.PWR_STATUS_DIV_STEPS + 1 else 0)
  let s := s.wrSat F.PWR_STATUS_OK_STEPS
    (if ok && s.on F.PWR_STATUS_FF_DIVERGE then s.rd F.PWR_STATUS_OK_STEPS + 1 else 0)
  if !s.on F.PWR_STATUS_FF_DIVERGE && decide (max 1 (s.rd F.PWR_DIV_DIV_N) ≤ s.rd F.PWR_STATUS_DIV_STEPS) then
    let prof := s.profOut
    let s := ((s.wr F.PWR_STATUS_FF_DIVERGE 1).pwrEvent F.PWR_EVENTS_FF_DIVERGE).err 0x40 1
    let s := (s.event 0x40 0x1005).ffCheck prof
    if s.on F.ATTR_CTRL_FIT_EN && s.rd F.ATTR_FIT_STATE != 1 then s.fitStart else s
  else if s.on F.PWR_STATUS_FF_DIVERGE && decide (max 1 (s.rd F.PWR_DIV_OK_N) ≤ s.rd F.PWR_STATUS_OK_STEPS) then
    let s := ((s.wr F.PWR_STATUS_FF_DIVERGE 0).wr F.PWR_STATUS_OK_STEPS 0).wr F.PWR_STATUS_DIV_STEPS 0
    (s.pwrEvent F.PWR_EVENTS_FF_RESTORED).event 0x40 0x1006
  else s

/-- DIVERGENCE_TEST (R319) for a step of `ticks`: in every mode but STANDBY, of a step of at least 1 ms. -/
def State.divTest (s : State) (ticks : Nat) : State :=
  if s.mode = 0 ∨ ticks < 250000 then s
  else
    let em := s.power.eStep
    let ea : Int := (s.stepPj / 1000 : Nat) + (s.rd F.ATTR_BASE_BASE_W * ticks * 4 : Nat)
    let s := (s.wrSat F.PWR_DIV_LAST_E_MEAS (em.toNat / 1000000)).wrSat F.PWR_DIV_LAST_E_ACT (ea.toNat / 1000000)
    s.divStep em ea

/-- What the power path, the budget, the estimator and the chain master do when a step of `ticks` has ended and the next
begins; the reconciliation is by the state of feed-forward in the step that ends (R379). Feed-forward that the test restores ramps in at the next step start (R319).
(DESIGN CHOICE, log 50) -/
def State.powerStepStart (s : State) (ticks : Nat) : State :=
  let diverged := s.on F.PWR_STATUS_FF_DIVERGE
  let s := s.reconcile.divTest ticks
  let s := s.fitCollect s.power.eStep (s.rd F.ATTR_BASE_BASE_W * ticks * 4 : Nat)
  let carry := s.power.ffCarry + (s.stepPj - s.power.ffPj0)
  let s := { s with power := { s.power with eStep := 0, ffCarry := carry, ffPj0 := 0 }
                    budget := { s.budget with actStep := [] } }
  let s := s.fitApply
  let s := (if diverged then s else s.ffStepStart).restOpen
  s.wr F.CHAIN_SWEEP_IN_STEP 0

end Sys2Proof.Machine
end

