-- ==== Sys2Proof/Machine/Marks.lean ====
section
/-! DEFINITION. Step starts and step marks: what every source of marks shares (R34-R46, R51-R58, R566). -/

namespace Sys2Proof.Machine

/-! ### The step start (R34, R432) -/

/-- A step start: the phase part, then what the power path does; a restart of R40 ends no step. The load samples between an
autonomous wrap and the late mark that restarts the step join neither step's bins.
(DESIGN CHOICE, log 17; DESIGN CHOICE, log 74) -/
def State.stepStart (s : State) (byMark late : Bool) (acc step : Nat) : State :=
  let ticks := s.phase.time - s.phase.startTime
  let bins := if late then s.phase.lastBins else s.phase.meas.map (·.1)
  let s := { s with phase := { s.phase with lastBins := bins, meas := [] } }
  let s := s.stepBegin byMark late acc step
  if late then s.ffStepStart.restOpen else s.powerStepStart ticks

/-- The step number of a start: `natural`, a pending PHASE_STEP_SET in its place, or the number that an adopted mark
carries, which counts a STEP_SLIP when it differs (R43). A pending PHASE_STEP_SET takes effect at the restart of R40 as well.
(DESIGN CHOICE, log 74) -/
def State.stepNumber (s : State) (natural : Nat) (carried : Option Nat) : State × Nat :=
  let n := (s.phase.pendStep.getD natural) % 2 ^ 32
  match carried with
  | some c =>
    if s.on F.PHASE_CTRL_STEP_ADOPT then (if c = n then (s, c) else (s.incSat F.PHASE_COUNTS2_STEP_SLIP, c)) else (s, n)
  | none => (s, n)

/-! ### Judging a mark (R36-R42, R566) -/

/-- A period within 1 ms to 600 s (R38). -/
def periodLegal (p : Nat) : Bool := decide (250000 ≤ p) && decide (p ≤ 150000000000)

/-- `p` lies within 2 % of `e`. -/
def within2 (p e : Nat) : Bool := decide (((p : Int) - (e : Int)).natAbs * 50 ≤ e)

/-- The step that ended is folded into the profile where R52 allows it: with its sums, whether the state was LOCKED
throughout, its period and the estimate after this mark. (DESIGN CHOICE, log 74) -/
def State.markFold (s : State) (sums : BinSums) (locked : Bool) (p : Option Nat) (estAfter : Nat) : State :=
  match p with
  | some p => if s.on F.PHASE_CTRL_PROF_LEARN && locked && within2 p (s.rd F.PHASE_PERIOD_EST_PERIOD) then
      s.profFold sums estAfter else s
  | none => s

/-- PHASE_PERIOD_EST after a mark that ends a step of period `p` in LOCKED (R39); the quarter of the difference is rounded
toward minus infinity. (DESIGN CHOICE, log 74) -/
def estNext (est p : Nat) : Nat := ((est : Int) + ((p : Int) - (est : Int)) / 4).toNat

/-- A run begins at this mark (R38). -/
def State.runBegin (s : State) : State :=
  ({ s with phase := { s.phase with run := [] } }).wr F.PHASE_STATUS_LOCK_COUNT 1

/-- The unit enters ACQUIRE at this mark, which begins a run (R35). -/
def State.toAcquire (s : State) : State := (s.setLock 1).runBegin

/-- The unit enters LOCKED from ACQUIRE with an estimate: a profile of another period is cleared (R38, R54). -/
def State.toLocked (s : State) (est : Nat) : State :=
  let pp := s.rd F.PROF_STATUS_PROF_PERIOD
  let s := s.wr F.PHASE_PERIOD_EST_PERIOD est
  let s := if pp ≠ 0 ∧ !within2 est pp then s.profClear else s
  s.setLock 2

/-- An accepted mark in ACQUIRE (R38); the mean of the three periods is rounded down to whole ticks.
(DESIGN CHOICE, log 74) -/
def State.acquireMark (s : State) (p : Option Nat) : State :=
  match p with
  | none => s.runBegin
  | some p =>
    if periodLegal p then
      let run := p :: s.phase.run
      let sum := run.foldl Nat.add 0
      if run.length < 3 then
        ({ s with phase := { s.phase with run := run } }).wr F.PHASE_STATUS_LOCK_COUNT (run.length + 1)
      else if run.all (fun x => decide ((((3 * x : Nat) : Int) - (sum : Int)).natAbs * 50 ≤ sum)) then
        (({ s with phase := { s.phase with run := run } }).wr F.PHASE_STATUS_LOCK_COUNT 4).toLocked (sum / 3)
      else s.runBegin
    else s.runBegin

/-- An accepted mark in LOCKED with period `p` (R39). (DESIGN CHOICE, log 17) -/
def State.lockedMark (s : State) (p : Option Nat) : State :=
  match p with
  | none => s
  | some p =>
    let est := s.rd F.PHASE_PERIOD_EST_PERIOD
    let off := if within2 p est then 0 else s.phase.offPeriods + 1
    let s := s.wr F.PHASE_PERIOD_EST_PERIOD (estNext est p)
    let s := { s with phase := { s.phase with offPeriods := off } }
    if 2 ≤ off then s.toAcquire else s

/-- The lock state at an accepted mark: `again` when it breaks the lock (R41) or REACQUIRE is pending (R35). -/
def State.markState (s : State) (again : Bool) (p : Option Nat) : State :=
  let st := s.lock
  if again || st == 0 then s.toAcquire
  else if st = 1 then s.acquireMark p
  else if st = 2 then s.lockedMark p
  else s.setLock 2

/-- The mark goes to the pod's other modules (R57, R270). -/
def State.markForward (s : State) (offsetNs : Nat) : State :=
  if s.on F.PHASE_CTRL_TSRC then
    let dests := (bitsOf (s.rd F.LINK_MARK_DEST_MASK)).filter (fun d => d != s.rd F.LINK_ID_MOD_INDEX)
    dests.foldl (fun s d =>
      (s.txnSend .A { s.txnOf .A 0x20 (d * 2 ^ 44) with
        aux := BitVec.ofNat 32 s.phase.step, h3 := BitVec.ofNat 64 (offsetNs % 2 ^ 32) } none).1) s
  else s

/-- An accepted mark of compensated time `tc`: late (R40) or ending the step; `again` as in `markState`. A measured period
outside 1 ms to 600 s is not taken as the period in use in ACQUIRE, and a mark that leaves LOCKED folds its step with the
estimate as it stands. (DESIGN CHOICE, log 17; DESIGN CHOICE, log 74) -/
def State.markAccept (s : State) (tc : Nat) (carried : Option Nat) (late again : Bool) : State :=
  let prof := s.profOut
  let p := s.phase.lastMark.map (fun t => tc - t)
  let s := if late then s else s.evtLate
  let sums := if late then s.phase.measPrev else s.phase.meas
  let locked := if late then s.phase.lockedPrev else s.phase.lockedAll
  let est := s.rd F.PHASE_PERIOD_EST_PERIOD
  let s := if s.lock = 2 then
      s.markFold sums locked p (match p with | some p => if again then est else estNext est p | none => est) else s
  let reacq := s.on F.PHASE_CTRL_REACQUIRE
  let s := s.wr F.PHASE_CTRL_REACQUIRE 0
  let s := s.markState again (if reacq then none else p)
  let keep := match p with | some p => if periodLegal p then some p else s.phase.lastPeriod | none => s.phase.lastPeriod
  let s := { s with phase := { s.phase with
    lastPeriod := if reacq then none else keep, lastMark := some tc, wraps := 0, measPrev := [], lockedPrev := false } }
  let s := (s.incSat F.PHASE_COUNTS_ACCEPTED).wr F.PHASE_LAST_MARK_TIME tc
  let n := s.stepNumber (if late then s.phase.step else s.phase.step + 1) carried
  let acc := min (2 ^ 64 - 1) ((s.now - tc) * s.phaseInc)
  let s := (n.1.stepStart true late acc n.2).stepOutPulse 2
  (s.markForward ((s.now - tc) * 4)).ffCheck prof

/-- The accumulator at an earlier instant of the present step (R566). -/
def State.accAt (s : State) (t : Nat) : Nat :=
  if s.now ≤ t then s.phase.acc
  else match s.phase.trace.find? (fun e => decide (e.1 ≤ t)) with
    | some e => min (2 ^ 64 - 1) (e.2.1 + (t - e.1) * e.2.2)
    | none => s.phase.startAcc

/-- A mark of the active source that passes R37 is judged at its compensated time (R40, R41). The off-window mark that breaks
the lock, and a second one in one step, count in OFFWIN as well. (DESIGN CHOICE, log 17; DESIGN CHOICE, log 74) -/
def State.markJudge (s : State) (tc : Nat) (carried : Option Nat) : State :=
  let angle := angleOf (s.accAt tc)
  let win := s.rd F.PHASE_WINDOW_WIN
  let late := s.phase.byWrap && decide (angle ≤ win)
  let reacq := s.on F.PHASE_CTRL_REACQUIRE
  let guard := s.phase.byMark && (decide (angle < s.rd F.PHASE_WINDOW_GUARD)
    || decide (tc - s.phase.startTime < 250000))
  if guard && !reacq then s.incSat F.PHASE_COUNTS_DUP
  else if reacq then s.markAccept tc carried late true
  else if decide (2 ≤ s.lock) && !late && decide (angle + win < 2 ^ 32) then
    let s := (s.incSat F.PHASE_COUNTS_OFFWIN).phaseEvent F.PHASE_EVENTS_OFFWIN
    if s.phase.offWin = 2 then
      ({ s with phase := { s.phase with offWin := 0 } }).markAccept tc carried false true
    else { s with phase := { s.phase with offWin := 1 } }
  else s.markAccept tc carried late false

/-- The delay in ns that R36 subtracts from a mark of a source. -/
def State.markDelay (s : State) (src : Nat) : Nat :=
  if src = 2 then s.rd F.PHASE_LINK_DELAY_DELAY else if src = 4 then s.rd F.PHASE_STEP_IO_PIN_DELAY else 0

/-- A mark of source `src` (1 LOCAL, 2 LINK, 3 HOST, 4 PIN) timestamped `ts`, from module `sender` where it came by a
link, with the step number it carries (R36, R37, R566). A delay that is no multiple of 4 ns is rounded down to whole ticks.
(DESIGN CHOICE, log 74) -/
def State.markIn (s : State) (src ts : Nat) (sender : Option Nat) (carried : Option Nat) : State :=
  if !s.srcEnabled src then s
  else if src == 2 && sender != some (s.rd F.PHASE_SRC_LINK_FROM) then s.incSat F.PHASE_COUNTS_DUP
  else
    let s := { s with phase := { s.phase with srcMarks := Sparse.set (fun _ => none) s.phase.srcMarks src (some s.now) } }
    let s := s.srcUpdate
    if s.rd F.PHASE_STATUS_ACTIVE_SRC ≠ src then s.incSat F.PHASE_COUNTS_DUP
    else s.markJudge (max s.phase.startTime (ts - s.markDelay src / 4)) carried

end Sys2Proof.Machine
end

