-- ==== Sys2Proof/Machine/WorkItems.lean ====
section
/-! DEFINITION. Work items at the head of their context (R203-R213), the scheduler's choice (R222), and the build of a
partition (R224-R226). -/

namespace Sys2Proof.Machine

/-! ### The head item -/

/-- The item at the head is read from the ring, unchecked (R229): its words, or poisoned, as one is taken that a memory test
keeps from being read. (DESIGN CHOICE, log 27) -/
def State.headRead (s : State) (c : Nat) : State × Option (List Nat) :=
  let x := s.ctx c
  let p := s.ringSlot c x.head
  let r := if s.ringShut c x.head then (s, Res.err) else s.hbmRead p.1 p.2 64 .clean
  (r.1, if !r.2.ok || r.2.poison then none else some (toWords 8 64 r.2.data))

def wd (w : List Nat) (i : Nat) : Nat := w.getD i 0

/-- The item faults (R213). -/
def State.itemFault (s : State) (c code : Nat) : State :=
  let x := s.ctx c
  (if code = 7 then s.err 0x20 1 else s).ctxFault c x.gen 1 code 0 x.head

/-- The item leaves the head; `out` says whether it is then outstanding, with the tiles it runs on (R206). -/
def State.headLeave (s : State) (c : Nat) (out : Option (List Nat)) (w : List Nat) : State :=
  let x := s.ctx c
  let o := match out with
    | none => x.outstanding
    | some t => x.outstanding ++ [⟨x.head, w, t⟩]
  let s := s.setCtx c { x with head := (x.head + 1) % 2 ^ 17, wait := none, epoch := none, outstanding := o }
  s.inc (F.SCHED_DISPATCHED_COUNT.pg (frondPg (s.partFrond x.part) 0x106))

/-- The item blocks the head with a WAIT_KIND; one that blocked it already keeps its start. -/
def State.headBlock (s : State) (c kind : Nat) (past : Bool) : State :=
  s.updCtx c (fun x => match x.wait with
    | some w => { x with wait := some { w with kind := kind } }
    | none => { x with wait := some ⟨kind, s.now, (s.copyOf (s.partFrond x.part)).mark, past⟩ })

/-! ### LAUNCH (R207, R111) -/

/-- The logical tiles that a LAUNCH names. -/
def launchTiles (w : List Nat) : List Nat :=
  (bitsOf (wd w 2)) ++ (bitsOf (wd w 3)).map (· + 64)

/-- Tile-window address of ENTRY on a logical tile. -/
def entryAddr (f : Frond) (t entry : Nat) : Nat := 0xC0000000000 + f.idx * 0x100000000 + t * 0x1000000 + entry

/-- The fault of a LAUNCH, if any: 2 LAUNCH_BAD, 3 TILE_FENCED, 4 PROT (R207, R229). (DESIGN CHOICE, log 34) -/
def State.launchFault (s : State) (c : Nat) (w : List Nat) : Option Nat :=
  let x := s.ctx c
  let f := s.partFrond x.part
  let ts := launchTiles w
  let entry := wd w 0 / 256 % 2 ^ 24
  if ts = [] || ts.any (fun t => !(s.partTiles x.part).contains t) || entry % 16 != 0 || decide (0x3FFFF0 < entry)
  then some 2
  else if ts.any (fun t => match s.physOf f t with | none => true | some p => s.tileOut f p) then some 3
  else if ts.any (fun t => !s.domMay (s.ctxDom c) rightX (s.globalOf (entryAddr f t entry)) 16) then some 4
  else none

/-- Every named tile is IDLE, and none is reserved for another LAUNCH. -/
def State.launchReady (s : State) (c : Nat) (w : List Nat) : Bool :=
  let f := s.partFrond (s.ctx c).part
  let taken := match s.reserveHolder f with
    | none => []
    | some h => if h = c then [] else launchTiles (s.headPeek h)
  (launchTiles w).all (fun t => !taken.contains t &&
    (match s.physOf f t with | none => false | some p => s.seqState f p == 0))

/-- A program starts on a tile (R111). -/
def State.tileLaunch (s : State) (f : Frond) (c gen : Nat) (w : List Nat) (p : Nat) : State :=
  let s := s.updTile f p (fun u => { u with
    sregs := [(1, wd w 4), (2, wd w 5), (3, wd w 6), (4, wd w 7)].filter (fun e => e.2 != 0),
    aregs := [], loops := [], queues := [], fly := [], pwait := none, stopping := false, wtTaken := false })
  let s := (s.wr (tf F.TSEQ_STATUS_PC f p) (wd w 0 / 256 % 2 ^ 24)).wr (tf F.TSEQ_STATUS_CTX f p) c
  let s := (s.wr (tf F.TSEQ_STATUS_CTX_GEN f p) gen).wr (tf F.TSEQ_STATUS_LOOP_DEPTH f p) 0
  let s := (s.wr (tf F.TSEQ_STATUS_STATE f p) 1).wr (tf F.TSEQ_TAG_CTX f p) c
  let s := s.setReg (tf F.TSEQ_FAULT_CODE f p).key 0
  (s.setReg (tf F.TSEQ_FAULT_OP0_OP_LO f p).key 0).setReg (tf F.TSEQ_FAULT_OP1_OP_HI f p).key 0

/-- The programs of a LAUNCH start, all in the same tile cycle (R207). -/
def State.launchGo (s : State) (c : Nat) (w : List Nat) : State :=
  let x := s.ctx c
  let f := s.partFrond x.part
  let ps := (launchTiles w).filterMap (s.physOf f)
  let s := ps.foldl (fun s p => s.tileLaunch f c x.gen w p) s
  s.headLeave c (some ps) w

def State.itemLaunch (s : State) (c : Nat) (w : List Nat) : State :=
  if wd w 0 / 2 ^ 56 != 0 || !signalGood (wd w 1) then s.itemFault c 1
  else
    match s.launchFault c w with
    | some code => s.itemFault c code
    | none => if s.launchReady c w then s.launchGo c w else s.headBlock c 6 false

/-! ### The other kinds -/

/-- Reserved bits of a header outside LAUNCH and SIGNAL, and ENTRY outside LAUNCH (R204); MODE at most `modes`. -/
def headerBad (w : List Nat) (modes : Nat) : Bool :=
  wd w 0 / 2 ^ 58 != 0 || wd w 0 / 256 % 2 ^ 24 != 0 || decide (modes < wd w 0 / 2 ^ 56 % 4)

/-- Words from `i` on are all 0. -/
def restZero (w : List Nat) (i : Nat) : Bool := (w.drop i).all (· == 0)

/-- WAIT is met (R208). -/
def State.waitMet (s : State) (w : List Nat) : Bool := reached (s.counter (wd w 2 % 2 ^ 17)) (wd w 3 % 2 ^ 32)

/-- WAIT_KIND that blocks the head; 0 when nothing does. (DESIGN CHOICE, log 34) -/
def State.blockKind (s : State) (c : Nat) : Nat :=
  match (s.ctx c).wait with
  | some w => w.kind
  | none => 0

/-- The head item of a live context is of one kind, and its MODE of one of the given ones. -/
def State.headIs (s : State) (c kind : Nat) (modes : List Nat) : Bool :=
  let w := s.headPeek c
  s.headLive c && itemKind w == kind && modes.contains (wd w 0 / 2 ^ 56 % 4)

/-- A WAIT with DEC on the same counter was dispatched before this one, which has DEC too, and is met: it is tested first
(R208). A head that is not blocked yet comes after all that are. -/
def State.waitBehind (s : State) (c : Nat) : Bool :=
  let w := s.headPeek c
  let since : Nat := match (s.ctx c).wait with | some w => w.since | none => s.now + 1
  bitOf (wd w 0) 56 && s.ctxIds.any (fun d => d != c && s.headIs d 0x81 [1] && s.blockKind d == 1
    && wd (s.headPeek d) 2 == wd w 2 && s.waitMet (s.headPeek d)
    && (match (s.ctx d).wait with | some x => decide (x.since < since) | none => false))

/-- WAIT (R208). -/
def State.itemWait (s : State) (c : Nat) (w : List Nat) : State :=
  let n := wd w 2
  if headerBad w 1 || wd w 1 != 0 || decide (2 ^ 17 ≤ n) || !restZero w 4 then s.itemFault c 1
  else if !s.domMay (s.ctxDom c) rightR (s.globalOf (0xE0000000000 + 8 * n)) 8 then s.itemFault c 4
  else if s.waitMet w && !s.waitBehind c then
    let s := if bitOf (wd w 0) 56 then s.counterSet n (s.counter n + 2 ^ 32 - wd w 3 % 2 ^ 32) else s
    s.headLeave c none w
  else s.headBlock c 1 false

/-- The add of a SIGNAL item is made through the domain, or the item faults with PROT (R209); a remote add is complete
when acknowledged. (DESIGN CHOICE, log 34) -/
def State.itemAdd (s : State) (c : Nat) (w : List Nat) : State :=
  if wd w 1 / 2 ^ 30 % 4 != 0 && !s.domMay (s.ctxDom c) rightW (s.signalAddr (wd w 1)) 8 then s.itemFault c 4
  else
    let x := s.ctx c
    let r := s.signalAdd (s.partFrond x.part) (.item c x.head) (wd w 1)
    if r.2 = 0 then r.1.headLeave c (if s.signalRemote (wd w 1) && wd w 1 / 2 ^ 30 % 4 != 0 then some [] else none) w
    else if r.2 = 9 then r.1.sysFault c 0x20 else r.1.itemFault c 4

/-- Free slots of CTX_PROD, lowest first. -/
def Ctx.freeSlots (x : Ctx) : List Nat := (List.range 8).filter (fun n => Sparse.get (fun _ => 0) x.prods n == 0)

/-- The producer record of a counter: VALID and its number. -/
def prodWord (n : Nat) : Nat := 2 ^ 17 + n

/-- (DESIGN CHOICE, log 34) -/
def State.itemRegister (s : State) (c : Nat) (w : List Nat) : State :=
  let x := s.ctx c
  let n := wd w 1 % 2 ^ 17
  if wd w 1 / 2 ^ 30 % 4 != 1 || s.signalRemote (wd w 1) then s.itemFault c 1
  else if x.prods.any (fun e => e.2 == prodWord n) then s.headLeave c none w
  else
    match x.freeSlots with
    | [] => s.itemFault c 6
    | k :: _ =>
      (s.setCtx c { x with prods := Sparse.set (fun _ => 0) x.prods k (prodWord n) }).headLeave c none w

def State.itemUnregister (s : State) (c : Nat) (w : List Nat) : State :=
  let n := wd w 1 % 2 ^ 17
  if wd w 1 / 2 ^ 30 % 4 != 1 || s.signalRemote (wd w 1) then s.itemFault c 1
  else (s.updCtx c (fun x => { x with prods := x.prods.filter (fun e => e.2 != prodWord n) })).headLeave c none w

/-- Every earlier item of the context has completed. -/
def State.allDone (s : State) (c : Nat) : Bool := (s.ctx c).outstanding = []

/-- (DESIGN CHOICE, log 34) -/
def State.itemSignal (s : State) (c : Nat) (w : List Nat) : State :=
  if headerBad w 3 || !signalGood (wd w 1) || !restZero w 2 then s.itemFault c 1
  else
    match wd w 0 / 2 ^ 56 % 4 with
    | 0 => s.itemAdd c w
    | 1 => if s.allDone c then s.itemAdd c w else s.headBlock c (if wd w 1 / 2 ^ 30 % 4 = 1 then 1 else 4) false
    | 2 => s.itemRegister c w
    | _ => s.itemUnregister c w

def State.itemFence (s : State) (c : Nat) (w : List Nat) : State :=
  if headerBad w 1 || !restZero w 1 then s.itemFault c 1
  else if wd w 0 / 2 ^ 56 % 4 = 0 then if s.allDone c then s.headLeave c none w else s.headBlock c 4 false
  else
    let e := (s.ctx c).epoch.getD (s.rd F.PROT_EPOCH_STATUS_EPOCH)
    if !s.on F.PROT_EPOCH_STATUS_PENDING || e != s.rd F.PROT_EPOCH_STATUS_EPOCH then s.headLeave c none w
    else (s.updCtx c (fun x => { x with epoch := some e })).headBlock c 5 false

def State.itemMark (s : State) (c : Nat) (w : List Nat) : State :=
  if headerBad w 1 || !restZero w 1 then s.itemFault c 1
  else if bitOf (wd w 0) 56 && !s.allDone c then s.headBlock c 4 false
  else (s.headLeave c none w).markIn 1 s.now none none

/-- PHASE_WAIT is met (R212): in a given step, or the first time the phase reaches ANGLE after the head; `w0` is what was
noted when the item reached the head, none when it does so now. -/
def State.phaseMet (s : State) (f : Frond) (useStep : Bool) (step angle : Nat) (w0 : Option HeadWait) : Bool :=
  let k := s.copyOf f
  let at_ := decide (angle ≤ angleOf k.acc)
  k.valid && (if useStep then
      let d := bitsInt 32 ((k.step + 2 ^ 32 - step) % 2 ^ 32)
      decide (0 < d) || (d == 0 && at_)
    else match w0 with
      | none => false
      | some w => at_ && (!w.past || w.step != k.mark))

def State.itemPhaseWait (s : State) (c : Nat) (w : List Nat) : State :=
  if headerBad w 1 || wd w 1 != 0 || wd w 3 % 2 ^ 32 != 0 || !restZero w 4 then s.itemFault c 1
  else
    let x := s.ctx c
    let f := s.partFrond x.part
    let angle := wd w 2 % 2 ^ 32
    if s.phaseMet f (bitOf (wd w 0) 56) (wd w 2 / 2 ^ 32) angle x.wait then s.headLeave c none w
    else s.headBlock c 3 (decide (angle ≤ angleOf (s.copyOf f).acc))

/-- An ENGINE item: its descriptor goes to an engine queue, or waits for room, or fails with NO_ENGINE (R170). -/
def State.itemEngine (s : State) (c : Nat) (w : List Nat) : State :=
  let x := s.ctx c
  let f := s.partFrond x.part
  let d : Desc := ⟨w, c, x.gen, x.head⟩
  match s.engPick x.part (wd w 0) with
  | some n =>
    if (s.eng f n).queue.length < 4 then (s.headLeave c (some []) w).engPush f n d else s.headBlock c 7 false
  | none =>
    let s := s.headLeave c none w
    let may := wd w 1 / 2 ^ 30 % 4 = 0 || s.domMay (s.ctxDom c) rightW (s.signalAddr (wd w 1)) 8
    let s := if bitOf (wd w 0) 17 && signalGood (wd w 1) && may then (s.signalAdd f .signal (wd w 1)).1 else s
    s.ctxFault c d.gen 3 0x0C (wd w 0 / 2 ^ 24 % 256) d.item

/-- The item's accesses are held by an epoch fence of its domain (R231): items with a target or an entry.
(DESIGN CHOICE, log 36) -/
def State.itemHeld (s : State) (c : Nat) (w : List Nat) : Bool :=
  s.heldDom (s.ctxDom c) && (itemKind w == 0x80 || itemKind w == 0x81 || itemKind w == 0x82)

/-- The head item of context `c` is taken, or tried again when it blocks the head. -/
def State.itemTry (s : State) (c : Nat) : State :=
  let r := s.headRead c
  let s := r.1
  match r.2 with
  | none => s.itemFault c 7
  | some w =>
    if s.itemHeld c w then s
    else
      match itemKind w with
      | 0x80 => s.itemLaunch c w
      | 0x81 => s.itemWait c w
      | 0x82 => s.itemSignal c w
      | 0x83 => s.itemFence c w
      | 0x84 => s.itemMark c w
      | 0x85 => s.itemPhaseWait c w
      | k => if 1 ≤ k ∧ k ≤ 8 then s.itemEngine c w else s.itemFault c 1

/-! ### The scheduler (R222) -/

/-- The context is READY and its head can be dispatched now. -/
def State.canGo (s : State) (c : Nat) : Bool :=
  s.headLive c && (match s.blockKind c with
    | 0 => true
    | 6 => let w := s.headPeek c; s.launchReady c w || (s.launchFault c w).isSome
    | 7 => (match s.engPick (s.ctx c).part (wd (s.headPeek c) 0) with
        | some n => decide ((s.eng (s.partFrond (s.ctx c).part) n).queue.length < 4)
        | none => true)
    | _ => false)

/-- The contexts of a frond and level whose head can be dispatched. -/
def State.levelReady (s : State) (f : Frond) (l : Nat) : List Nat :=
  s.ctxIds.filter (fun c => (s.ctx c).prio == l && s.partFrond (s.ctx c).part == f && s.canGo c)

/-- The context that a level serves next: the one in turn while its weight lasts, else the next by number, wrapping.
(DESIGN CHOICE, log 35) -/
def State.levelPick (s : State) (f : Frond) (l : Nat) : Option Nat :=
  let cs := s.levelReady f l
  let t := Sparse.get (fun _ => (0, 0)) s.work.turn (f.idx * 8 + l)
  if cs.contains t.1 && decide (t.2 < max 1 (s.ctx t.1).weight) then some t.1
  else
    match cs.filter (fun c => decide (t.1 < c)) with
    | c :: _ => some c
    | [] => cs.head?

/-- The turn of a level after context `c` was served: a context that blocks ends its turn. (DESIGN CHOICE, log 35) -/
def State.turnTake (s : State) (f : Frond) (l c : Nat) : State :=
  let t := Sparse.get (fun _ => (0, 0)) s.work.turn (f.idx * 8 + l)
  let n := if s.blockKind c != 0 then 255 else if t.1 = c && decide (t.2 < max 1 (s.ctx c).weight) then t.2 + 1 else 1
  { s with work := { s.work with turn := Sparse.set (fun _ => (0, 0)) s.work.turn (f.idx * 8 + l) (c, n) } }

/-- The priority level that a frond's dispatcher serves next: the highest with a head that can be dispatched (R222). -/
def State.topLevel (s : State) (f : Frond) : Option Nat := [7, 6, 5, 4, 3, 2, 1, 0].find? (fun l => s.levelReady f l != [])

/-- The context that a frond's dispatcher serves next (R222). -/
def State.pick (s : State) (f : Frond) : Option Nat :=
  match s.topLevel f with
  | none => none
  | some l => s.levelPick f l

/-- The head item of a context is taken, as one decision of its frond's dispatcher. -/
def State.serve (s : State) (f : Frond) (c : Nat) : State := (s.itemTry c).turnTake f (s.ctx c).prio c

/-- One dispatch decision of a frond (R222). -/
def State.dispatch (s : State) (f : Frond) : State :=
  match s.pick f with
  | none => s
  | some c => s.serve f c

/-- The head item of a context acts: one that has not been taken, or that waits for room in an engine queue, when the
dispatcher's choice falls on its context (R222); one that blocks its head is tested again at any time. -/
def State.itemServe (s : State) (c : Nat) : State :=
  let f := s.partFrond (s.ctx c).part
  if s.blockKind c == 0 || s.blockKind c == 7 then (if s.pick f == some c then s.serve f c else s) else s.itemTry c

/-! ### Partitions (R99, R224-R226) -/

/-- The sensor of some array of the tile lies beyond the threshold from its CAL_TEMP (R88, R99). -/
def State.tileDrifted (s : State) (f : Frond) (p : Nat) : Bool :=
  (List.range 5).any (fun a => s.rd ((tf F.ARR_STATUS_ARR_STATE f p).i a) != 2 &&
    decide (s.rd (F.ACAL_TEMP_TRIG_THRESH.pg (frondPg f 0x101)) <
      (s.rdS ((tf F.ARR_STATUS_TEMP f p).i a) - s.rdS ((tf F.ARR_STATUS_CAL_TEMP f p).i a)).natAbs))

/-- Logical tile `t`, whose physical tile is fenced (or has returned as a spare since), takes the lowest spare or becomes
unmapped (R99). -/
def State.remapTile (s : State) (f : Frond) (t : Nat) : State :=
  match s.physOf f t with
  | none => s
  | some old =>
    if !s.tileOut f old then s
    else
      let s := s.wr (tf F.TILE_STATUS_LOGICAL f old) 0xFF
      match (List.range 132).find? (fun p => s.tileState f p == 3) with
      | none => s.wr (mapField F.TMAP_ENTRY_VALID f t) 0
      | some p =>
        let s := (s.wr (mapField F.TMAP_ENTRY_PHYS f t) p).wr (tf F.TILE_STATUS_LOGICAL f p) t
        if s.tileDrifted f p then
          (s.updTile f p (fun u => { u with recal := true })).tileCalBegin f p
        else (s.storeZero f p).wr (tf F.TILE_STATUS_STATE f p) 2

/-- Fenced tiles of the partition are remapped. (DESIGN CHOICE, log 26) -/
def State.remap (s : State) (p : Nat) : State :=
  ((s.partTiles p).foldl (fun s t => s.remapTile (s.partFrond p) t) s).mapSync (s.partFrond p)

/-- A spare of the partition awaits its calibration. -/
def State.partRecal (s : State) (p : Nat) : Bool :=
  (s.partPhys p).any (fun t => (s.tile (s.partFrond p) t).recal)

/-- A tile of the partition starts afresh: counters cleared, stores zeroed under another domain (R139, R111). -/
def State.partTile (s : State) (p t : Nat) : State :=
  let f := s.partFrond p
  let d := s.partDomain p
  let other := match (s.tile f t).lastDom with | none => false | some x => x != d
  ((if other then s.storeZero f t else s).tcClear f t).updTile f t (fun u => { u with lastDom := some d })

/-- Steps 3 to 5 of a build (R224): counters and stores, engines, GEN and BUILT. An engine that serves another partition by
now is not taken. -/
def State.partFinish (s : State) (p : Nat) : State :=
  let f := s.partFrond p
  let s := (s.partPhys p).foldl (fun s t => s.partTile p t) s
  let free := fun n => decide (n < 44) && s.rd (ef F.ENG_STATUS_STATE f n) != 2
    && (!s.on (ef F.ENG_STATUS_PART_VALID f n) || s.rd (ef F.ENG_STATUS_PART f n) == p)
  let s := ((bitsOf (s.rd (F.PART_ENG_MASK.i p))).filter free).foldl
    (fun s n => (s.wr (ef F.ENG_STATUS_PART f n) p).wr (ef F.ENG_STATUS_PART_VALID f n) 1) s
  let s := { s with work := { s.work with building := Sparse.erase s.work.building p } }
  ((s.inc (F.PART_STATUS_GEN.i p)).wr (F.PART_STATUS_STATE.i p) 2).wr (F.PART_STATUS_FAIL.i p) 0

/-- A build or rebuild fails: FAIL, BUILD_FAIL; the partition takes state `st`. (DESIGN CHOICE, log 35) -/
def State.partFail (s : State) (p code st : Nat) : State :=
  let s := { s with work := { s.work with building := Sparse.erase s.work.building p } }
  ((s.wr (F.PART_STATUS_FAIL.i p) code).wr (F.PART_STATUS_STATE.i p) st).err 0x22 0

/-- Steps 2 to 5 of a build; it waits for a spare's calibration, for an epoch fence that changed its domain, or for a
context reset; `back` is the state after a failure (R224, R225, R232, R468). -/
def State.partSteps (s : State) (p back : Nat) : State :=
  let s := s.remap p
  if (s.partTiles p).any (fun t => (s.physOf (s.partFrond p) t).isNone) then s.partFail p 6 back
  else if s.partRecal p || s.heldDom (s.partDomain p) || (s.partCtxs p).any (fun c => (s.ctx c).resetting) then
    if Sparse.get (fun _ => 0) s.work.building p != 0 then s
    else { s with work := { s.work with building := Sparse.set (fun _ => 0) s.work.building p (s.now + 1) } }
  else s.partFinish p

/-- A build that waits goes through its steps again: a tile fenced meanwhile is remapped. -/
def State.partAgain (s : State) (p : Nat) : State := s.partSteps p (if s.partState p = 1 then 0 else 2)

/-- The check of a definition: the first failing one, in the order of FAIL's codes (R224). (DESIGN CHOICE, log 35) -/
def State.partCheck (s : State) (p : Nat) : Option Nat :=
  let f := s.partFrond p
  let w := s.rd (F.PART_CFG_WIDTH.i p)
  let h := s.rd (F.PART_CFG_HEIGHT.i p)
  let mask := bitsOf (s.rd (F.PART_ENG_MASK.i p))
  let d := s.partDomain p
  if 16 < s.rd (F.PART_CFG_COL0.i p) + w ∨ 8 < s.rd (F.PART_CFG_ROW0.i p) + h ∨ (w = 0 ∧ h ≠ 0) ∨ (w ≠ 0 ∧ h = 0)
  then some 1
  else if w = 0 ∧ mask = [] then some 2
  else if (s.partTiles p).any (fun t => (s.partOfTile f t).isSome) then some 3
  else if mask.any (fun n => s.on (ef F.ENG_STATUS_PART_VALID f n) || s.rd (ef F.ENG_STATUS_STATE f n) == 2) then some 4
  else if d = 0 ∨ !(s.dom d).active.enable then some 5
  else if s.frondFenced f.idx then (if w = 0 then some 4 else some 6)
  else none

/-- Engines of a partition return to idle in no partition. -/
def State.partRelease (s : State) (p : Nat) : State :=
  (s.partEngs p).foldl (fun s n => s.wr (ef F.ENG_STATUS_PART_VALID (s.partFrond p) n) 0) s

/-- Builds that wait go on once nothing holds them. -/
def State.buildRetry (s : State) : State := s.work.building.foldl (fun s e => s.partAgain e.1) s

end Sys2Proof.Machine
end

