-- ==== Sys2Proof/Machine/LinkRemote.lean ====
section
/-! DEFINITION. Remote operations over the links: a core's remote accesses, requests that arrive, and responses (R252-R262,
R270, R271). -/

namespace Sys2Proof.Machine

/-! ### Requests of a control core (R252) -/

/-- LINK_CORE_ERR records a failed store and raises its line (R257, R482). (DEDUCED, log 31) -/
def State.coreErr (s : State) (f : Frond) (core cause g : Nat) : State :=
  let s := (s.wr (lf F.LINK_CORE_ERR_VALID f) 1).wr (lf F.LINK_CORE_ERR_CORE f) core
  let s := (s.wr (lf F.LINK_CORE_ERR_CAUSE f) cause).wr (lf F.LINK_CORE_ERR_ADDR f) g
  s.irqRaw (.fic f) 24 true

/-- A requester learns that its transaction found no route (R250): an access fault, or FAIL of a ping. -/
def State.askFail (s : State) (user : LinkUser) : State :=
  match user with
  | .core _ => s.answer Res.err
  | .ping => s.wr F.LINK_PING_FAIL 1
  | _ => s

/-- A transaction that expects a response leaves, or waits at its source for a tracker entry (R259). -/
def State.ask (s : State) (f : Frond) (user : LinkUser) (t : Txn) (g : Nat) : State :=
  let r := s.askOpen f user t g
  match r.2 with
  | none => s.stall ⟨f, user, t, g, false⟩
  | some true => r.1
  | some false => r.1.askFail user

/-- A core's transaction that expects a response: an access fault at once without a route (R250). -/
def State.coreAsk (s : State) (f : Frond) (core : Nat) (t : Txn) (g : Nat) : State := s.ask f (.core core) t g

/-- A core's remote store. -/
def State.corePost (s : State) (f : Frond) (core : Nat) (d : List Nat) (g : Nat) : State :=
  let r := s.post f (.core core) (s.writeTxn f 0x02 g 0 0 d 0) g
  if r.2 then r.1 else r.1.coreErr f core 2 g

/-- Bytes from a global address lie in one 4 KB page. -/
def inPage (g n : Nat) : Bool := decide (1 ≤ n) && decide (g % 4096 + n ≤ 4096)

/-- The new value of an atomic operation on `n` bytes (R256). (DESIGN CHOICE, log 39) -/
def aopValue (aop n old operand new : Nat) : Nat :=
  let w := 8 * n
  let x := operand % 2 ^ w
  let sx := bitsInt w x
  let so := bitsInt w old
  match aop with
  | 0 => (old + x) % 2 ^ w
  | 1 => old &&& x
  | 2 => old ||| x
  | 3 => old ^^^ x
  | 4 => x
  | 5 => if old = x then new % 2 ^ w else old
  | 6 => if so < sx then x else old
  | 7 => if sx < so then x else old
  | 8 => max old x
  | 9 => min old x
  | _ => (fp32Add 0 old x).1

/-- A little-endian number from bytes. -/
def ofBytes (l : List Nat) : Nat := l.foldr (fun b a => b + 256 * a) 0

/-- The location is HBM or a tile store (R256). -/
def State.atomicPlace (s : State) (frm : Option Nat) (a : Nat) : Bool :=
  match s.placeOf frm a with
  | .hbm _ _ => true
  | .store _ _ _ => true
  | _ => false

/-- An atomic operation on `n` bytes at a local address, by a source of SUB_LAST_REJECT's numbering: the old value. -/
def State.atomicDo (s : State) (frm : Option Nat) (src a n aop operand new : Nat) : State × Res :=
  let r := (s.countBytes a n 2 none).rdMem frm a n
  let w := r.1.wrMem frm src a (leBytes n (aopValue aop n (ofBytes r.2.data) operand new)) false
  (w.1, ⟨true, r.2.poison, leBytes n (ofBytes r.2.data)⟩)

/-- An AMO of a control core on this module's own address is served here (R246, R252). -/
def State.amoHere (s : State) (f : Frond) (a n aop operand new : Nat) : State :=
  if decide (10 < aop) || (aop == 10 && n == 8) || !s.atomicPlace (some f.idx) a then s.answer Res.err
  else
    let r := s.atomicDo (some f.idx) 0 a n aop operand new
    r.1.answer r.2

/-- CORE_REMOTE_ACCESS (R246, R252): an address of this module is served here; LR, SC and an access that crosses a page are
an access fault. (DESIGN CHOICE, log 32; DESIGN CHOICE, log 39) -/
def execCoreRemoteAccess (f : Frond) (core : Fin 8) (addr : BitVec 50) (op : RemoteOp) (s : State) :
    Host.Outcome State Fault Refusal :=
  let g := addr.toNat
  let here := g / 2 ^ 44 == s.modIdx
  let a := g % 2 ^ 44
  .next (
    match op with
    | .load n =>
      if !inPage g n.toNat then s.answer Res.err
      else if here then s.access (readOf (.core f core) a n.toNat .clean)
      else s.coreAsk f core.val { s.txnOf f 0x01 g with len := n.setWidth 13 } g
    | .store d =>
      if !inPage g d.length then s.answer Res.err
      else if here then s.access (writeOf (.core f core) a (d.map BitVec.toNat) false)
      else s.corePost f core.val (d.map BitVec.toNat) g
    | .amo wide aop operand new =>
      let n := if wide then 8 else 4
      if g % n != 0 then s.answer Res.err
      else if here then s.amoHere f a n aop.toNat operand.toNat new.toNat
      else s.coreAsk f core.val { s.txnOf f 0x03 g with
        aop := aop, h3 := operand, len := BitVec.ofNat 13 n,
        data := if aop = 5 then (leBytes n new.toNat).map (BitVec.ofNat 8) else [] } g
    | .reserve => s.answer Res.err)

/-! ### Requests that arrive (R254-R258) -/

/-- The STATUS with which a request of a source module to a local address fails before it acts: 1 ADMIT, with
ADMIT_REJECT; 2 ACCESS where it crosses a 4 KB boundary (R254, R257). (DESIGN CHOICE, log 39) -/
def State.reqStatus (s : State) (t : Txn) (n : Nat) : Nat :=
  if !s.admits t.src.toNat t.addr.toNat then 1 else if !inPage t.addr.toNat n then 2 else 0

/-- A request that arrives: one that has aged is discarded (R262); a refused one is answered with its STATUS by `resp`; an
admitted one acts by `act`. -/
def State.request (s : State) (port : Nat) (t : Txn) (n resp : Nat) (act : State → State) : State :=
  if t.dest.toNat != s.modIdx || !s.portUp port then s
  else if s.aged t then s.agedDrop (portFrond port)
  else
    match s.reqStatus t n with
    | 0 => act s
    | st => (if st = 1 then s.err 0x28 1 else s).respond port t resp st 0 [] 0

/-- Local bytes read block by block: done, the poison map, the bytes. -/
def State.rdBlocks (s : State) (frm : Option Nat) : List (Nat × Nat) → Nat → Bool × Nat × List Nat → State × (Bool × Nat × List Nat)
  | [], _, acc => (s, acc)
  | p :: l, b, acc =>
    let r := s.rdMem frm p.1 p.2
    let s := r.1.countBytes p.1 p.2 1 none
    if r.2.ok then State.rdBlocks s frm l (b + 1) (true, (if r.2.poison then setBitN acc.2.1 b else acc.2.1), acc.2.2 ++ r.2.data)
    else (s, (false, 0, []))

/-- READ (R254, R257, R258). (DESIGN CHOICE, log 39) -/
def execRead (port : Fin 24) (t : Txn) (s : State) : Host.Outcome State Fault Refusal :=
  let n := t.len.toNat
  .next (s.request port.val t n 0x10 (fun s =>
    let r := s.rdBlocks (portFrm port.val) (spans 64 (n + 1) t.addr.toNat n) 0 (true, 0, [])
    if r.2.1 then r.1.respond port.val t 0x10 0 0 r.2.2.2 r.2.2.1 else r.1.respond port.val t 0x10 2 0 [] 0))

/-- The poison of the 64-byte block of a transaction's data that an address lies in. -/
def blockOf (base map a : Nat) : Bool := bitOf map (a / 64 - base / 64)

/-- A write to the submission window is answered by the port's acceptance or rejection (R215, R257). -/
def State.remoteSubmit (s : State) (port : Nat) (t : Txn) (d : List Nat) : State :=
  let c := (t.addr.toNat - 0xE1000000000) / 64
  if t.addr.toNat % 64 = 0 ∧ d.length = 64 then
    let r := s.submit c 3 [d]
    match r.2 with
    | none => r.1.respond port t 0x12 0 0 [] 0
    | some k => r.1.respond port t 0x12 3 k [] 0
  else (s.subReject c 3 1).respond port t 0x12 3 1 [] 0

/-- WRITE (R254, R255, R257, R258). -/
def execWrite (port : Fin 24) (t : Txn) (s : State) : Host.Outcome State Fault Refusal :=
  let d := t.data.map BitVec.toNat
  let a := t.addr.toNat
  .next (s.request port.val t d.length 0x12 (fun s =>
    if 0xE1000000000 ≤ a ∧ a < 0xE1000400000 then s.remoteSubmit port.val t d
    else
      let r := (s.countBytes a d.length 1 none).wrMemP (portFrm port.val) 3 a d (blockOf a t.h3.toNat) .clean
      r.1.respond port.val t 0x12 (if r.2 then 0 else 2) 0 [] 0))

/-- ATOMIC (R256, R257, R258). (DESIGN CHOICE, log 39) -/
def execAtomic (port : Fin 24) (t : Txn) (s : State) : Host.Outcome State Fault Refusal :=
  let n := t.len.toNat
  let a := t.addr.toNat
  let aop := t.aop.toNat
  let frm := portFrm port.val
  .next (s.request port.val t n 0x11 (fun s =>
    if decide (10 < aop) || (aop == 10 && n == 8) then s.respond port.val t 0x11 4 0 [] 0
    else if !(n == 4 || n == 8) || a % n != 0 || !s.atomicPlace frm a then s.respond port.val t 0x11 2 0 [] 0
    else
      let r := s.atomicDo frm 3 a n aop t.h3.toNat (ofBytes (t.data.map BitVec.toNat))
      r.1.respond port.val t 0x11 0 0 r.2.data (b2n r.2.poison)))

/-- REDUCE_WRITE (R254, R256, R158). -/
def execReduceWrite (port : Fin 24) (t : Txn) (s : State) : Host.Outcome State Fault Refusal :=
  let d := t.data.map BitVec.toNat
  let a := t.addr.toNat
  let w := if t.afmt = 1 then 2 else 4
  .next (s.request port.val t d.length 0x12 (fun s =>
    if decide (2 < t.aop.toNat) || t.afmt == 3 then s.respond port.val t 0x12 4 0 [] 0
    else if d.length % w != 0 || a % w != 0 then s.respond port.val t 0x12 2 0 [] 0
    else
      let r := (s.countBytes a d.length 2 none).redMem (portFrm port.val) a t.afmt.toNat (t.aop.toNat + 1) d
        (blockOf a t.h3.toNat) .clean
      r.1.respond port.val t 0x12 (if r.2 then 0 else 2) 0 [] 0))

/-! ### Responses (R257, R260) -/

/-- TRK_LAST.CAUSE of a STATUS other than OK: 3 ADMIT, 4 ACCESS, 5 REJECT, 6 OPC_BAD. (DESIGN CHOICE, log 39) -/
def statusCause (st : Nat) : Nat := if st ≤ 4 then st + 2 else 4

/-- The engine code of a STATUS other than OK (R257). (DESIGN CHOICE, log 39) -/
def statusCode (st : Nat) : Nat := if st = 1 then 2 else if st = 4 then 3 else 4

/-- The live entry that a response names (R260). -/
def State.trkMatch (s : State) (f : Frond) (t : Txn) (opc : Nat) : Option Trk :=
  s.link.live.find? (fun e => e.frond == f && e.trk == t.trk.toNat && e.gen == t.gen.toNat && e.issue == t.issue.toNat
    && e.opc == opc)

/-- A core's response: its data, or an access fault with the record of the failure. -/
def State.coreAnswer (s : State) (f : Frond) (e : Trk) (t : Txn) : State :=
  if t.status = 0 then s.answer ⟨true, t.h3 != 0, t.data.map BitVec.toNat⟩
  else (s.trkLast f 0 0 (statusCause t.status.toNat) e.opc e.g).answer Res.err

/-- An engine's response (R257, R258): its data and poison for the descriptor's next run, or the failure of the descriptor
with the record of it. -/
def State.engAnswer (s : State) (f : Frond) (n : Nat) (e : Trk) (t : Txn) : State :=
  if t.status = 0 then
    let u := s.eng f n
    let take := fun (x : EngRead) =>
      if x.trk = some e.trk then { x with trk := none, data := t.data.map BitVec.toNat, poison := t.h3.toNat } else x
    s.setEng f n { u with reads := u.reads.map take }
  else
    let c := s.userCtx f e.user
    (s.trkLast f c.1 c.2 (statusCause t.status.toNat) e.opc e.g).engEnd f n (statusCode t.status.toNat) e.g

/-- A response goes to its requester (R260). -/
def State.readAnswer (s : State) (f : Frond) (e : Trk) (t : Txn) : State :=
  match e.user with
  | .engine n => s.engAnswer f n e t
  | _ => s.coreAnswer f e t

/-- READ_RESP (R260). -/
def execReadResp (f : Frond) (t : Txn) (s : State) : Host.Outcome State Fault Refusal :=
  match s.trkMatch f t 0x01 with
  | none => .next (s.lateDrop f false t.trk.toNat)
  | some e => .next ((s.trkFree e).readAnswer f e t)

/-- ATOMIC_RESP (R256, R260). -/
def execAtomicResp (f : Frond) (t : Txn) (s : State) : Host.Outcome State Fault Refusal :=
  match s.trkMatch f t 0x03 with
  | none => .next (s.lateDrop f false t.trk.toNat)
  | some e =>
    let s := s.trkFree e
    .next (s.coreAnswer f e t)

/-- A posted write of a user has failed: recorded, and reported to the user (R257, R261): `cause` as TRK_LAST names it,
`code` as R174 does. (DESIGN CHOICE, log 39) -/
def State.postFail (s : State) (w : WGroup) (cause code g : Nat) : State :=
  let f := w.frond
  let c := s.userCtx f w.user
  let s := s.trkLast f c.1 c.2 cause w.opc g
  match w.user with
  | .core n => s.coreErr f n cause g
  | .engine n => s.engEnd f n code g
  | .item c num => (s.groupFree f w.user).addFault c (if code = 9 then 9 else 4) num
  | _ => s

/-- WDONE (R255, R257, R260). -/
def execWdone (f : Frond) (t : Txn) (s : State) : Host.Outcome State Fault Refusal :=
  match s.link.groups.find? (fun w => w.frond == f && w.num == t.trk.toNat % 256 && w.gen == t.gen.toNat
      && decide (0 < w.count)) with
  | none => .next (s.lateDrop f true (t.trk.toNat % 256))
  | some w =>
    let w := { w with count := w.count - 1, since := s.now }
    let s := s.groupPut w
    if t.status != 0 then
      .next (s.postFail w (statusCause t.status.toNat) (statusCode t.status.toNat) (t.src.toNat * 2 ^ 44 + t.addr.toNat))
    else if w.count != 0 then .next s
    else
      .next (
        match w.user with
        | .engine _ => s
        | .item c num => (s.groupFree f w.user).itemDone c num
        | u => s.groupFree f u)

/-- WRITE_GROUP_TIMEOUT (R261). -/
def execWriteGroupTimeout (f : Frond) (group : BitVec 8) (s : State) : Host.Outcome State Fault Refusal :=
  match s.link.groups.find? (fun w => w.frond == f && w.num == group.toNat && decide (0 < w.count)) with
  | none => .next s
  | some w =>
    let s := (s.incSat (lf F.TRK_COUNTS_TIMEOUTS f)).err (frondPg f 0x1C0) 1
    .next ((s.postFail w 1 9 w.g).groupFree f w.user)

/-! ### Marks and pings (R270, R271) -/

/-- LINK_MARK_RECEIVE (R270): a MARK of an admitted module, timestamped at its arrival less its offset in ns. -/
def execLinkMarkReceive (src : BitVec 6) (step offset : BitVec 32) (s : State) : Host.Outcome State Fault Refusal :=
  .next (
    if s.on (F.LINK_ADMIT_ALLOW.i src.toNat) then s.markIn 2 (s.now - offset.toNat / 4) (some src.toNat) (some step.toNat)
    else s)

/-- PING (R271). (DESIGN CHOICE, log 39) -/
def execPing (port : Fin 24) (t : Txn) (s : State) : Host.Outcome State Fault Refusal :=
  .next (
    if t.dest.toNat != s.modIdx || !s.portUp port.val then s
    else if s.aged t then s.agedDrop (portFrond port.val)
    else s.respond port.val t 0x24 0 0 [] 0)

/-- PING_RESP (R271). -/
def execPingResp (f : Frond) (t : Txn) (s : State) : Host.Outcome State Fault Refusal :=
  match s.trkMatch f t 0x23 with
  | none => .next (s.lateDrop f false t.trk.toNat)
  | some e =>
    let s := s.trkFree e
    .next ((s.wrSat F.LINK_PING_RTT_NS ((s.now - e.since) * 4)).wr F.LINK_PING_DONE 1)

/-- LINK_PING_START (R271): an earlier ping's entry is given up. -/
def execLinkPingStart (r : Req) (target : BitVec 6) (s : State) : Host.Outcome State Fault Refusal :=
  .next (s.cmdAt r F.LINK_PING_START false (fun s =>
    let s := (s.link.live.filter (fun e => e.user == .ping)).foldl State.trkFree s
    let s := ((s.wr F.LINK_PING_TARGET target.toNat).wr F.LINK_PING_DONE 0).wr F.LINK_PING_FAIL 0
    let g := target.toNat * 2 ^ 44
    let s := { s with link := { s.link with stalled := s.link.stalled.filter (fun e => e.user != LinkUser.ping) } }
    s.ask .A .ping (s.txnOf .A 0x23 g) g))

/-- LINK_RELAY_KEY_COMMIT (R269, R273): the key is loaded, its words are zeroed, and the sequence restarts.
(DESIGN CHOICE, log 39) -/
def execLinkRelayKeyCommit (r : Req) (s : State) : Host.Outcome State Fault Refusal :=
  .next (s.cmdAt r F.LINK_RELAY_KEY_CMD_COMMIT true (fun s =>
    let key := (List.range 4).foldr (fun w a => s.rd (F.LINK_RELAY_KEY_KEY.i w) + 2 ^ 64 * a) 0
    let s := { s with link := { s.link with relayKey := key + 1, relaySeq := none } }
    let s := (List.range 4).foldl (fun s w => s.wr (F.LINK_RELAY_KEY_KEY.i w) 0) s
    s.wr F.LINK_RELAY_KEY_CMD_VALID 1))

end Sys2Proof.Machine
end

