-- ==== Sys2Proof/Machine/Colls.lean ====
section
/-! DEFINITION. The collective engine (R264-R267). -/

namespace Sys2Proof.Machine

/-! ### Members, runs and chunks (R265) -/

/-- The members of a slot in ascending module index. -/
def State.collMembers (s : State) (n : Nat) : List Nat := bitsOf (s.rd (cf F.COLL_MEMBERS_MASK n))

/-- P, and the ring position of this module. -/
def State.collP (s : State) (n : Nat) : Nat := (s.collMembers n).length

def State.collPos (s : State) (n : Nat) : Nat := ((s.collMembers n).filter (fun m => decide (m < s.modIdx))).length

/-- Runs of a slot: ascending, and with DIRS = 1 descending. (DESIGN CHOICE, log 40) -/
def State.collRuns (s : State) (n : Nat) : List Bool := if s.on (cf F.COLL_CTRL_DIRS n) then [false, true] else [false]

/-- The first element of a run in the array, and the elements of a run. -/
def State.runBase (s : State) (n : Nat) (down : Bool) : Nat :=
  if down then (s.rd (cf F.COLL_COUNT_N n) + 1) / 2 else 0

def State.runLen (s : State) (n : Nat) (down : Bool) : Nat :=
  let c := s.rd (cf F.COLL_COUNT_N n)
  if !s.on (cf F.COLL_CTRL_DIRS n) then c else if down then c / 2 else (c + 1) / 2

/-- Elements of an array that step `k` of a run moves whole: of chunk `c` its first element within the run and its
length; for ALL_GATHER the whole run. -/
def State.chunkOf (s : State) (n : Nat) (down : Bool) (c : Nat) : Nat × Nat :=
  let h := s.runLen n down
  if s.rd (cf F.COLL_CTRL_OP n) = 2 then (0, h)
  else
    let p := max 1 (s.collP n)
    let z := (h + p - 1) / p
    let a := min (c * z) h
    (a, min ((c + 1) * z) h - a)

/-- Steps of an operation: 2(P - 1), P - 1, P - 1. -/
def State.collSteps (s : State) (n : Nat) : Nat :=
  let p := s.collP n - 1
  if s.rd (cf F.COLL_CTRL_OP n) = 0 then 2 * p else p

/-- Step `k` reduces: a reduce-scatter step. -/
def State.reduceStep (s : State) (n k : Nat) : Bool := s.rd (cf F.COLL_CTRL_OP n) != 2 && decide (k < s.collP n)

/-- The ring position whose chunk or array the member at position `q` receives in step `k`: each step brings the one
behind, counted from the member itself in a gather. -/
def State.collFrom (s : State) (n : Nat) (down : Bool) (k : Nat) : Nat :=
  let p := max 1 (s.collP n)
  let q := s.collPos n
  let j := if s.reduceStep n k then k + 1 else if s.rd (cf F.COLL_CTRL_OP n) = 0 then k - (p - 1) else k
  if down then (q + j) % p else (q + p * j - j) % p

/-- The ring neighbour that a run's segments go to; the other one sends them. -/
def State.collNext (s : State) (n : Nat) (down : Bool) : Nat :=
  let p := max 1 (s.collP n)
  (s.collMembers n).getD (if down then (s.collPos n + p - 1) % p else (s.collPos n + 1) % p) 0

def State.collPrev (s : State) (n : Nat) (down : Bool) : Nat := s.collNext n (!down)

/-! ### Elements (R266) -/

/-- The bytes of an element of FMT_IN. -/
def collWidth (fmt : Nat) : Nat := if fmt = 0 then 4 else if fmt = 1 then 2 else 1

def collFmt (fmt : Nat) : Fmt := if fmt = 0 then fp32 else if fmt = 1 then bf16 else if fmt = 2 then e4m3 else e5m2

/-- An element of FMT_IN as an FP32 pattern, and an FP32 pattern converted to FMT_IN: RNE, saturating (R266). -/
def collIn (fmt b : Nat) : Nat := if fmt = 0 then b else (fp32.encode 0 true ((collFmt fmt).decode b)).1

def collOut (fmt b : Nat) : Nat := if fmt = 0 then b else ((collFmt fmt).encode 0 (decide (2 ≤ fmt)) (fp32.decode b)).1

/-- The poison of the elements of a segment. -/
def segPoison (l : List (BitVec 10)) (i : Nat) : Bool := l.any (fun b => b.toNat == i / 16)

/-- The poisoned 64-byte blocks among elements. -/
def poisonBlocks (l : List Bool) : List (BitVec 10) :=
  ((List.range ((l.length + 15) / 16)).filter (fun b => ((l.drop (16 * b)).take 16).any id)).map (BitVec.ofNat 10)

/-- `count` elements of SRC from element `i` of the array: FP32 patterns with poison, and the state after the reads. -/
def State.collRead (s : State) (n i count : Nat) : State × List (Nat × Bool) :=
  let fmt := s.rd (cf F.COLL_CTRL_FMT_IN n)
  let w := collWidth fmt
  let a := s.rd (cf F.COLL_SRC_ADDR n) % 2 ^ 44 + i * w
  let tag := s.ctxTag (s.rd (cf F.COLL_CTRL_CTX n))
  let r := (spans 64 (count * w + 1) a (count * w)).foldl (fun (x : State × List (Nat × Bool)) p =>
    let y := x.1.rdMem none p.1 p.2
    ((y.1.countBytes p.1 p.2 1 tag), x.2 ++ y.2.data.map (fun b => (b, y.2.poison)))) (s, [])
  (r.1, (List.range count).map (fun k =>
    let e := (r.2.drop (k * w)).take w
    (collIn fmt (ofBytes (e.map (·.1))), e.any (·.2))))

/-- Elements written to DST from element `i` of the result, converted (R266). -/
def State.collWrite (s : State) (n i : Nat) (l : List (Nat × Bool)) : State :=
  let fmt := if s.on (cf F.COLL_CTRL_OUTFP32 n) then 0 else s.rd (cf F.COLL_CTRL_FMT_IN n)
  let w := collWidth fmt
  let a := s.rd (cf F.COLL_DST_ADDR n) % 2 ^ 44 + i * w
  let d := l.flatMap (fun e => leBytes w (collOut fmt e.1))
  let bad := l.flatMap (fun e => List.replicate w e.2)
  let tag := s.ctxTag (s.rd (cf F.COLL_CTRL_CTX n))
  (((s.countBytes a d.length 1 tag).wrMemP none 0 a d
    (fun g => ((bad.drop (g - a)).take (64 - g % 64)).any id) .clean)).1

/-- Where in DST element `i` of a run lands, for the chunk or array of ring position `c` (R265): a REDUCE_SCATTER leaves the
chunk of each half one after the other. (DESIGN CHOICE, log 40) -/
def State.collDst (s : State) (n : Nat) (down : Bool) (c i : Nat) : Nat :=
  match s.rd (cf F.COLL_CTRL_OP n) with
  | 0 => s.runBase n down + i
  | 1 => i - (s.chunkOf n down c).1 + (if down then (s.chunkOf n false c).2 else 0)
  | _ => c * s.rd (cf F.COLL_COUNT_N n) + s.runBase n down + i

/-! ### Segments -/

/-- A segment of this slot. -/
def State.segOf (s : State) (n : Nat) (down : Bool) (step first : Nat) (l : List (Nat × Bool)) : Seg :=
  ⟨BitVec.ofNat 6 s.modIdx, BitVec.ofNat 8 (s.rd (cf F.COLL_CTRL_COLL_ID n)), down, BitVec.ofNat 16 step,
    BitVec.ofNat 40 first, BitVec.ofNat 2 (s.rd (cf F.COLL_CTRL_OP n)), BitVec.ofNat 2 (s.rd (cf F.COLL_CTRL_FMT_IN n)),
    BitVec.ofNat 40 (s.rd (cf F.COLL_COUNT_N n)), BitVec.ofNat 64 (s.rd (cf F.COLL_MEMBERS_MASK n)), 0, 0,
    l.map (fun e => BitVec.ofNat 32 e.1), poisonBlocks (l.map (·.2))⟩

/-- A module grants its predecessor in a run buffer credit for segments (R265): COLL_CREDIT, the count in AUX [30:0] and the
run in [31]. (DESIGN CHOICE, log 40) -/
def State.creditGrant (s : State) (n : Nat) (down : Bool) (k : Nat) : State :=
  let t := { s.txnOf .A 0x31 (s.collPrev n down * 2 ^ 44) with
    coll := BitVec.ofNat 8 (s.rd (cf F.COLL_CTRL_COLL_ID n)), aux := BitVec.ofNat 32 (b2n down * 2 ^ 31 + k) }
  (s.txnSend .A t (s.ctxTag (s.rd (cf F.COLL_CTRL_CTX n)))).1

/-- A slot that runs fails and, unless it was aborted, faults its context with LINK_PARTITION (R267). -/
def State.collBreak (s : State) (n cause : Nat) : State :=
  (s.collFail n cause).sysFault (s.rd (cf F.COLL_CTRL_CTX n)) 0x20

/-- A segment leaves for the successor in transactions of 4 KB (R265); without a route the slot fails with UNREACHABLE. -/
def State.segSend (s : State) (n : Nat) (g : Seg) : State :=
  let dest := s.collNext n g.down
  let d := g.data.flatMap (fun e => leBytes 4 e.toNat)
  let c := s.rd (cf F.COLL_CTRL_CTX n)
  let r := (spans 4096 (d.length + 1) 0 d.length).foldl (fun (x : State × Bool) p =>
    if !x.2 then x
    else
      let t := { x.1.txnOf .A 0x30 (dest * 2 ^ 44) with
        coll := g.coll, len := BitVec.ofNat 13 p.2,
        h3 := BitVec.ofNat 64 (g.poison.foldl (fun (m : Nat) (b : BitVec 10) =>
          if p.1 / 64 ≤ b.toNat ∧ b.toNat < p.1 / 64 + 64 then setBitN m (b.toNat - p.1 / 64) else m) 0),
        data := ((d.drop p.1).take p.2).map (BitVec.ofNat 8) }
      x.1.txnSend .A { t with aux := BitVec.ofNat 32 (x.1.rd (cf F.COLL_PROG_SEGMENTS n)) } (x.1.ctxTag c)) (s, true)
  if !r.2 then r.1.collBreak n 2
  else (r.1.inc (cf F.COLL_PROG_SEGMENTS n)).activity .A 10 ((d.length + 1023) / 1024) (r.1.ctxTag c) none

/-- Segments that wait leave while the successor's credit lasts (R265). -/
def State.segPump (s : State) (n : Nat) : Nat → State
  | 0 => s
  | fuel + 1 =>
    let u := s.collSlot n
    if s.collState n != 2 then s
    else
      match u.sendq.find? (fun g => decide (0 < Sparse.get (fun _ => 0) u.credits (b2n g.down))) with
      | none => s
      | some g =>
        let k := b2n g.down
        let s := s.setCollSlot n { u with
          sendq := u.sendq.erase g, credits := Sparse.set (fun _ => 0) u.credits k (Sparse.get (fun _ => 0) u.credits k - 1) }
        State.segPump (s.segSend n g) n fuel

/-- A segment joins those that wait. -/
def State.segQueue (s : State) (n : Nat) (g : Seg) : State :=
  let u := s.collSlot n
  s.setCollSlot n { u with sendq := u.sendq ++ [g] }

/-- Elements of a segment, at most 64 KB of FP32. -/
def segElems : Nat := 16384

/-- The key of a step of a run in the count of elements received. -/
def gotKey (down : Bool) (k : Nat) : Nat := b2n down * 65536 + k

/-- A step of every run has been received whole. -/
def State.stepWhole (s : State) (n k : Nat) : Bool :=
  (s.collRuns n).all (fun d =>
    decide ((s.chunkOf n d (s.collFrom n d k)).2 ≤ Sparse.get (fun _ => 0) (s.collSlot n).got (gotKey d k)))

/-- COLL_PROG.STEP: steps completed, from the first. -/
def State.progSync (s : State) (n : Nat) : State :=
  let done := ((List.range (s.collSteps n)).map (· + 1)).takeWhile (s.stepWhole n)
  s.wr (cf F.COLL_PROG_STEP n) done.length

/-- A segment acts on a running slot (R265, R266): in a reduce step it is combined with the local chunk, in a gather it is
written; it is passed on unless its step is the last of its phase. -/
def State.segTake (s : State) (n : Nat) (g : Seg) : State :=
  let k := g.step.toNat
  let c := s.collFrom n g.down k
  let first := g.first.toNat
  let ins := g.data.zipIdx.map (fun e => (e.1.toNat, segPoison g.poison e.2))
  let r : State × List (Nat × Bool) :=
    if s.reduceStep n k then
      let x := s.collRead n (s.runBase n g.down + first) ins.length
      (x.1, List.zipWith (fun a b => ((reduceElem 0 (s.rd (cf F.COLL_CTRL_RED n) + 1) b.1 a.1).1, a.2 || b.2)) ins x.2)
    else (s, ins)
  let lastReduce := s.reduceStep n k && k + 1 == s.collP n
  let s := if s.reduceStep n k && !lastReduce then r.1
    else r.1.collWrite n (s.collDst n g.down c first) r.2
  let s := if k < s.collSteps n then s.segQueue n (s.segOf n g.down (k + 1) first r.2) else s
  let u := s.collSlot n
  let key := gotKey g.down k
  let s := s.setCollSlot n { u with got := Sparse.set (fun _ => 0) u.got key (Sparse.get (fun _ => 0) u.got key + ins.length) }
  ((s.creditGrant n g.down 1).progSync n).segPump n 4096

/-- The segments of the first step of a run, from this member's own array. -/
def State.segFirst (s : State) (n : Nat) (down : Bool) : State :=
  let p := max 1 (s.collP n)
  let q := s.collPos n
  let c := if s.rd (cf F.COLL_CTRL_OP n) = 2 then q else if down then (q + 1) % p else (q + p - 1) % p
  let h := s.chunkOf n down c
  (spans segElems (h.2 / segElems + 2) 0 h.2).foldl (fun s e =>
    let x := s.collRead n (s.runBase n down + h.1 + e.1) e.2
    x.1.segQueue n (x.1.segOf n down 1 (h.1 + e.1) x.2)) s

/-- What a member writes of its own array at the start: for ALL_GATHER its own place; alone in the ring, everything.
(DESIGN CHOICE, log 40) -/
def State.collOwn (s : State) (n : Nat) (down : Bool) : State :=
  let h := s.runLen n down
  if s.rd (cf F.COLL_CTRL_OP n) = 2 ∨ s.collP n = 1 then
    (spans segElems (h / segElems + 2) 0 h).foldl (fun s e =>
      let x := s.collRead n (s.runBase n down + e.1) e.2
      x.1.collWrite n (x.1.collDst n down (x.1.collPos n) e.1) x.2) s
  else s

/-! ### Commands -/

/-- SRC lies readable and DST writable, in this module's HBM, for the domain of CTX (R264). (DESIGN CHOICE, log 40) -/
def State.collMay (s : State) (n : Nat) : Bool :=
  let c := s.rd (cf F.COLL_CTRL_CTX n)
  let d := s.ctxDom c
  let count := s.rd (cf F.COLL_COUNT_N n)
  let op := s.rd (cf F.COLL_CTRL_OP n)
  let p := max 1 (s.collP n)
  let win := collWidth (s.rd (cf F.COLL_CTRL_FMT_IN n))
  let wout := if s.on (cf F.COLL_CTRL_OUTFP32 n) then 4 else win
  let out := if op = 0 then count else if op = 2 then p * count
    else (s.collRuns n).foldl (fun a e => a + (s.chunkOf n e (s.collPos n)).2) 0
  let src := s.rd (cf F.COLL_SRC_ADDR n)
  let dst := s.rd (cf F.COLL_DST_ADDR n)
  let hbm := fun a len => a / 2 ^ 44 % 64 == s.modIdx && decide (a % 2 ^ 44 + len ≤ 0xA000000000)
  (s.ctx c).alloc && hbm src (count * win) && hbm dst (out * wout)
    && s.domMay d rightR src (count * win) && s.domMay d rightW dst (out * wout)

/-- ARM is ignored: a slot ARMED or in RUN, a reserved OP or RED, no elements, or a ring without this module (R264,
R265). (DESIGN CHOICE, log 40) -/
def State.armIgnored (s : State) (n : Nat) : Bool :=
  s.collState n == 1 || s.collState n == 2 || s.rd (cf F.COLL_CTRL_OP n) == 3 || s.rd (cf F.COLL_CTRL_RED n) == 3
    || s.rd (cf F.COLL_COUNT_N n) == 0 || !bitOf (s.rd (cf F.COLL_MEMBERS_MASK n)) s.modIdx

/-- COLL_ARM (R264). -/
def execCollArm (r : Req) (slot : Fin 16) (s : State) : Host.Outcome State Fault Refusal :=
  let n := slot.val
  .next (s.cmdAt r (cf F.COLL_CTRL_ARM n) false (fun s =>
    if s.armIgnored n then s
    else
      let s := ((s.wr (cf F.COLL_CTRL_ERR n) 0).setReg (cf F.COLL_PROG_STEP n).key 0).setCollSlot n
        { CollSlot.init with heard := s.now }
      if s.collMay n then
        let s := s.wr (cf F.COLL_CTRL_STATE n) 1
        let s := ({ s with link := { s.link with armed := s.link.armed ++ [n] } }).collSync
        s.when (s.collP n != 1) (fun s => (s.collRuns n).foldl (fun s d => s.creditGrant n d (Config.collBuffer + 1)) s)
      else s.collBreak n 4))

/-- COLL_ABORT (R267). -/
def execCollAbort (r : Req) (slot : Fin 16) (s : State) : Host.Outcome State Fault Refusal :=
  let n := slot.val
  .next (s.cmdAt r (cf F.COLL_CTRL_ABORT n) false (fun s =>
    s.when (s.collState n == 1 || s.collState n == 2) (fun s => s.collFail n 5)))

/-- The slot's trigger is met (R110, R264). -/
def State.collReady (s : State) (n : Nat) : Bool :=
  reached (s.counter (s.rd (cf F.COLL_TRIG_COUNTER n))) (s.rd (cf F.COLL_TRIG_VALUE n))

/-- Slots in RUN. -/
def State.collRunning (s : State) : Nat := ((List.range 16).filter (fun n => s.collState n == 2)).length

/-- COLL_SLOT_START (R264): of the armed slots whose trigger is met the first armed, while fewer than four run.
(DESIGN CHOICE, log 40) -/
def execCollSlotStart (slot : Fin 16) (s : State) : Host.Outcome State Fault Refusal :=
  let n := slot.val
  if s.link.armed.find? (fun m => s.collReady m) = some n ∧ s.collRunning < 4 then
    let held := (s.collSlot n).inbox
    let s := { s with link := { s.link with armed := s.link.armed.filter (· != n) } }
    let s := (s.wr (cf F.COLL_CTRL_STATE n) 2).setCollSlot n { s.collSlot n with inbox := [], heard := s.now }
    let s := (s.collRuns n).foldl (fun s d => s.collOwn n d) s.collSync
    let s := s.when (s.collP n != 1) (fun s => (s.collRuns n).foldl (fun s d => s.segFirst n d) s)
    let s := (s.progSync n).segPump n 4096
    .next (held.foldl (fun s g => if s.collState n = 2 then s.segTake n g else s) s)
  else .next s

/-- The slot, armed or running, that a segment or credit is for. -/
def State.collFind (s : State) (id : Nat) : Option Nat :=
  (List.range 16).find? (fun n =>
    (s.collState n == 1 || s.collState n == 2) && s.rd (cf F.COLL_CTRL_COLL_ID n) == id)

/-- A segment agrees with the slot in OP, FMT_IN, N and members (R267). -/
def State.segSame (s : State) (n : Nat) (g : Seg) : Bool :=
  g.op.toNat == s.rd (cf F.COLL_CTRL_OP n) && g.fmt.toNat == s.rd (cf F.COLL_CTRL_FMT_IN n)
    && g.count.toNat == s.rd (cf F.COLL_COUNT_N n) && g.members.toNat == s.rd (cf F.COLL_MEMBERS_MASK n)

/-- COLL_SEG (R262, R265-R267): a segment from the predecessor; one that differs from the slot fails it, and one that has aged
is discarded. One that comes before the slot runs is buffered. (DESIGN CHOICE, log 40) -/
def execCollSeg (port : Fin 24) (seg : Seg) (s : State) : Host.Outcome State Fault Refusal :=
  match s.collFind seg.coll.toNat with
  | none => .next s
  | some n =>
    if !s.portUp port.val then .next s
    else if s.ageLimit ≤ seg.age.toNat then .next (s.agedDrop (portFrond port.val))
    else if !s.segSame n seg then .next (s.collBreak n 3)
    else if seg.src.toNat != s.collPrev n seg.down || !(s.collRuns n).contains seg.down || seg.step == 0
        || decide (s.collSteps n < seg.step.toNat) || decide (segElems < seg.data.length) then .next s
    else
      let s := s.setCollSlot n { s.collSlot n with heard := s.now }
      .next (if s.collState n = 2 then s.segTake n seg
        else s.setCollSlot n { s.collSlot n with inbox := (s.collSlot n).inbox ++ [seg] })

/-- COLL_CREDIT (R265). -/
def execCollCredit (slot : Fin 16) (down : Bool) (n : BitVec 8) (s : State) : Host.Outcome State Fault Refusal :=
  let k := slot.val
  if s.collState k == 1 || s.collState k == 2 then
    let u := s.collSlot k
    let s := s.setCollSlot k { u with
      heard := s.now
      credits := Sparse.set (fun _ => 0) u.credits (b2n down) (Sparse.get (fun _ => 0) u.credits (b2n down) + n.toNat) }
    .next (s.segPump k 4096)
  else .next s

/-- COLL_SLOT_DONE (R264): every step is complete and nothing waits to be sent. -/
def execCollSlotDone (slot : Fin 16) (s : State) : Host.Outcome State Fault Refusal :=
  let n := slot.val
  if s.collState n == 2 && s.rd (cf F.COLL_PROG_STEP n) == s.collSteps n && (s.collSlot n).sendq.isEmpty then
    .next ((s.collLeave n 3).collSignal n)
  else .next s

/-- COLL_SLOT_TIMEOUT (R267). -/
def execCollSlotTimeout (slot : Fin 16) (s : State) : Host.Outcome State Fault Refusal :=
  .next (if s.collState slot.val = 2 then s.collBreak slot.val 1 else s)

end Sys2Proof.Machine
end

