-- ==== Sys2Proof/Machine/EngOps.lean ====
section
/-! DEFINITION. A running descriptor: its checked reads and writes, poison, the first failure, and its end (R169-R177). -/

namespace Sys2Proof.Machine

/-- A byte and whether it depends on poisoned data. -/
abbrev PByte := Nat × Bool

/-- A descriptor as it runs: the state, its engine's frond, its context and domain, the first failure with its address,
whether some output is poisoned, the bytes written, its remote reads that have been issued, those it asks for now, and whether
it must wait: for a response, or for a write group. -/
structure EngRun where
  s : State
  f : Frond
  n : Nat
  ctx : Nat
  dom : Nat
  fail : Option (Nat × Nat)
  poison : Bool
  bytes : Nat
  reads : List EngRead
  asks : List (Nat × Nat)
  wait : Bool

/-- The first failing access or check stops the descriptor (R174). -/
def EngRun.stop (r : EngRun) (code addr : Nat) : EngRun :=
  match r.fail with
  | some _ => r
  | none => { r with fail := some (code, addr) }

/-- A check that must hold, else the descriptor fails. -/
def EngRun.need (r : EngRun) (ok : Bool) (code : Nat) : EngRun := if ok then r else r.stop code 0

/-- An address lies on another module. -/
def EngRun.isFar (r : EngRun) (g : Nat) : Bool := g / 2 ^ 44 % 64 != r.s.modIdx

/-- Pieces of a local read, each with its granule's poison. -/
def EngRun.rdPieces (r : EngRun) (g : Nat) (acc : List PByte) : List (Nat × Nat) → EngRun × List PByte
  | [] => (r, acc)
  | p :: t =>
    let x := r.s.rdPiece (some r.f.idx) p.1 p.2 .clean
    let s := x.1.countBytes p.1 p.2 1 (r.s.ctxTag r.ctx)
    if x.2.ok then EngRun.rdPieces { r with s := s } g (acc ++ x.2.data.map (fun b => (b, x.2.poison))) t
    else ({ r with s := s }.stop 4 g, acc)

/-- The READ of a piece has been issued for this descriptor and not been used. -/
def EngRun.issued (r : EngRun) (p : Nat × Nat) : Option EngRead := r.reads.find? (fun e => e.addr == p.1 && e.len == p.2)

/-- The bytes of a READ_RESP with the poison of their 64-byte blocks (R258). -/
def EngRead.bytes (e : EngRead) : List PByte :=
  (List.range e.len).map (fun i => (e.data.getD i 0, bitOf e.poison ((e.addr % 64 + i) / 64)))

/-- Remote READs, each within 4 KB (R254): one that has been answered gives its bytes; for one that is out, or that must be
issued now, the descriptor waits (R259). -/
def EngRun.rdFar (r : EngRun) (acc : List PByte) : List (Nat × Nat) → EngRun × List PByte
  | [] => (r, acc)
  | p :: t =>
    match r.issued p with
    | none =>
      EngRun.rdFar { r with asks := r.asks ++ [p], wait := true } (acc ++ List.replicate p.2 (0, false)) t
    | some e => EngRun.rdFar { r with reads := r.reads.erase e, wait := r.wait || e.trk.isSome } (acc ++ e.bytes) t

/-- `n` bytes from a global address; a remote one only where `far` says so (R173, R252). A stopped descriptor reads
nothing. A remote read is checked as it is issued. -/
def EngRun.rd (r : EngRun) (far : Bool) (g n : Nat) : EngRun × List PByte :=
  let zero := List.replicate n ((0, false) : PByte)
  let l := spans 4096 (n + 1) g n
  let out := r.isFar g && l.all (fun p => (r.issued p).isSome)
  if r.fail.isSome || n == 0 then (r, zero)
  else if r.isFar g && !far then (r.stop 4 g, zero)
  else if !out && !r.s.domMay r.dom rightR g n then (r.stop 2 g, zero)
  else if r.isFar g then r.rdFar [] l
  else
    let a := g % 2 ^ 44
    let x := r.rdPieces g [] (spans (granuleOf a) (n + 1) a n)
    (x.1, (x.2 ++ zero).take n)

/-- Pieces of a local write: plain, or a reduce of a format and operation. -/
def EngRun.wrPieces (r : EngRun) (g : Nat) (red : Option (Nat × Nat)) (l : List PByte) : List (Nat × Nat) → EngRun
  | [] => r
  | p :: t =>
    let d := l.take p.2
    let bad := d.any (·.2)
    let x : State × Bool := match red with
      | none => r.s.wrPiece (some r.f.idx) 1 p.1 (d.map (·.1)) bad .clean
      | some (fmt, op) => r.s.redMem (some r.f.idx) p.1 fmt op (d.map (·.1)) (fun _ => bad) .clean
    let s := x.1.countBytes p.1 p.2 (if red.isSome then 2 else 1) (r.s.ctxTag r.ctx)
    let r := { r with s := s, poison := r.poison || bad, bytes := r.bytes + p.2 }
    if x.2 then EngRun.wrPieces r g red (l.drop p.2) t else r.stop 4 g

/-- Remote writes, each within 4 KB (R254), in the descriptor's write group, for which it waits (R255). -/
def EngRun.wrFar (r : EngRun) (red : Option (Nat × Nat)) (l : List PByte) : List (Nat × Nat) → EngRun
  | [] => r
  | p :: t =>
    let d := l.take p.2
    let m := poisonMap p.1 (d.map (·.2))
    let o := match red with
      | none => r.s.writeTxn r.f 0x02 p.1 0 0 (d.map (·.1)) m
      | some (fmt, op) => r.s.writeTxn r.f 0x04 p.1 (op - 1) fmt (d.map (·.1)) m
    let x := r.s.postTry r.f (.engine r.n) o p.1
    match x.2 with
    | none => { r with wait := true }
    | some false => { r with s := x.1 }.stop 9 p.1
    | some true =>
      EngRun.wrFar { r with s := x.1, poison := r.poison || d.any (·.2), bytes := r.bytes + p.2 } red (l.drop p.2) t

/-- OP and OPX. -/
def Desc.op (d : Desc) : Nat := d.w 0 / 2 ^ 8 % 32

def Desc.opx (d : Desc) : Nat := d.w 0 / 2 ^ 56 % 256

/-- Two extents of global addresses share a byte; empty ones share none. -/
def meet (a b : Nat × Nat) : Bool := decide (a.1 < b.1 + b.2) && decide (b.1 < a.1 + a.2)

/-- The descriptor that runs is a COPY without RED, the one op that may write a slot of the submission window (R215). -/
def EngRun.isCopy (r : EngRun) : Bool :=
  match (r.s.eng r.f r.n).running with
  | some d => d.w 0 % 256 == 1 && d.op == 0 && d.opx % 4 == 0
  | none => false

/-- A local write of `n` bytes meets the submission window and is refused there (R215, R216): 1 SIZE, 4 PROT. -/
def EngRun.subBad (r : EngRun) (g n : Nat) : Option Nat :=
  if r.isFar g || !meet (g % 2 ^ 44, n) (0xE1000000000, 0x400000) then none
  else if !(r.isCopy && g % 64 == 0 && n == 64) then some 1
  else if !r.s.domMay r.dom rightW g n then some 4 else none

/-- Bytes to a global address, plain or reduced (R158, R173, R175); a refused submission is ADDR_BAD (R216). -/
def EngRun.wrRed (r : EngRun) (far : Bool) (red : Option (Nat × Nat)) (g : Nat) (l : List PByte) : EngRun :=
  if r.fail.isSome || l.isEmpty then r
  else if let some why := r.subBad g l.length then
    { r with s := r.s.subReject (max (g % 2 ^ 44) 0xE1000000000 / 64 % 65536) 1 why }.stop 4 g
  else if r.isFar g && !far then r.stop 4 g
  else if !r.s.domMay r.dom rightW g l.length then r.stop 2 g
  else if r.isFar g then r.wrFar red l (spans 4096 (l.length + 1) g l.length)
  else
    let a := g % 2 ^ 44
    r.wrPieces g red l (spans (granuleOf a) (l.length + 1) a l.length)

def EngRun.wr (r : EngRun) (far : Bool) (g : Nat) (l : List PByte) : EngRun := r.wrRed far none g l

/-- A number of `w` bytes read from bytes at a place, and whether it depends on poison. -/
def numAt (l : List PByte) (i w : Nat) : Nat × Bool :=
  let d := (l.drop i).take w
  (d.foldr (fun b a => b.1 + 256 * a) 0, d.any (·.2))

/-- A number as `w` bytes with a poison flag. -/
def numBytes (w v : Nat) (p : Bool) : List PByte := (leBytes w v).map (fun b => (b, p))

/-- An address in 50 bits. -/
def wrap50 (a : Int) : Nat := (a % 2 ^ 50).toNat

/-- The address words of a body have no reserved bit set (R173). (DESIGN CHOICE, log 29) -/
def addrsGood (ws : List Nat) : Bool := ws.all (fun w => w / 2 ^ 50 == 0)

/-- A header without a reserved bit or value set (R169). (DESIGN CHOICE, log 29) -/
def headerGood (d : Desc) : Bool :=
  let w := d.w 0
  w / 2 ^ 19 % 32 == 0 && w / 2 ^ 13 % 8 == 0 && (w / 2 ^ 24 % 256 == 0xFF || !bitOf w 30) && signalGood (d.w 1)

/-- The ops that an engine type has (R178-R190). -/
def opCount (type : Nat) : Nat :=
  match type with
  | 1 => 4 | 2 => 4 | 3 => 3 | 4 => 3 | 8 => 2 | _ => 1

/-- ENG_FLAGS takes exception flags. -/
def State.engFlags (s : State) (f : Frond) (n fl : Nat) : State :=
  let s := s.when (fl &&& flNV != 0) (fun s => s.wr (ef F.ENG_FLAGS_NV f n) 1)
  let s := s.when (fl &&& flDZ != 0) (fun s => s.wr (ef F.ENG_FLAGS_DZ f n) 1)
  let s := s.when (fl &&& flOF != 0) (fun s => s.wr (ef F.ENG_FLAGS_OF f n) 1)
  let s := s.when (fl &&& flUF != 0) (fun s => s.wr (ef F.ENG_FLAGS_UF f n) 1)
  s.when (fl &&& flNX != 0) (fun s => s.wr (ef F.ENG_FLAGS_NX f n) 1)

/-- ENG_BYTES rises, and the whole KB that it passes are counted as activity (R378). (DEDUCED, log 31) -/
def State.engBytes (s : State) (f : Frond) (n bytes : Nat) (kb : Bool) (tag : Option (Nat × Nat)) : State :=
  let old := s.rd (ef F.ENG_BYTES_COUNT f n)
  let s := s.wr (ef F.ENG_BYTES_COUNT f n) (old + bytes)
  let k := (old + bytes) / 1024 - old / 1024
  if kb && k != 0 then s.activity f 5 k tag none else s

/-- The running descriptor of engine `n`, when it has not made its writes and its op is `op` or one that the type lacks; an
epoch fence of its domain holds it (R231). (DESIGN CHOICE, log 29; DESIGN CHOICE, log 36) -/
def State.engReady (s : State) (f : Frond) (n type op : Nat) : Option Desc :=
  let u := s.eng f n
  match u.running, u.done with
  | some d, none =>
    if engType n == type && d.w 0 % 256 == type && (d.op == op || decide (opCount type ≤ d.op))
      && !s.heldDom (s.ctxDom d.ctx) && s.rd (ef F.ENG_STATUS_STATE f n) == 1 then some d else none
  | _, _ => none

/-- The READs that a descriptor asks for leave in order, while the tracker has entries (R259); the first that finds no route
fails it with REMOTE (R250). -/
def State.engAsk (s : State) (f : Frond) (n : Nat) : List (Nat × Nat) → State
  | [] => s
  | p :: t =>
    let x := s.askOpen f (.engine n) { s.txnOf f 0x01 p.1 with len := BitVec.ofNat 13 p.2 } p.1
    match x.2 with
    | none => s
    | some false => x.1.engEnd f n 9 p.1
    | some true =>
      let u := x.1.eng f n
      let k := (x.1.link.live.getLast?).map (·.trk)
      State.engAsk (x.1.setEng f n { u with reads := u.reads ++ [(⟨p.1, p.2, k, [], 0⟩ : EngRead)] }) f n t

/-- A descriptor runs: `g` makes its reads and writes. While a remote response or a write group is lacking it has made no
write: its READs are issued, and the next run begins again with what has come. A failure ends it, else its code waits for
DESCRIPTOR_COMPLETE. `kb` says that its bytes count as engine KB. (DESIGN CHOICE, log 30; DESIGN CHOICE, log 39) -/
def State.engRun (s : State) (f : Frond) (n type op : Nat) (kb : Bool) (g : Desc → EngRun → EngRun) : State :=
  match s.engReady f n type op with
  | none => s
  | some d =>
    let r : EngRun := ⟨s, f, n, d.ctx, s.ctxDom d.ctx, none, false, 0, (s.eng f n).reads, [], false⟩
    let r := if headerGood d && d.op == op then g d r else r.stop 3 0
    if r.wait then s.engAsk f n r.asks
    else
      let s := (r.s.engBytes f n r.bytes kb (s.ctxTag d.ctx)).trkFreeOf f (.engine n)
      match r.fail with
      | some e => s.engEnd f n e.1 e.2
      | none => s.setEng f n { s.eng f n with done := some (b2n r.poison), reads := [] }

end Sys2Proof.Machine
end

