-- ==== Sys2Proof/Machine/EngMove.lean ====
section
/-! DEFINITION. Move, codec and gather/scatter engines (R178-R185). -/

namespace Sys2Proof.Machine

/-! ### Shapes of the move engine (R178) -/

/-- Signed stride of dimension `d` (1-4): of the source, or of the destination for `dst`. -/
def Desc.stride (d : Desc) (dim : Nat) (dst : Bool) : Int :=
  let w := d.w 5 + 2 ^ 64 * d.w 6 + 2 ^ 128 * d.w 7
  bitsInt 24 (w / 2 ^ (48 * (dim - 1) + (if dst then 24 else 0)) % 2 ^ 24)

/-- LEN0 and the four counts; CNT1 of a FILL lies in W5. -/
def Desc.len0 (d : Desc) : Nat := d.w 4 % 2 ^ 24

def Desc.cnt (d : Desc) (dim : Nat) : Nat :=
  match dim with
  | 1 => (if d.op = 3 then d.w 5 % 2 ^ 14 else d.w 2 / 2 ^ 50) + 1
  | 2 => d.w 3 / 2 ^ 50 + 1
  | 3 => d.w 4 / 2 ^ 24 % 2 ^ 14 + 1
  | _ => d.w 4 / 2 ^ 38 % 2 ^ 14 + 1

def Desc.shift (d : Desc) : Nat := d.opx / 16

/-- Every index (i1, i2, i3, i4), i1 fastest. -/
def Desc.indices (d : Desc) : List (Int × Int × Int × Int) :=
  (List.range (d.cnt 4)).flatMap (fun (i4 : Nat) => (List.range (d.cnt 3)).flatMap (fun (i3 : Nat) =>
    (List.range (d.cnt 2)).flatMap (fun (i2 : Nat) => (List.range (d.cnt 1)).map (fun (i1 : Nat) =>
      ((i1 : Int), (i2 : Int), (i3 : Int), (i4 : Int))))))

/-- An address of the shape: base plus the strided sum shifted left, in 50 bits. -/
def Desc.at (d : Desc) (base : Nat) (dst : Bool) (i1 i2 i3 i4 : Int) : Nat :=
  wrap50 ((base : Int) + (i1 * d.stride 1 dst + i2 * d.stride 2 dst + i3 * d.stride 3 dst + i4 * d.stride 4 dst) * 2 ^ d.shift)

/-- Reads of runs (source, destination, length), in order, up to the first failure: what each destination receives. -/
def EngRun.runsRead (r : EngRun) : List (Nat × Nat × Nat) → List (Nat × List PByte) → EngRun × List (Nat × List PByte)
  | [], acc => (r, acc)
  | (s, d, n) :: t, acc =>
    let x := r.rd true s n
    if x.1.fail.isSome then (x.1, acc) else EngRun.runsRead x.1 t (acc ++ [(d, x.2)])

/-- Writes of runs, in order. -/
def EngRun.runsWrite (r : EngRun) (red : Option (Nat × Nat)) : List (Nat × List PByte) → EngRun
  | [] => r
  | (d, l) :: t => EngRun.runsWrite (r.wrRed true red d l) red t

/-- Every run is read and written; a failing read stops the writes after it (R174). -/
def EngRun.runs (r : EngRun) (red : Option (Nat × Nat)) (l : List (Nat × Nat × Nat)) : EngRun :=
  let x := r.runsRead l []
  let w := ({ x.1 with fail := r.fail } : EngRun).runsWrite red x.2
  match w.fail with
  | some _ => w
  | none => { w with fail := x.1.fail }

/-- One destination byte of an overlap takes a free value (R179). (DESIGN CHOICE, log 30) -/
def EngRun.freeByte (r : EngRun) (g : Nat) : EngRun :=
  let b := r.s.free % 256
  let r := { r with s := r.s.drawn }
  let x := r.s.wrPiece (some r.f.idx) 1 (g % 2 ^ 44) [b] false .clean
  { r with s := x.1 }

/-- The destination bytes that lie in an overlap of source and destination take free values: the module makes no promise
about them (R179). (DESIGN CHOICE, log 30) -/
def EngRun.overlapFree (r : EngRun) (l : List (Nat × Nat × Nat)) : EngRun :=
  if r.fail.isSome || !l.any (fun x => l.any (fun y => meet (x.1, x.2.2) (y.2.1, y.2.2))) then r
  else
    l.foldl (fun r y => (List.range y.2.2).foldl (fun r i =>
      if l.any (fun x => decide (x.1 ≤ y.2.1 + i) && decide (y.2.1 + i < x.1 + x.2.2)) && !r.isFar (y.2.1 + i)
      then r.freeByte (y.2.1 + i) else r) r) r

/-- An address lies in HBM of some module. -/
def inHbm (g : Nat) : Bool := decide (g % 2 ^ 44 < 0xA000000000)

/-- Bytes of an element of RFMT. -/
def rfmtBytes (f : Nat) : Nat := if f = 1 then 2 else 4

/-- MOVE_COPY (R178, R179). -/
def EngRun.copy (r : EngRun) (d : Desc) : EngRun :=
  let src := d.w 2 % 2 ^ 50
  let dst := d.w 3 % 2 ^ 50
  let red := d.opx % 4
  let fmt := d.opx / 4 % 4
  let w := rfmtBytes fmt
  let l := d.indices.map (fun i =>
    (d.at src false i.1 i.2.1 i.2.2.1 i.2.2.2, d.at dst true i.1 i.2.1 i.2.2.1 i.2.2.2, d.len0))
  let ok := d.w 4 / 2 ^ 52 == 0 && d.len0 != 0 && fmt != 3
    && (red == 0 || (inHbm dst && dst % w == 0 && d.len0 % w == 0 && l.all (fun x => x.2.1 % w == 0)))
  let r := r.need ok 3
  (r.runs (if red = 0 then none else some (fmt, red)) l).overlapFree l

/-- MOVE_TRANSPOSE (R178). -/
def EngRun.transpose (r : EngRun) (d : Desc) : EngRun :=
  let src := d.w 2 % 2 ^ 50
  let dst := d.w 3 % 2 ^ 50
  let e := 2 ^ (d.opx % 4)
  let l := d.indices.flatMap (fun i => (List.range (d.len0 / e)).map (fun (c : Nat) =>
    (wrap50 ((d.at src false i.1 i.2.1 i.2.2.1 i.2.2.2 : Int) + (c : Int) * e),
      wrap50 ((d.at dst true (c : Int) i.2.1 i.2.2.1 i.2.2.2 : Int) + i.1 * e), e)))
  let r := r.need (d.w 4 / 2 ^ 52 == 0 && d.len0 != 0 && d.len0 % e == 0) 3
  (r.runs none l).overlapFree l

/-- MOVE_FILL (R178). -/
def EngRun.fill (r : EngRun) (d : Desc) : EngRun :=
  let dst := d.w 3 % 2 ^ 50
  let ok := d.w 4 / 2 ^ 52 == 0 && d.len0 != 0 && d.w 5 / 2 ^ 14 % 2 ^ 10 == 0
    && [2, 3, 4].all (fun k => d.stride k false == 0)
  let run := (List.range d.len0).map (fun j => ((d.w 2 / 2 ^ (8 * (j % 8)) % 256, false) : PByte))
  (r.need ok 3).runsWrite none (d.indices.map (fun i => (d.at dst true i.1 i.2.1 i.2.2.1 i.2.2.2, run)))

/-! ### Array layout (R180) -/

/-- Element `i` of packed elements read as bytes: pattern and poison. -/
def elemP (bits : Nat) (l : List PByte) (i : Nat) : Nat × Bool :=
  let lo := i * bits / 8
  let n := (i * bits + bits + 7) / 8 - lo
  (elemAt bits (fun k => (l.getD k (0, false)).1) i, ((l.drop lo).take n).any (·.2))

/-- A row of block-format inputs as integers and scales, with poison for every block. -/
structure PackRow where
  xs : List Int
  scales : List Nat
  bad : List Bool

/-- The packed columns of one image: of each logical column its weights and scale, and whether it depends on poison. -/
def packCols (rows : List PackRow) (rb : Nat) : List ((List Int × Nat) × Bool) :=
  rows.map (fun w =>
    (packColumn ((w.xs.drop (1024 * rb)).take 1024) ((w.scales.drop (32 * rb)).take 32),
      ((w.bad.drop (32 * rb)).take 32).any id))

/-- The bytes of a bank image from its logical columns. -/
def packImage (blk8 : Bool) (cols : List ((List Int × Nat) × Bool)) : List PByte :=
  let col := fun c => cols.getD (if blk8 then c / 2 else c) (([], 0), false)
  let nib := fun r c =>
    let w := (col c).1.1.getD r 0
    intBits 4 (if blk8 then (if c % 2 = 0 then hi4 w else lo4 w) else w)
  (List.range 65536).map (fun i =>
      let r := i / 64
      let c := i % 64 * 2
      (nib r c + 16 * nib r (c + 1), (col c).2 || (col (c + 1)).2))
    ++ (List.range 128).map (fun c => ((col c).1.2, (col c).2))

/-- Every image of a matrix of N rows by K inputs is written (R180). -/
def EngRun.packWrite (r : EngRun) (blk8 : Bool) (dst istr k : Nat) (rows : List PackRow) : EngRun :=
  let per := if blk8 then 64 else 128
  (List.range (rows.length / per)).foldl (fun r cb =>
    (List.range (k / 1024)).foldl (fun r rb =>
      r.wr true (wrap50 ((dst : Int) + ((cb * (k / 1024) + rb) * istr : Nat)))
        (packImage blk8 (packCols ((rows.drop (cb * per)).take per) rb))) r) r

/-- Bytes of a row of `k` elements of a format. -/
def rowPacked (c k : Nat) : Nat := (k * elemBits c + 7) / 8

/-- The limits of a pack's shape (R180). -/
def packGood (blk8 : Bool) (k n istr : Nat) : Bool :=
  k != 0 && k % 1024 == 0 && n != 0 && n % (if blk8 then 64 else 128) == 0 && istr % 32 == 0 && decide (65664 ≤ istr)

/-- The rows of a BLK source, read in order. -/
def EngRun.packRead (r : EngRun) (c src k n : Nat) : EngRun × List PackRow :=
  (List.range n).foldl (fun (a : EngRun × List PackRow) i =>
    let x := a.1.rd true (wrap50 ((src + i * rowPacked c k : Nat))) (rowPacked c k)
    let y := x.1.rd true (wrap50 ((src + n * rowPacked c k + i * (k / 32) : Nat))) (k / 32)
    let es := (List.range k).map (elemP (elemBits c) x.2)
    (y.1, a.2 ++ [⟨es.map (fun e => bitsInt (elemBits c) e.1), y.2.map (·.1),
      (List.range (k / 32)).map (fun b => ((es.drop (32 * b)).take 32).any (·.2) || (y.2.getD b (0, false)).2)⟩])) (r, [])

/-- MOVE_PACK (R180). -/
def EngRun.pack (r : EngRun) (d : Desc) : EngRun :=
  let blk8 := d.opx % 2 == 1
  let k := d.w 4 % 2 ^ 24
  let n := d.w 4 / 2 ^ 24 % 2 ^ 24
  let istr := d.w 5 % 2 ^ 24
  let r := r.need (addrsGood [d.w 2, d.w 3] && packGood blk8 k n istr) 3
  if r.fail.isSome then r
  else
    let x := r.packRead (if blk8 then 14 else 13) (d.w 2) k n
    if x.1.fail.isSome then x.1 else x.1.packWrite blk8 (d.w 3) istr k x.2

/-! ### Codec engine (R181) -/

/-- The values of a row of a format, given its bytes and scale bytes, each with its poison. -/
def rowVals (c k : Nat) (row scales : List PByte) : List (FV × Bool) :=
  (List.range k).map (fun j =>
    let e := elemP (elemBits c) row j
    if isBlock c then
      let sc := scales.getD (j / 32) (0, false)
      (blockVal c e.1 sc.1, e.2 || sc.2)
    else (elemVal c e.1, e.2))

/-- Poison of byte `k` of packed elements with their own poison. -/
def byteBad (bits : Nat) (bad : List Bool) (k : Nat) : Bool :=
  let lo := 8 * k / bits
  let hi := (8 * k + 7) / bits
  ((bad.drop lo).take (hi + 1 - lo)).any id

/-- Packed bytes with the poison of the elements in them. -/
def packP (bits : Nat) (es : List Nat) (bad : List Bool) : List PByte :=
  (packElems bits es).zipIdx.map (fun e => (e.1, byteBad bits bad e.2))

/-- A row of values converted to a format: its bytes, its scale bytes, its flags; a block shares its poison. -/
def convRow (c rnd : Nat) (sat : Bool) (vs : List (FV × Bool)) : List PByte × List PByte × Nat :=
  if isBlock c then
    let bs := (blocks32 vs.length vs).map (fun b => (blockConv c rnd (b.map (·.1)), b.any (·.2)))
    (packP (elemBits c) (bs.flatMap (fun b => b.1.1)) (bs.flatMap (fun b => b.1.1.map (fun _ => b.2))),
      bs.map (fun b => (b.1.2.1, b.2)), bs.foldl (fun f b => f ||| b.1.2.2) 0)
  else
    let es := vs.map (fun v => convElem c rnd sat v.1)
    (packP (elemBits c) (es.map (·.1)) (vs.map (·.2)), [], es.foldl (fun f e => f ||| e.2) 0)

/-- CODEC_CONVERT (R181). -/
def EngRun.convertRows (r : EngRun) (d : Desc) : EngRun × Nat :=
  let src := d.w 2
  let dst := d.w 3
  let ci := d.w 4 / 2 ^ 48 % 16
  let co := d.w 4 / 2 ^ 52 % 16
  let rows := d.w 4 / 2 ^ 24 % 2 ^ 24
  let cols := d.w 4 % 2 ^ 24
  let ss := d.w 5 % 2 ^ 32
  let ds := d.w 5 / 2 ^ 32
  let ok := addrsGood [src, dst] && ci != 15 && co != 15 && rows != 0 && cols != 0
    && (!(isBlock ci || isBlock co) || cols % 32 == 0)
  let r := r.need ok 3
  if r.fail.isSome then (r, 0)
  else
    (List.range rows).foldl (fun (a : EngRun × Nat) i =>
      let x := a.1.rd false (wrap50 ((src + i * ss : Nat))) (rowPacked ci cols)
      let y := if isBlock ci then x.1.rd false (wrap50 ((src + rows * ss + i * (cols / 32) : Nat))) (cols / 32) else (x.1, [])
      let o := convRow co (d.w 4 / 2 ^ 56 % 4) (bitOf (d.w 4) 58) (rowVals ci cols x.2 y.2)
      let z := y.1.wr false (wrap50 ((dst + i * ds : Nat))) o.1
      let z := if isBlock co then z.wr false (wrap50 ((dst + rows * ds + i * (cols / 32) : Nat))) o.2.1 else z
      (z, if z.fail.isSome then a.2 else a.2 ||| o.2.2)) (r, 0)

/-- A row converted to BLK4 or BLK8 for a pack (R181): its integers and scales, with flags. -/
def packConv (co : Nat) (vs : List (FV × Bool)) : PackRow × Nat :=
  let bs := (blocks32 vs.length vs).map (fun b => (blockConv co 0 (b.map (·.1)), b.any (·.2)))
  (⟨bs.flatMap (fun b => b.1.1.map (bitsInt (elemBits co))), bs.map (fun b => b.1.2.1), bs.map (·.2)⟩,
    bs.foldl (fun f b => f ||| b.1.2.2) 0)

/-- CODEC_PACK (R181). -/
def EngRun.codecPack (r : EngRun) (d : Desc) : EngRun × Nat :=
  let blk8 := d.opx % 2 == 1
  let ci := d.w 4 / 2 ^ 48 % 16
  let k := d.w 4 % 2 ^ 24
  let n := d.w 4 / 2 ^ 24 % 2 ^ 24
  let istr := d.w 5 % 2 ^ 24
  let src := d.w 2
  let a := d.w 3 % 2 ^ 44
  let window := decide (0xC0000000000 ≤ a) && decide (a < 0xC0200000000) && decide (0x400000 ≤ a % 2 ^ 24)
    && decide (a % 2 ^ 24 < 0xE00000)
  let r := r.need (addrsGood [d.w 2, d.w 3] && ci != 14 && ci != 15 && packGood blk8 k n istr && (!window || a % 32 == 0)) 3
  let r := if r.isFar (d.w 3) then r.stop 4 (d.w 3) else r
  if r.fail.isSome then (r, 0)
  else
    let x := (List.range n).foldl (fun (a : (EngRun × Nat) × List PackRow) i =>
      let x := a.1.1.rd false (wrap50 ((src + i * rowPacked ci k : Nat))) (rowPacked ci k)
      let y := if isBlock ci then x.1.rd false (wrap50 ((src + n * rowPacked ci k + i * (k / 32) : Nat))) (k / 32) else (x.1, [])
      let c := packConv (if blk8 then 14 else 13) (rowVals ci k x.2 y.2)
      ((y.1, a.1.2 ||| c.2), a.2 ++ [c.1])) ((r, 0), [])
    if x.1.1.fail.isSome then x.1 else (x.1.1.packWrite blk8 (d.w 3) istr k x.2, x.1.2)

/-- Chunks written one after another while they fit in `cap`: the bytes written. -/
def EngRun.chunks (r : EngRun) (dst cap : Nat) : Nat → List (List PByte) → EngRun × Nat
  | at_, [] => (r, at_)
  | at_, c :: t =>
    if r.fail.isSome then (r, at_)
    else if cap < at_ + c.length then (r.stop 7 (dst + at_), at_)
    else EngRun.chunks (r.wr false (wrap50 ((dst + at_ : Nat))) c) dst cap (at_ + c.length) t

/-- The chunks of COMPRESS with poison: a chunk's place depends on those before it. -/
def compressP (l : List PByte) : List (List PByte) :=
  let cs := chunksOf (l.length + 1) (l.map (·.1))
  let st := cs.foldl (fun (a : (Nat × Bool) × List (List PByte)) c =>
    let bad := a.1.2 || ((l.drop a.1.1).take c.length).any (·.2)
    ((a.1.1 + c.length, bad), a.2 ++ [(chunkOf c).map (fun b => (b, bad))])) ((0, false), [])
  st.2 ++ [endChunk.map (fun b => (b, st.1.2))]

/-- The output byte count goes to RES. -/
def EngRun.result (r : EngRun) (d : Desc) (n : Nat) (bad : Bool) : EngRun := r.wr false (d.w 6) (numBytes 8 n bad)

/-- COMPRESS (R182, R183). -/
def EngRun.compress (r : EngRun) (d : Desc) : EngRun :=
  let r := r.need (addrsGood [d.w 2, d.w 3, d.w 6]) 3
  let x := r.rd false (d.w 2) (d.w 4 % 2 ^ 40)
  if x.1.fail.isSome then x.1
  else
    let y := x.1.chunks (d.w 3) (d.w 5 % 2 ^ 40) 0 (compressP x.2)
    if y.1.fail.isSome then y.1 else y.1.result d y.2 (x.2.any (·.2))

/-- A decoded stream up to END: its chunks, then none when the stream is well formed, or the failure DATA_BAD. -/
def decompressP : Nat → Bool → List PByte → List (List PByte) → List (List PByte) × Bool
  | 0, _, _, acc => (acc, true)
  | fuel + 1, late, l, acc =>
    if l.length < 4 then (acc, true)
    else
      let h := numAt l 0 4
      let late := late || h.2
      let olen := h.1 / 2 ^ 19 % 2 ^ 12
      let method := h.1 / 2 ^ 16 % 8
      let plen := h.1 % 2 ^ 16
      let body := (l.drop 4).take plen
      let rest := l.drop (4 + plen)
      if bitOf h.1 31 || body.length != plen || decide (3 < method) then (acc, true)
      else if method = 3 then (acc, olen != 0 || plen != 0)
      else if method = 2 then
        if plen != 0 then (acc, true)
        else decompressP fuel late rest (acc ++ [List.replicate (olen + 1) (0, late)])
      else if method = 0 then
        if plen != olen + 1 then (acc, true)
        else decompressP fuel late rest (acc ++ [body.map (fun b => (b.1, b.2 || late))])
      else
        match nibbleDecode (body.map (·.1)) (olen + 1) with
        | none => (acc, true)
        | some o => decompressP fuel late rest (acc ++ [o.map (fun b => (b, late || body.any (·.2)))])

/-- DECOMPRESS (R182, R183): chunks are written as they are decoded. (DESIGN CHOICE, log 29) -/
def EngRun.decompress (r : EngRun) (d : Desc) : EngRun :=
  let r := r.need (addrsGood [d.w 2, d.w 3, d.w 6]) 3
  let x := r.rd false (d.w 2) (d.w 4 % 2 ^ 40)
  if x.1.fail.isSome then x.1
  else
    let o := decompressP (x.2.length + 1) false x.2 []
    let y := x.1.chunks (d.w 3) (d.w 5 % 2 ^ 40) 0 o.1
    if y.1.fail.isSome then y.1
    else if o.2 then y.1.stop 6 (d.w 2)
    else y.1.result d y.2 (x.2.any (·.2))

/-! ### Gather/scatter engine (R184, R185) -/

/-- One element: `add` gives a SCATTER_ADD's format. -/
def EngRun.gsStep (r : EngRun) (d : Desc) (i : Nat) : EngRun :=
  let w5 := d.w 5
  let isz := if bitOf w5 38 then 8 else 4
  let elem := w5 / 2 ^ 24 % 2 ^ 11
  let ia := wrap50 ((d.w 4 + i * isz : Nat))
  let x := r.rd false ia isz
  let j := (numAt x.2 0 isz).1 / 2 ^ (w5 / 2 ^ 35 % 8)
  let bad := (numAt x.2 0 isz).2
  let tab := wrap50 ((d.w 2 + j * (d.w 6 % 2 ^ 32) : Nat))
  let dat := wrap50 ((d.w 3 + i * (d.w 6 / 2 ^ 32) : Nat))
  let mark := fun (l : List PByte) => l.map (fun b => (b.1, b.2 || bad))
  if x.1.fail.isSome then x.1
  else if d.w 7 % 2 ^ 40 ≤ j then
    if !bitOf w5 39 then x.1.stop 5 ia
    else if d.op = 0 then x.1.wr false dat (List.replicate elem (0, bad)) else x.1
  else if d.op = 0 then
    let y := x.1.rd true tab elem
    y.1.wr false dat (mark y.2)
  else
    let y := x.1.rd false dat elem
    if d.op = 1 then y.1.wr true tab (mark y.2) else y.1.wrRed true (some (w5 / 2 ^ 40 % 4, 1)) tab (mark y.2)

/-- GATHER, SCATTER and SCATTER_ADD. -/
def EngRun.gs (r : EngRun) (d : Desc) : EngRun :=
  let w5 := d.w 5
  let elem := w5 / 2 ^ 24 % 2 ^ 11
  let n := w5 % 2 ^ 24
  let afmt := w5 / 2 ^ 40 % 4
  let ok := addrsGood [d.w 2, d.w 3, d.w 4] && n != 0 && decide (4 ≤ elem) && decide (elem ≤ 1024) && elem % 4 == 0
    && d.w 6 % 4 == 0 && d.w 6 / 2 ^ 32 % 4 == 0
    && (d.op != 2 || (afmt != 3 && inHbm (d.w 2) && d.w 2 % rfmtBytes afmt == 0))
  let r := r.need ok 3
  (List.range n).foldl (fun r i => if r.fail.isSome then r else r.gsStep d i) r

end Sys2Proof.Machine
end

