-- ==== Sys2Proof/Machine/EngMath.lean ====
section
/-! DEFINITION. Sort/select, stencil, FP64 matrix, random and crypto engines (R186-R191). -/

namespace Sys2Proof.Machine

/-! ### Sort/select (R186) -/

/-- An item of a SORT: order, key, value, and the poison of key and value. -/
structure SortItem where
  ord : Nat
  key : Nat
  val : Nat
  keyBad : Bool
  valBad : Bool
  deriving DecidableEq, Repr

/-- Bytes of a value by VMODE. -/
def vmodeBytes (v : Nat) : Nat := match v with | 0 => 0 | 2 => 8 | _ => 4

/-- Bytes written with free values: what SORT leaves in its scratch space, which the spec does not state. -/
def EngRun.scratch (r : EngRun) (g n : Nat) : EngRun :=
  let l := (List.range n).map (fun i => ((Config.freeNat (r.s.draws + i) % 256, false) : PByte))
  ({ r with s := { r.s with draws := r.s.draws + n } } : EngRun).wr false g l

/-- Some two extents of a list meet, other than an allowed pair that is the same. -/
def extentsClash (allowed : List (Nat × Nat)) (l : List (Nat × (Nat × Nat))) : Bool :=
  l.any (fun a => l.any (fun b => decide (a.1 < b.1) && meet a.2 b.2 && !(allowed.contains (a.1, b.1) && a.2.1 == b.2.1)))

/-- SORT. (DESIGN CHOICE, log 30) -/
def EngRun.sort (r : EngRun) (d : Desc) : EngRun :=
  let w7 := d.w 7
  let n := w7 % 2 ^ 25
  let kf := w7 / 2 ^ 25 % 16
  let vm := w7 / 2 ^ 30 % 4
  let kb := w7 / 2 ^ 32 % 2 ^ 7
  let bits := keyBits kf
  let ks := bits / 8
  let vs := vmodeBytes vm
  let uint := kf == 0 || kf == 4
  let used := if kb = 0 then bits else kb
  let many := decide (8 < used)
  let ext := [(0, (d.w 2, n * ks))] ++ (if vm = 1 ∨ vm = 2 then [(1, (d.w 3, n * vs))] else [])
    ++ [(2, (d.w 4, n * ks))] ++ (if vm = 0 then [] else [(3, (d.w 5, n * vs))])
    ++ (if many then [(4, (d.w 6, n * (ks + vs)))] else [])
  let ok := addrsGood [d.w 2, d.w 3, d.w 4, d.w 5, d.w 6] && n != 0 && decide (n ≤ 2 ^ 24) && bits != 0
    && (if uint then decide (kb ≤ bits) else kb == 0) && !extentsClash [(0, 2), (1, 3)] ext
  let r := r.need ok 3
  let x := r.rd false (d.w 2) (n * ks)
  let y := if vm = 1 ∨ vm = 2 then x.1.rd false (d.w 3) (n * vs) else (x.1, [])
  let items := (List.range n).map (fun i =>
    let k := numAt x.2 (i * ks) ks
    let v := if vm = 3 then (i, false) else numAt y.2 (i * vs) vs
    (⟨keyOrd kf k.1 % 2 ^ (if uint then used else bits), k.1, v.1, k.2, v.2⟩ : SortItem))
  let desc := bitOf w7 29
  let out := sortBy (fun a b => if desc then decide (b.ord < a.ord) else decide (a.ord < b.ord)) items
  let bad := items.any (·.keyBad)
  let z := if many then y.1.scratch (d.w 6) (n * (ks + vs)) else y.1
  let z := z.wr false (d.w 4) (out.flatMap (fun i => numBytes ks i.key bad))
  if vm = 0 then z else z.wr false (d.w 5) (out.flatMap (fun i => numBytes vs i.val (bad || i.valBad)))

/-- TOPK of one row. -/
def EngRun.topkRow (r : EngRun) (d : Desc) (cols k kf i : Nat) : EngRun :=
  let ks := keyBits kf / 8
  let x := r.rd false (wrap50 ((d.w 2 + i * (d.w 6 % 2 ^ 32) : Nat))) (cols * ks)
  let items := (List.range cols).map (fun j =>
    let v := numAt x.2 (j * ks) ks
    (⟨keyOrd kf v.1, v.1, j, v.2, v.2⟩ : SortItem))
  let small := bitOf (d.w 6) 47
  let out := (sortBy (fun a b => if small then decide (a.ord < b.ord) else decide (b.ord < a.ord)) items).take k
  let bad := items.any (·.keyBad)
  let y := x.1.wr false (wrap50 ((d.w 3 + i * k * ks : Nat))) (out.flatMap (fun e => numBytes ks e.key bad))
  y.wr false (wrap50 ((d.w 4 + 4 * i * k : Nat))) (out.flatMap (fun e => numBytes 4 e.val bad))

/-- TOPK. -/
def EngRun.topk (r : EngRun) (d : Desc) : EngRun :=
  let cols := d.w 5 / 2 ^ 24 % 2 ^ 24
  let rows := d.w 5 % 2 ^ 24
  let k := d.w 6 / 2 ^ 32 % 2 ^ 11
  let kf := d.w 6 / 2 ^ 43 % 16
  let ok := addrsGood [d.w 2, d.w 3, d.w 4] && cols != 0 && decide (cols ≤ 65536) && rows != 0 && (kf == 1 || kf == 2 || kf == 3)
    && k != 0 && decide (k ≤ 1024) && decide (k ≤ cols)
  let r := r.need ok 3
  (List.range rows).foldl (fun r i => if r.fail.isSome then r else r.topkRow d cols k kf i) r

/-- HIST. (DESIGN CHOICE, log 29) -/
def EngRun.hist (r : EngRun) (d : Desc) : EngRun :=
  let kf := d.w 4 / 2 ^ 41 % 16
  let bins := d.w 4 / 2 ^ 24 % 2 ^ 17
  let n := d.w 4 % 2 ^ 24
  let lo := histVal kf (d.w 5 % 2 ^ 32)
  let width := histVal kf (d.w 5 / 2 ^ 32)
  let pos := match width with | .fin neg m _ => !neg && m != 0 | _ => false
  let fin := match lo with | .fin _ _ _ => true | _ => false
  let r := r.need (addrsGood [d.w 2, d.w 3] && decide (kf ≤ 2) && bins != 0 && decide (bins ≤ 65536) && n != 0 && pos && fin) 3
  let x := r.rd false (d.w 2) (4 * n)
  let bs := (List.range n).map (fun i => histBin lo width bins (histVal kf (numAt x.2 (4 * i) 4).1))
  let bad := x.2.any (·.2)
  x.1.wr false (d.w 3) ((List.range (bins + 3)).flatMap (fun b => numBytes 4 (min (2 ^ 32 - 1) (bs.filter (· == b)).length) bad))

/-! ### Stencil (R187) -/

/-- One fused multiply-add in a format with RNE, on patterns, with flags. -/
def fmaIn (f : Fmt) (neg : Bool) (a b c : Nat) : Nat × Nat :=
  let x := f.decode a
  let p := fvFma 0 (if neg then fvNeg x else x) (f.decode b) (f.decode c)
  let e := f.encode 0 false p.1
  (e.1, e.2 ||| p.2)

/-- An output cell: the accumulator, its flags and its poison after every point of the mask, in ascending order. -/
def EngRun.stencilCell (r : EngRun) (d : Desc) (f : Fmt) (coef : List PByte) (x y z : Nat) (start : Nat × Bool) :
    EngRun × (Nat × Nat) × Bool :=
  let e := f.width / 8
  (List.range 27).foldl (fun (a : EngRun × (Nat × Nat) × Bool) k =>
    if !bitOf (d.w 4) (36 + k) then a
    else
      let dx : Int := (k % 3 : Nat) - 1
      let dy : Int := (k / 3 % 3 : Nat) - 1
      let dz : Int := (k / 9 : Nat) - 1
      let off := ((z : Int) + dz) * (d.w 5 / 2 ^ 32 : Nat) + ((y : Int) + dy) * (d.w 5 % 2 ^ 32 : Nat) + (x : Int) + dx
      let v := a.1.rd false (wrap50 ((d.w 2 : Int) + off * e)) e
      let c := numAt coef (k * e) e
      let m := fmaIn f false c.1 (numAt v.2 0 e).1 a.2.1.1
      (v.1, (m.1, a.2.1.2 ||| m.2), a.2.2 || c.2 || (numAt v.2 0 e).2)) (r, (start.1, 0), start.2)

/-- The linear hull of a grid with a halo of `h` cells: first address and bytes. -/
def gridHull (base e nx ny nz sy sz : Nat) (h : Int) : Nat × Nat :=
  let lo := -(h * ((sz : Int) + sy + 1))
  let hi := ((nz : Int) - 1 + h) * sz + ((ny : Int) - 1 + h) * sy + ((nx : Int) - 1 + h)
  (wrap50 ((base : Int) + lo * e), ((hi - lo + 1) * e).toNat)

/-- STENCIL_APPLY, with the flags. (DEDUCED, log 31) -/
def EngRun.stencil (r : EngRun) (d : Desc) : EngRun × Nat :=
  let f := if d.opx % 2 = 1 then fp64 else fp32
  let e := f.width / 8
  let acc := bitOf d.opx 1
  let nx := d.w 4 % 2 ^ 12 + 1
  let ny := d.w 4 / 2 ^ 12 % 2 ^ 12 + 1
  let nz := d.w 4 / 2 ^ 24 % 2 ^ 12 + 1
  let dy := d.w 6 % 2 ^ 32
  let dz := d.w 6 / 2 ^ 32
  let clash := meet (gridHull (d.w 2) e nx ny nz (d.w 5 % 2 ^ 32) (d.w 5 / 2 ^ 32) 1) (gridHull (d.w 3) e nx ny nz dy dz 0)
  let r := r.need (addrsGood [d.w 2, d.w 3, d.w 7] && !clash) 3
  let c := r.rd false (d.w 7) (27 * e)
  (List.range nz).foldl (fun a z => (List.range ny).foldl (fun a y => (List.range nx).foldl (fun (a : EngRun × Nat) x =>
    if a.1.fail.isSome then a
    else
      let o := wrap50 ((d.w 3 + (z * dz + y * dy + x) * e : Nat))
      let old := if acc then a.1.rd false o e else (a.1, [])
      let t := old.1.stencilCell d f c.2 x y z (if acc then numAt old.2 0 e else (0, false))
      let w := t.1.wr false o (numBytes e t.2.1.1 t.2.2)
      (w, a.2 ||| t.2.1.2)) a) a) (c.1, 0)

/-- Cells times points of a stencil, over the FMA rate: busy cycles. -/
def stencilBusy (d : Desc) : Nat :=
  let cells := (d.w 4 % 2 ^ 12 + 1) * (d.w 4 / 2 ^ 12 % 2 ^ 12 + 1) * (d.w 4 / 2 ^ 24 % 2 ^ 12 + 1)
  let pts := ((List.range 27).filter (fun k => bitOf (d.w 4) (36 + k))).length
  let rate := if d.opx % 2 = 1 then 64 else 256
  (cells * pts + rate - 1) / rate

/-! ### FP64 matrix (R188) -/

/-- The rows of a matrix: `rows` × `cols` FP64 elements at row stride `ld`. -/
def EngRun.matRead (r : EngRun) (a rows cols ld : Nat) : EngRun × List (List (Nat × Bool)) :=
  (List.range rows).foldl (fun (x : EngRun × List (List (Nat × Bool))) i =>
    let y := x.1.rd false (wrap50 ((a + i * ld * 8 : Nat))) (8 * cols)
    (y.1, x.2 ++ [(List.range cols).map (fun j => numAt y.2 (8 * j) 8)])) (r, [])

/-- Element i, j of a matrix or of its transpose. -/
def matAt (m : List (List (Nat × Bool))) (t : Bool) (i j : Nat) : Nat × Bool :=
  if t then (m.getD j []).getD i (0, false) else (m.getD i []).getD j (0, false)

/-- The bytes of a matrix, row by row: addresses and lengths. -/
def matRows (a rows cols ld : Nat) : List (Nat × Nat) :=
  (List.range rows).map (fun i => (wrap50 ((a + i * ld * 8 : Nat)), 8 * cols))

/-- Two matrices share a byte. -/
def matMeet (x y : List (Nat × Nat)) : Bool := x.any (fun a => y.any (fun b => meet a b))

/-- GEMM, with the flags: each element in ascending k with one fused multiply-add for each. -/
def EngRun.gemm (r : EngRun) (d : Desc) : EngRun × Nat :=
  let m := d.w 5 % 2 ^ 16 + 1
  let n := d.w 5 / 2 ^ 16 % 2 ^ 16 + 1
  let k := d.w 5 / 2 ^ 32 % 2 ^ 16 + 1
  let lda := d.w 6 % 2 ^ 32
  let ldb := d.w 6 / 2 ^ 32
  let ldc := d.w 7 % 2 ^ 32
  let acc := bitOf d.opx 0
  let ta := bitOf d.opx 1
  let tb := bitOf d.opx 2
  let neg := bitOf d.opx 3 && acc
  let ar := if ta then k else m
  let ac := if ta then m else k
  let br := if tb then n else k
  let bc := if tb then k else n
  let hc := matRows (d.w 4) m n ldc
  let ok := addrsGood [d.w 2, d.w 3, d.w 4] && !matMeet hc (matRows (d.w 2) ar ac lda) && !matMeet hc (matRows (d.w 3) br bc ldb)
  let r := r.need ok 3
  if r.fail.isSome then (r, 0)
  else
    let a := r.matRead (d.w 2) ar ac lda
    let b := a.1.matRead (d.w 3) br bc ldb
    let c := if acc then b.1.matRead (d.w 4) m n ldc else (b.1, [])
    (List.range m).foldl (fun (s : EngRun × Nat) i =>
      if s.1.fail.isSome then s
      else
        let row := (List.range n).map (fun j =>
          let st := if acc then matAt c.2 false i j else (0, false)
          (List.range k).foldl (fun (x : (Nat × Nat) × Bool) q =>
            let u := matAt a.2 ta i q
            let v := matAt b.2 tb q j
            let e := fmaIn fp64 neg u.1 v.1 x.1.1
            ((e.1, x.1.2 ||| e.2), x.2 || u.2 || v.2)) ((st.1, 0), st.2))
        (s.1.wr false (wrap50 ((d.w 4 + i * ldc * 8 : Nat))) (row.flatMap (fun e => numBytes 8 e.1.1 e.2)),
          row.foldl (fun f e => f ||| e.1.2) s.2)) (c.1, 0)

/-- Busy cycles of a GEMM: 1,024 fused multiply-adds a cycle. -/
def gemmBusy (d : Desc) : Nat :=
  ((d.w 5 % 2 ^ 16 + 1) * (d.w 5 / 2 ^ 16 % 2 ^ 16 + 1) * (d.w 5 / 2 ^ 32 % 2 ^ 16 + 1) + 1023) / 1024

/-! ### Random (R189) -/

/-- GENERATE. -/
def EngRun.generate (r : EngRun) (d : Desc) : EngRun :=
  let dist := d.opx % 4
  let n := d.w 6 % 2 ^ 40
  let r := r.need (addrsGood [d.w 2] && dist != 3 && n != 0 && (dist != 2 || n % 2 == 0)) 3
  let ctr := d.w 4 + 2 ^ 64 * d.w 5
  if r.fail.isSome then r
  else r.wr false (d.w 2) ((List.range n).flatMap (fun j => numBytes 4 (randomOut dist ctr (d.w 3) j) false))

/-! ### Crypto (R190, R191) -/

def State.setCryptoKey (s : State) (f : Frond) (slot : Nat) (v : Nat × Nat) : State :=
  { s with ring := { s.ring with keys := Sparse.set (fun _ => (0, 0)) s.ring.keys (f.idx * 32 + slot) v } }

/-- The parts of a crypto descriptor: key bytes, IV, additional data, and the input. -/
def EngRun.cryptoIn (r : EngRun) (d : Desc) (n : Nat) : EngRun × List (List Nat) × List Nat × List PByte × List PByte :=
  let slot := d.w 6 / 2 ^ 44 % 32
  let r := r.need (addrsGood [d.w 2, d.w 3, d.w 4] && (r.s.cryptoKey r.f slot).isSome) 3
  let k := (r.s.cryptoKey r.f slot).getD (0, 0)
  let r := r.need (k.2 == r.dom) 2
  let a := r.rd false (d.w 4) (d.w 6 / 2 ^ 32 % 2 ^ 12)
  let x := a.1.rd false (d.w 2) n
  (x.1, aesKeys (leBytes 32 k.1), leBytes 8 (d.w 7) ++ leBytes 4 (d.w 5), a.2, x.2)

/-- Bytes under the key stream keep the poison of their input. -/
def streamP (keys : List (List Nat)) (iv : List Nat) (l : List PByte) : List PByte :=
  List.zipWith (fun b p => (b, p.2)) (gcmStream keys iv (l.map (·.1))) l

/-- ENCRYPT. -/
def EngRun.encrypt (r : EngRun) (d : Desc) : EngRun :=
  let len := d.w 6 % 2 ^ 32
  let x := r.cryptoIn d len
  if x.1.fail.isSome then x.1
  else
    let c := streamP x.2.1 x.2.2.1 x.2.2.2.2
    let tag := gcmTag x.2.1 x.2.2.1 (x.2.2.2.1.map (·.1)) (c.map (·.1))
    let bad := x.2.2.2.1.any (·.2) || c.any (·.2)
    (x.1.wr false (d.w 3) c).wr false (wrap50 ((d.w 3 + len : Nat))) (tag.map (fun b => (b, bad)))

/-- DECRYPT: a tag that does not match leaves zeros and TAG_BAD. -/
def EngRun.decrypt (r : EngRun) (d : Desc) : EngRun :=
  let len := d.w 6 % 2 ^ 32
  let x := r.cryptoIn d (len + 16)
  if x.1.fail.isSome then x.1
  else
    let c := x.2.2.2.2.take len
    let tag := gcmTag x.2.1 x.2.2.1 (x.2.2.2.1.map (·.1)) (c.map (·.1))
    if tag = (x.2.2.2.2.drop len).map (·.1) then x.1.wr false (d.w 3) (streamP x.2.1 x.2.2.1 c)
    else (x.1.wr false (d.w 3) (List.replicate len (0, false))).stop 8 (d.w 2)

end Sys2Proof.Machine
end

