-- ==== Sys2Proof/Machine/Interrupts.lean ====
section
/-! DEFINITION. The commands of the interrupt controllers (R481-R492). -/

namespace Sys2Proof.Machine

/-- A controller has a source under this ID: 0x000-0x3FE on an FIC, 0x00-0xFF on the PIC (R481). -/
def irqExists (c : Ctl) (src : Nat) : Bool :=
  match c with
  | .fic _ => decide (src < 1023)
  | .pic => decide (src < 256)

/-- A controller has this target (R481). -/
def irqTargetExists (c : Ctl) (t : Nat) : Bool :=
  match c with
  | .fic _ => decide (t < 8)
  | .pic => decide (t < 2)

/-- The sources that a word of PEND_SET or PEND_CLR names. -/
def irqNamed (c : Ctl) (word : Nat) (bits : BitVec 64) : List Nat :=
  ((bitsOf bits.toNat).map (fun b => 64 * word + b)).filter (irqExists c)

/-- A software clear: on a level source it takes effect only while the line is low (R484). -/
def State.irqClear (s : State) (c : Ctl) (src : Nat) : State :=
  if !s.on (srcField c F.SRC_SENSE src) && s.irqLine c src then s else s.irqUnpend c src

/-- The spurious ID (R481). -/
def irqSpurious : Nat := 1023

/-- The claim of a source (R486): it becomes active, its pending state clears for an edge or a software set, and
the target's stack takes its ID and PRIO. A level source stays pending while its line is high. -/
def State.irqTake (s : State) (c : Ctl) (t src : Nat) : State :=
  let prio := s.rd (srcField c F.SRC_PRIO src)
  let s := if !s.on (srcField c F.SRC_SENSE src) && s.irqLine c src then
      let k := s.ctl c
      s.setCtl c { k with latched := k.latched.filter (· != src), released := k.released.filter (· != src) }
    else s.irqUnpend c src
  let s := setWordBit s c F.FIC_ACTIVE_ACTIVE src true
  let k := s.ctl c
  s.setCtl c { k with claims := Sparse.set (fun _ => []) k.claims t ((src, prio) :: s.irqStack c t) }

/-- The core goes to the vector of an ID, and is idle no more (R486, R490). -/
def State.irqVector (s : State) (c : Ctl) (t id : Nat) : State :=
  let base := s.rd ((F.FIC_CORE_VEC_BASE.pg (ctlPage c)).i t) * 2 ^ 14
  let k := s.ctl c
  let s := s.setCtl c { k with claimed := (t, (base + 16 * id) % 2 ^ 64) :: k.claimed, wfi := k.wfi.filter (· != t) }
  match c with
  | .fic f => s.when (s.rd (F.CORE_STATUS_STATE.pg (corePage f t)) == 2)
      (fun s => s.wr (F.CORE_STATUS_STATE.pg (corePage f t)) 1)
  | .pic => s

/-- The end of a source's active state: a level source samples its line afresh, and a high line counts as an event of its
group (R488, R489, R491). (DESIGN CHOICE, log 75) -/
def State.irqEnd (s : State) (c : Ctl) (src : Nat) : State :=
  let s := setWordBit s c F.FIC_ACTIVE_ACTIVE src false
  if !s.on (srcField c F.SRC_SENSE src) && s.irqLine c src
  then (setWordBit s c F.FIC_PEND_SET_PEND src true).irqCome c src else s

/-- The reset of a target's core: its stack empties and every source on it stops being active (R491). -/
def State.irqCoreReset (s : State) (c : Ctl) (t : Nat) : State :=
  let ids := (s.irqStack c t).map (·.1)
  let k := s.ctl c
  let s := s.setCtl c { k with claims := Sparse.set (fun _ => []) k.claims t [], wfi := k.wfi.filter (· != t) }
  ids.foldl (fun s i => s.irqEnd c i) s

/-- R483: the filtered line of a wired source takes a level. (DESIGN CHOICE, log 75) -/
def execIrqLineChange (c : Ctl) (src : Fin 1024) (level : Bool) (s : State) : Host.Outcome State Fault Refusal :=
  .next (s.when (irqExists c src.val && s.on (srcField c F.SRC_WIRED src.val))
    (fun s => s.irqLineTo c src.val level))

/-- R484: each named source becomes pending as by one edge. -/
def execFicPendSet (r : Req) (c : Ctl) (word : Fin 16) (bits : BitVec 64) (s : State) :
    Host.Outcome State Fault Refusal :=
  .next (s.cmdAt r ((F.FIC_PEND_SET_PEND.pg (ctlPage c)).i word.val) false
    (fun s => (irqNamed c word.val bits).foldl (fun s i => s.irqEdge c i) s))

/-- R484: each named source is cleared. -/
def execFicPendClr (r : Req) (c : Ctl) (word : Fin 16) (bits : BitVec 64) (s : State) :
    Host.Outcome State Fault Refusal :=
  .next (s.cmdAt r ((F.FIC_PEND_CLR_PEND.pg (ctlPage c)).i word.val) false
    (fun s => (irqNamed c word.val bits).foldl (fun s i => s.irqClear c i) s))

/-- R486, R487: a target claims what qualifies now, or the spurious ID. -/
def execIrqClaim (c : Ctl) (target : Fin 8) (s : State) : Host.Outcome State Fault Refusal :=
  .next (s.when (irqTargetExists c target.val) (fun s =>
    match s.irqPresented c target.val with
    | some id => (s.irqTake c target.val id).irqVector c target.val id
    | none => (s.incSat (F.FIC_STATS_SPURIOUS.pg (ctlPage c))).irqVector c target.val irqSpurious))

/-- What a write to a target's EOI register does (R487, R488). -/
def State.irqEoi (s : State) (c : Ctl) (t id : Nat) : State :=
  if id = irqSpurious then s
  else
    match s.irqStack c t with
    | (top, _) :: rest =>
      if top = id then
        let k := s.ctl c
        (s.setCtl c { k with claims := Sparse.set (fun _ => []) k.claims t rest }).irqEnd c id
      else s.err (ctlPage c) 0
    | [] => s.err (ctlPage c) 0

/-- R488: an EOI write. -/
def execFicEoi (r : Req) (c : Ctl) (target : Fin 8) (id : BitVec 10) (s : State) :
    Host.Outcome State Fault Refusal :=
  .next (s.cmdAt r ((F.FIC_EOI_ID.pg (ctlPage c)).i target.val) false
    (fun s => s.when (irqTargetExists c target.val) (fun s => s.irqEoi c target.val id.toNat)))

/-- R489: a moderation group's count or time is reached; TIME_US 0 is no time limit. -/
def execModGroupRelease (c : Ctl) (group : Fin 32) (s : State) : Host.Outcome State Fault Refusal :=
  let count := (F.FIC_MOD_COUNT.pg (ctlPage c)).i group.val
  let due := s.on ((F.FIC_MOD_TIME_US.pg (ctlPage c)).i group.val)
    || decide (max 1 (s.rd count) ≤ (Sparse.get modDefault (s.ctl c).groups group.val).count)
  .next (s.when due (fun s => s.irqRelease c group.val))

/-- The groups that hold a pending, unreleased source of a target. -/
def State.irqHeldGroups (s : State) (c : Ctl) (t : Nat) : List Nat :=
  (List.range 32).filter (fun g =>
    (s.irqGroupIds c g).any (fun i => s.irqTarget c i == t && !(s.ctl c).released.contains i))

/-- The target begins to idle in WFI. -/
def State.irqSleep (s : State) (c : Ctl) (t : Nat) : State :=
  match c with
  | .fic f => s.when (s.rd (F.CORE_STATUS_STATE.pg (corePage f t)) == 1)
      (fun s => s.wr (F.CORE_STATUS_STATE.pg (corePage f t)) 2)
  | .pic =>
    let k := s.ctl c
    s.setCtl c { k with wfi := if k.wfi.contains t then k.wfi else t :: k.wfi }

/-- R490: a target enters WFI, and every group that holds a source for it releases. -/
def execWfiRelease (c : Ctl) (target : Fin 8) (s : State) : Host.Outcome State Fault Refusal :=
  .next (s.when (irqTargetExists c target.val) (fun s =>
    let s := s.irqSleep c target.val
    s.when (s.irqIdle c target.val)
      (fun s => (s.irqHeldGroups c target.val).foldl (fun s g => s.irqRelease c g) s)))

end Sys2Proof.Machine
end

