-- ==== Sys2Proof/Machine/Engines.lean ====
section
/-! DEFINITION. The engine ring and the control cores: the meaning of each command (R167-R198). -/

namespace Sys2Proof.Machine

/-- Whether the engine's descriptor will run now, for what is counted once it has. -/
def State.engDesc (s : State) (f : Frond) (n type op : Nat) : Desc := (s.engReady f n type op).getD ⟨[], 0, 0, 0⟩

/-- `g` applied to what a run leaves, when its descriptor has made its writes. -/
def State.engAfter (s : State) (f : Frond) (n type op : Nat) (old : State) (g : Desc → State → State) : State :=
  if (old.engReady f n type op).isSome && (s.eng f n).done.isSome then g (old.engDesc f n type op) s else s

/-- A run whose exception flags go to ENG_FLAGS. -/
def State.engRunFl (s : State) (f : Frond) (n type op : Nat) (kb : Bool) (g : Desc → EngRun → EngRun × Nat) : State :=
  s.engRun f n type op kb (fun d r =>
    let x := g d r
    { x.1 with s := x.1.s.engFlags f n x.2 })

/-- MOVE_COPY (R178, R179). -/
def execMoveCopy (f : Frond) (n : Fin 44) (s : State) : Host.Outcome State Fault Refusal :=
  .next (s.engRun f n.val 1 0 true (fun d r => r.copy d))

/-- MOVE_TRANSPOSE (R178). -/
def execMoveTranspose (f : Frond) (n : Fin 44) (s : State) : Host.Outcome State Fault Refusal :=
  .next (s.engRun f n.val 1 1 true (fun d r => r.transpose d))

/-- MOVE_PACK (R180). -/
def execMovePack (f : Frond) (n : Fin 44) (s : State) : Host.Outcome State Fault Refusal :=
  .next (s.engRun f n.val 1 2 true (fun d r => r.pack d))

/-- MOVE_FILL (R178). -/
def execMoveFill (f : Frond) (n : Fin 44) (s : State) : Host.Outcome State Fault Refusal :=
  .next (s.engRun f n.val 1 3 true (fun d r => r.fill d))

/-- CODEC_CONVERT (R181). -/
def execCodecConvert (f : Frond) (n : Fin 44) (s : State) : Host.Outcome State Fault Refusal :=
  .next (s.engRunFl f n.val 2 0 true (fun d r => r.convertRows d))

/-- CODEC_PACK (R181). -/
def execCodecPack (f : Frond) (n : Fin 44) (s : State) : Host.Outcome State Fault Refusal :=
  .next (s.engRunFl f n.val 2 1 true (fun d r => r.codecPack d))

/-- COMPRESS (R183). -/
def execCompress (f : Frond) (n : Fin 44) (s : State) : Host.Outcome State Fault Refusal :=
  .next (s.engRun f n.val 2 2 true (fun d r => r.compress d))

/-- DECOMPRESS (R183). -/
def execDecompress (f : Frond) (n : Fin 44) (s : State) : Host.Outcome State Fault Refusal :=
  .next (s.engRun f n.val 2 3 true (fun d r => r.decompress d))

/-- GATHER (R184, R159). -/
def execGather (f : Frond) (n : Fin 44) (s : State) : Host.Outcome State Fault Refusal :=
  .next (s.engRun f n.val 3 0 true (fun d r => r.gs d))

/-- SCATTER (R185). -/
def execScatter (f : Frond) (n : Fin 44) (s : State) : Host.Outcome State Fault Refusal :=
  .next (s.engRun f n.val 3 1 true (fun d r => r.gs d))

/-- SCATTER_ADD (R185). -/
def execScatterAdd (f : Frond) (n : Fin 44) (s : State) : Host.Outcome State Fault Refusal :=
  .next (s.engRun f n.val 3 2 true (fun d r => r.gs d))

/-- SORT (R186). -/
def execSort (f : Frond) (n : Fin 44) (s : State) : Host.Outcome State Fault Refusal :=
  .next (s.engRun f n.val 4 0 true (fun d r => r.sort d))

/-- TOPK (R186). -/
def execTopk (f : Frond) (n : Fin 44) (s : State) : Host.Outcome State Fault Refusal :=
  .next (s.engRun f n.val 4 1 true (fun d r => r.topk d))

/-- HIST (R186). -/
def execHist (f : Frond) (n : Fin 44) (s : State) : Host.Outcome State Fault Refusal :=
  .next (s.engRun f n.val 4 2 true (fun d r => r.hist d))

/-- STENCIL_APPLY (R187). -/
def execStencilApply (f : Frond) (n : Fin 44) (s : State) : Host.Outcome State Fault Refusal :=
  .next ((s.engRunFl f n.val 5 0 false (fun d r => r.stencil d)).engAfter f n.val 5 0 s (fun d t =>
    t.activity f 7 (stencilBusy d) (t.ctxTag d.ctx) none))

/-- GEMM (R188). -/
def execGemm (f : Frond) (n : Fin 44) (s : State) : Host.Outcome State Fault Refusal :=
  .next ((s.engRunFl f n.val 6 0 false (fun d r => r.gemm d)).engAfter f n.val 6 0 s (fun d t =>
    t.activity f 6 (gemmBusy d) (t.ctxTag d.ctx) none))

/-- GENERATE (R189): a NORMAL output is inexact. -/
def execGenerate (f : Frond) (n : Fin 44) (s : State) : Host.Outcome State Fault Refusal :=
  .next (s.engRunFl f n.val 7 0 true (fun d r =>
    let x := r.generate d
    (x, if x.fail.isNone && d.opx % 4 == 2 then flNX else 0)))

/-- ENCRYPT (R190). -/
def execEncrypt (f : Frond) (n : Fin 44) (s : State) : Host.Outcome State Fault Refusal :=
  .next (s.engRun f n.val 8 0 true (fun d r => r.encrypt d))

/-- DECRYPT (R190). -/
def execDecrypt (f : Frond) (n : Fin 44) (s : State) : Host.Outcome State Fault Refusal :=
  .next (s.engRun f n.val 8 1 true (fun d r => r.decrypt d))

/-- A descriptor with every write made completes: OK or POISONED (R172, R175). -/
def State.descComplete (s : State) (f : Frond) (n : Nat) (d : Desc) (code : Nat) : State :=
  let w1 := d.w 1
  let dom := s.ctxDom d.ctx
  if w1 / 2 ^ 30 % 4 != 0 && !s.domMay dom rightW (s.signalAddr w1) 8 then s.engEnd f n 2 (s.signalAddr w1)
  else
    let r := s.signalAdd f .signal w1
    if r.2 != 0 then r.1.engEnd f n r.2 (s.signalAddr w1)
    else
      let s := r.1.engLinksFree f n
      let s := s.setEng f n (s.eng f n).rest
      let s := ((s.engSync f n).inc (ef F.ENG_DONE_COUNT f n)).itemDone d.ctx d.item
      let s := if code == 1 && bitOf (d.w 0) 18 then s.ctxFault d.ctx d.gen 3 1 (f.idx * 128 + n) d.item else s
      (s.engKick f).engRetry f

/-- DESCRIPTOR_COMPLETE (R172, R255). -/
def execDescriptorComplete (f : Frond) (n : Fin 44) (s : State) : Host.Outcome State Fault Refusal :=
  let u := s.eng f n.val
  match u.running, u.done with
  | some d, some code => .next (if s.heldDom (s.ctxDom d.ctx) || s.groupCount f (.engine n.val) != 0 then s else s.descComplete f n.val d code)
  | _, _ => .next s

/-- ENG_WATCHDOG_EXPIRE (R176): a running descriptor whose remote writes await their WDONEs is ended too. -/
def execEngWatchdogExpire (f : Frond) (n : Fin 44) (s : State) : Host.Outcome State Fault Refusal :=
  match (s.eng f n.val).running with
  | some _ => .next (((s.err (engPage f n.val) 2).engEnd f n.val 0xA 0).engRetry f)
  | none => .next s

/-- A field of a frond's RING page. -/
def rgf (g : Field) (f : Frond) : Field := g.pg (frondPg f 0x120)

/-- CRYPTO_KEY_COMMIT (R191, R198). -/
def execCryptoKeyCommit (r : Req) (f : Frond) (s : State) : Host.Outcome State Fault Refusal :=
  .next (s.cmdAt r (rgf F.CRYPTO_KEY_CMD_COMMIT f) true (fun s =>
    let slot := s.rd (rgf F.CRYPTO_KEY_SEL_SLOT f)
    let key := (List.range 4).foldr (fun w a => s.rd ((rgf F.CRYPTO_KEY_W_KEY f).i w) + 2 ^ 64 * a) 0
    let s := s.setCryptoKey f slot (key + 1, s.rd (rgf F.CRYPTO_KEY_SEL_DOMAIN f))
    let s := s.setBit (rgf F.CRYPTO_KEY_VALID_VALID f) slot
    (List.range 4).foldl (fun s w => s.wr ((rgf F.CRYPTO_KEY_W_KEY f).i w) 0) s))

/-- CRYPTO_KEY_CLEAR (R198). -/
def execCryptoKeyClear (r : Req) (f : Frond) (s : State) : Host.Outcome State Fault Refusal :=
  .next (s.cmdAt r (rgf F.CRYPTO_KEY_CMD_CLEAR f) true (fun s =>
    let slot := s.rd (rgf F.CRYPTO_KEY_SEL_SLOT f)
    (s.setCryptoKey f slot (0, 0)).clrBit (rgf F.CRYPTO_KEY_VALID_VALID f) slot))

/-- A control core resets (R196, R197): its interrupt stack empties, LM_SIZE takes effect, and local memory of another size
starts unwritten. (DESIGN CHOICE, log 32) -/
def State.coreReset (s : State) (f : Frond) (c : Nat) : State :=
  let lm := s.rd (F.CORE_CFG_LM_SIZE.pg (corePage f c))
  let k := f.idx * 8 + c
  let s := if Sparse.get (fun _ => 0) s.ring.lmSize k = lm then s
    else { s.memZero (0xD0000000000 + f.idx * 0x1000000 + c * 0x200000) 0x200000 with
           ring := { s.ring with lmSize := Sparse.set (fun _ => 0) s.ring.lmSize k lm } }
  let s := { s with link := { s.link with
    stalled := s.link.stalled.filter (fun e => !(e.frond == f && e.user == LinkUser.core c)) } }
  let s := s.irqCoreReset (.fic f) c
  s.wr (F.CORE_STATUS_STATE.pg (corePage f c)) (if !s.on (F.BLK_CTRL_ENABLE.pg (corePage f c)) then 0
    else if s.on (F.CORE_CTRL_HALT.pg (corePage f c)) then 3 else 1)

/-- CORE_RESET (R197). (DESIGN CHOICE, log 32) -/
def execCoreReset (r : Req) (f : Frond) (c : Fin 8) (s : State) : Host.Outcome State Fault Refusal :=
  .next (s.cmdAt r (F.CORE_CTRL_RESET.pg (corePage f c.val)) false (fun s =>
    if s.rd (F.CORE_STATUS_STATE.pg (corePage f c.val)) = 4 then s else s.coreReset f c.val))

/-- A free byte. -/
def State.freeByte (s : State) : State × Nat := (s.drawn, s.free % 256)

/-- `n` free bytes. -/
def State.freeBytes (s : State) : Nat → State × List Nat
  | 0 => (s, [])
  | n + 1 =>
    let x := s.freeByte
    let y := State.freeBytes x.1 n
    (y.1, x.2 :: y.2)

/-- A dirty 64-byte line whose data is lost is written back poisoned (R197); what its bytes then hold is free.
(DESIGN CHOICE, log 32) -/
def State.lineLost (s : State) (f : Frond) (g : Nat) : State :=
  let x := s.freeBytes 64
  (x.1.wrMem (some f.idx) 0 (g % 2 ^ 44 / 64 * 64) x.2 true).1

/-- CORE_LOAD_POISON (R197): a poisoned load, or else an uncorrectable line of the L2, dirty or not, raises a load access
fault. -/
def execCoreLoadPoison (f : Frond) (c : Fin 8) (addr : BitVec 50) (poison dirty : Bool) (s : State) :
    Host.Outcome State Fault Refusal :=
  let g := fun (x : Field) => x.pg (corePage f c.val)
  let s := ((s.wr (g F.CORE_ERR_VALID) 1).wr (g F.CORE_ERR_POISON) (b2n poison)).wr (g F.CORE_ERR_ADDR) addr.toNat
  let s := s.answer Res.err
  .next (
    if poison then s
    else
      let s := s.err (corePage f c.val) 1
      if dirty && addr.toNat / 2 ^ 44 == s.modIdx then s.lineLost f addr.toNat else s)

end Sys2Proof.Machine
end

