-- ==== Sys2Proof/Machine/TileOps.lean ====
section
/-! DEFINITION. Array calibration, spare rotation and array fences as shared operations (R80-R102). -/

namespace Sys2Proof.Machine

/-- A field of a frond's ACAL page. -/
def acf (g : Field) (f : Frond) : Field := g.pg (frondPg f 0x101)

/-- Gated calibration work may run: a window, or SELFTEST_FORCE. -/
def State.calGateOpen (s : State) (f : Frond) : Bool := s.calOpen f || s.on (acf F.ACAL_CTRL_SELFTEST_FORCE f)

/-- The sensor's distance from CAL_TEMP (R88). -/
def State.drift (s : State) (f : Frond) (p a : Nat) : Nat :=
  (s.rdS (af F.ARR_STATUS_TEMP f p a) - s.rdS (af F.ARR_STATUS_CAL_TEMP f p a)).natAbs

/-- The sensor lies beyond ACAL_TEMP_TRIG from CAL_TEMP. -/
def State.drifted (s : State) (f : Frond) (p a : Nat) : Bool :=
  decide (s.rd (acf F.ACAL_TEMP_TRIG_THRESH f) < s.drift f p a)

/-- The calibration of an array is older than 600 s (R80). -/
def State.calOld (s : State) (f : Frond) (p a : Nat) : Bool :=
  decide (600 * 250000000 < s.now - Sparse.get (fun _ => 0) (s.tile f p).calAt a)

/-- The limits of R80 apply to an array: it is calibrated, its sensor is good and near CAL_TEMP, its calibration at most 600 s
old, and neither has failed since that calibration (R81). -/
def State.calFresh (s : State) (f : Frond) (p a : Nat) : Bool :=
  Sparse.get (fun _ => 0) (s.tile f p).calNo a != 0 && !s.on (af F.ARR_STATUS_STALE f p a) && !s.drifted f p a
    && !s.calOld f p a && !bitOf (s.tile f p).sensorBad a

/-- ARR_IN_SERVICE: healthy arrays in slots. -/
def State.inService (s : State) (f : Frond) (p : Nat) : State :=
  s.wr (tf F.TILE_STATUS_ARR_IN_SERVICE f p)
    (((List.range 4).filter (fun k => s.rd (af F.ARR_STATUS_ARR_STATE f p (s.slotArr f p k)) == 0)).length)

/-- Rotation is on for the tile. -/
def State.rotOn (s : State) (f : Frond) (p : Nat) : Bool :=
  s.on (acf F.ACAL_CTRL_ROT_EN f) && s.on (tf F.TILE_CFG_ROT_EN f p)

/-- Of two slots the one to target first (R85): queued by temperature with the larger change, then the older
calibration; of equals the lower slot. (DESIGN CHOICE, log 26) -/
def targetBetter (s : State) (f : Frond) (p : Nat) (best : Option Nat) (k : Nat) : Option Nat :=
  match best with
  | none => some k
  | some b =>
    let a := s.slotArr f p k
    let c := s.slotArr f p b
    let qa := s.on (af F.ARR_STATUS_TEMP_TRIG f p a)
    let qc := s.on (af F.ARR_STATUS_TEMP_TRIG f p c)
    let old := fun x => Sparse.get (fun _ => 0) (s.tile f p).calAt x
    if qa && !qc then some k
    else if qa && qc then (if s.drift f p c < s.drift f p a then some k else some b)
    else if qc then some b
    else if old a < old c then some k else some b

/-- The spare is about to begin a COPY: a self-test that is wanted runs first (R90), else the target is chosen and COPY
starts (R84, R85). -/
def State.rotBegin (s : State) (f : Frond) (p : Nat) : State :=
  if (s.tile f p).bist then (s.updTile f p (fun u => { u with bist := false })).setRot f p 5
  else
    match (List.range 4).foldl (targetBetter s f p) none with
    | none => s
    | some k => (s.wr (tf F.ARR_SLOT_TARGET f p) k).setRot f p 1

/-- The slot that an in-place calibration takes: of those whose array the temperature trigger queued the first by R85. -/
def State.ipTarget (s : State) (f : Frond) (p : Nat) : Option Nat :=
  ((List.range 4).filter (fun k => s.on (af F.ARR_STATUS_TEMP_TRIG f p (s.slotArr f p k)))).foldl (targetBetter s f p) none

/-- A tile without a spare begins an in-place calibration while the gate is open (R89). -/
def State.ipBegin (s : State) (f : Frond) (p : Nat) : State :=
  if (s.tile f p).ipSlot.isSome || !s.calGateOpen f then s
  else
    match s.ipTarget f p with
    | none => s
    | some k =>
      ((s.wr (af F.ARR_STATUS_ARR_STATE f p (s.slotArr f p k)) 3).updTile f p (fun u => { u with ipSlot := some k })).inService
        f p

/-- The spare returns to IDLE, or to the self-test that is wanted before its next COPY (R90). -/
def State.rotIdle (s : State) (f : Frond) (p : Nat) : State :=
  let b := (s.tile f p).bist
  (s.updTile f p (fun u => { u with bist := false })).setRot f p (if b then 5 else 0)

/-- Both banks, their validity and the active bank of array `a` are copied to array `c` (R84). -/
def State.bankCopy (s : State) (f : Frond) (p a c : Nat) : State :=
  let u := s.tile f p
  let keep := u.bank.filter (fun e => decide (e.1 < bankKey c 0) || decide (bankKey (c + 1) 0 ≤ e.1))
  let moved := (u.bank.filter (fun e => decide (bankKey a 0 ≤ e.1) && decide (e.1 < bankKey (a + 1) 0))).map
    (fun e => (e.1 - bankKey a 0 + bankKey c 0, e.2))
  let v := [0, 1].foldl (fun v b => if bitOf u.bankValid (a * 2 + b) then setBitN v (c * 2 + b)
    else clrBitN v (c * 2 + b)) u.bankValid
  let s := s.setTile f p { u with bank := moved.foldl (fun m e => Sparse.set (fun _ => 0) m e.1 e.2) keep, bankValid := v }
  s.wr (af F.ARR_STATUS_ACTIVE_BANK f p c) (s.rd (af F.ARR_STATUS_ACTIVE_BANK f p a))

/-- A calibration of array `a` is recorded: its residuals and verdict; a pass records CAL_TEMP and new coefficients
(R82, R81); the number of the calibration names them. -/
def State.calRecord (s : State) (f : Frond) (p a : Nat) (r : CalResult) (ok : Bool) : State :=
  let s := (s.wr (af F.ARR_CAL_RES_OFFSET_RES f p a) r.offset.toNat).wr (af F.ARR_CAL_RES_GAIN_RES f p a) r.gain.toNat
  let s := (s.wr (af F.ARR_CAL_RES_NOISE f p a) r.noise.toNat).wr (af F.ARR_CAL_RES_PASS f p a) (b2n ok)
  if ok then
    let s := s.wr (af F.ARR_STATUS_CAL_TEMP f p a) (s.rd (af F.ARR_STATUS_TEMP f p a))
    let s := (s.wr (af F.ARR_STATUS_STALE f p a) 0).wr (af F.ARR_STATUS_TEMP_TRIG f p a) 0
    let n := s.draws + 1
    (s.drawn).updTile f p (fun u => { u with
      calNo := Sparse.set (fun _ => 0) u.calNo a n
      calAt := Sparse.set (fun _ => 0) u.calAt a s.now
      calFails := Sparse.set (fun _ => 0) u.calFails a 0 })
  else
    let s := (s.incSat (af F.ARR_STATUS_CAL_FAILS f p a)).err (tilePage f p) 1
    s.updTile f p (fun u => { u with
      calFails := Sparse.set (fun _ => 0) u.calFails a (Sparse.get (fun _ => 0) u.calFails a + 1) })

/-- A calibration result lies within ACAL_LIMITS and the limits of CORR_DATA, and its verification held (R82, R102). -/
def State.calPass (s : State) (f : Frond) (r : CalResult) : Bool :=
  r.verified && r.inRange && decide (r.offset.toNat ≤ s.rd (acf F.ACAL_LIMITS_OFFSET_MAX f))
    && decide (r.gain.toNat ≤ s.rd (acf F.ACAL_LIMITS_GAIN_MAX f))
    && decide (r.noise.toNat ≤ s.rd (acf F.ACAL_LIMITS_NOISE_MAX f))

/-- Arrays of a tile that are fenced. -/
def State.arraysFenced (s : State) (f : Frond) (p : Nat) : Nat :=
  ((List.range 5).filter (fun a => s.rd (af F.ARR_STATUS_ARR_STATE f p a) == 2)).length

/-- An array is fenced (R91): the spare leaves rotation; an array in service gives its slot to the spare, whose banks are
invalid there unless they mirror the slot; a second fenced array fences the tile. The spec does not say what fills the slot.
(DESIGN CHOICE, log 26) -/
def State.arrayFence (s : State) (f : Frond) (p a : Nat) : State :=
  if s.rd (af F.ARR_STATUS_ARR_STATE f p a) = 2 then s
  else
    let s := (s.wr (af F.ARR_STATUS_ARR_STATE f p a) 2).err (tilePage f p) 2
    let s := s.event (tilePage f p) 0xA002
    let sp := s.spareArr f p
    let s := if sp = a then (s.wr (tf F.ARR_SLOT_SPARE f p) 7).setRot f p 6
      else
        match (List.range 4).find? (fun k => s.slotArr f p k == a) with
        | some k =>
          if sp < 5 then
            let s := s.when (!(s.mirrors f p k && decide (2 ≤ s.rot f p))) (fun s => s.updTile f p (fun u =>
              { u with bankValid := clrBitN (clrBitN u.bankValid (sp * 2)) (sp * 2 + 1) }))
            let s := (s.wr (tf (slotField k) f p) sp).wr (af F.ARR_STATUS_ARR_STATE f p sp) 0
            (s.wr (tf F.ARR_SLOT_SPARE f p) 7).setRot f p 6
          else s
        | none => s
    let s := s.inService f p
    if 2 ≤ s.arraysFenced f p then s.tileFence f p else s

/-- A rotation trigger reaches a tile (R86): held until the spare is READY; one held already takes no further effect. A
spare in FAIL begins its next cycle (R84, R91). -/
def State.rotTrigger (s : State) (f : Frond) (p : Nat) : State :=
  let st := s.rot f p
  if st = 6 || s.tileState f p != 2 || !s.rotOn f p || (s.tile f p).trigger then s
  else
    let s := s.updTile f p (fun u => { u with trigger := true })
    if st = 3 then s
    else
      let s := s.incSat (acf F.ACAL_STATUS_ROT_LATE f)
      if st = 4 then s.rotBegin f p else s

/-- A trigger reaches every tile of a frond. -/
def State.rotTriggerAll (s : State) (f : Frond) : State := (List.range 132).foldl (fun s p => s.rotTrigger f p) s

/-- The rotation itself (R86): the spare takes the target's slot, the retired array becomes the spare in IDLE. -/
def State.rotate (s : State) (f : Frond) (p : Nat) : State :=
  let k := s.rd (tf F.ARR_SLOT_TARGET f p)
  let old := s.slotArr f p k
  let new := s.spareArr f p
  let s := (s.wr (tf (slotField k) f p) new).wr (tf F.ARR_SLOT_SPARE f p) old
  let s := (s.wr (af F.ARR_STATUS_ARR_STATE f p new) 0).wr (af F.ARR_STATUS_ARR_STATE f p old) 1
  let s := s.wr (af F.ARR_STATUS_TEMP_TRIG f p old) 0
  let s := (s.inc (tf F.ARR_SLOT_ROT_COUNT f p)).inc (acf F.ACAL_STATUS_ROT_DONE f)
  (s.updTile f p (fun u => { u with trigger := false, verifyOnly := false })).rotIdle f p

/-- A full calibration of a frond begins (R83): FULL_CAL_BUSY, and every tile in CAL. -/
def State.fullCalBegin (s : State) (f : Frond) : State :=
  (List.range 132).foldl (fun s p => s.tileCalBegin f p) (s.wr (acf F.ACAL_STATUS_FULL_CAL_BUSY f) 1)

/-- A requested full calibration starts once it may (R89). -/
def State.fullCalPoke (s : State) (f : Frond) : State :=
  if s.on (acf F.ACAL_CTRL_FULL_CAL_REQ f) && s.calGateOpen f && !s.on (acf F.ACAL_STATUS_FULL_CAL_BUSY f)
  then s.fullCalBegin f else s

/-- The residuals of a calibration, free below the bounds given. -/
def State.freeCal (s : State) (ok : Bool) (o g n : Nat) : CalResult :=
  let fr := fun i b => BitVec.ofNat 16 (Config.freeNat (s.draws + i) % b)
  ⟨ok, ok, fr 0 o, fr 1 g, fr 2 n⟩

/-- A calibration of array `a` that fails, with residuals that the spec does not state. -/
def State.calFail (s : State) (f : Frond) (p a : Nat) : State :=
  State.calRecord { s with draws := s.draws + 3 } f p a (s.freeCal false 65536 65536 65536) false

/-- A full calibration of one tile ends (R83): the arrays that failed, and failed again, are fenced; the others have new
coefficients, and residuals of which the spec says only that they lie within ACAL_LIMITS. -/
def State.tileCal (s : State) (f : Frond) (p : Nat) (bad : List Nat) : State :=
  (List.range 5).foldl (fun s a =>
    if s.rd (af F.ARR_STATUS_ARR_STATE f p a) = 2 then s
    else if bad.contains a then ((s.calFail f p a).calFail f p a).arrayFence f p a
    else
      let lim := fun (x : Field) => s.rd (acf x f) + 1
      let r := s.freeCal true (lim F.ACAL_LIMITS_OFFSET_MAX) (lim F.ACAL_LIMITS_GAIN_MAX) (lim F.ACAL_LIMITS_NOISE_MAX)
      let s := State.calRecord { s with draws := s.draws + 3 } f p a r true
      s.wr (af F.ARR_STATUS_ARR_STATE f p a) (if s.spareArr f p = a then 1 else 0)) s

/-- Tiles of a frond after a full calibration: healthy mapped tiles are READY, healthy unmapped ones SPARE; a fenced
mapped tile gives way to the lowest healthy spare when no partition holds it (R83, R96). -/
def State.tilesSettle (s : State) (f : Frond) : State :=
  let s := (List.range 132).foldl (fun s p =>
    if s.tileState f p = 4 then s
    else
      let t := (List.range 128).find? (fun t => s.physOf f t == some p)
      let s := (s.wr (tf F.TILE_STATUS_LOGICAL f p) (t.getD 0xFF)).wr (tf F.TILE_STATUS_STATE f p)
        (if t.isSome then 2 else 3)
      s.inService f p) s
  let s := (List.range 128).foldl (fun s t =>
    match s.physOf f t with
    | none => s
    | some p => if s.tileState f p = 4 && (s.partOfTile f t).isNone then s.remapTile f t else s) s
  s.mapSync f

end Sys2Proof.Machine
end

