-- ==== Sys2Proof/Machine/ResetOps.lean ====
section
/-! DEFINITION. Fences of cores and fronds, and the beginning of partition resets, chip resets and power-cycle requests
(R448, R454, R461-R468, R478). -/

namespace Sys2Proof.Machine

/-! ### Fences (R448, R454) -/

/-- A control core is fenced. -/
def State.coreFence (s : State) (f : Frond) (c : Nat) : State :=
  if s.rd (F.CORE_STATUS_STATE.pg (corePage f c)) = 4 then s
  else
    ((s.irqCoreReset (.fic f) c).wr (F.CORE_STATUS_STATE.pg (corePage f c)) 4).event (corePage f c) 0xA002

/-- A rail's fence removes the phase that the error names (R448): the one under test for CHECK_FAIL, the first at a trim
limit for BAL_LIMIT; a bit of the whole rail names none, and PHASE_FENCE one that is out already. (DESIGN CHOICE, log 55) -/
def State.railFence (s : State) (r bit : Nat) : State :=
  if bit = 4 ∧ s.rd F.RAIL_SYS_TEST_RAIL = r then s.phFence r (s.rd F.RAIL_SYS_TEST_PHASE) none
  else if bit = 1 then
    match (List.range (railPhases r)).find? (fun p => (s.rdS (phf F.RAIL_PH_TRIM r p)).natAbs == 30) with
    | some p => s.phFence r p none
    | none => s
  else s

/-- Tiles, engines, cores and ports of a frond stop where they stand; running descriptors end with ABORTED (R177). -/
def State.frondHalt (s : State) (f : Frond) : State :=
  let s := (List.range 132).foldl (fun s p => if s.seqState f p = 0 then s else (s.tileFlush f p).tileIdle f p) s
  let s := (List.range 44).foldl (fun s n =>
    let s := match (s.eng f n).running with
      | some d => s.engRecord f n d 0x0B 0
      | none => s
    ((s.setEng f n EngUnit.init).engLinksFree f n).engSync f n) s
  let s := { s with work := { s.work with passed := s.work.passed.filter (fun e => e.1 != f.idx) } }
  let s := (List.range 8).foldl (fun s c =>
    if s.rd (F.CORE_STATUS_STATE.pg (corePage f c)) = 4 then s
    else (s.irqCoreReset (.fic f) c).wr (F.CORE_STATUS_STATE.pg (corePage f c)) 0) s
  (List.range 12).foldl (fun s k =>
    let p := 12 * f.idx + k
    if 6 ≤ s.portState p then s
    else
      let s := s.setPort p { PortUnit.init with epoch := (s.port p).epoch }
      (s.wr (pf F.LPORT_STATUS_STATE p) 0).wr (pf F.LPORT_STATUS_REJOIN_WAIT p) 0) s

/-- The four stacks of a frond take a state; a fenced stack keeps its own. -/
def State.stacksTo (s : State) (f : Frond) (v : Nat) : State :=
  (List.range 4).foldl (fun s k =>
    let g := F.HBMC_STATUS_STATE.pg (hbmcPage (4 * f.idx + k))
    if s.rd g = 5 then s else s.wr g v) s

/-- A frond is fenced (R454): its contexts fault and stop, the stacks refresh themselves, the arbiter holds it at OP0, its
units and its VC and VS rails stop, its accesses fail. -/
def State.frondFence (s : State) (f : Frond) : State :=
  if s.frondFenced f.idx then s
  else
    let s := s.wr (match f with | .A => F.MCOL_STATUS_FROND_A_FENCED | .B => F.MCOL_STATUS_FROND_B_FENCED) 1
    let s := (s.wr (F.BLK_CTRL_FENCE.pg (frondPg f 0x108)) 1).event (frondPg f 0x108) 0xA002
    let s := (s.frondCtxs f).foldl (fun s c => s.sysFault c 0x12) s
    let s := ((s.frondHalt f).stacksTo f 4).arbBoth
    (s.railStopOne f.idx).railStopOne (2 + f.idx)

/-! ### Partition reset (R465) -/

/-- The partition's contexts and engines are under the partition's own reset: steps of their own are abandoned (R468). -/
def State.partAbsorb (s : State) (p : Nat) : State :=
  let f := s.partFrond p
  let cs := s.partCtxs p
  let es := (s.partEngs p).map (fun n => f.idx * 2 ^ 15 + n)
  let drop := fun (x : RstStep) => (x.step == 1 && cs.contains x.target) || (x.step == 2 && es.contains x.target)
  { s with rst := { s.rst with steps := s.rst.steps.filter (fun x => !drop x) } }.stepSync

/-- A partition reset begins; a partition that is not built, is in reset, or lies under a chip reset or a power cycle absorbs
it. Rotations of its tiles are abandoned (R92). (DESIGN CHOICE, log 57) -/
def State.partReset (s : State) (p cause : Nat) : State :=
  if s.partState p != 2 && s.partState p != 3 || decide (4 ≤ s.rd F.RST_STATUS_STEP) then s
  else
    let f := s.partFrond p
    let s := (s.partAbsorb p).stepOpen 3 p cause
    let s := s.wr (F.PART_STATUS_STATE.i p) 4
    let s := { s with work := { s.work with building := Sparse.erase s.work.building p } }
    let s := (s.partCtxs p).foldl (fun s c => if (s.ctx c).faulted then s else s.sysFault c 0x10) s
    let s := (s.partCtxs p).foldl (fun s c => s.ctxResetBody c) s
    let s := (s.partEngs p).foldl (fun s n => s.engResetBody f n) s
    (s.partPhys p).foldl (fun s t => (s.tileStop f t).rotAbandon f t) s

/-! ### Power-cycle request (R478) -/

/-- The IB and the pack allow an orderly stop: no fault of the IB, and in RIDE_THROUGH no pack limit (R325).
(DESIGN CHOICE, log 67) -/
def State.stopAllowed (s : State) : Bool :=
  !bitOf (s.rd (errStatus 0x40)) 3 && !(s.mode == 4 && s.on F.PACK_STATUS_LIMIT)

/-- A power-cycle request begins: the dump, then a stop with a cause of PWR_STOP; in STANDBY nothing is left to stop.
(DESIGN CHOICE, log 68) -/
def State.powerCycle (s : State) (cause stopCause : Nat) (immediate : Bool) : State :=
  if s.on F.MCOL_STATUS_PC_REQ then s
  else
    let s := { s with rst := { s.rst with steps := [], pcTold := false } }
    let s := ((s.stepOpen 5 0 cause).wr F.MCOL_STATUS_PC_REQ 1).wr F.RST_TRAY_PC_ACKED 0
    (s.dumpCapture cause 5).stopBegin stopCause (immediate || !s.stopAllowed)

/-! ### Chip reset (R466, R467) -/

/-- A chip reset begins: the contexts fault, running collectives fail, both fronds go to OP0, the dump is captured. -/
def State.chipBegin (s : State) (cause : Nat) : State :=
  let s := { s with rst := { s.rst with steps := [], chips := s.now :: s.chipsHour } }
  let s := s.wr F.RST_STATUS_PHASE 0
  let s := { s.stepOpen 4 0 cause with frondReset := true }
  let s := s.ctxIds.foldl (fun s c => if (s.ctx c).faulted then s else s.sysFault c 0x11) s
  let s := (List.range 16).foldl (fun s n => if s.collState n = 2 then s.collFail n 5 else s) s
  let s := { s with hang := HangUnit.init }
  ((s.arbBoth).dumpCapture cause 4).event 0x82 0x9033

/-- A chip reset is requested: absorbed under a chip reset or a power cycle, and while a stop runs or no frond has power; past
CHIP_MAX in an hour it becomes a power-cycle request. -/
def State.chipRequest (s : State) (cause : Nat) : State :=
  if 4 ≤ s.rd F.RST_STATUS_STEP ∨ s.power.stopPhase ≠ 0 ∨ s.mode = 0 then s
  else if max 1 (s.rd F.RST_CTRL_CHIP_MAX) ≤ s.chipsHour.length then (s.err 0x82 1).powerCycle cause 3 false
  else s.chipBegin cause

/-! ### Escalation (R467) -/

/-- A step that failed is closed, the next one up is performed, and FAILED stays shown. -/
def State.stepFail (s : State) (step target : Nat) (next : State → State) : State :=
  (next (s.stepClose step target true)).wr F.RST_LAST_FAILED 1

end Sys2Proof.Machine
end

