-- ==== Sys2Proof/Machine/Collect.lean ====
section
/-! DEFINITION. The collectors: a latch with its reactions, the MFS and FFS bits, FAULT_N, ALIVE, injection and masks
(R443-R455). -/

namespace Sys2Proof.Machine

/-! ### Reactions (R448) -/

/-- A reaction of a page's bit: 0 LOG, 1 IRQ, 2 FENCE, 3 ESC, 4 PIN; an injected error takes LOG and IRQ only under
INJ_SAFE (R453). -/
def State.reacts (s : State) (p b : Nat) (inj : Bool) (k : Nat) : Bool :=
  bitOf (s.rd (F.ERR_ACTION_ACTION.pg p)) (5 * b + k) && (decide (k ≤ 1) || !inj || !s.on F.MCOL_CTRL_INJ_SAFE)

/-- What FENCE removes. (DESIGN CHOICE, log 55) -/
def State.fenceAct (s : State) (i : PageInfo) (p b : Nat) : State :=
  let f := Frond.at i.frond
  match i.kind with
  | .tile => s.tileFence f i.inst
  | .eng => s.engFence f i.inst
  | .core => s.coreFence f i.inst
  | .lport => if s.portState i.inst = 6 then s else (s.portFence i.inst).event p 0xA002
  | .hbmc => s.pcFence i.frond (i.inst % 4 * 32 + s.rd (F.HBMC_ERR_LOG_PC.pg p))
  | .tmap | .store | .hbmf | .ring | .linkf | .fic | .fcol => s.frondFence f
  | .rail => s.railFence i.inst b
  | _ => s

/-- A stop, orderly where it may be, and a power-cycle request. -/
def State.stopAndCycle (s : State) : State := s.powerCycle 1 3 false

/-- What the hang unit's ESC performs on the guilty context (R458). -/
def State.hangAct (s : State) : State :=
  let c := s.rd F.HANG_RPT_GUILTY
  if (s.ctx c).gen != s.rd F.HANG_RPT_GEN then s
  else
    match s.rd F.HANG_CFG_ACTION with
    | 1 => s.sysFault c 0x13
    | 2 => s.ctxReset c 3
    | _ => s

/-- What ESC performs. (DESIGN CHOICE, log 55) -/
def State.escAct (s : State) (i : PageInfo) (p b : Nat) : State :=
  let f := Frond.at i.frond
  match i.kind with
  | .tile => (match s.partOfTile f (s.logicalOf f i.inst) with
    | some q => s.partReset q 1
    | none => s)
  | .eng => s.engReset f i.inst (if b = 1 then 5 else 1)
  | .core => if s.rd (F.CORE_STATUS_STATE.pg p) = 4 then s else s.coreReset f i.inst
  | .lport => s.portTrigger i.inst
  | .hbmc | .tmap | .store | .hbmf | .ring | .linkf | .fic | .fcol => s.chipRequest 1
  | .rail => if i.inst < 8 then s.frondFence (Frond.at (i.inst % 2)) else s.powerCycle 1 7 true
  | .bc => s.toBusOnly
  | .ctxt => s.ctxReset s.col.lastFault 1
  | .subp => s.ctxReset (s.rd F.SUB_LAST_REJECT_CTX) 1
  | .hang => if b = 0 then s.hangAct else s
  | .sys | .pwr | .fc | .loop | .cap | .opt | .mcol | .rst => s.stopAndCycle
  | _ => s

/-- PIN: FAULT_N, and of an FE the tray controller is told (R450, R477). -/
def State.pinAct (s : State) (p b : Nat) : State :=
  let s := s.pinReq
  if errClass p b = .FE then s.ibi 1 else s

/-! ### A latch (R444-R448) -/

/-- A latch reaches a frond's collector: its FFS bit, its class, and FIRST when FFS was all zero. -/
def State.ffsLatch (s : State) (f : Frond) (p b : Nat) (inj irq : Bool) : State :=
  let n := colBit p
  let pg := frondPg f 0x108
  let first := s.rd (ffs f) == 0
  let s := (s.setBit (ffs f) n).clsRaise (F.FCOL_CLASS_CLASS.pg pg) n (s.pinClass p)
  let s := if first then
      (s.setReg (pg * 4096 + 0x128) (BitVec.ofNat 64 (n * 2 ^ 56 + (errClass p b).num * 2 ^ 54 + b2n inj * 2 ^ 53
        + b * 2 ^ 48 + p * 2 ^ 32))).wr (F.FCOL_FIRST_TIME_TIME.pg pg) s.now
    else s
  let s := if irq then
      (match f with
        | .A => { s with col := { s.col with irqA := setBitN s.col.irqA n } }
        | .B => { s with col := { s.col with irqB := setBitN s.col.irqB n } })
    else s
  s.ffsLine f n

/-- A latch reaches the module collector under MFS bit `n`. -/
def State.mfsLatch (s : State) (n p b : Nat) (inj irq : Bool) : State :=
  let first := s.rd F.MFS_SRC == 0
  let s := (s.setBit F.MFS_SRC n).clsRaise F.MCOL_CLASS_CLASS n (s.pinClass p)
  let s := if first then
      let s := (s.wr F.MCOL_FIRST_SOURCE n).wr F.MCOL_FIRST_CLASS (errClass p b).num
      let s := (s.wr F.MCOL_FIRST_INJECTED (b2n inj)).wr F.MCOL_FIRST_BIT b
      (s.wr F.MCOL_FIRST_PAGE p).wr F.MCOL_FIRST_TIME_TIME s.now
    else s
  let s := if irq then { s with col := { s.col with irqM := setBitN s.col.irqM n } } else s
  (s.mfsLine n).aliveSync

/-- The reactions LOG, FENCE, ESC and PIN act in this order, as ERR_ACTION stood at the latch in `was` (R448). -/
def State.reactAll (s was : State) (i : PageInfo) (p b : Nat) (inj : Bool) : State :=
  let cls := (errClass p b).num
  let s := if was.reacts p b inj 0 then s.eventAs p (cls + 1) 0xA001 p b cls (b2n inj) else s
  let s := if was.reacts p b inj 2 then s.fenceAct i p b else s
  let s := if was.reacts p b inj 3 then s.escAct i p b else s
  if was.reacts p b inj 4 then s.pinAct p b else s

/-- A latch is collected and takes the reactions of its bit, in R448's order. -/
def State.collect (s : State) (p b : Nat) (inj : Bool) : State :=
  match pageInfo p with
  | none => s
  | some i =>
    let irq := s.reacts p b inj 1
    let u := if i.frond < 2 then (s.ffsLatch (Frond.at i.frond) p b inj irq).mfsLatch i.frond p b inj irq
      else s.mfsLatch (colBit p) p b inj irq
    u.reactAll s i p b inj

/-- COLLECTOR_LATCH (R443-R448): the oldest latch on its way. -/
def execCollectorLatch (s : State) : Host.Outcome State Fault Refusal :=
  match s.latches with
  | [] => .next s
  | (p, b, inj) :: t => .next ({ s with latches := t }.collect p b inj)

/-! ### Registers of the collectors -/

/-- FCOL_SELF_CHECK_LOST (R454). -/
def execFcolSelfCheckLost (f : Frond) (s : State) : Host.Outcome State Fault Refusal :=
  .next ((s.err 0x80 (1 + f.idx)).frondFence f)

/-- FROND_TEMP_FENCE (R454). -/
def execFrondTempFence (f : Frond) (s : State) : Host.Outcome State Fault Refusal := .next (s.frondFence f)

/-- MFS_WRITE (R446). -/
def execMfsWrite (r : Req) (value : BitVec 64) (s : State) : Host.Outcome State Fault Refusal :=
  .next (s.cmdAt r F.MFS_SRC false (fun s =>
    ((bitsOf value.toNat).filter (fun b => decide (b < 27))).foldl (fun s b => s.mfsClear b) s))

/-- FFS_WRITE (R446). -/
def execFfsWrite (r : Req) (f : Frond) (value : BitVec 64) (s : State) : Host.Outcome State Fault Refusal :=
  .next (s.cmdAt r (ffs f) false (fun s =>
    ((bitsOf value.toNat).filter (fun b => decide (b < 15))).foldl (fun s b => s.ffsClear f b) s))

/-- The bits that a page's tables assign, and those of class FE. -/
def errImplAt (p : Nat) : Nat := match pageInfo p with | some i => errImpl i.kind | none => 0

def feBits (p : Nat) : Nat :=
  match pageInfo p with
  | some i => ((errBits i.kind).filter (fun e => e.2 == .FE)).foldl (fun n e => setBitN n e.1) 0
  | none => 0

/-- The mask that a write leaves: an FE bit is never masked; a page without error bits ignores the write (R443, R544). -/
def maskOf (p v : Nat) : Nat :=
  if errImplAt p = 0 then 0 else (BitVec.ofNat 12 v &&& ~~~ BitVec.ofNat 12 (feBits p)).toNat

/-- ERR_MASK_WRITE (R443). -/
def execErrMaskWrite (r : Req) (page : BitVec 16) (value : BitVec 64) (s : State) : Host.Outcome State Fault Refusal :=
  let p := page.toNat
  let g := F.ERR_MASK_MASK.pg p
  .next (s.cmdHeld r g (value.toNat % 4096 == s.rd g) (fun s => s.wr g (maskOf p value.toNat)))

/-- ERR_INJECT_WRITE (R452): the assigned bits written with 1 are armed. -/
def execErrInjectWrite (r : Req) (page : BitVec 16) (value : BitVec 64) (s : State) : Host.Outcome State Fault Refusal :=
  let p := page.toNat
  let g := F.ERR_INJECT_INJECT.pg p
  .next (s.cmdHeld r g (value.toNat % 4096 == 0) (fun s =>
    ((bitsOf value.toNat).filter (fun b => bitOf (errImplAt p) b && !bitOf (s.rd g) b)).foldl (fun s b =>
      { s.setBit g b with col := { s.col with placed := s.col.placed.filter (· != (p, b)) } }) s))

/-! ### FAULT_N and ALIVE (R450, R451) -/

/-- MCOL_PIN_ASSERT (R450). -/
def execMcolPinAssert (r : Req) (s : State) : Host.Outcome State Fault Refusal :=
  .next (s.cmdAt r F.MCOL_PIN_ASSERT true (fun s => s.pinReq))

/-- MCOL_PIN_RELEASE (R450). -/
def execMcolPinRelease (r : Req) (s : State) : Host.Outcome State Fault Refusal :=
  .next (s.cmdAt r F.MCOL_PIN_RELEASE false (fun s => s.pinRelease))

/-- FAULT_N_PULSE_END (R450). -/
def execFaultNPulseEnd (s : State) : Host.Outcome State Fault Refusal :=
  if !s.col.pulse then .next s
  else
    let s := { s with col := { s.col with pulse := false } }
    .next (if s.on F.MCOL_PIN_HOLD then s else s.wr F.MCOL_STATUS_FAULT_N_OUT 0)

/-- ALIVE_TOGGLE (R451). -/
def execAliveToggle (s : State) : Host.Outcome State Fault Refusal :=
  let s := s.aliveSync
  .next (if s.on F.MCOL_STATUS_ALIVE_RUN then { s with col := { s.col with alive := !s.col.alive } } else s)

/-- COLLECTOR_SELF_CHECK (R451). -/
def execCollectorSelfCheck (ok : Bool) (s : State) : Host.Outcome State Fault Refusal :=
  let s := s.wr F.MCOL_STATUS_SELF_OK (b2n ok)
  .next ((if ok then s else s.err 0x80 0).aliveSync)

end Sys2Proof.Machine
end

