-- ==== Sys2Proof/Machine/BlkCtl.lean ====
section
/-! DEFINITION. The page header's controls: BLK_CTRL and ACCESS_CLASS (R541-R546), and a port's enables (R241, R545,
R553). -/

namespace Sys2Proof.Machine

/-- A port follows LPORT_CFG.EN and BLK_CTRL.ENABLE: DISABLED unless both are 1, and DOWN once they are (R545);
without link microcode every port stays DISABLED (R510). -/
def State.portEnables (s : State) (p : Nat) : State :=
  let may := s.on (pf F.LPORT_CFG_EN p) && s.on (pf F.BLK_CTRL_ENABLE p) && !bitOf s.fw.dead 3
  if !may && s.portState p != 6 && s.portState p != 7 then
    let s := s.setPort p { PortUnit.init with epoch := (s.port p).epoch }
    (s.wr (pf F.LPORT_STATUS_STATE p) 7).wr (pf F.LPORT_STATUS_REJOIN_WAIT p) 0
  else if may && s.portState p == 7 then s.wr (pf F.LPORT_STATUS_STATE p) 0
  else s

/-- What ENABLE does to a unit (R545). (DESIGN CHOICE, log 69) -/
def State.enableAct (s : State) (i : PageInfo) (p : Nat) (on : Bool) : State :=
  let f := Frond.at i.frond
  match i.kind with
  | .core =>
    if s.rd (F.CORE_STATUS_STATE.pg p) = 4 then s
    else if on then s.coreReset f i.inst
    else (s.irqCoreReset (.fic f) i.inst).wr (F.CORE_STATUS_STATE.pg p) 0
  | .lport => s.portEnables i.inst
  | _ => s

/-- BLK_CTRL_ENABLE (R545): ignored where ENABLE does not act. -/
def execBlkCtrlEnable (r : Req) (page : BitVec 16) (on : Bool) (s : State) : Host.Outcome State Fault Refusal :=
  let p := page.toNat
  let g := F.BLK_CTRL_ENABLE.pg p
  .next (s.cmdHeld r g (b2n on == s.rd g || !capOf p 2) (fun s =>
    match pageInfo p with
    | none => s
    | some i => if capOf p 2 && b2n on != s.rd g then (s.wr g (b2n on)).enableAct i p on else s))

/-- What FENCE = 1 does to a unit (R545). -/
def State.fenceSet (s : State) (i : PageInfo) (p : Nat) : State :=
  let f := Frond.at i.frond
  match i.kind with
  | .tile => s.tileFence f i.inst
  | .eng => s.engFence f i.inst
  | .core => s.coreFence f i.inst
  | .lport => if s.portState i.inst = 6 then s else (s.portFence i.inst).event p 0xA002
  | .hbmc => (List.range 32).foldl (fun s c => s.pcFence i.frond (i.inst % 4 * 32 + c)) s
  | .fcol => s.frondFence f
  | _ => s

/-- BLK_CTRL_FENCE_SET (R98, R154, R177, R241, R454, R545). -/
def execBlkCtrlFenceSet (r : Req) (page : BitVec 16) (s : State) : Host.Outcome State Fault Refusal :=
  let p := page.toNat
  .next (s.cmdHeld r (F.BLK_CTRL_FENCE.pg p) (s.blkFenced p || !capOf p 0) (fun s =>
    match pageInfo p with
    | none => s
    | some i => if capOf p 0 then s.fenceSet i p else s))

/-- What FENCE = 0 does to a fenced unit (R100, R241, R545): a stack and a frond ignore it (R154, R455). -/
def State.fenceClear (s : State) (i : PageInfo) (p : Nat) : State :=
  let f := Frond.at i.frond
  match i.kind with
  | .tile => s.updTile f i.inst (fun u => { u with recal := true })
  | .eng =>
    ((s.wr (ef F.ENG_STATUS_STATE f i.inst) 0).clrBit (F.RING_STATUS_FENCED.pg (frondPg f 0x120)) i.inst).engSync f i.inst
  | .core => s.coreReset f i.inst
  | .lport => ((s.wr (F.BLK_CTRL_FENCE.pg p) 0).wr (pf F.LPORT_STATUS_STATE i.inst) 0).portEnables i.inst
  | _ => s

/-- BLK_CTRL_FENCE_CLEAR (R545). -/
def execBlkCtrlFenceClear (r : Req) (page : BitVec 16) (s : State) : Host.Outcome State Fault Refusal :=
  let p := page.toNat
  .next (s.cmdHeld r (F.BLK_CTRL_FENCE.pg p) (!s.blkFenced p || !capOf p 0) (fun s =>
    match pageInfo p with
    | none => s
    | some i => if capOf p 0 && s.blkFenced p then s.fenceClear i p else s))

/-- What RESET_REQ does at a level (R545): a write from a lower level is ignored. (DESIGN CHOICE, log 69) -/
def State.resetAct (s : State) (i : PageInfo) (p : Nat) (lv : Level) : State :=
  let f := Frond.at i.frond
  match i.kind with
  | .tile =>
    if lv = .L2 then s
    else
      match s.partOfTile f (s.logicalOf f i.inst) with
      | some q => if s.rd F.RST_STATUS_STEP ≤ 3 then s.partReset q 0 else s
      | none => s
  | .eng => if lv = .L2 ∨ 3 < s.rd F.RST_STATUS_STEP then s else s.engReset f i.inst 0
  | .core => if lv != .L0 || s.rd (F.CORE_STATUS_STATE.pg p) == 4 then s else s.coreReset f i.inst
  | .lport => if lv = .L2 then s else s.portTrigger i.inst
  | _ => s

/-- BLK_CTRL_RESET_REQ (R545). -/
def execBlkCtrlResetReq (r : Req) (page : BitVec 16) (s : State) : Host.Outcome State Fault Refusal :=
  let p := page.toNat
  .next (s.cmd r p F.BLK_CTRL_RESET_REQ.off false (fun s =>
    match pageInfo p with
    | none => s
    | some i => if capOf p 1 then s.resetAct i p r.level else s))

/-- BLK_CTRL_CFG_LOCK (R546). -/
def execBlkCtrlCfgLock (r : Req) (page : BitVec 16) (s : State) : Host.Outcome State Fault Refusal :=
  .next (s.cmd r page.toNat F.BLK_CTRL_CFG_LOCK.off true (fun s => s.wr (F.BLK_CTRL_CFG_LOCK.pg page.toNat) 1))

/-- ACCESS_CLASS_WRITE (R542): ignored while FIXED is 1. -/
def execAccessClassWrite (r : Req) (page : BitVec 16) (value : BitVec 64) (s : State) :
    Host.Outcome State Fault Refusal :=
  let g := F.ACCESS_CLASS_READ.pg page.toNat
  .next (if s.on (F.ACCESS_CLASS_FIXED.pg page.toNat) then s.cmd r page.toNat g.off false id
    else s.cmdWord r g.key value (fun w s => s.setReg g.key w))

end Sys2Proof.Machine
end

