-- ==== Sys2Proof/Machine/HostPort.lean ====
section
/-! DEFINITION. The Ethernet port: link, received frames, priority flow control, ICMPv6 and PTP (R274-R277, R553, R569). -/

namespace Sys2Proof.Machine

/-! ### The link (R275) -/

/-- The page of the host port. -/
def hostpPage : Nat := 0xA8

/-- The port has come up at step 10 of start-up (R297, R511). -/
def State.hostOn (s : State) : Bool :=
  let st := s.rd F.SYS_BOOT_STATE
  st == 2 || st == 3 || (st == 0 && decide (10 ≤ s.rd F.SYS_BOOT_STEP))

/-- Handshakes, PTP and ICMPv6 are served: the configuration blocks have loaded (R297, R511). -/
def State.hostServes (s : State) : Bool := s.rd F.SYS_BOOT_STATE == 2 || s.rd F.SYS_BOOT_STATE == 3

/-- The link's state changes: event 0x8001. -/
def State.hostTo (s : State) (v : Nat) : State :=
  if s.rd F.HOSTP_STATUS_STATE = v then s else (s.wr F.HOSTP_STATUS_STATE v).event hostpPage 0x8001

/-- The mode changes: event 0x8002. -/
def State.hostMode (s : State) (v : Nat) : State :=
  if s.rd F.HOSTP_STATUS_MODE = v then s else (s.wr F.HOSTP_STATUS_MODE v).event hostpPage 0x8002

/-- Training starts when a cable is present and the port has come up. -/
def State.hostTrain (s : State) : State :=
  if s.host.present && s.hostOn && s.rd F.HOSTP_STATUS_STATE == 0 then s.hostTo 1 else s

/-- The link goes down: LINK_DOWN when it was up. (DESIGN CHOICE, log 42) -/
def State.hostDown (s : State) : State :=
  let up := s.rd F.HOSTP_STATUS_STATE = 2
  let s := ((s.hostTo 0).hostMode 3).wr F.HOSTP_STATUS_LANES_GOOD 0
  if up then s.err hostpPage 0 else s

/-- The frames that wait to be sent are tried again, in order. -/
def State.hostFlush (s : State) : State :=
  let l := s.host.txq
  l.foldl (fun s e => s.hostOut e.1 e.2) { s with host := { s.host with txq := [] } }

/-- The first mode that training tries: MODE_MAX, its reserved value as 1.6T. -/
def State.hostModeMax (s : State) : Nat := if s.rd F.HOSTP_CFG_MODE_MAX = 3 then 0 else s.rd F.HOSTP_CFG_MODE_MAX

/-- HOST_LINK_TRAINING_DONE (R275). -/
def execHostLinkTrainingDone (mode : BitVec 2) (lanes : BitVec 8) (s : State) : Host.Outcome State Fault Refusal :=
  .next (s.when (s.rd F.HOSTP_STATUS_STATE == 1 && s.hostModeMax ≤ mode.toNat && mode.toNat != 3) (fun s =>
    (((s.hostTo 2).hostMode mode.toNat).wr F.HOSTP_STATUS_LANES_GOOD lanes.toNat).hostFlush))

/-- HOST_LINK_DROP (R275): the port trains again. -/
def execHostLinkDrop (s : State) : Host.Outcome State Fault Refusal :=
  .next (s.when (s.rd F.HOSTP_STATUS_STATE == 2) (fun s => s.hostDown.hostTrain))

/-- HOST_PRSNT_CHANGE (R553). -/
def execHostPrsntChange (present : Bool) (s : State) : Host.Outcome State Fault Refusal :=
  let s := { s with host := { s.host with present := present } }
  .next (if present then s.hostTrain else s.hostDown)

/-! ### Received frames and flow control (R276) -/

/-- The frames in the buffer, those that a session keeps out of order among them: priority and bytes. -/
def State.rxFrames (s : State) : List (Nat × Nat) := s.host.rxq ++ s.host.rxKept.map (fun e => e.2.2)

/-- Bytes that the buffer holds, and those of one priority. -/
def State.rxBytes (s : State) : Nat := (s.rxFrames.map (·.2)).foldl (· + ·) 0

def State.rxHeldFor (s : State) (prio : Nat) : Nat :=
  ((s.rxFrames.filter (fun e => e.1 == prio)).map (·.2)).foldl (· + ·) 0

/-- A pause of a priority begins or ends. -/
def State.pfcSend (s : State) (prio : Nat) (on : Bool) : State :=
  let m := s.host.sentPause
  let s := { s with host := { s.host with sentPause := if on then setBitN m prio else clrBitN m prio } }
  s.put (.host none (.pfc prio on))

/-- A pause is sent above XOFF_KB where TX_EN allows, and ends at half of it. -/
def State.pfcCheck (s : State) (prio : Nat) : State :=
  let held := s.rxHeldFor prio
  let xoff := s.rd F.HOSTP_PFC_XOFF_KB * 1024
  if bitOf s.host.sentPause prio then (if 2 * held ≤ xoff then s.pfcSend prio false else s)
  else if bitOf (s.rd F.HOSTP_PFC_TX_EN) prio && decide (xoff < held) then s.pfcSend prio true else s

/-- The oldest frame in the buffer has been served. (DESIGN CHOICE, log 42) -/
def State.rxTake (s : State) : State :=
  match s.host.rxq with
  | [] => s
  | e :: t => ({ s with host := { s.host with rxq := t } }).pfcCheck e.1

/-- Frames that no session keeps any more leave the buffer; `add` is one that a session may keep now (R276, R285). -/
def State.rxSettle (s : State) (add : List (Nat × Nat × Nat × Nat)) : State :=
  let new := add.filter (fun e => !s.host.rxKept.any (fun x => x.1 == e.1 && x.2.1 == e.2.1))
  let l := (s.host.rxKept ++ new).filter (fun e => (s.sess e.1).rxHeld.any (fun x => x.1 == e.2.1))
  let s := { s with host := { s.host with rxKept := l } }
  (List.range 8).foldl State.pfcCheck s

/-- PTP runs over UDP/IPv6, else over Layer 2; the reserved values are treated as Layer 2 (R274, R298). -/
def State.ptpUdp (s : State) : Bool := s.rd F.PTP_CFG_TRANSPORT == 1

/-- The EtherTypes served: Brynir over Ethernet, IPv6, PTP over Layer 2, and PFC. -/
def State.etypeServed (s : State) (t : Nat) : Bool :=
  (t == s.rd F.HOSTP_CFG_ETHERTYPE && s.on F.HOSTP_CFG_L2_EN) || t == 0x86DD || (t == 0x88F7 && !s.ptpUdp) || t == 0x8808

/-- The IPv6 traffic served: Neighbor Solicitation and Echo Request, Brynir on PORT of the configured address, and PTP on
319 and 320 of it or of a multicast group; all other is dropped (R274). (DESIGN CHOICE, log 42) -/
def State.ip6Served (s : State) : Ip6 → Bool
  | .icmp t => t.toNat == 128 || t.toNat == 135
  | .udp dst port =>
    (s.on F.HOSTP_CFG_UDP_EN && port.toNat == s.rd F.HOSTP_UDP_PORT && dst.toNat == s.ip6)
      || (s.ptpUdp && (port.toNat == 319 || port.toNat == 320) && (dst.toNat == s.ip6 || dst.toNat / 2 ^ 120 == 255))
  | .other => false

/-- The VLAN ID of a tagged frame is not the port's. (DESIGN CHOICE, log 42) -/
def State.vidForeign (s : State) : Option (BitVec 12) → Bool
  | none => false
  | some v => v.toNat != s.rd F.HOSTP_CFG_VID

/-- ETH_FRAME_RECEIVE (R274, R276): `len` bytes of Ethernet payload; `ip6` is what an IPv6 frame carries; `uncorr` codewords
before it were uncorrectable. (DESIGN CHOICE, log 42) -/
def execEthFrameReceive (len : BitVec 16) (prio : Fin 8) (fcsOk : Bool) (vid : Option (BitVec 12)) (etype : BitVec 16)
    (ip6 : Ip6) (uncorr : BitVec 16) (s : State) : Host.Outcome State Fault Refusal :=
  let s := s.incSat F.HOSTP_ERR_COUNT_FEC_UNCORR uncorr.toNat
  .next (
    if s.rd F.HOSTP_STATUS_STATE ≠ 2 then s
    else if !fcsOk then s.incSat F.HOSTP_ERR_COUNT_FCS
    else if s.rd F.HOSTP_CFG_MTU < len.toNat || s.vidForeign vid || !s.etypeServed etype.toNat then
      s.incSat F.HOSTP_ERR_COUNT_DROPPED
    else if 4194304 < s.rxBytes + len.toNat then (s.incSat F.HOSTP_ERR_COUNT_RX_OVERFLOW).err hostpPage 1
    else
      let s := s.inc F.HOSTP_RX_FRAMES_COUNT
      if etype.toNat = 0x8808 ∨ (etype.toNat = 0x86DD ∧ (s.ip6 = 0 ∨ s.ip6Served ip6 = false)) then s
      else ({ s with host := { s.host with rxq := s.host.rxq ++ [(prio.val, len.toNat)] } }).pfcCheck prio.val)

/-- PFC_PAUSE_RECEIVE (R276): it stops a priority while its bit is set in RX_EN. -/
def execPfcPauseReceive (prio : Fin 8) (on : Bool) (s : State) : Host.Outcome State Fault Refusal :=
  let m := s.host.paused
  .next (s.when (s.rd F.HOSTP_STATUS_STATE == 2) (fun s =>
    ({ s with host := { s.host with paused := if on then setBitN m prio else clrBitN m prio } }).hostFlush))

/-- ICMPV6_REQUEST (R274): answered when it is for the configured address; other requests are dropped.
(PRESUMED, log 13; DESIGN CHOICE, log 42) -/
def execIcmpv6Request (echo : Bool) (target : BitVec 128) (data : List (BitVec 8)) (s : State) :
    Host.Outcome State Fault Refusal :=
  .next (s.rxTake.when (s.hostServes && s.rd F.HOSTP_STATUS_STATE == 2 && target.toNat == s.ip6 && s.ip6 != 0) (fun s =>
    s.hostOut (s.rd F.HOSTP_CFG_PCP_CTRL) (.icmp echo (data.map BitVec.toNat))))

/-! ### PTP (R277) -/

/-- PTP changes state: event 0x8020, the recorder's time mode and the rest timebase follow (R430, R495). -/
def State.ptpTo (s : State) (v : Nat) : State :=
  let old := s.restTai
  if s.rd F.PTP_STATUS_STATE = v then s
  else
    let s := ((s.wr F.PTP_STATUS_STATE v).event hostpPage 0x8020).tmodeCheck
    let s := { s with host := { s.host with ptpGood := 0 } }
    if s.restTai = old then s else s.restRebase

/-- PTP follows PTP_CFG.EN. -/
def State.ptpEnable (s : State) : State :=
  if s.on F.PTP_CFG_EN then (if s.rd F.PTP_STATUS_STATE = 0 then s.ptpTo 1 else s) else s.ptpTo 0

/-- PTP_TIME has stepped forward: schedule entries that the step passed are skipped, and the one then in force applies
(R569). -/
def State.grStepped (s : State) : State :=
  if s.on F.GR_CTRL_EN && s.on F.GR_CTRL_TIMEBASE && s.grStarted then
    let s := (s.grEntry s.grEntryNow).grEnter
    if s.on (F.GR_ENTRY_LAST.i s.grEntryNow) then s.grEnd false else s.grCheck
  else s

/-- PTP_TIME steps or slews by a signed number of nanoseconds. (DESIGN CHOICE, log 43) -/
def State.ptpMove (s : State) (d : Int) : State :=
  s.wr F.PTP_TIME_TAI_NS (((s.rd F.PTP_TIME_TAI_NS : Int) + d) % 2 ^ 64).toNat

/-- A Sync arrives with an offset: STATE becomes LOCKED at the 16th in a row below 100 ns, with a step of PTP_TIME unless it
came from HOLDOVER; once locked, the servo slews. (DESIGN CHOICE, log 43) -/
def State.ptpSync (s : State) (offset slew : Int) : State :=
  let s := s.wrS F.PTP_STATUS_OFFSET_NS offset
  let s := if s.rd F.PTP_STATUS_STATE = 1 then s.ptpTo 2 else s
  let good := if offset.natAbs < 100 then s.host.ptpGood + 1 else 0
  let s := { s with host := { s.host with ptpGood := good } }
  let st := s.rd F.PTP_STATUS_STATE
  let s := if 3 ≤ st then s.ptpMove slew else s
  if 16 ≤ good ∧ st ≠ 3 then
    let s := if st = 4 then s else
      let s := s.ptpMove (-offset)
      if offset < 0 then s.grStepped else s
    s.ptpTo 3
  else s

/-- A PTP event message takes its timestamp (R277). -/
def State.ptpStamp (s : State) (egress : Bool) : State :=
  let t := s.rd F.PTP_TIME_TAI_NS
  { s with host := if egress then { s.host with ptpOut := t } else { s.host with ptpIn := t } }

/-- PTP_EVENT_MESSAGE (R277): a message that leaves, or is no Sync, is only timestamped. (DESIGN CHOICE, log 43) -/
def execPtpEventMessage (egress sync : Bool) (domain : BitVec 8) (offset : BitVec 32) (slew : BitVec 16) (s : State) :
    Host.Outcome State Fault Refusal :=
  let s := if s.rd F.HOSTP_STATUS_STATE = 2 then s.ptpStamp egress else s
  .next (if egress then s else s.rxTake.when (sync && s.hostServes && s.rd F.HOSTP_STATUS_STATE == 2 && s.on F.PTP_CFG_EN
      && domain.toNat == s.rd F.PTP_CFG_DOMAIN) (fun s => s.ptpSync offset.toInt slew.toInt))

/-- PTP_SYNC_TIMEOUT (R277): HOLDOVER, PTP_LOST. (DESIGN CHOICE, log 43) -/
def execPtpSyncTimeout (s : State) : Host.Outcome State Fault Refusal :=
  .next (s.when (s.rd F.PTP_STATUS_STATE == 2 || s.rd F.PTP_STATUS_STATE == 3) (fun s => (s.ptpTo 4).err hostpPage 2))

end Sys2Proof.Machine
end

