-- ==== Sys2Proof/Machine/Kem.lean ====
section
/-! DEFINITION. The encapsulation of ML-KEM-1024, FIPS 203, which the spec names without giving it (R5, R282). PRESUMED: the
standard's text. -/

namespace Sys2Proof.Machine

/-- The modulus of ML-KEM. -/
def kemQ : Nat := 3329

/-! ### The number-theoretic transform (FIPS 203, 4.3) -/

/-- 17^e modulo q; 17 is of order 256. -/
def kemZeta (e : Nat) : Nat := 17 ^ (e % 256) % kemQ

/-- The exponent of root `i`: twice the bit reversal of `i`, plus 1. -/
def kemExp (i : Nat) : Nat := 2 * (List.range 7).foldl (fun v k => 2 * v + i / 2 ^ k % 2) 0 + 1

/-- The coefficients of even (`b` 0) or odd (`b` 1) index. -/
def kemHalf (b : Nat) (f : List Nat) : List Nat := (List.range 128).map (fun j => f.getD (2 * j + b) 0)

/-- A sum of products modulo q. -/
def kemDot (a b : List Nat) : Nat := (List.zipWith (· * ·) a b).foldl (· + ·) 0 % kemQ

/-- Two interleaved halves. -/
def kemWeave (a b : List Nat) : List Nat := (List.zipWith (fun x y => [x, y]) a b).flatMap id

/-- The transform: the residues modulo x^2 - 17^e of each root. -/
def kemNtt (f : List Nat) : List Nat :=
  let row := fun g : List Nat => (List.range 128).map (fun i => kemDot g ((List.range 128).map (fun j => kemZeta (kemExp i * j))))
  kemWeave (row (kemHalf 0 f)) (row (kemHalf 1 f))

/-- Its inverse; 3303 is 1/128 modulo q. -/
def kemNttInv (f : List Nat) : List Nat :=
  let row := fun g : List Nat => (List.range 128).map (fun j =>
    3303 * kemDot g ((List.range 128).map (fun i => kemZeta (256 - kemExp i * j % 256))) % kemQ)
  kemWeave (row (kemHalf 0 f)) (row (kemHalf 1 f))

/-- The product of two transforms. -/
def kemMul (f g : List Nat) : List Nat :=
  (List.range 128).flatMap (fun i =>
    let a := f.getD (2 * i) 0
    let b := f.getD (2 * i + 1) 0
    let c := g.getD (2 * i) 0
    let d := g.getD (2 * i + 1) 0
    [(a * c + b * d % kemQ * kemZeta (kemExp i)) % kemQ, (a * d + b * c) % kemQ])

/-- A sum of polynomials. -/
def kemAdd (f g : List Nat) : List Nat := List.zipWith (fun a b => (a + b) % kemQ) f g

/-! ### Encodings and samples (FIPS 203, 4.2) -/

/-- 256 numbers of `d` bits from 32 `d` bytes. -/
def kemDecode (d : Nat) (l : List Nat) : List Nat :=
  let v := leNum (l.take (32 * d))
  (List.range 256).map (fun i => v / 2 ^ (d * i) % 2 ^ d)

/-- And back. -/
def kemEncode (d : Nat) (f : List Nat) : List Nat := leBytes (32 * d) (f.foldr (fun c v => c + 2 ^ d * v) 0)

/-- A coefficient in `d` bits, rounded to the nearest. -/
def kemShrink (d c : Nat) : Nat := (2 ^ (d + 1) * c + kemQ) / (2 * kemQ) % 2 ^ d

/-- Bytes by threes as two numbers of 12 bits, those below q. -/
def kemTriples : List Nat → List Nat
  | a :: b :: c :: l => ([a + 256 * (b % 16), b / 16 + 16 * c].filter (fun d => decide (d < kemQ))) ++ kemTriples l
  | _ => []

/-- A uniform transform from a seed and two indices: 16 blocks of SHAKE128 yield more than 256 coefficients. -/
def kemSample (seed : List Nat) (i j : Nat) : List Nat :=
  (kemTriples (squeeze 168 16 (absorbed 168 0x1F (seed ++ [i, j])))).take 256

/-- A polynomial of the centred binomial distribution with parameter 2, from a seed and a count. -/
def kemNoise (seed : List Nat) (n : Nat) : List Nat :=
  let v := leNum (shake256 128 (seed ++ [n]))
  let bit := fun k => v / 2 ^ k % 2
  (List.range 256).map (fun i => (bit (4 * i) + bit (4 * i + 1) + kemQ - bit (4 * i + 2) - bit (4 * i + 3)) % kemQ)

/-! ### Encapsulation (FIPS 203, 7.2) -/

/-- The input check of an encapsulation key: its length, and every coefficient below q. (PRESUMED, log 13) -/
def kemKeyOk (ek : List Nat) : Bool :=
  decide (ek.length = 1568) && (List.range 4).all (fun i => (kemDecode 12 (ek.drop (384 * i))).all (fun c => decide (c < kemQ)))

/-- The ciphertext of a message of 32 bytes under a key, with the coins of the encryption. -/
def kemEncrypt (ek m coins : List Nat) : List Nat :=
  let four := List.range 4
  let seed := ek.drop 1536
  let y := four.map (fun i => kemNtt (kemNoise coins i))
  let sum := fun l : List (List Nat) => l.foldl kemAdd (List.replicate 256 0)
  let u := four.map (fun i =>
    kemAdd (kemNttInv (sum (List.zipWith (fun j f => kemMul (kemSample seed i j) f) four y))) (kemNoise coins (4 + i)))
  let t := four.map (fun i => kemDecode 12 (ek.drop (384 * i)))
  let mu := (kemDecode 1 m).map (fun b => b * ((kemQ + 1) / 2))
  let v := kemAdd (kemAdd (kemNttInv (sum (List.zipWith kemMul t y))) (kemNoise coins 8)) mu
  u.flatMap (fun f => kemEncode 11 (f.map (kemShrink 11))) ++ kemEncode 5 (v.map (kemShrink 5))

/-- ML-KEM-1024 encapsulation to a key with a random message of 32 bytes: the ciphertext and the shared secret.
(PRESUMED, log 13) -/
def kemEncaps (ek m : List Nat) : List Nat × List Nat :=
  let g := sha3512 (m ++ sha3256 ek)
  (kemEncrypt ek m (g.drop 32), g.take 32)

end Sys2Proof.Machine
end

