-- ==== Sys2Proof/Machine/BrynOps.lean ====
section
/-! DEFINITION. Brynir sessions as shared operations: handshakes, the closing of a session, acknowledgement and
retransmission, the records of a frame, and the responses to them (R278-R289). -/

namespace Sys2Proof.Machine

/-- The page of Brynir. -/
def brynPage : Nat := 0xA9

/-- A frame is dropped and counted in AUTH_FAIL (R279, R280, R284). -/
def State.authFail (s : State) : State := (s.incSat F.BRYN_COUNTS_AUTH_FAIL).err brynPage 2

/-! ### Closing (R283) -/

/-- A session closes: what it had not started goes, its responses are discarded, and its relays answer nobody. A failed
one shows FAILED and raises SESS_FAIL. (DESIGN CHOICE, log 45) -/
def State.sessClose (s : State) (n : Nat) (failed : Bool) : State :=
  let x := s.sess n
  if !x.open_ then s
  else
    let s := s.setSess n { Session.init with
                                            gen := x.gen, state := if failed then 4 else 0, level := x.level,
                                            domain := x.domain, key := x.key, mac := x.mac, udp := x.udp, ip := x.ip }
    let drop := fun e : Trk => match e.user with
      | .relay slot _ => if slot = n then { e with user := LinkUser.signal } else e
      | _ => e
    let s := { s with link := { s.link with live := s.link.live.map drop } }.rxSettle []
    if failed then (s.err brynPage 3).event brynPage 0x8012 else s.event brynPage 0x8011

/-- A session whose SEQ has reached 0xFFFF_FF00 in a direction fails. -/
def State.seqCheck (s : State) (n : Nat) : State :=
  let x := s.sess n
  if 0xFFFFFF00 ≤ x.txSeq ∨ 0xFFFFFF00 ≤ x.rxAck then s.sessClose n true else s

/-! ### Acknowledgement and retransmission (R285, R286) -/

/-- An ACK frame: unsequenced, under the last SEQ sent. -/
def State.ackSend (s : State) (n : Nat) : State := s.bsendRaw n 1 5 [] true false ((s.sess n).txSeq - 1)

/-- Frames that wait for the window go while it has room. -/
def State.sessPump (s : State) (n : Nat) : State :=
  let l := (s.sess n).sendq
  l.foldl (fun s e => s.bsend n e.1 e.2.1 e.2.2) (s.setSess n { s.sess n with sendq := [] })

/-- An unacknowledged frame is sent again, with RETX and a new TXC. (DESIGN CHOICE, log 45) -/
def State.retransmit (s : State) (n : Nat) (e : TxFrame) (fast : Bool) : State :=
  let x := s.sess n
  let e' := { e with tries := e.tries + 1, sentAt := s.now, fast := fast }
  let s := s.setSess n { x with unacked := x.unacked.map (fun y => if y.seq = e.seq then e' else y) }
  (s.incSat F.BRYN_COUNTS_RETX).bsendRaw n e.typ e.sub e.payload false true e.seq

/-- The retransmissions that a frame has before its session fails. -/
def State.retries (s : State) : Nat := max 1 (s.rd F.BRYN_CTRL_RETRIES)

/-- A SACK shows three frames after this one received. -/
def sackAfter (ack sack seq : Nat) : Bool :=
  decide (3 ≤ ((List.range 32).filter (fun i => bitOf sack i && decide (seq < ack + 1 + i))).length)

/-- The host's ACK and SACK: acknowledged frames go, a frame that three later ones have overtaken is sent again, and the
window lets waiting frames go. (DESIGN CHOICE, log 45) -/
def State.ackIn (s : State) (n ack sack : Nat) : State :=
  let x := s.sess n
  if x.txSeq < ack then s
  else
    let s := s.setSess n { x with unacked := x.unacked.filter (fun e => decide (ack ≤ e.seq)) }
    let lost := (s.sess n).unacked.filter (fun e =>
      !e.fast && decide (e.tries < s.retries) && sackAfter ack sack e.seq && !(decide (ack < e.seq) && bitOf sack (e.seq - ack - 1)))
    let s := lost.foldl (fun s e => s.retransmit n e true) s
    s.sessPump n

/-- ACK_DELAY_EXPIRE (R285). -/
def execAckDelayExpire (slot : Fin 64) (s : State) : Host.Outcome State Fault Refusal :=
  let x := s.sess slot.val
  .next (if x.open_ && decide (0 < x.ackDue) then s.ackSend slot.val else s)

/-- RETRANSMIT_TIMEOUT (R286). -/
def execRetransmitTimeout (slot : Fin 64) (seq : BitVec 32) (s : State) : Host.Outcome State Fault Refusal :=
  let n := slot.val
  match (s.sess n).unacked.find? (fun e => e.seq == seq.toNat) with
  | none => .next s
  | some e => .next (if s.retries ≤ e.tries then s.sessClose n true else s.retransmit n e false)

/-- SESSION_IDLE_TIMEOUT (R283): none of the reasons that make a session FAILED. -/
def execSessionIdleTimeout (slot : Fin 64) (s : State) : Host.Outcome State Fault Refusal :=
  .next (s.sessClose slot.val false)

/-- The session slot that a requester's HSESS_SEL names (R298). -/
def State.selSess (s : State) (r : Req) : Nat := s.sel r F.HSESS_SEL_SLOT.key % 64

/-- HSESS_CMD_CLOSE (R283). -/
def execHsessCmdClose (r : Req) (s : State) : Host.Outcome State Fault Refusal :=
  .next (s.cmdAt r F.HSESS_CMD_CMD false (fun s => s.sessClose (s.selSess r) true))

/-! ### Handshakes (R281, R282) -/

/-- A handshake frame from the module: in clear, unsequenced, with TXC 0 and no tag (R282). -/
def State.clearSend (s : State) (mac : Nat) (udp : Bool) (ip session sub : Nat) (payload : List Nat) : State :=
  let h : BHead := ⟨session, 1, sub, false, true, 0, 0, 0, 0, 0⟩
  s.hostOut (s.rd F.HOSTP_CFG_PCP_CTRL) (.frame mac udp ip h payload (h.bytes payload.length ++ payload))

/-- A REFUSE with its reason, at most 100 in a second; the rest are only counted. -/
def State.refuse (s : State) (mac : Nat) (udp : Bool) (ip reason : Nat) : State :=
  let recent := s.host.refused.filter (fun t => decide (s.now < t + 250000000))
  let s := { s with host := { s.host with refused := recent } }.err brynPage 1
  if 100 ≤ recent.length then s.incSat F.BRYN_COUNTS_REFUSED
  else ({ s with host := { s.host with refused := s.now :: recent } }).clearSend mac udp ip 0 4 (wordBytes (nw reason))

/-- HKEY entry `k` is in use, and its MAX_LEVEL is no reserved one. -/
def State.hkeyValid (s : State) (k : Nat) : Bool := s.on (F.HKEY_CFG_VALID.i k) && s.rd (F.HKEY_CFG_MAX_LEVEL.i k) != 3

/-- The HKEY entry of a key's digest. -/
def State.hkeyOf (s : State) (d : List Nat) : Option Nat :=
  (List.range 16).find? (fun k => s.hkeyValid k && (List.range 4).map (fun w => s.rd (F.HKEY_HASH_HASH.ij k w)) == digestWords d)

/-- A level by its number in W0. -/
def levelOf (n : Nat) : Level := if n = 0 then .L0 else if n = 1 then .L1 else .L2

/-- The ephemeral ML-KEM key in the payload of an INIT (R282). -/
def hostKem (p : List Nat) : List Nat := imgBytes p 1833 1568

/-- What admits an INIT: the refusal, or the HKEY entry and the domain of the session (R281). (DESIGN CHOICE, log 44) -/
def State.admission (s : State) (p : List Nat) : Nat ⊕ (Nat × Nat) :=
  let level := byteAt p 0 % 4
  let d := keyDigest (imgBytes p 40 1793)
  if (List.range 16).all (fun k => !s.hkeyValid k) then
    if !(s.rootKnown d || s.ownerKnown d) then .inl 1 else if level ≠ 0 then .inl 2 else .inr (0, 0)
  else
    match s.hkeyOf d with
    | none => .inl 1
    | some k => if level < s.rd (F.HKEY_CFG_MAX_LEVEL.i k) then .inl 2 else .inr (k, s.rd (F.HKEY_CFG_DOMAIN.i k))

/-- Sessions that are open. -/
def State.openCount (s : State) : Nat := (s.sessions.filter (fun e => e.2.open_)).length

/-- The lowest slot that no session holds. -/
def State.freeSlot (s : State) : Option Nat :=
  if s.rd F.BRYN_CTRL_MAX_SESS ≤ s.openCount then none else (List.range 64).find? (fun n => !(s.sess n).open_)

/-- `n` bytes of padding. -/
def zeros (n : Nat) : List Nat := List.replicate n 0

/-- A signature field of 1,544 bytes: SIG_LEN, 6 reserved bytes and 1,536 of signature. -/
def sigField (sigLen : Nat) (sig : List Nat) : List Nat :=
  leBytes 2 sigLen ++ zeros 6 ++ (sig ++ zeros 1536).take 1536

/-- 32 bytes that the steward draws. -/
def State.randomBytes (s : State) (i : Nat) : List Nat := (List.range 32).map (fun k => Config.freeNat (s.draws + i + k) % 256)

/-- A handshake begins: the INIT is refused, or answered with ACCEPT, for which the steward draws its nonce and the message that
it encapsulates (R282). (DESIGN CHOICE, log 44) -/
def State.initBegin (s : State) (q : InitReq) : State :=
  let p := q.payload.map BitVec.toNat
  match s.admission p with
  | .inl reason => s.refuse q.mac.toNat q.udp q.ip.toNat reason
  | .inr (k, dom) =>
    match s.freeSlot with
    | none => s.refuse q.mac.toNat q.udp q.ip.toNat 3
    | some n =>
      let gen := ((s.sess n).gen + 1) % 256
      let e := kemEncaps (hostKem p) (s.randomBytes 32)
      let head := wordBytes (nw (gen * 256 + n)) ++ s.randomBytes 0 ++ e.1
      let sig := (q.sig.map BitVec.toNat).take 1536
      let t2 := shake256 64 (shake256 64 (p ++ head) ++ sig)
      let sh : Shake := ⟨n, gen, levelOf (byteAt p 0 % 4), dom, k, q.mac.toNat, q.udp, q.ip.toNat, imgBytes p 40 1793, t2, e.2, s.now⟩
      ({ s with draws := s.draws + 64, host := { s.host with shake := some sh } }).clearSend q.mac.toNat q.udp q.ip.toNat
        (gen * 256 + n) 2 (head ++ sigField sig.length sig)

/-- Queued INITs begin until one is answered with ACCEPT. -/
def State.initQueue (s : State) : List InitReq → State
  | [] => { s with host := { s.host with queue := [] } }
  | q :: l =>
    let s := s.initBegin q
    if s.host.shake.isSome then { s with host := { s.host with queue := l } } else State.initQueue s l

/-- Why an INIT is refused before its host key is looked at: 7 DISABLED, 6 FORMAT, 4 BUSY. (DESIGN CHOICE, log 44) -/
def State.initRefused (s : State) (q : InitReq) : Option Nat :=
  if !s.hostServes || !s.on F.BRYN_CTRL_EN then some 7
  else if q.payload.length ≠ 3401 ∨ byteAt (q.payload.map BitVec.toNat) 0 % 4 = 3
    ∨ kemKeyOk (hostKem (q.payload.map BitVec.toNat)) = false then some 6
  else if s.rd F.FW_STATUS_STATE = 5 ∧ s.fw.unit = 0 then some 4
  else if s.host.shake.isSome && decide (8 ≤ s.host.queue.length) then some 4 else none

/-- The transport of a frame is on, and over UDP its destination port is PORT (R278). -/
def State.transportOn (s : State) (udp : Bool) (port : Nat) : Bool :=
  if udp then s.on F.HOSTP_CFG_UDP_EN && port == s.rd F.HOSTP_UDP_PORT else s.on F.HOSTP_CFG_L2_EN

/-- INIT (R282): refused, queued behind the handshake in progress, or begun. (DESIGN CHOICE, log 44) -/
def execInit (q : InitReq) (s : State) : Host.Outcome State Fault Refusal :=
  .next (s.rxTake.when (s.rd F.HOSTP_STATUS_STATE == 2 && s.transportOn q.udp q.port.toNat) (fun s =>
    match s.initRefused q with
    | some reason => s.refuse q.mac.toNat q.udp q.ip.toNat reason
    | none =>
      if s.host.shake.isSome then { s with host := { s.host with queue := s.host.queue ++ [q] } } else s.initBegin q))

/-- A slot that no session holds is FREE. -/
def State.slotFree (s : State) (n : Nat) : State :=
  if (s.sess n).open_ then s else s.setSess n { s.sess n with state := 0 }

/-- The handshake in progress ends, its slot FREE unless the session has opened, and the next INIT begins. -/
def State.shakeEnd (s : State) : State :=
  let l := s.host.queue
  let s := match s.host.shake with
    | none => s
    | some k => s.slotFree k.slot
  ({ s with host := { s.host with shake := none } }).initQueue l

/-- The session opens: the slot's generation advances, and both keys and salts are derived. -/
def State.sessOpen (s : State) (k : Shake) : State :=
  let s := s.setSess k.slot { Session.init with
    open_ := true, state := 2, gen := k.gen, level := k.level, domain := k.domain, key := k.key, mac := k.mac, udp := k.udp,
    ip := k.ip, keys := shake256 72 (k.secret ++ k.t2), heard := s.now }
  (s.incSat F.BRYN_COUNTS_HS_DONE).event brynPage 0x8010

/-- The payload of a CONFIRM has its length and a SIG_LEN that its field holds. (DESIGN CHOICE, log 44) -/
def confirmFormatOk (p : List Nat) : Bool := decide (p.length = 1544) && decide (leAt p 0 2 ≠ 0) && decide (leAt p 0 2 ≤ 1536)

/-- The signature of T2 in the payload of a CONFIRM holds under the key of the INIT. -/
def Shake.confirmed (k : Shake) (p : List Nat) : Bool := fieldHolds k.hostKey k.t2 (imgBytes p 8 1536) (leAt p 0 2)

/-- CONFIRM (R282). (DESIGN CHOICE, log 44) -/
def execConfirm (session : BitVec 16) (payload : List (BitVec 8)) (s : State) : Host.Outcome State Fault Refusal :=
  match s.host.shake with
  | none => .next s
  | some k =>
    let s := s.rxTake
    let p := payload.map BitVec.toNat
    .next (
      if session.toNat ≠ k.gen * 256 + k.slot then s
      else if confirmFormatOk p && k.confirmed p then (s.sessOpen k).shakeEnd
      else (s.refuse k.mac k.udp k.ip (if confirmFormatOk p then 5 else 6)).shakeEnd)

/-- HANDSHAKE_TIMEOUT (R282). -/
def execHandshakeTimeout (s : State) : Host.Outcome State Fault Refusal :=
  .next (if s.host.shake.isSome then s.shakeEnd else s)

/-! ### The records of a frame (R289) -/

/-- The bytes that a record takes: 0 for a type that carries none. -/
def recSize (typ w0 : Nat) : Nat :=
  if typ = 3 then 16
  else if typ = 4 then 16 + 8 * (w0 / 2 ^ 24 % 256)
  else if typ = 6 then 16 + 64 * (w0 / 2 ^ 24 % 256)
  else if typ = 7 then 32 + (w0 / 2 ^ 16 % 2 ^ 14 + 8) / 8 * 8
  else if typ = 8 then 16
  else 0

/-- W0 of a register or SUBMIT record, or of a data record, breaks its layout. (DESIGN CHOICE, log 46) -/
def w0Bad (typ w0 : Nat) : Bool :=
  let count := w0 / 2 ^ 24 % 256
  if typ = 7 ∨ typ = 8 then
    w0 / 2 ^ 14 % 4 != 0 || w0 / 2 ^ 34 != 0 || decide (8192 ≤ w0 / 2 ^ 16 % 2 ^ 14)
      || (typ == 7 && w0 / 2 ^ 30 % 4 != 0 && w0 / 2 ^ 32 % 4 == 3) || (typ == 8 && w0 / 2 ^ 30 % 16 != 0)
  else
    bitOf w0 15 || w0 / 2 ^ 22 % 4 != 0 || w0 / 2 ^ 48 != 0 || count == 0
      || (if typ = 6 then decide (22 < count) else decide (64 < count) || w0 / 2 ^ 32 != 0)

/-- W1 breaks its layout: address bits above the space, or a reserved word that is not 0. (DESIGN CHOICE, log 46) -/
def w1Bad (typ w1 : Nat) : Bool :=
  if typ = 6 then w1 != 0 else if typ = 7 ∨ typ = 8 then w1 / 2 ^ 50 != 0 else w1 / 2 ^ 44 != 0

/-- The record that starts a payload, and whether it is malformed (R289). -/
def firstRec (typ at_ : Nat) (inOrder : Bool) (l : List Nat) : HRec :=
  let w0 := leAt l 0 8
  let n := recSize typ w0
  let data := if typ = 7 then imgBytes l 32 (w0 / 2 ^ 16 % 2 ^ 14 + 1) else imgBytes l 16 (n - 16)
  ⟨typ, w0, leAt l 8 8, if typ = 7 then leAt l 16 16 else 0, data,
    w0Bad typ w0 || w1Bad typ (leAt l 8 8) || decide (l.length < n), at_, inOrder⟩

/-- The records of a payload, in order; a record that runs past the end is the last. -/
def parseRecs (typ at_ : Nat) (inOrder : Bool) : Nat → List Nat → List HRec
  | 0, _ => []
  | fuel + 1, l =>
    if l.length < 8 then []
    else firstRec typ at_ inOrder l :: parseRecs typ at_ inOrder fuel (l.drop (recSize typ (leAt l 0 8)))

/-- What a frame brings: its records; the whole of a MARK, an ATTEST or a CLOSE as one (R291: a SUBMIT frame carries one
record). -/
def frameRecs (typ at_ : Nat) (inOrder : Bool) (l : List Nat) : List HRec :=
  if typ = 1 then [⟨1, 0, 0, 0, [], false, at_, inOrder⟩]
  else if typ = 2 then [⟨2, leAt l 0 8, 0, 0, imgBytes l 8 32, decide (l.length < 40), at_, inOrder⟩]
  else if typ = 0x0B then [⟨0x0B, leAt l 0 8, 0, 0, [], decide (l.length < 8), at_, inOrder⟩]
  else if typ = 6 then (parseRecs typ at_ inOrder 1 l)
  else parseRecs typ at_ inOrder 1023 l

/-! ### Frames from the host (R279, R284, R285) -/

/-- The bytes of a frame. -/
def rawOf (fr : BFrame) : List Nat := fr.bytes.map BitVec.toNat

/-- The header that a frame begins with (R279). -/
def headOf (l : List Nat) : BHead :=
  let b := fun i => leAt l (8 * i) 8
  ⟨b 0 / 2 ^ 48, b 0 / 2 ^ 40 % 256, b 0 / 2 ^ 32 % 256, bitOf (b 0) 25, bitOf (b 0) 24, b 1 % 2 ^ 32, b 1 / 2 ^ 32,
    b 2 / 2 ^ 32, b 2 / 2 ^ 16 % 2 ^ 16, b 3⟩

/-- PLEN. -/
def plenOf (l : List Nat) : Nat := leAt l 0 2 % 2 ^ 14

/-- A frame that the header rules drop: cut off within its header, VER, a reserved bit, an unknown TYPE, or the wrong
direction. (DESIGN CHOICE, log 45) -/
def frameBad (l : List Nat) : Bool :=
  let b0 := leAt l 0 8
  let t := b0 / 2 ^ 40 % 256
  let sub := b0 / 2 ^ 32 % 256
  decide (l.length < 32) || b0 / 2 ^ 28 % 16 != 1 || b0 / 2 ^ 26 % 4 != 0 || b0 / 2 ^ 14 % 2 ^ 10 != 0 || leAt l 16 2 != 0
    || t == 0 || decide (0x0B < t) || t == 5 || t == 9 || t == 0x0A
    || (t == 1 && (sub == 0 || sub == 2 || sub == 4 || decide (6 < sub)))

/-- The ciphertext of a frame, PLEN bytes. -/
def cipherOf (l : List Nat) : List Nat := (l.drop 32).take (plenOf l)

/-- The frame carries the tag that the session's key gives it (R284). -/
def Session.tagOk (x : Session) (l : List Nat) : Bool :=
  decide (48 + plenOf l ≤ l.length) &&
    (l.drop (32 + plenOf l)).take 16 == gcmTag (brynKey x.keys 0) (brynIv x.keys 0 (headOf l).txc) (l.take 32) (cipherOf l)

/-- The payload, decrypted (R284). -/
def Session.opened (x : Session) (l : List Nat) : List Nat :=
  gcmStream (brynKey x.keys 0) (brynIv x.keys 0 (headOf l).txc) (cipherOf l)

/-- A TXC has been seen before, or lies too far below the highest one accepted (R284). -/
def Session.txcOld (x : Session) (txc : Nat) : Bool :=
  match x.rxTop with
  | none => false
  | some top => decide (txc + 1024 < top) || x.rxSeen.contains txc

/-- The session notes a TXC it accepts. -/
def Session.txcSeen (x : Session) (txc : Nat) : Session :=
  let top := match x.rxTop with
    | none => txc
    | some t => max t txc
  { x with rxTop := some top, rxSeen := (txc :: x.rxSeen).filter (fun t => decide (top ≤ t + 1024)) }

/-- Frames whose turn has come hand over their records; a CLOSE among them takes the session to CLOSING. -/
def Session.release (x : Session) : Nat → Session
  | 0 => x
  | fuel + 1 =>
    match assoc x.rxHeld x.rxAck with
    | none => x
    | some l => Session.release { x with
        recs := x.recs ++ l, rxHeld := x.rxHeld.filter (fun e => e.1 != x.rxAck), rxAck := x.rxAck + 1,
        state := if l.any (fun r => r.typ == 1) then 3 else x.state } fuel

/-- A sequenced frame is kept, or known already, or beyond the window; either of the first two is acknowledged. -/
def Session.keep (x : Session) (now seq : Nat) (l : List HRec) : Session :=
  let due : Session := { x with ackDue := x.ackDue + 1, ackSince := if x.ackDue = 0 then now else x.ackSince }
  if x.rxAck + 1023 < seq then x
  else if seq < x.rxAck ∨ (x.rxHeld.any (fun e => e.1 == seq)) then due
  else { due with rxHeld := x.rxHeld ++ [(seq, l)] }.release 1024

/-- A frame that the window takes, not one beyond it or received already (R285). -/
def Session.takes (x : Session) (seq : Nat) : Bool :=
  decide (x.rxAck ≤ seq) && decide (seq ≤ x.rxAck + 1023) && !x.rxHeld.any (fun e => e.1 == seq)

/-- A frame that belongs to an open session and is authentic takes its place; a MARK that the window drops counts as
dropped (R294). (DESIGN CHOICE, log 45) -/
def State.frameIn (s : State) (n : Nat) (h : BHead) (payload : List Nat) : State :=
  let x := s.sess n
  let s := (s.setSess n { (x.txcSeen h.txc) with heard := s.now }).ackIn n h.ack h.sack
  let x := s.sess n
  let inOrder := !h.unseq && !h.retx && h.seq == x.rxAck
  let l := frameRecs h.typ s.now inOrder payload
  if h.typ = 1 ∧ h.sub ≠ 6 then s
  else if h.unseq then s.setSess n { x with recs := x.recs ++ l }
  else
    let s := if h.typ = 0x0B ∧ x.takes h.seq = false then s.incSat F.PHASE_COUNTS_DUP else s
    let s := s.setSess n (x.keep s.now h.seq l)
    let s := if 16 ≤ (s.sess n).ackDue then s.ackSend n else s
    s.seqCheck n

/-- The slot of the open session that a SESSION field names. -/
def State.sessOf (s : State) (v : Nat) : Option Nat :=
  let n := v % 256
  if n < 64 ∧ (s.sess n).open_ = true ∧ (s.sess n).gen = v / 256 then some n else none

/-- The bytes of a Brynir frame from the host: dropped and counted in AUTH_FAIL, or accepted. INIT and CONFIRM have their
own commands. -/
def State.brynIn (s : State) (l : List Nat) : State :=
  let h := headOf l
  if frameBad l then s.authFail
  else if h.typ = 1 ∧ (h.sub = 1 ∨ h.sub = 3) then s
  else
    match s.sessOf h.session with
    | none => s.authFail
    | some n =>
      let x := s.sess n
      if !x.tagOk l || x.txcOld h.txc then s.authFail else s.frameIn n h (x.opened l)

/-- A Brynir frame from the host on a transport that is on; a frame that its session keeps out of order stays in the buffer
(R276, R278). -/
def State.bFrame (s : State) (fr : BFrame) : State :=
  let l := rawOf fr
  let here := s.host.rxq.take 1
  let s := s.rxTake
  if s.rd F.HOSTP_STATUS_STATE = 2 ∧ s.transportOn fr.udp fr.port.toNat = true then
    (s.brynIn l).rxSettle (here.map (fun e => ((headOf l).session % 256, (headOf l).seq, e)))
  else s

/-- BRYNIR_FRAME_RECEIVE (R284). -/
def execBrynirFrameReceive (fr : BFrame) (s : State) : Host.Outcome State Fault Refusal := .next (s.bFrame fr)

/-- SESSION_ACK (R283, R286). -/
def execSessionAck (fr : BFrame) (s : State) : Host.Outcome State Fault Refusal :=
  .next (if (headOf (rawOf fr)).typ = 1 ∧ (headOf (rawOf fr)).sub = 5 then s.bFrame fr else s)

/-! ### Records in turn (R287-R289) -/

/-- The record whose turn it is on a session. -/
def State.frontRec (s : State) (n typ : Nat) : Option HRec :=
  match (s.sess n).recs with
  | [] => none
  | e :: _ => if (s.sess n).open_ && e.typ == typ then some e else none

/-- The front record leaves. -/
def State.recTake (s : State) (n : Nat) : State := s.setSess n { s.sess n with recs := (s.sess n).recs.drop 1 }

/-- A tag is live: its relay is out, or its response waits to be sent. -/
def Session.tagLive (x : Session) (tag : Nat) : Bool :=
  x.tags.any (fun t => t.tag == tag)
    || x.sendq.any (fun e => (e.1 == 5 || e.1 == 9) && leAt e.2.2 0 2 % 8192 == tag)

/-- A REG_RESP: STATUS, REASON, FAIL_INDEX and data words. -/
def State.regResp (s : State) (n tag status reason index : Nat) (d : List Word) : State :=
  s.bsend n 5 0 (wordBytes (nw (tag + status * 2 ^ 16 + reason * 2 ^ 20 + d.length * 2 ^ 24 + index * 2 ^ 32)) ++
    d.flatMap wordBytes)

/-- A DATA_RESP without data, or with it and its POISON_MAP; the word that the layout names W1 without a meaning is a free
value. -/
def State.dataResp (s : State) (n tag status : Nat) (d : Option (Nat × List Nat)) : State :=
  let w1 := wordBytes (nw s.free)
  let s := s.drawn
  match d with
  | none => s.bsend n 9 0 (wordBytes (nw (tag + status * 2 ^ 16)) ++ w1 ++ List.replicate 16 0)
  | some (map, l) =>
    s.bsend n 9 0 (wordBytes (nw (tag + status * 2 ^ 16 + (l.length - 1) * 2 ^ 24 + 2 ^ 38)) ++ w1 ++
      leBytes 16 map ++ l ++ List.replicate ((8 - l.length % 8) % 8) 0)

/-- A response without data to a record of any type. -/
def State.answerRec (s : State) (n typ tag status : Nat) : State :=
  if typ = 7 ∨ typ = 8 then s.dataResp n tag status none else s.regResp n tag status 0 0 []

/-- A FENCE that is not met: an earlier write or submission of the session is still out (R287). -/
def Session.fenced (x : Session) (w0 : Nat) : Bool := bitOf w0 13 && x.tags.any (·.isWrite)

/-- The front record of a type runs: it waits for its FENCE, and is answered BAD, TAG_BUSY or BUSY without running
(R287-R289). -/
def State.recRun (s : State) (n typ : Nat) (act : HRec → State → State) : State :=
  match s.frontRec n typ with
  | none => s
  | some e =>
    let x := s.sess n
    let tag := e.w0 % 8192
    if e.bad then ((s.recTake n).answerRec n typ tag 9).seqCheck n
    else if x.fenced e.w0 then s
    else if x.tagLive tag then ((s.recTake n).answerRec n typ tag 5).seqCheck n
    else if s.credit n = 0 then ((s.recTake n).answerRec n typ tag 4).seqCheck n
    else (act e s).seqCheck n

/-- SESSION_CLOSE (R283): the CLOSE is acknowledged, and the session closes. (DESIGN CHOICE, log 45) -/
def execSessionClose (slot : Fin 64) (s : State) : Host.Outcome State Fault Refusal :=
  let n := slot.val
  .next (
    match s.frontRec n 1 with
    | none => s
    | some _ => ((s.recTake n).ackSend n).sessClose n false)

end Sys2Proof.Machine
end

