-- ==== Sys2Proof/Machine/Cfg.lean ====
section
/-! DEFINITION. The commands of the CFG page (R515, R535) and the read of a crash dump (R535). -/

namespace Sys2Proof.Machine

/-- A read by `r` of a register at `off` of page `p` whose read acts: `act` gives the state after it and the word; a refused
read is answered with an access error (R539, R540). -/
def State.readCmd (s : State) (r : Req) (p off : Nat) (act : State → State × Word) : State :=
  match s.pageFault r p false with
  | some reason => s.accessError r p off reason
  | none => let x := act s; x.1.put (.answer true false (wordBytes x.2))

def State.cfgSetBuf (s : State) (i : Nat) (v : Word) : State :=
  { s with cfg := { s.cfg with buf := Sparse.set (fun _ => 0) s.cfg.buf i v } }

/-- The block in the buffer: as many words as its LENGTH says, at most all 8,192. -/
def State.cfgBufBlock (s : State) : List Word :=
  (List.range (max 2 (min 8192 ((s.cfgBuf 1).toNat % 2 ^ 32 / 8)))).map s.cfgBuf

/-- CFG_PTR_RESET (R515). -/
def execCfgPtrReset (r : Req) (s : State) : Host.Outcome State Fault Refusal :=
  .next (s.cmdAt r F.CFG_CMD_PTR_RESET false (fun s => s.wr F.CFG_PTR_WORD 0))

/-- COMMIT (R515): the buffer is checked at the selected ID, and its flash write starts. (DESIGN CHOICE, log 66) -/
def State.cfgCommit (s : State) : State :=
  if s.cfg.writing.isSome then s
  else
    let id := s.rd F.CFG_SEL_ID
    let l := s.cfgBufBlock
    let reason := (cfgCheck id (some l)).1
    let s := (s.wr F.CFG_WR_STATUS_ID id).wr F.CFG_WR_STATUS_REASON reason
    if reason = 0 then ({ s with cfg := { s.cfg with writing := some (id, l) } }).wr F.CFG_WR_STATUS_RESULT 1
    else s.wr F.CFG_WR_STATUS_RESULT 3

/-- CFG_COMMIT (R515). -/
def execCfgCommit (r : Req) (s : State) : Host.Outcome State Fault Refusal :=
  .next (s.cmdAt r F.CFG_CMD_COMMIT false State.cfgCommit)

/-- CFG_FLASH_WRITE_DONE (R515): `ok` unless the write failed twice (R529). -/
def execCfgFlashWriteDone (ok : Bool) (s : State) : Host.Outcome State Fault Refusal :=
  .next (
    match s.cfg.writing with
    | none => s
    | some (id, l) =>
      let s := { s with cfg := { s.cfg with writing := none } }
      if ok then ((s.cfgSetStored id (some l)).wr F.CFG_WR_STATUS_RESULT 2).event 2 0x0021
      else (s.wr F.CFG_WR_STATUS_RESULT 3).err 0 3)

/-- CFG_READ (R515): the buffer takes the stored block; words beyond it read 0. -/
def execCfgRead (r : Req) (s : State) : Host.Outcome State Fault Refusal :=
  .next (s.cmdAt r F.CFG_CMD_READ false (fun s =>
    let l := (s.cfgStored (s.rd F.CFG_SEL_ID)).getD []
    let s := { s with cfg := { s.cfg with buf := [] } }
    (List.range l.length).foldl (fun s i => s.cfgSetBuf i (l.getD i 0)) s))

/-- CFG_ERASE (R515). -/
def execCfgErase (r : Req) (s : State) : Host.Outcome State Fault Refusal :=
  .next (s.cmdAt r F.CFG_CMD_ERASE false (fun s => s.cfgSetStored (s.rd F.CFG_SEL_ID) none))

/-- The next buffer word, which wraps with CFG_PTR. -/
def State.cfgStep (s : State) : State := s.inc F.CFG_PTR_WORD

/-- CFG_DATA_ACCESS (R515, R535). -/
def execCfgDataAccess (r : Req) (write : Option (BitVec 64)) (s : State) : Host.Outcome State Fault Refusal :=
  .next (
    match write with
    | some v => s.cmdAt r F.CFG_DATA_WORD false (fun s => (s.cfgSetBuf (s.rd F.CFG_PTR_WORD) v).cfgStep)
    | none => s.readCmd r F.CFG_DATA_WORD.page F.CFG_DATA_WORD.off (fun s => (s.cfgStep, s.cfgBuf (s.rd F.CFG_PTR_WORD))))

/-- DUMP_DATA_READ (R535). -/
def execDumpDataRead (r : Req) (s : State) : Host.Outcome State Fault Refusal :=
  .next (s.readCmd r F.DUMP_DATA_WORD.page F.DUMP_DATA_WORD.off (fun s => (s.inc F.DUMP_SEL_OFFSET, s.dumpWord)))

end Sys2Proof.Machine
end

