-- ==== Sys2Proof/Machine/Contexts.lean ====
section
/-! DEFINITION. Contexts, work items, submission, signal counters, partitions and protection epochs: the meaning of each
command (R199-R235). -/

namespace Sys2Proof.Machine

/-- The context that a requester's CTX_SEL names (R235). -/
def State.selCtx (s : State) (r : Req) : Nat := s.sel r F.CTX_SEL_ID.key % 65536

/-- A command of CTX_CMD acts when its condition holds; else CMD_REJECT (R202). -/
def State.ctxCmd (s : State) (r : Req) (cond : Nat → Bool) (act : Nat → State → State) : State :=
  s.cmdAt r F.CTX_CMD_CMD false (fun s =>
    let c := s.selCtx r
    if cond c then act c s else s.err 0x20 2)

/-- CTX_RING is valid for ALLOC (R215). -/
def State.ringValid (s : State) (c : Nat) : Bool :=
  let x := s.ctx c
  let f := (s.partFrond x.part).idx
  let a := x.ringBase % 2 ^ 44
  decide (6 ≤ x.ringLog) && decide (x.ringLog ≤ 16) && x.ringBase / 2 ^ 44 == s.modIdx
    && a / 0x5000000000 == f && decide (a % 0x5000000000 + 2 ^ x.ringLog * 64 ≤ s.visible f)

/-- CTX_ALLOC (R202, R215). (DESIGN CHOICE, log 33) -/
def execCtxAlloc (r : Req) (s : State) : Host.Outcome State Fault Refusal :=
  .next (s.ctxCmd r (fun c => c != 0 && !(s.ctx c).alloc && s.ringValid c && s.partState (s.ctx c).part == 2)
    (fun c s => s.updCtx c (fun x => { x with
      alloc := true, gen := (x.gen + 1) % 256, head := 0, tail := 0, fault := 0, prods := [], energy := 0,
      faulted := false, stopped := false, resetting := false, outstanding := [], wait := none, epoch := none })))

/-- CTX_FREE (R202). -/
def execCtxFree (r : Req) (s : State) : Host.Outcome State Fault Refusal :=
  .next (s.ctxCmd r (fun c => (s.ctxState c == 1 || s.ctxState c == 6) && (s.ctx c).outstanding == [])
    (fun c s => s.updCtx c (fun x => { x with
      alloc := false, gen := (x.gen + 1) % 256, stopped := false, head := x.tail, wait := none, epoch := none })))

/-- CTX_STOP (R202). -/
def execCtxStop (r : Req) (s : State) : Host.Outcome State Fault Refusal :=
  .next (s.ctxCmd r (fun c => s.ctxState c != 0 && s.ctxState c != 7)
    (fun c s => s.updCtx c (fun x => { x with stopped := true })))

/-- CTX_START (R202). (DESIGN CHOICE, log 33) -/
def execCtxStart (r : Req) (s : State) : Host.Outcome State Fault Refusal :=
  .next (s.ctxCmd r (fun c => s.ctxState c == 6) (fun c s => s.updCtx c (fun x => { x with stopped := false })))

/-- The state of a context lets CTX_CFG.PART change (R202). -/
def State.partMovable (s : State) (c : Nat) : Bool :=
  let st := s.ctxState c
  st == 0 || ((st == 1 || st == 6) && (s.ctx c).outstanding == [])

/-- CTX_CFG_WRITE (R202): PRIO and WEIGHT at once; a change of PART only in an allowed state, else CMD_REJECT. -/
def execCtxCfgWrite (r : Req) (value : BitVec 64) (s : State) : Host.Outcome State Fault Refusal :=
  .next (s.cmdAt r F.CTX_CFG_PART false (fun s =>
    let c := s.selCtx r
    let p := F.CTX_CFG_PART.get value
    let same := p == (s.ctx c).part
    let ok := same || s.partMovable c
    let s := s.updCtx c (fun x => { x with
      prio := F.CTX_CFG_PRIO.get value, weight := F.CTX_CFG_WEIGHT.get value, part := if ok then p else x.part })
    if ok then s else s.err 0x20 2))

/-- DISPATCH_DECISION (R222). -/
def execDispatchDecision (f : Frond) (s : State) : Host.Outcome State Fault Refusal := .next (s.dispatch f)

/-- LAUNCH (R207): the item at the head is checked, and starts or waits for its tiles. -/
def execLaunch (c : BitVec 16) (s : State) : Host.Outcome State Fault Refusal :=
  .next (if s.headIs c.toNat 0x80 [0, 1, 2, 3] && s.blockKind c.toNat == 0 then s.itemServe c.toNat else s)

/-- LAUNCH_START (R207). -/
def execLaunchStart (c : BitVec 16) (s : State) : Host.Outcome State Fault Refusal :=
  .next (if s.headIs c.toNat 0x80 [0, 1, 2, 3] && s.blockKind c.toNat == 6 then s.itemServe c.toNat else s)

/-- A LAUNCH whose tiles have all ended. -/
def Ctx.launchEnded (x : Ctx) : Option Outstanding :=
  x.outstanding.find? (fun o => itemKind o.words == 0x80 && o.tiles == [])

/-- A LAUNCH is complete: its W1 signal is added through the domain as it is now (R206, R229). -/
def State.launchDone (s : State) (c : Nat) (o : Outstanding) : State :=
  let s := s.itemDone c o.num
  let w1 := wd o.words 1
  if w1 / 2 ^ 30 % 4 != 0 && !s.domMay (s.ctxDom c) rightW (s.signalAddr w1) 8 then s.addFault c 4 o.num
  else
    let r := s.signalAdd (s.partFrond (s.ctx c).part) .signal w1
    if r.2 = 0 then r.1 else r.1.addFault c r.2 o.num

/-- LAUNCH_COMPLETE (R206): an epoch fence of the domain holds the add (R231). -/
def execLaunchComplete (c : BitVec 16) (s : State) : Host.Outcome State Fault Refusal :=
  match (s.ctx c.toNat).launchEnded with
  | none => .next s
  | some o => .next (if s.heldDom (s.ctxDom c.toNat) then s else s.launchDone c.toNat o)

/-- WAIT (R208). -/
def execWait (c : BitVec 16) (s : State) : Host.Outcome State Fault Refusal :=
  .next (if s.headIs c.toNat 0x81 [0, 1, 2, 3] && s.blockKind c.toNat == 0 then s.itemServe c.toNat else s)

/-- WAIT_ITEM_MET (R208): the blocked WAITs of one counter are tested in dispatch order. -/
def execWaitItemMet (c : BitVec 16) (s : State) : Host.Outcome State Fault Refusal :=
  .next (if s.headIs c.toNat 0x81 [0, 1] && s.blockKind c.toNat == 1 then s.itemServe c.toNat
    else s)

/-- WAIT_TIMEOUT (R208, R212): a WAIT or PHASE_WAIT with a timeout faults. -/
def execWaitTimeout (c : BitVec 16) (s : State) : Host.Outcome State Fault Refusal :=
  .next (if (s.headIs c.toNat 0x81 [0, 1] || s.headIs c.toNat 0x85 [0, 1]) && s.blockKind c.toNat != 0
      && wd (s.headPeek c.toNat) 3 / 2 ^ 32 != 0 then s.itemFault c.toNat 5 else s)

/-- SIGNAL_ITEM_ADD (R209). -/
def execSignalItemAdd (c : BitVec 16) (s : State) : Host.Outcome State Fault Refusal :=
  .next (if s.headIs c.toNat 0x82 [0] then s.itemServe c.toNat else s)

/-- SIGNAL_ITEM_ADD_AFTER (R209). -/
def execSignalItemAddAfter (c : BitVec 16) (s : State) : Host.Outcome State Fault Refusal :=
  .next (if s.headIs c.toNat 0x82 [1] then s.itemServe c.toNat else s)

/-- SIGNAL_ITEM_REGISTER (R209). -/
def execSignalItemRegister (c : BitVec 16) (s : State) : Host.Outcome State Fault Refusal :=
  .next (if s.headIs c.toNat 0x82 [2] then s.itemServe c.toNat else s)

/-- SIGNAL_ITEM_UNREGISTER (R209). -/
def execSignalItemUnregister (c : BitVec 16) (s : State) : Host.Outcome State Fault Refusal :=
  .next (if s.headIs c.toNat 0x82 [3] then s.itemServe c.toNat else s)

/-- FENCE_CONTEXT (R210). -/
def execFenceContext (c : BitVec 16) (s : State) : Host.Outcome State Fault Refusal :=
  .next (if s.headIs c.toNat 0x83 [0] then s.itemServe c.toNat else s)

/-- FENCE_EPOCH (R210). -/
def execFenceEpoch (c : BitVec 16) (s : State) : Host.Outcome State Fault Refusal :=
  .next (if s.headIs c.toNat 0x83 [1] then s.itemServe c.toNat else s)

/-- MARK_ITEM (R211). -/
def execMarkItem (c : BitVec 16) (s : State) : Host.Outcome State Fault Refusal :=
  .next (if s.headIs c.toNat 0x84 [0, 1, 2, 3] then s.itemServe c.toNat else s)

/-- PHASE_WAIT (R212). -/
def execPhaseWait (c : BitVec 16) (s : State) : Host.Outcome State Fault Refusal :=
  .next (if s.headIs c.toNat 0x85 [0, 1, 2, 3] then s.itemServe c.toNat else s)

/-- ITEM_CONDITION_MET (R206): a blocked head item other than a WAIT or a LAUNCH is tried again. -/
def execItemConditionMet (c : BitVec 16) (s : State) : Host.Outcome State Fault Refusal :=
  .next (if s.headLive c.toNat && s.blockKind c.toNat != 0 && itemKind (s.headPeek c.toNat) != 0x81
      && itemKind (s.headPeek c.toNat) != 0x80 then s.itemServe c.toNat else s)

/-- ENGINE_ITEM (R170). -/
def execEngineItem (c : BitVec 16) (s : State) : Host.Outcome State Fault Refusal :=
  .next (if s.headLive c.toNat && decide (1 ≤ itemKind (s.headPeek c.toNat))
      && decide (itemKind (s.headPeek c.toNat) ≤ 8) then s.itemServe c.toNat else s)

/-- SUBMISSION_WINDOW_WRITE (R215, R216): a write at a byte offset of the window. -/
def execSubmissionWindowWrite (who : Accessor) (off : BitVec 32) (data : List (BitVec 8)) (s : State) :
    Host.Outcome State Fault Refusal :=
  .next (s.access (writeOf who (0xE1000000000 + off.toNat) (data.map BitVec.toNat) false))

/-- An aligned 64-bit write to one of the counter regions. -/
def counterWrite (who : Accessor) (region n : Nat) (data : BitVec 64) : Held :=
  writeOf who (0xE0000000000 + region * 0x100000 + 8 * n) (leBytes 8 data.toNat) false

/-- SIGNAL_COUNTER_ADD (R219, R220). -/
def execSignalCounterAdd (who : Accessor) (n : Fin 131072) (data : BitVec 64) (s : State) :
    Host.Outcome State Fault Refusal :=
  .next (s.access (counterWrite who 0 n.val data))

/-- SIGNAL_COUNTER_SET (R219). -/
def execSignalCounterSet (who : Accessor) (n : Fin 131072) (data : BitVec 64) (s : State) :
    Host.Outcome State Fault Refusal :=
  .next (s.access (counterWrite who 1 n.val data))

/-- SIGNAL_COUNTER_EXTERNAL (R219, R221). -/
def execSignalCounterExternal (who : Accessor) (n : Fin 131072) (data : BitVec 64) (s : State) :
    Host.Outcome State Fault Refusal :=
  .next (s.access (counterWrite who 2 n.val data))

/-- PART_BUILD (R224). (DESIGN CHOICE, log 35) -/
def execPartBuild (r : Req) (p : Fin 64) (s : State) : Host.Outcome State Fault Refusal :=
  .next (s.cmdAt r (F.PART_CMD_CMD.i p.val) false (fun s =>
    if s.partState p.val != 0 then s.err 0x22 0
    else
      match s.partCheck p.val with
      | some code => s.partFail p.val code 0
      | none => (s.wr (F.PART_STATUS_STATE.i p.val) 1).partSteps p.val 0))

/-- REBUILD is accepted: every bound context is IDLE, STOPPED or FAULTED, or in a reset that completes first, and no
engine of the partition runs (R225, R468). (DESIGN CHOICE, log 35) -/
def State.rebuildOk (s : State) (p : Nat) : Bool :=
  (s.partCtxs p).all (fun c => [1, 5, 6, 7].contains (s.ctxState c))
    && (s.partEngs p).all (fun n => (s.eng (s.partFrond p) n).running.isNone)

/-- PART_REBUILD (R225). -/
def execPartRebuild (r : Req) (p : Fin 64) (s : State) : Host.Outcome State Fault Refusal :=
  .next (s.cmdAt r (F.PART_CMD_CMD.i p.val) false (fun s =>
    if s.partState p.val != 2 || !s.rebuildOk p.val then s.partFail p.val 8 (s.partState p.val)
    else (s.wr (F.PART_STATUS_STATE.i p.val) 3).partSteps p.val 2))

/-- PART_FREE (R225). -/
def execPartFree (r : Req) (p : Fin 64) (s : State) : Host.Outcome State Fault Refusal :=
  .next (s.cmdAt r (F.PART_CMD_CMD.i p.val) false (fun s =>
    if s.partState p.val != 2 || s.partCtxs p.val != [] then s.partFail p.val 8 (s.partState p.val)
    else (s.partRelease p.val).wr (F.PART_STATUS_STATE.i p.val) 0))

/-- A spare that a build awaits ends its full calibration, which is recorded: it enters READY with zeroed stores (R99,
R139). -/
def State.spareReady (s : State) (f : Frond) (p : Nat) : State :=
  if (s.tile f p).recal && s.tileState f p == 1 then
    let s := s.tileCal f p []
    ((s.storeZero f p).updTile f p (fun u => { u with recal := false })).wr (tf F.TILE_STATUS_STATE f p) 2
  else s

/-- PART_BUILD_COMPLETE (R224): what a waiting build waited for has come, or a spare has not calibrated in 40 ms. -/
def execPartBuildComplete (p : Fin 64) (ready : Bool) (s : State) : Host.Outcome State Fault Refusal :=
  if Sparse.get (fun _ => 0) s.work.building p.val = 0 then .next s
  else if ready then
    let s := (s.partPhys p.val).foldl (fun s t => s.spareReady (s.partFrond p.val) t) s
    .next (s.partAgain p.val)
  else if s.partRecal p.val then .next (s.partFail p.val 7 (if s.partState p.val = 1 then 0 else 2))
  else .next s

/-- PART_CFG_WRITE (R224, R235): PART_CFG, or PART_ENG when `eng`; outside FREE ignored with BUILD_FAIL. -/
def execPartCfgWrite (r : Req) (p : Fin 64) (eng : Bool) (value : BitVec 64) (s : State) :
    Host.Outcome State Fault Refusal :=
  let key := if eng then (F.PART_ENG_MASK.i p.val).key else (F.PART_CFG_DOMAIN.i p.val).key
  .next (s.cmdWord r key value (fun w s => if s.partState p.val = 0 then s.setReg key w else s.err 0x22 0))

/-- Domains whose staged settings differ from the active ones. -/
def State.changedDoms (s : State) : List Nat :=
  (s.work.doms.filter (fun e => e.2.staged != e.2.active)).map (·.1)

/-- PROT_EPOCH_ADVANCE (R231). -/
def execProtEpochAdvance (r : Req) (s : State) : Host.Outcome State Fault Refusal :=
  .next (s.cmdAt r F.PROT_EPOCH_CTRL_ADVANCE true (fun s =>
    if s.on F.PROT_EPOCH_STATUS_PENDING then s
    else
      let l := s.changedDoms
      let bad := l.any (fun d => (s.dom d).staged.bad)
      let s := l.foldl (fun s d => s.setDom d { s.dom d with active := (s.dom d).staged }) s
      let s := { s with work := { s.work with changed := l, fenceAt := s.now } }
      let s := (s.inc F.PROT_EPOCH_STATUS_EPOCH).wr F.PROT_EPOCH_STATUS_CHANGED (min 65535 l.length)
      let s := (s.wr F.PROT_EPOCH_STATUS_PENDING 1).wr F.PROT_EPOCH_CTRL_ADVANCE 1
      (s.when bad (fun s => s.err 0x21 0)).event 0x21 0x9010))

/-- The domain on whose behalf a user of the links accesses another module. -/
def State.linkDom (s : State) (f : Frond) : LinkUser → Option Nat
  | .engine n => (s.eng f n).running.map (fun d => s.ctxDom d.ctx)
  | .item c _ => some (s.ctxDom c)
  | _ => none

/-- A remote access of a changed domain, checked under the old epoch, has neither completed nor failed (R231, R232). -/
def State.oldAccess (s : State) : Bool :=
  let old := fun (f : Frond) (u : LinkUser) => match s.linkDom f u with
    | some d => s.work.changed.contains d
    | none => false
  s.link.live.any (fun e => old e.frond e.user) || s.link.groups.any (fun g => decide (0 < g.count) && old g.frond g.user)
    || s.link.stalled.any (fun e => old e.frond e.user)

/-- EPOCH_FENCE_COMPLETE (R231): once no old access of a changed domain is outstanding, PENDING clears, held accesses are
checked against the new settings, builds that waited for the fence go on. (DESIGN CHOICE, log 36) -/
def execEpochFenceComplete (s : State) : Host.Outcome State Fault Refusal :=
  if !s.on F.PROT_EPOCH_STATUS_PENDING || s.oldAccess then .next s
  else
    let held := s.work.held
    let s := s.wrSat F.PROT_EPOCH_TIME_LAST_NS ((s.now - s.work.fenceAt) * 4)
    let s := (s.wr F.PROT_EPOCH_STATUS_PENDING 0).wr F.PROT_EPOCH_CTRL_ADVANCE 0
    let s := ({ s with work := { s.work with changed := [], held := [] } })
    let s := s.event 0x21 0x9011
    .next ((held.foldl (fun s h => s.accessCheck h) s).buildRetry)

end Sys2Proof.Machine
end

