-- ==== Sys2Proof/Machine/Fuse.lean ====
section
/-! DEFINITION. The fuse commands and the debug lock (R519, R520, R526), and the expiry of nonces (R503, R519). -/

namespace Sys2Proof.Machine

/-- FUSE_NONCE_REQ (R519): the nonce words are free values. -/
def execFuseNonceReq (r : Req) (s : State) : Host.Outcome State Fault Refusal :=
  .next (s.cmdAt r F.FUSE_CMD_NONCE_REQ false (fun s =>
    let s := (List.range 4).foldl (fun s w => s.nonceWord (F.FUSE_NONCE_NONCE.i w)) s
    { s with fuse := { s.fuse with nonceLive := true } }))

/-- FUSE_PTR_RESET (R519). -/
def execFusePtrReset (r : Req) (s : State) : Host.Outcome State Fault Refusal :=
  .next (s.cmdAt r F.FUSE_CMD_PTR_RESET false (fun s =>
    ({ s with fuse := { s.fuse with words := [], overrun := false } }).wr F.FUSE_RESULT_WORDS 0))

/-- FUSE_AUTH_DATA_WRITE (R519): a word beyond the 428 of a block is kept in mind for FORMAT. -/
def execFuseAuthDataWrite (r : Req) (word : BitVec 64) (s : State) : Host.Outcome State Fault Refusal :=
  .next (s.cmdAt r F.FUSE_AUTH_DATA_WORD false (fun s =>
    if s.fuse.words.length < 428 then
      ({ s with fuse := { s.fuse with words := word :: s.fuse.words } }).wr F.FUSE_RESULT_WORDS (s.fuse.words.length + 1)
    else { s with fuse := { s.fuse with overrun := true } }))

/-- FUSE_EXECUTE (R519, R520): the op starts; RESULT reads BUSY while one runs. -/
def execFuseExecute (r : Req) (s : State) : Host.Outcome State Fault Refusal :=
  .next (s.cmdAt r F.FUSE_CMD_EXECUTE false (fun s =>
    if s.fuse.running then s
    else ({ s with fuse := { s.fuse with running := true } }).wr F.FUSE_RESULT_RESULT 1))

/-- The bytes of the block. -/
def State.fuseBlock (s : State) : List Nat := bytesOf s.fuse.words.reverse

/-- The format of a fuse block (R519): reserved bytes 0, an OP of the table, a slot that exists, a SIG_LEN that its field
holds. -/
def fuseFormatOk (l : List Nat) : Bool :=
  let op := byteAt l 4
  let arg := byteAt l 5
  decide (l.length = 3424) && decide (leAt l 0 4 = 0x4D4C4655) && decide (1 ≤ op) && decide (op ≤ 6)
    && (decide (op ≤ 1) || decide (5 ≤ op) || decide (arg < 4)) && zeroAt l 6 2 && zeroAt l 14 2 && zeroAt l 1882 6
    && (decide (op = 2) || zeroAt l 48 32) && decide (leAt l 1880 2 ≠ 0) && decide (leAt l 1880 2 ≤ 1536)

/-- The digest of the signer's key. -/
def fuseSigner (l : List Nat) : List Nat := keyDigest (imgBytes l 80 1793)

/-- The signer holds an unrevoked root key or, to revoke an owner, the unrevoked owner key of that slot (R520). -/
def State.fuseSignerOk (s : State) (l : List Nat) : Bool :=
  s.rootKnown (fuseSigner l) ||
    (byteAt l 4 == 4 && s.ownerGood (byteAt l 5) && s.fusedHash F.OWNER_HASH_HASH (byteAt l 5) == digestWords (fuseSigner l))

/-- The SVN of any unit's active image is below `v`. -/
def State.svnBelow (s : State) (v : Nat) : Bool :=
  (List.range 6).any (fun u => Sparse.get (fun _ => 0) s.fw.running u != 0 && decide (s.rd (F.FW_UNIT_SVN.i u) < v))

/-- The steward refuses an op (R520). -/
def State.fuseRefuses (s : State) (op arg : Nat) : Bool :=
  let revoked := s.rd F.FUSE_STATE_ROOT_REVOKED
  match op with
  | 2 => bitOf (s.rd F.FUSE_STATE_OWNER_VALID) arg || bitOf (s.rd F.FUSE_STATE_OWNER_SPOILED) arg
  | 3 => (List.range 4).all (fun k => bitOf revoked k || k == arg)
  | 5 => decide (arg ≤ s.rd F.FUSE_STATE_ROLLBACK) || decide (64 < arg) || s.svnBelow arg || s.fw.trial != 0
  | 6 => !(List.range 4).any s.ownerGood
  | _ => false

/-- The result of an op by the codes of R503: 3 FORMAT, 4 NONCE, 5 KEY, 6 SIGNATURE, 7 MODULE, 8 REFUSED, 2 OK.
(DESIGN CHOICE, log 62) -/
def State.fuseResult (s : State) : Nat :=
  let l := s.fuseBlock
  if !fuseFormatOk l || s.fuse.overrun then 3
  else if !(s.fuse.nonceLive && (List.range 4).all (fun w => leAt l (16 + 8 * w) 8 == s.rd (F.FUSE_NONCE_NONCE.i w))) then 4
  else if !s.fuseSignerOk l then 5
  else if !sigAt l (shake256 64 (imgBytes l 0 80)) 80 1880 1888 then 6
  else if leAt l 8 6 ≠ s.rd F.HOSTP_MAC_MAC then 7
  else if s.fuseRefuses (byteAt l 4) (byteAt l 5) then 8
  else 2

/-- An op blows its fuses; ADD_OWNER writes VALID last. -/
def State.fuseBlow (s : State) (l : List Nat) : State :=
  let arg := byteAt l 5
  match byteAt l 4 with
  | 1 => ((s.wr F.FUSE_STATE_DEBUG_CLOSED 1).wr F.DBG_CTRL_CLOSED 1).wr F.DBG_CTRL_UNLOCK 0
  | 2 =>
    let s := (List.range 4).foldl (fun s w => s.wr (F.OWNER_HASH_HASH.ij arg w) (leAt l (48 + 8 * w) 8)) s
    s.setBit F.FUSE_STATE_OWNER_VALID arg
  | 3 => s.setBit F.FUSE_STATE_ROOT_REVOKED arg
  | 4 => s.setBit F.FUSE_STATE_OWNER_REVOKED arg
  | 5 => s.wr F.FUSE_STATE_ROLLBACK arg
  | _ => s.wr F.FUSE_STATE_OWNER_REQ 1

/-- FUSE_OP_DONE (R519, R520): the block is judged, the nonce used, an accepted op blown and read back (`good`).
(DESIGN CHOICE, log 5; DESIGN CHOICE, log 65) -/
def execFuseOpDone (good : Bool) (s : State) : Host.Outcome State Fault Refusal :=
  .next (s.when s.fuse.running (fun s =>
    let result := s.fuseResult
    let l := s.fuseBlock
    let s := { s with fuse := { s.fuse with running := false, nonceLive := false } }
    let s := s.wr F.FUSE_RESULT_RESULT result
    if result = 2 then
      let s := s.fuseBlow l
      (if good then s else s.err 1 1).event 1 0x0040
    else (s.err 1 0).event 1 0x0041))

/-- DBG_UNLOCK_WRITE (R526): ignored once debug is closed; its setting is recorded. -/
def execDbgUnlockWrite (r : Req) (value : Bool) (s : State) : Host.Outcome State Fault Refusal :=
  .next (s.cmdHeld r F.DBG_CTRL_UNLOCK (b2n value == s.rd F.DBG_CTRL_UNLOCK) (fun s : State =>
    if s.on F.FUSE_STATE_DEBUG_CLOSED then s
    else
      let old := s.rd F.DBG_CTRL_UNLOCK
      let s := s.wr F.DBG_CTRL_UNLOCK (b2n value)
      if value && old == 0 then s.event 0 0x0050 else s))

/-- NONCE_EXPIRE (R503, R519): 60 s after the request, the nonce of the recorder or of the fuses is no longer valid. -/
def execNonceExpire (fuse : Bool) (s : State) : Host.Outcome State Fault Refusal :=
  .next (if fuse then { s with fuse := { s.fuse with nonceLive := false } }
    else { s with recorder := { s.recorder with nonceLive := false } })

end Sys2Proof.Machine
end

