-- ==== Sys2Proof/Machine/Estimator.lean ====
section
/-! DEFINITION. The commands of the charge estimator (R418-R442). -/

namespace Sys2Proof.Machine

/-! ### Counting (R419-R422) -/

/-- The counted current in µA: the tap's in STANDBY with the tap closed, 0 with open contactors, else g × I_bc - I_off
(R419). -/
def State.countedUa (s : State) (bcUa tapUa : Int) : Int :=
  if s.mode = 0 ∧ s.on F.PACK_STATUS_AUX_TAP then tapUa
  else if s.contactClosed then s.rd F.EST_SHUNT_BC_GAIN * bcUa / 65536 - s.rdS F.EST_SHUNT_OFFSET_UA
  else 0

/-- The charge in pC that a bleeding cell loses in 10 µs at 150 mA (R402, R419). -/
def bleedPc : Nat := 1500000

/-- Every cell of the estimate loses `q` pC, a bleeding one its bleed charge too (R419). -/
def State.cellsCount (s : State) (q : Int) : State :=
  { s with est := { s.est with cells := s.est.cells.map (fun e =>
      (e.1, if s.bleeds e.1 then { e.2 with q := e.2.q - q - bleedPc, bledAt := some s.now }
            else { e.2 with q := e.2.q - q })) } }

/-- Every bleeding cell's allowance falls by what it bled (R402). -/
def State.bleedCount (s : State) : State :=
  let l := (s.chain.bleed.map (fun e => (e.1, if s.bleeds e.1 then e.2 - bleedPc else e.2))).filter (fun e => e.2 != 0)
  ({ s with chain := { s.chain with bleed := l } }).balRefresh

/-- Counted charge in either direction raises N_efc: 0.01 cycle for each 2 × CAP_MAH / 100; with a capacity of 0 the
quotient is open (R422). -/
def State.nefcCount (s : State) (q : Int) : State :=
  let step := s.rd F.PACK_CFG_CAP_MAH * 72000000000
  if q = 0 then s
  else if step = 0 then (s.setNefc (s.rd F.EST_CAP_N_EFC + s.free)).drawn
  else
    let n := s.est.counted + q.natAbs
    let s := { s with est := { s.est with counted := n % step } }
    if n < step then s else s.setNefc (s.rd F.EST_CAP_N_EFC + n / step)

/-- CHARGE_INTEGRATE (R419): 10 µs at the stack-side BC current and the tap current, both µA. -/
def execChargeIntegrate (bcUa tapUa : Int) (s : State) : Host.Outcome State Fault Refusal :=
  let q := 10 * s.countedUa bcUa tapUa
  let s := ((s.cellsCount q).bleedCount).nefcCount q
  let tap := if s.mode = 0 then max s.est.tapMax tapUa.toNat else s.est.tapMax
  .next { s with est := { s.est with second := s.est.second + q, tapMax := tap } }

/-- The growth of every uncertainty over the second that ends, as a fraction times 10^12 (R420). -/
def State.growth (s : State) : Nat :=
  let iu := if s.on F.EST_STATUS_OFFSET_ZEROED then s.rd F.EST_UGROW_OFFSET_UA else 10000
  let pc6 := s.rd F.EST_UGROW_GAIN_PPM * s.est.second.natAbs + iu * 1000000000000
  if s.cEff = 0 then Config.noCapacity pc6 else pc6 * 1000000 / s.cEff

/-- UNCERTAINTY_GROWTH (R420). -/
def execUncertaintyGrowth (s : State) : Host.Outcome State Fault Refusal :=
  let d := s.growth
  .next { s with est := { s.est with
    second := 0, cells := s.est.cells.map (fun e => (e.1, { e.2 with u := min 1000000000000 (e.2.u + d) })) } }

/-! ### The pack figures (R421, R429, R434, R435) -/

/-- The SOC of each cell that has an estimate, times 10^6. -/
def State.socList (s : State) : List Nat := s.est.cells.map (fun e => s.soc6 e.1)

/-- E(100 %) in µWh (R429). -/
def State.eFull (s : State) : Nat := s.cEff * s.cells * s.rd F.EST_LIMITS_VE_MV / pcPerMah

/-- E_AVAIL in µWh. -/
def State.eAvail (s : State) : Nat := s.eFull * minOf s.socList / 1000000

/-- The reserve in µWh. -/
def State.reserve (s : State) : Nat := s.rd F.EST_LIMITS_RESERVE_WH * 1000000 + s.eFull * s.uMax / 1000000000000

/-- The stop allowance in µWh. -/
def State.stopEnergy (s : State) : Nat := s.rd F.PWR_STOP_STOP_WH * 100000

/-- The buffer allowance in µWh. -/
def State.allowance (s : State) : Nat := s.eAvail - s.reserve - s.stopEnergy

/-- EST_SOC and EST_ENERGY show the figures. -/
def State.figures (s : State) : State :=
  let l := s.socList
  let mean := if l = [] then 0 else l.foldl (· + ·) 0 / l.length
  let s := (s.wrSat F.EST_SOC_SOC (pct6 mean)).wrSat F.EST_SOC_SOC_MIN (pct6 (minOf l))
  let s := (s.wrSat F.EST_SOC_SOC_MAX (pct6 (maxOf l))).wrSat F.EST_SOC_U (pct12 s.uMax)
  let s := (s.wrSat F.EST_ENERGY_E_AVAIL (s.eAvail / 100000)).wrSat F.EST_ENERGY_RESERVE (s.reserve / 100000)
  (s.wrSat F.EST_ENERGY_ALLOWANCE (s.allowance / 100000)).capShow

/-- The allowance falls to 0, or rises above it again (R429). (DESIGN CHOICE, log 54) -/
def State.allowEdge (s : State) : State :=
  let zero := s.allowance == 0
  if !s.estAny || zero == s.est.allowZero then s
  else
    let s := { s with est := { s.est with allowZero := zero } }
    if zero then (s.err 0x70 2).event 0x70 0x4030 else s.event 0x70 0x4031

/-- Under NO_REST an allowance of 0 takes the module to BUS_ONLY and HELD falls; HELD returns at 10 % of E(100 %)
(R435). -/
def State.heldCheck (s : State) : State :=
  if s.on F.EST_STATUS_HELD && s.restPolicy == 2 && s.allowance == 0 then (s.wr F.EST_STATUS_HELD 0).goBusOnly false
  else if !s.on F.EST_STATUS_HELD && s.estAny && decide (s.eFull ≤ 10 * s.allowance) then s.wr F.EST_STATUS_HELD 1
  else s

/-- RIDE_THROUGH ends in an orderly stop when the stored energy reaches STOP_WH (R27, R325). -/
def State.rideEnergy (s : State) : State :=
  if s.mode == 4 && decide (s.eAvail ≤ s.stopEnergy) then s.stopBegin 1 false else s

/-- What the estimator derives every 1 ms. -/
def State.packFigures (s : State) : State :=
  (((s.figures.allowEdge).inhibitCheck.heldCheck).rideEnergy).restForceCheck

/-- PACK_FIGURES_UPDATE (R421, R429). -/
def execPackFiguresUpdate (s : State) : Host.Outcome State Fault Refusal := .next s.packFigures

/-! ### Rest windows (R425, R430-R434) -/

/-- REST_RECOGNISED (R425): current and temperatures have been still for 600 s, in a powered mode. -/
def execRestRecognised (s : State) : Host.Outcome State Fault Refusal :=
  if s.est.stillSince.isSome && s.mode != 0 then .next ({ s with est := { s.est with atRest := true } }).restShow
  else .next s

/-- Ticks until a time in ticks, or 0. -/
def ticksTo (s : State) (t : Nat) : Nat := t - s.now

/-- The windows that are to fall due, each with the ticks left: 0 scheduled, 4 retry, 1 or 3 forced or requested. -/
def State.restComing (s : State) : List (Nat × Nat) :=
  (match s.est.sched with | some t => [((t - s.restSec) * 250000000, 0)] | none => [])
    ++ (match s.est.retryAt with | some t => [(ticksTo s t, 4)] | none => [])
    ++ (match s.est.forcedAt with | some t => [(ticksTo s t, s.est.forcedKind)] | none => [])

/-- The first of some entries with the least first component. -/
def leastFirst : List (Nat × Nat) → Option (Nat × Nat)
  | [] => none
  | a :: t => some (t.foldl (fun b x => if x.1 < b.1 then x else b) a)

/-- REST_WINDOW_DUE (R430, R433, R434): the next window falls due; a forced one does not while a window
is open or a retry is due. -/
def execRestWindowDue (s : State) : Host.Outcome State Fault Refusal :=
  if s.restPolicy = 2 then .next s
  else match leastFirst s.restComing with
    | none => .next s
    | some (_, k) =>
      if k = 0 then .next (({ s with est := { s.est with sched := none } }).restDue 0)
      else if k = 4 then .next (({ s with est := { s.est with retryAt := none } }).restDue 4)
      else
        let s' := { s with est := { s.est with forcedAt := none } }
        .next (if k = 1 ∧ (s.on F.PWR_STATUS_REST ∨ s.est.due.contains 4) then s' else s'.restDue k)

/-- REST_WINDOW_TIMEOUT (R433). -/
def execRestWindowTimeout (s : State) : Host.Outcome State Fault Refusal := .next (s.restEnd 2)

/-- EST_CMD_ABORT_REST (R433). -/
def execEstCmdAbortRest (r : Req) (s : State) : Host.Outcome State Fault Refusal :=
  .next (s.cmdAt r F.EST_CMD_ABORT_REST false (fun s => s.restEnd 3))

/-- EST_CMD_REST_NOW (R434). -/
def execEstCmdRestNow (r : Req) (s : State) : Host.Outcome State Fault Refusal :=
  .next (s.cmdAt r F.EST_CMD_REST_NOW false (fun s =>
    if s.restPolicy == 2 || s.on F.PWR_STATUS_REST || s.forcedDue then s else s.restForce 3))

/-- The schedule after a change of POLICY from `old` (R430, R433). -/
def State.policyChange (s : State) (old : Nat) : State :=
  if s.restPolicy = 2 then
    let s := s.restEnd 3
    let s := { s with est := { s.est with due := [], retryAt := none, forcedAt := none, deferred := false } }
    s.schedSet.restShow
  else if old = 2 then
    let s := { s with est := { s.est with schedBase := some s.loopSec, lastEnd := none } }
    s.schedSet.restForceCheck
  else s

/-- EST_CTRL_WRITE (R430, R432). -/
def execEstCtrlWrite (r : Req) (policy : BitVec 2) (s : State) : Host.Outcome State Fault Refusal :=
  .next (s.cmdHeld r F.EST_CTRL_POLICY (s.rd F.EST_CTRL_POLICY == policy.toNat) (fun s =>
    (s.wr F.EST_CTRL_POLICY policy.toNat).policyChange s.restPolicy))

/-! ### The OCV table and the restore block (R423, R439, R440) -/

/-- OCV_COMMIT (R423). -/
def execOcvCommit (r : Req) (s : State) : Host.Outcome State Fault Refusal :=
  .next (s.cmdAt r F.OCV_CMD_COMMIT true State.ocvCommit)

/-- Word `w` of the restore block. -/
def State.rbWord (s : State) (w : Nat) : Nat := s.rd (F.EST_RB_WORD.i w)

/-- The check word over W0-W32 (R439). -/
def State.rbCheck (s : State) : Nat := crc32c ((List.range 33).flatMap (fun w => leBytes 8 (s.rbWord w)))

/-- TAI seconds. -/
def State.taiSec (s : State) : Nat := s.rd F.PTP_TIME_TAI_NS / 1000000000

/-- The SOC that the restore block gives a cell, 0.01 %. -/
def State.captureSoc (s : State) (c : Nat) : Nat := if c < s.cells then pct6 (s.soc6 c) else 0

/-- The words W0-W32 of a capture. -/
def State.captureWord (s : State) (w : Nat) : Nat :=
  if w = 0 then 0x4D4C4553 * 2 ^ 32 + 1 * 2 ^ 16 + 272
  else if w = 1 then s.rd (F.GCS_SERIAL_SERIAL.i 0)
  else if w = 2 then s.rd F.EST_CAP_N_EFC * 2 ^ 32 + s.rd F.EST_SOC_U * 2 ^ 16 + s.rd F.PACK_CFG_CELLS * 2 ^ 8
  else if w = 3 then (if s.rd F.PTP_STATUS_STATE = 3 then s.taiSec else 0)
  else if w = 4 then s.rd F.EST_SHUNT_OFFSET_UA * 2 ^ 32
  else
    let c := 4 * (w - 5)
    s.captureSoc c + s.captureSoc (c + 1) * 2 ^ 16 + s.captureSoc (c + 2) * 2 ^ 32 + s.captureSoc (c + 3) * 2 ^ 48

/-- EST_CMD_CAPTURE (R440): all 34 words, CHECK included. -/
def execEstCmdCapture (r : Req) (s : State) : Host.Outcome State Fault Refusal :=
  .next (s.cmdAt r F.EST_CMD_CAPTURE false (fun s =>
    let s := (List.range 33).foldl (fun s w => s.wr (F.EST_RB_WORD.i w) (s.captureWord w)) s
    s.wr (F.EST_RB_WORD.i 33) s.rbCheck))

/-- The restore block matches the fitted pack (R440). -/
def State.rbMatches (s : State) : Bool :=
  s.rbWord 0 == 0x4D4C4553 * 2 ^ 32 + 1 * 2 ^ 16 + 272 && s.rbWord 33 % 2 ^ 32 == s.rbCheck
    && s.rbWord 2 / 2 ^ 8 % 2 ^ 8 == s.rd F.PACK_CFG_CELLS && s.rbWord 1 == s.rd (F.GCS_SERIAL_SERIAL.i 0)

/-- One cell of a restore: its SOC applies with U_j = U + (elapsed s × 10,000 µA) / C_eff where that is below the
present U_j (R440). -/
def State.restoreCell (s : State) (u : Nat) (c : Nat) : State :=
  let x := s.cellEst c
  let soc := s.rbWord (5 + c / 4) / 2 ^ (16 * (c % 4)) % 2 ^ 16
  if u < x.u then s.setCellEst c { x with q := (soc * s.cEff / 10000 : Nat), u := u } else s

/-- U_j of a restored cell, times 10^12. -/
def State.restoreU (s : State) : Nat :=
  let el : Int := (s.taiSec : Int) - s.rbWord 3
  let base : Int := ((s.rbWord 2 / 2 ^ 16 % 2 ^ 16 * 100000000 : Nat) : Int)
  if s.cEff = 0 then Config.noCapacity (el * 10000000000)
  else (base + el * 10000000000 * 1000000000000 / s.cEff).toNat

/-- The restore (R440). -/
def State.rbRestore (s : State) : State :=
  if s.rbMatches then
    let s := s.setNefc (s.rbWord 2 / 2 ^ 32)
    let s := (s.wr F.EST_SHUNT_OFFSET_UA (s.rbWord 4 / 2 ^ 32)).wr F.EST_STATUS_NEFC_RESTORED 1
    let s := s.wr F.EST_STATUS_OFFSET_ZEROED 1
    let s := if s.rbWord 3 ≠ 0 ∧ s.rd F.PTP_STATUS_STATE = 3 then
        (s.est.cells.map (·.1)).foldl (fun s c => s.restoreCell s.restoreU c) s
      else s
    (s.wr F.EST_STATUS_SOURCE 2).event 0x70 0x4002
  else (s.err 0x70 3).event 0x70 0x4003

/-- EST_CMD_RESTORE (R440). -/
def execEstCmdRestore (r : Req) (s : State) : Host.Outcome State Fault Refusal :=
  .next (s.cmdAt r F.EST_CMD_RESTORE true State.rbRestore)

end Sys2Proof.Machine
end

