-- ==== Sys2Proof/Machine/PackOps.lean ====
section
/-! DEFINITION. Contactors, insertion, ring breaks, limits and the results of a sweep (R386, R391-R399, R405,
R408-R413). -/

namespace Sys2Proof.Machine

/-! ### Contactors (R408-R410) -/

/-- The contactor state changes: event 0x3003 with its cause (R409); WELDED stays until power is cycled.
(DESIGN CHOICE, log 49) -/
def State.contactor (s : State) (v cause : Nat) : State :=
  let old := s.rd F.PACK_STATUS_CONTACTOR
  if old = v ∨ old = 3 then s
  else (s.wr F.PACK_STATUS_CONTACTOR v).event 0x69 0x3003 (Config.contactorCause cause)

/-- The contactors are to open, and STATE then becomes `to`: at once where they are open already (R409). -/
def State.openReq (s : State) (dest cause : Nat) : State :=
  let s := { s with chain := { s.chain with inserting := false } }
  if s.rd F.PACK_STATUS_CONTACTOR = 0 then s.setPack dest
  else { s with chain := { s.chain with openTo := some dest, openCause := cause } }

/-- An insertion fails: contactors open, STATE = FAULT (R411). -/
def State.insertFail (s : State) (cause : Nat) : State :=
  (({ s with chain := { s.chain with inserting := false, openTo := none } }).contactor 0 cause).setPack 8

/-- The units take the limits by CFG, then sleep (R406). -/
def State.unitsSleep (s : State) : State :=
  ((({ s with chain := { s.chain with asleep := true, sweep := none, reading := false } }).wr
    F.CHAIN_STATUS_SWEEPING 0).balRefresh.put (.chain 5)).put (.chain 6)

/-- The contactors open now (R409): STATE takes its new value, but for an absent pack and, at a stop, for FAULT, also one that
waits for the contactors to open (R386, R570). (DESIGN CHOICE, log 53) -/
def State.contactorsOpen (s : State) (dest cause : Nat) : State :=
  let fault := decide (s.packState = 8) || s.chain.openTo == some 8
  let s := { s with chain := { s.chain with openTo := none } }
  let s := s.contactor 0 cause
  let s := if s.packState = 0 then s else s.setPack (if dest = 7 ∧ fault then 8 else dest)
  if dest = 7 then s.unitsSleep else s

/-- The insertion sequence begins at DETECT (R411). -/
def State.insertBegin (s : State) : State :=
  ({ s with chain := { s.chain with inserting := true, debounced := false, asleep := false, openTo := none } }).setPack 1

/-- The ENUM step of the insertion sequence. -/
def State.insertEnum (s : State) : State :=
  let s := { s with chain := { s.chain with inserting := true, debounced := true, asleep := false } }
  ((s.setPack 2).wr F.CHAIN_STATUS_RING 4).put (.chain 0)

/-- The pack is refused: FAULT, CONFIG (R413). -/
def State.packRefuse (s : State) : State :=
  ((s.err 0x69 1).openReq 8 0)

/-! ### Breaks (R397-R399) -/

/-- The readings of a unit are marked STALE: flags, count. -/
def State.unitStale (s : State) (u : Nat) : State :=
  let s := (List.range 16).foldl (fun s i => s.setBit128 F.CELL_STALE_CELLS true (16 * u + i)) s
  let n := Sparse.get (fun _ => 0) s.chain.stale u
  let s := { s with chain := { s.chain with stale := Sparse.set (fun _ => 0) s.chain.stale u (n + 1) } }
  s.incSat F.CHAIN_ERR_COUNT_STALE

/-- Unit `u` is unreachable. -/
def State.isolated (s : State) (u : Nat) : Bool := bitOf (s.rd F.CHAIN_STATUS_ISOLATED) u

/-- A unit counts as isolated. -/
def State.isolate (s : State) (u : Nat) : State :=
  if s.isolated u then s
  else ((s.setBit F.CHAIN_STATUS_ISOLATED u).wr (F.GCS_STATUS_STATE.i u) 2).unitStale u

/-- Two breaks: the units from `lo` below `hi` are lost, and `b` is the second position (R398). -/
def State.secondBreak (s : State) (b lo hi : Nat) : State :=
  let s := (s.wr F.CHAIN_STATUS_RING 3).wr F.CHAIN_STATUS_BREAK_B b
  let s := ((List.range s.units).filter (fun u => decide (lo ≤ u) && decide (u < hi))).foldl State.isolate s
  let s := (s.err 0x68 3).event 0x68 0x3011
  (s.packFlags.inhibitCheck).toBusOnly

/-- A break is located at `b` (R397, R398). -/
def State.breakAt (s : State) (b : Nat) : State :=
  let ring := s.rd F.CHAIN_STATUS_RING
  let a := s.rd F.CHAIN_STATUS_BREAK_A
  if ring = 1 then
    let s := ((s.wr F.CHAIN_STATUS_RING 2).wr F.CHAIN_STATUS_BREAK_A b).incSat F.CHAIN_ERR_COUNT_BREAKS
    (s.err 0x68 2).event 0x68 0x3010
  else if ring = 2 ∧ a ≠ b then (s.incSat F.CHAIN_ERR_COUNT_BREAKS).secondBreak b (min a b) (max a b)
  else s

/-- Unit `u` is isolated, with a break on each side of it (R391, R398). -/
def State.unitIsolated (s : State) (u : Nat) : State :=
  let ring := s.rd F.CHAIN_STATUS_RING
  let a := s.rd F.CHAIN_STATUS_BREAK_A
  if ring = 1 then
    ((s.wr F.CHAIN_STATUS_BREAK_A u).incSat F.CHAIN_ERR_COUNT_BREAKS 2).secondBreak (u + 1) u (u + 1)
  else if ring = 2 then
    (s.incSat F.CHAIN_ERR_COUNT_BREAKS).secondBreak (if u < a then u else u + 1) (min a u) (max a (u + 1))
  else s.isolate u

/-- Every unit without a break: break positions and isolation cleared (R392, R399). -/
def State.ringWhole (s : State) : State :=
  let s := (s.wr F.CHAIN_STATUS_RING 1).wr F.CHAIN_STATUS_ISOLATED 0
  let s := (s.wr F.CHAIN_STATUS_BREAK_A 0xF).wr F.CHAIN_STATUS_BREAK_B 0xF
  let s := (List.range (s.rd F.CHAIN_STATUS_UNITS)).foldl (fun s u => s.wr (F.GCS_STATUS_STATE.i u) 1) s
  ({ s with chain := { s.chain with lastInstant := none, stale := [] } }).packFlags

/-- The units enumerated, with their serial numbers (R392). -/
def State.enumSet (s : State) (units : Nat) (serials : List (BitVec 64)) : State :=
  let s := s.wr F.CHAIN_STATUS_UNITS units
  ((List.range units).foldl (fun s u => s.wr (F.GCS_SERIAL_SERIAL.i u) (serials.getD u 0).toNat) s).ringWhole

/-! ### Warnings and limits (R386) -/

/-- Some reading is at or beyond a limit. -/
def State.limitHit (s : State) : Bool :=
  s.monCells.any (fun c => decide (10 * s.rd F.PACK_LIM_V_OV ≤ (s.testV c).1)
    || decide ((s.testV c).2 ≤ 10 * s.rd F.PACK_LIM_V_UV))
  || s.monUnits.any (fun u => (s.therms u).any (fun t =>
    decide (10 * s.rdS F.PACK_LIM_T_OT ≤ t) || decide (t ≤ 10 * s.rdS F.PACK_LIM_T_UT)))

/-- Some reading is at or beyond a warning level moved inward by `dv` (0.1 mV) and `dt` (0.1 °C): bit 0 high voltage,
1 low voltage, 2 temperature. -/
def State.warnAt (s : State) (dv : Nat) (dt : Int) : Nat :=
  let ov := s.monCells.any (fun c => decide (10 * s.rd F.PACK_LIM_V_OV_WARN ≤ (s.testV c).1 + dv))
  let uv := s.monCells.any (fun c => decide ((s.testV c).2 ≤ 10 * s.rd F.PACK_LIM_V_UV_WARN + dv))
  let t := s.monUnits.any (fun u => (s.therms u).any (fun t =>
    decide (10 * s.rdS F.PACK_LIM_T_OT_WARN - dt < t) || decide (t < 10 * s.rdS F.PACK_LIM_T_UT_WARN + dt)))
  b2n ov + 2 * b2n uv + 4 * b2n t

/-- The warnings follow the readings: one that begins is recorded, one clears inside its hysteresis; a thermistor
outside its warning levels takes the module from draw control to BUS_ONLY. -/
def State.warnTest (s : State) : State :=
  let on := s.warnAt 0 0
  let stay := s.warnAt 199 20
  let new := on &&& (7 - (s.chain.warn &&& on))
  let s := { s with chain := { s.chain with warn := (s.chain.warn &&& stay) ||| on } }
  let s := ((List.range 3).filter (bitOf new)).foldl (fun s _ => (s.err 0x69 0).event 0x69 0x3020) s
  let s := s.packFlags
  if bitOf s.chain.warn 2 then s.toBusOnly else s

/-- A limit acts (R386): LIMIT, event 0x3021, the BC stops and the contactors are to open into FAULT. -/
def State.limitAct (s : State) : State :=
  if s.on F.PACK_STATUS_LIMIT then s
  else
    let s := ((s.wr F.PACK_STATUS_LIMIT 1).err 0x69 4).event 0x69 0x3021
    (s.openReq 8 3).bcLost

/-- The tests of every sweep result (R386). (DESIGN CHOICE, log 53) -/
def State.limitTest (s : State) : State :=
  let s := s.warnTest
  (if s.limitHit then s.limitAct else s).inhibitCheck

/-! ### The results of a sweep (R396, R405, R411) -/

/-- A unit's block is published; unit 0's shunt current is also BC_MEAS.STACK_I, in 0.01 A (R300). -/
def State.publish (s : State) (b : GcsBlock) : State :=
  let u := b.unit.val
  let s := (List.range 16).foldl (fun s i =>
    (s.wr (cellField (16 * u + i)) (b.cells.getD i 0).toNat).setBit128 F.CELL_STALE_CELLS false (16 * u + i)) s
  let s := (List.range 4).foldl (fun s k => s.wr (thermCell u k) (b.therm.getD k 0).toNat) s
  let s := (s.wr (F.GCS_STATUS_BLK_V.i u) b.blockMv.toNat).when (u == 0)
    (fun s => (s.wr F.PACK_MEAS_I_SHUNT b.shunt.toNat).wrS F.BC_MEAS_STACK_I (satBits 16 (b.shunt.toInt / 10)))
  { s with chain := { s.chain with stale := Sparse.erase s.chain.stale u } }

/-- The pair at a confirmed line is taken as half of the block voltage less the other 14 cells (R405). -/
def State.pairAt (s : State) (b : GcsBlock) (k : Nat) : State :=
  let sum := b.cells.foldl (fun n v => n + v.toNat) 0
  let two := (b.cells.getD (k - 1) 0).toNat + (b.cells.getD k 0).toNat
  let half := (10 * b.blockMv.toNat - (sum - two)) / 2
  let c := 16 * b.unit.val + k
  (s.wr (cellField (c - 1)) half).wr (cellField c) half

/-- The pairs of a unit. -/
def State.pairs (s : State) (b : GcsBlock) : State :=
  ((List.range 15).filter (fun i => s.bit128 F.OW_LINES_LINES (17 * b.unit.val + i + 1))).foldl
    (fun s i => s.pairAt b (i + 1)) s

/-- One unit of a READ: its block is published, or its readings are STALE (R391, R397). -/
def State.readUnit (s : State) (blocks : List GcsBlock) (u : Nat) : State :=
  match firstWhere (fun b => b.unit.val == u) blocks with
  | some b =>
    if s.isolated u then s
    else if b.ok && !s.armed 0x68 1 then (s.publish b).pairs b
    else (s.err 0x68 1).unitStale u
  | none => if s.isolated u then s else s.unitStale u

/-- The first cell with a voltage. -/
def State.cellAt (s : State) (v : Nat) : Nat := (firstWhere (fun c => s.cellV c == v) s.monCells).getD 0

/-- PACK_MEAS and PACK_CELL_EXT follow the readings. -/
def State.measures (s : State) : State :=
  let sum := (s.cellList.map s.cellV).foldl Nat.add 0
  let vs := s.monCells.map s.cellV
  let ts := s.monUnits.flatMap s.therms
  let s := (s.wrSat F.PACK_MEAS_SUM_V (sum / 1000)).wr F.PACK_CELL_EXT_V_MAX (maxOf vs)
  let s := (s.wr F.PACK_CELL_EXT_V_MIN (minOf vs)).wr F.PACK_CELL_EXT_V_MAX_CELL (s.cellAt (maxOf vs))
  let s := s.wr F.PACK_CELL_EXT_V_MIN_CELL (s.cellAt (minOf vs))
  match ts with
  | [] => s
  | t :: r => (s.wrS F.PACK_MEAS_T_MAX (r.foldl max t / 10)).wrS F.PACK_MEAS_T_MIN (r.foldl min t / 10)

/-- The cross-check against the BC's stack voltage (mV): more than 1 % apart (R396). -/
def State.crossCheck (s : State) (stackMv : Nat) : State :=
  let sum := (s.cellList.map s.cellV).foldl Nat.add 0
  let d := ((sum : Int) - ((10 * stackMv : Nat) : Int)).natAbs
  if 10 * stackMv < 100 * d then s.err 0x69 2 else s

/-- The limit test of the insertion sequence has passed: the insertion estimate, then precharge (R411, R436); a welded
contactor takes no precharge (R409). (DESIGN CHOICE, log 53) -/
def State.insertCheck (s : State) : State :=
  if s.on F.PACK_STATUS_LIMIT || s.rd F.PACK_STATUS_CONTACTOR == 3 then s.insertFail 0
  else ((s.insertEst.packFigures).setPack 4).contactor 1 0

/-- A sweep's readout has ended: its count and time, the isolation of units, the limits, and who takes the readings. -/
def State.sweepDone (s : State) (instant : Nat) (before : Nat → List Int) : State :=
  let s := { s with chain := { s.chain with sweep := none, reading := false, owCount := s.chain.owCount + 1 } }
  let s := ((s.wr F.CHAIN_STATUS_SWEEPING 0).inc F.CHAIN_SWEEP_COUNT).wr F.CHAIN_SWEEP_TIME_TIME instant
  let lim := max 1 (s.rd F.CHAIN_CFG_STALE_MAX)
  let s := ((List.range s.units).filter (fun u => !s.isolated u
    && decide (lim ≤ Sparse.get (fun _ => 0) s.chain.stale u))).foldl State.unitIsolated s
  let s := s.limitTest
  let s := if s.packState = 3 ∧ s.chain.inserting ∧ s.chain.debounced then s.insertCheck else s
  let s := if s.estAny then s.estSweep before else s
  s.balFull

end Sys2Proof.Machine
end

