-- ==== Sys2Proof/Machine/Chain.lean ====
section
/-! DEFINITION. The commands of the chain master and the pack (R384-R417, R570). -/

namespace Sys2Proof.Machine

/-! ### Sweeps (R393-R397) -/

/-- The source that CHAIN_STATUS reports. -/
def sourceCode : SweepSource → Nat
  | .table => 0
  | .late => 0
  | .free => 1
  | .backstop => 2

/-- The master reads the ring: on, enumerated, the units awake. -/
def State.chainUp (s : State) : Bool :=
  s.on F.CHAIN_CFG_EN && decide (1 ≤ s.rd F.CHAIN_STATUS_RING) && decide (s.rd F.CHAIN_STATUS_RING ≤ 3) && !s.chain.asleep

/-- A source places instants in the present lock state, and during an insertion only the free timer does (R394, R395). -/
def State.sourceOk (s : State) (src : SweepSource) : Bool :=
  let insertion := s.chain.inserting && decide (2 ≤ s.packState)
  let locked := s.locked
  match src with
  | .free => insertion || !locked
  | _ => !insertion && locked

/-- The last instant announced. -/
def State.instantLast (s : State) : Option Nat :=
  match s.chain.sweep with | some w => some w.instant | none => s.chain.lastInstant

/-- A table instant that R48 rejects: a ninth in the step, or one less than 5 ms after the last. -/
def State.instantBad (s : State) (src : SweepSource) (instant : Nat) : Bool :=
  (src == .table || src == .late) && (decide (8 ≤ s.rd F.CHAIN_SWEEP_IN_STEP)
    || (match s.instantLast with | some t => decide (instant < t + 1250000) | none => false))

/-- Ticks from the present phase to an angle ahead, by the period in use. -/
def State.ticksToAngle (s : State) (n : Nat) : Nat :=
  (F.PHEV_ANGLE_ANGLE.get (s.evtAngle n) - s.angle) * s.period / 2 ^ 32

/-- A SWEEP entry of this step that is ahead, not yet served, within some ticks: the first by angle, then by index. -/
def State.sweepAhead (s : State) (ticks : Nat) : Option Nat :=
  let l := s.evtUnpassed.filter (fun n => F.PHEV_ACT_ACTION.get (s.evtAct n) == 7 && s.evtFires n
    && !s.chain.swept.contains n && decide (s.ticksToAngle n ≤ ticks))
  (l.foldl (fun l n => s.evtInsert n l) []).head?

/-- What asks for a SAMPLE now: of the table an entry at most 200 µs ahead or a firing that waits, of a mark a firing that
waits, the free timer at its own times, a backstop GAP_MS after the last instant unless an entry's instant follows within
5 ms (R394, R395). -/
def State.sweepDue (s : State) (src : SweepSource) : Bool :=
  match src with
  | .table => (s.sweepAhead 50000).isSome || decide (0 < s.chain.sweepAsks)
  | .late => decide (0 < s.chain.sweepAsks)
  | .free => true
  | .backstop => (match s.instantLast with
      | some t => decide (t + s.rd F.CHAIN_CFG_GAP_MS * 250000 ≤ s.now + 50000)
      | none => true) && (s.sweepAhead 1300000).isNone

/-- The entry or the firing that asked has been answered. -/
def State.sweepServed (s : State) (src : SweepSource) : State :=
  match src, s.sweepAhead 50000 with
  | .table, some n => { s with chain := { s.chain with swept := n :: s.chain.swept } }
  | .table, none => { s with chain := { s.chain with sweepAsks := s.chain.sweepAsks - 1 } }
  | .late, _ => { s with chain := { s.chain with sweepAsks := s.chain.sweepAsks - 1 } }
  | _, _ => s

/-- SWEEP_SAMPLE_SEND (R393-R395): SAMPLE leaves both ports 200 µs before the instant. -/
def execSweepSampleSend (src : SweepSource) (s : State) : Host.Outcome State Fault Refusal :=
  let instant := s.now + 50000
  if !s.chainUp || !s.sourceOk src || !s.sweepDue src then .next s
  else if s.instantBad src instant then .next ((s.sweepServed src).incSat F.CHAIN_SWEEP_REJECTED)
  else if s.chain.sweep.isSome || s.on F.CHAIN_STATUS_OW_BUSY then .next s
  else
    let s := s.sweepServed src
    let num := (s.rd F.CHAIN_SWEEP_SEQ + 1) % 256
    let s := { s with chain := { s.chain with sweep := some ⟨num, sourceCode src, instant, false⟩ } }
    let s := ((s.wr F.CHAIN_SWEEP_SEQ num).wr F.CHAIN_STATUS_SWEEPING 1).wr F.CHAIN_STATUS_SOURCE (sourceCode src)
    let s := if src = .backstop then s else s.incSat F.CHAIN_SWEEP_IN_STEP
    .next (((s.wr F.BAL_STATUS_PAUSED 1).balRefresh).put (.sample num instant))

/-- SWEEP_SAMPLE_INSTANT (R393, R401): every unit samples, and bleeding resumes. -/
def execSweepSampleInstant (bcMa : Int) (s : State) : Host.Outcome State Fault Refusal :=
  match s.chain.sweep with
  | some w =>
    let s := { s with chain := { s.chain with
      sweep := some { w with sampled := true }, bcAt := bcMa, lastInstant := some w.instant } }
    .next (s.wr F.BAL_STATUS_PAUSED 0).balRefresh
  | none => .next s

/-- SWEEP_READ_SEND (R396, R397). -/
def execSweepReadSend (s : State) : Host.Outcome State Fault Refusal :=
  match s.chain.sweep with
  | some w =>
    if w.sampled && s.chainUp then .next (({ s with chain := { s.chain with reading := true } }).put (.chain 2))
    else .next s
  | none => .next s

/-- SWEEP_READ_RETURN (R391, R396): the READ returns with the units' blocks; `stackMv` is the BC's stack voltage.
(DESIGN CHOICE, log 53) -/
def execSweepReadReturn (blocks : List GcsBlock) (stackMv : Nat) (s : State) : Host.Outcome State Fault Refusal :=
  match s.chain.sweep with
  | some w =>
    if s.chain.reading then
      let before := s.therms
      let s := (List.range s.units).foldl (fun s u => s.readUnit blocks u) s
      .next ((s.measures.crossCheck stackMv).sweepDone w.instant before)
    else .next s
  | none => .next s

/-- CHAIN_FRAME_RESEND (R391): a frame returned bad or late; it is resent unless it has been twice. -/
def execChainFrameResend (crc gaveUp : Bool) (s : State) : Host.Outcome State Fault Refusal :=
  let s := if crc then (s.incSat F.CHAIN_ERR_COUNT_CRC).err 0x68 1 else s
  .next (if gaveUp then s else s.incSat F.CHAIN_ERR_COUNT_RETRY)

/-! ### The ring (R392, R397-R399) -/

/-- A break has cut the READ in flight and no second read fits: every unit's readings are STALE (R397). -/
def State.readCut (s : State) : State :=
  match s.chain.sweep with
  | some w =>
    let before := s.therms
    let s := ((List.range s.units).filter (fun u => !s.isolated u)).foldl State.unitStale s
    s.sweepDone w.instant before
  | none => s

/-- CHAIN_ALERT (R397, R398): a break is located; `readsFit` when a READ that it cut can be done again in time. -/
def execChainAlert (position : Fin 8) (readsFit : Bool) (s : State) : Host.Outcome State Fault Refusal :=
  if position.val ≤ s.units then
    let cut := s.chain.reading && !readsFit && s.rd F.CHAIN_STATUS_RING == 1
    let s := s.breakAt position
    .next (if cut then s.readCut else s)
  else .next s

/-- MONITORING_TIMEOUT (R398). (DESIGN CHOICE, log 53) -/
def execMonitoringTimeout (s : State) : Host.Outcome State Fault Refusal :=
  if s.twoBreaks then .next ((s.openReq 8 4).bcLost) else .next s

/-- The serial numbers the units gave when they were enumerated. -/
def State.serialsNow (s : State) : List Nat :=
  (List.range (s.rd F.CHAIN_STATUS_UNITS)).map (fun u => s.rd (F.GCS_SERIAL_SERIAL.i u))

/-- CARRIER_RETURN (R399, R413). -/
def execCarrierReturn (units : BitVec 8) (serials : List (BitVec 64)) (s : State) : Host.Outcome State Fault Refusal :=
  let ring := s.rd F.CHAIN_STATUS_RING
  if ring = 2 ∨ ring = 3 then
    if units.toNat ≠ s.units then .next (s.wr F.CHAIN_STATUS_UNITS units.toNat).packRefuse
    else if serials.map (·.toNat) = s.serialsNow then .next ((s.ringWhole.inhibitCheck).event 0x68 0x3012)
    else .next s
  else .next s

/-- The cell counts of R384. -/
def State.cellsLegal (s : State) : Bool :=
  s.rd F.PACK_CFG_CELLS == 80 || s.rd F.PACK_CFG_CELLS == 96 || s.rd F.PACK_CFG_CELLS == 112

/-- ENUM (R392, R411, R413): the enumeration's result, with the stack voltage. -/
def execEnum (units : BitVec 8) (returned : Bool) (stackMv : Nat) (serials : List (BitVec 64)) (s : State) :
    Host.Outcome State Fault Refusal :=
  let n := units.toNat
  if !returned || n == 0 || decide (7 < n) then .next ((s.wr F.CHAIN_STATUS_RING 0).err 0x68 0)
  else
    let s := s.enumSet n serials
    if s.chain.inserting && s.packState == 2 then
      if s.cellsLegal && n == s.units && decide (140000 ≤ stackMv) && decide (stackMv ≤ 310000) then
        let s := { s with chain := { s.chain with owWanted := true, debounced := false } }
        .next ((s.setPack 3).nefcCheck)
      else .next s.packRefuse
    else .next s

/-- ENUM_RETRY (R392). -/
def execEnumRetry (s : State) : Host.Outcome State Fault Refusal :=
  if s.rd F.CHAIN_STATUS_RING = 0 ∧ s.on F.CHAIN_CFG_EN ∧ s.on F.PACK_STATUS_PRSNT ∧ !s.chain.asleep then
    .next ((s.wr F.CHAIN_STATUS_RING 4).put (.chain 0))
  else .next s

/-! ### Balancing and open wires (R400-R405) -/

/-- BALANCE_GROUP_CHANGE (R400): the groups alternate; the units that BAL_SET reaches bleed again. -/
def execBalanceGroupChange (s : State) : Host.Outcome State Fault Refusal :=
  if s.chainUp then
    let s := s.wr F.BAL_STATUS_GROUP (1 - s.balGroup)
    .next ((({ s with chain := { s.chain with
      balLapsed := s.chain.balLapsed.filter s.isolated } }).balRefresh).put (.chain 3))
  else .next s

/-- BAL_SET_TIMEOUT (R400). -/
def execBalSetTimeout (unit : Fin 7) (s : State) : Host.Outcome State Fault Refusal :=
  if s.chain.balLapsed.contains unit.val then .next s
  else .next ({ s with chain := { s.chain with balLapsed := unit.val :: s.chain.balLapsed } }).balRefresh

/-- OW_REQ (R403). -/
def execOwReq (r : Req) (s : State) : Host.Outcome State Fault Refusal :=
  .next (s.cmdAt r F.CHAIN_CFG_OW_REQ false (fun s => s.wr F.CHAIN_CFG_OW_REQ 1))

/-- An open-wire test is due. -/
def State.owDue (s : State) : Bool :=
  s.chain.owWanted || s.on F.CHAIN_CFG_OW_REQ
    || (s.on F.CHAIN_CFG_OW_EVERY && decide (s.rd F.CHAIN_CFG_OW_EVERY ≤ s.chain.owCount))

/-- The gate of R403 is open. -/
def State.owGate (s : State) : Bool :=
  !s.on F.CHAIN_CFG_OW_GATE || s.on F.CHAIN_CFG_SELFTEST_FORCE || bitOf s.phase.testOpen 2

/-- OPEN_WIRE_TEST (R403, R404): a gap with at least 2.5 ms left begins. -/
def execOpenWireTest (s : State) : Host.Outcome State Fault Refusal :=
  if s.chainUp && s.owDue && s.owGate && s.chain.sweep.isNone && !s.on F.CHAIN_STATUS_OW_BUSY then
    let s := { s with chain := { s.chain with owWanted := false, owCount := 0 } }
    .next ((((s.wr F.CHAIN_STATUS_OW_BUSY 1).wr F.CHAIN_CFG_OW_REQ 0).balRefresh).put (.chain 4))
  else .next s

/-- One line of a test that flagged it: suspect, or confirmed when the test before flagged it too (R404). -/
def State.lineFlag (s : State) (prev : List Nat) (l : Nat) : State :=
  let s := (s.wr F.CHAIN_OW_UNIT (l / 17)).wr F.CHAIN_OW_LINE (l % 17)
  let s := { s with chain := { s.chain with owClear := Sparse.erase s.chain.owClear l } }
  if s.bit128 F.OW_LINES_LINES l then s
  else if prev.contains l then ((s.setBit128 F.OW_LINES_LINES true l).err 0x69 3).event 0x69 0x3031
  else s.event 0x69 0x3030

/-- One confirmed line of a test that did not flag it: the second such test clears it (R404). -/
def State.lineClear (s : State) (l : Nat) : State :=
  if Sparse.get (fun _ => 0) s.chain.owClear l = 0 then
    { s with chain := { s.chain with owClear := Sparse.insert s.chain.owClear l 1 } }
  else
    let s := { s with chain := { s.chain with owClear := Sparse.erase s.chain.owClear l } }
    s.setBit128 F.OW_LINES_LINES false l

/-- OPEN_WIRE_RESULT (R404, R405). -/
def execOpenWireResult (flagged : List (Fin 119)) (s : State) : Host.Outcome State Fault Refusal :=
  if s.on F.CHAIN_STATUS_OW_BUSY then
    let l := ((List.range 119).filter (fun i => decide (i < 17 * s.units) && flagged.any (fun f => f.val == i)))
    let prev := s.chain.owFlagged
    let open_ := (List.range 119).filter (fun i => s.bit128 F.OW_LINES_LINES i && !l.contains i)
    let s := open_.foldl State.lineClear (l.foldl (fun s i => s.lineFlag prev i) s)
    let suspect := l.any (fun i => !s.bit128 F.OW_LINES_LINES i)
    let s := { s with chain := { s.chain with owFlagged := l, owWanted := suspect,
                                              debounced := s.chain.debounced || s.packState == 3 } }
    let s := ((s.wr F.CHAIN_STATUS_OW_BUSY 0).inc F.CHAIN_OW_TESTS).wr F.CHAIN_OW_SUSPECT (b2n suspect)
    let s := (s.wr F.CHAIN_OW_CONFIRMED (b2n s.owAny)).unmonUpdate
    .next ((s.packFlags.inhibitCheck).balRefresh)
  else .next s

/-! ### Sleep and wake (R406, R407) -/

/-- The line of CHAIN_WAKE.LATCHED at the PIC (R482). -/
def State.wakeLine (s : State) : State := s.irqRaw .pic 43 (s.on F.CHAIN_WAKE_LATCHED)

/-- The always-on domain receives WAKE. -/
def State.wake (s : State) (unit cause : Nat) : State :=
  let s := { s with chain := { s.chain with wakeN := true } }
  let s := ((s.wr F.CHAIN_WAKE_LATCHED 1).wr F.CHAIN_WAKE_UNIT unit).wr F.CHAIN_WAKE_CAUSE cause
  ((s.inc F.CHAIN_WAKE_COUNT).wakeLine).event 0x68 0x3040

/-- WAKE (R406). -/
def execWake (unit : Fin 7) (cause : BitVec 4) (s : State) : Host.Outcome State Fault Refusal :=
  .next (s.wake unit cause.toNat)

/-- SLEEP_CHECK (R406, R407): a sleeping unit's lowest and highest cell (mV) and thermistor (°C). -/
def execSleepCheck (unit : Fin 7) (minMv maxMv : Nat) (minC maxC : Int) (unitFault : Bool) (s : State) :
    Host.Outcome State Fault Refusal :=
  if s.chain.asleep then
    let cause := if s.rd F.PACK_LIM_V_OV ≤ maxMv then 1 else if minMv ≤ s.rd F.PACK_LIM_V_UV then 2
      else if s.rdS F.PACK_LIM_T_OT ≤ maxC then 3 else if minC ≤ s.rdS F.PACK_LIM_T_UT then 4 else b2n unitFault * 5
    let s := if minMv ≤ s.rd F.PACK_LIM_V_UV_WARN then s.wr F.PACK_STATUS_AUX_TAP 0 else s
    .next (if cause = 0 then s else s.wake unit cause)
  else .next s

/-- PACK_CMD_WAKE_CLR (R406). -/
def execPackCmdWakeClr (r : Req) (s : State) : Host.Outcome State Fault Refusal :=
  .next (s.cmdAt r F.PACK_CMD_WAKE_CLR false (fun s => { s with chain := { s.chain with wakeN := false } }))

/-! ### Contactors, insertion and removal (R408-R412) -/

/-- PRECHARGE_DONE (R408, R555): a reversed stack fails the insertion; contactors that a limit is to open do not close (R386).
(DESIGN CHOICE, log 53) -/
def execPrechargeDone (reversed : Bool) (s : State) : Host.Outcome State Fault Refusal :=
  if s.packState = 4 ∧ s.rd F.PACK_STATUS_CONTACTOR = 1 ∧ s.chain.openTo.isNone then
    .next (if reversed then (s.err 0x69 1).insertFail 1 else s.contactor 2 8)
  else .next s

/-- PRECHARGE_PATH_OPEN (R408, R411): the pack is ONLINE. -/
def execPrechargePathOpen (s : State) : Host.Outcome State Fault Refusal :=
  if s.packState = 4 ∧ s.contactClosed then
    .next ((({ s with chain := { s.chain with inserting := false } }).setPack 5).event 0x69 0x3001)
  else .next s

/-- PRECHARGE_TIMEOUT (R408). -/
def execPrechargeTimeout (s : State) : Host.Outcome State Fault Refusal :=
  if s.packState = 4 ∧ s.rd F.PACK_STATUS_CONTACTOR = 1 then .next (s.insertFail 1) else .next s

/-- CONTACTOR_OPEN (R409). -/
def execContactorOpen (s : State) : Host.Outcome State Fault Refusal :=
  match s.chain.openTo with
  | some dest => .next (s.contactorsOpen dest s.chain.openCause)
  | none => .next s

/-- WELD_CHECK (R409): 1 s after opening, the stack-side voltage in mV. -/
def execWeldCheck (stackMv : Nat) (s : State) : Host.Outcome State Fault Refusal :=
  if s.rd F.PACK_STATUS_CONTACTOR = 0 ∧ 60000 ≤ stackMv then .next ((s.contactor 3 9).err 0x69 5) else .next s

/-- PACK_HVIL_OPEN (R410). -/
def execPackHvilOpen (s : State) : Host.Outcome State Fault Refusal :=
  let s := s.wr F.PACK_STATUS_HVIL 0
  if s.chain.inserting then .next (if s.packState = 1 then s else s.insertFail 2)
  else if s.rd F.PACK_STATUS_CONTACTOR = 2 then .next ((s.openReq 8 2).bcLost)
  else .next s

/-- PACK_HVIL_CLOSE (R410, R411): a sequence that waits at its debounce step goes on. -/
def execPackHvilClose (s : State) : Host.Outcome State Fault Refusal :=
  let s := s.wr F.PACK_STATUS_HVIL 1
  .next (if s.chain.inserting ∧ s.chain.debounced ∧ s.packState = 1 then s.insertEnum else s)

/-- Every reading of the pack is dropped (R410). -/
def State.readingsDrop (s : State) : State :=
  let zero (s : State) (f : Field) (n : Nat) : State := (List.range n).foldl (fun s i => s.setReg (f.i i).key 0) s
  let s := zero (zero (zero (zero s F.CELL_V_V0 28) F.CELL_T_T0 7) F.GCS_STATUS_BLK_V 7) F.GCS_SERIAL_SERIAL 7
  let s := zero (zero (zero s F.CELL_STALE_CELLS 2) F.CELL_UNMON_CELLS 2) F.OW_LINES_LINES 2
  ((s.setReg F.PACK_MEAS_SUM_V.key 0).setReg F.PACK_CELL_EXT_V_MAX.key 0).wr F.BC_MEAS_STACK_I 0

/-- The chain master with no pack. -/
def State.chainDrop (s : State) : State :=
  let s := { s with chain := { s.chain with
    sweep := none, lastInstant := none, sweepAsks := 0, reading := false, stale := [], owFlagged := [], owClear := [],
    owWanted := false, warn := 0, bleed := [], balLapsed := [], inserting := false, debounced := false, asleep := false } }
  let s := ((s.wr F.CHAIN_STATUS_RING 0).wr F.CHAIN_STATUS_UNITS 0).wr F.CHAIN_STATUS_ISOLATED 0
  let s := ((s.wr F.CHAIN_STATUS_SWEEPING 0).wr F.CHAIN_STATUS_OW_BUSY 0).wr F.BAL_STATUS_PAUSED 0
  (s.wr F.CHAIN_STATUS_BREAK_A 0xF).wr F.CHAIN_STATUS_BREAK_B 0xF

/-- PRSNT_N_RISE (R29, R410, R437). -/
def execPrsntNRise (s : State) : Host.Outcome State Fault Refusal :=
  let s := (s.wr F.PACK_STATUS_PRSNT 0).wr F.PACK_STATUS_AUX_TAP 0
  let s := s.openReq 0 6
  let s := ((s.setPack 0).event 0x69 0x3002).bcLost
  .next (((s.estDiscard.figures).readingsDrop.chainDrop).packFlags.inhibitCheck.balRefresh)

/-- PRSNT_N_FALL (R411). -/
def execPrsntNFall (s : State) : Host.Outcome State Fault Refusal :=
  .next ((s.wr F.PACK_STATUS_PRSNT 1).wr F.PACK_STATUS_AUX_TAP 1).insertBegin

/-- INSERTION_DEBOUNCE_END (R411): with the HVIL loop closed the sequence goes on to ENUM. -/
def execInsertionDebounceEnd (s : State) : Host.Outcome State Fault Refusal :=
  if s.chain.inserting ∧ s.packState = 1 then
    .next (if s.on F.PACK_STATUS_HVIL then s.insertEnum
      else { s with chain := { s.chain with debounced := true } })
  else .next s

/-- PACK_CMD_RELEASE (R412): ignored in RIDE_THROUGH. -/
def execPackCmdRelease (r : Req) (s : State) : Host.Outcome State Fault Refusal :=
  .next (s.cmdAt r F.PACK_CMD_RELEASE false (fun s =>
    if s.packState = 5 ∧ s.mode ≠ 4 then ((s.goBusOnly false).setPack 6).openReq 7 5 else s))

/-- PACK_CMD_ACCEPT (R411, R412, R386). -/
def execPackCmdAccept (r : Req) (s : State) : Host.Outcome State Fault Refusal :=
  .next (s.cmdAt r F.PACK_CMD_ACCEPT false (fun s =>
    if !s.on F.PACK_STATUS_PRSNT then s
    else if s.packState = 8 ∧ !s.on F.PACK_STATUS_LIMIT ∧ s.chain.openTo.isNone then s.insertBegin
    else if s.packState = 7 then s.insertEnum else s))

/-- PACK_CMD_CLR_LIMIT (R386). -/
def execPackCmdClrLimit (r : Req) (s : State) : Host.Outcome State Fault Refusal :=
  .next (s.cmdAt r F.PACK_CMD_CLR_LIMIT true (fun s => if s.warnAt 0 0 = 0 then s.wr F.PACK_STATUS_LIMIT 0 else s))

/-! ### Unit firmware (R414) -/

/-- An update of the units begins with unit 0 (R414). -/
def State.gcsStart (s : State) : State :=
  if s.on F.CHAIN_FW_START then s
  else
    let s := ((s.wr F.CHAIN_FW_START 1).wr F.CHAIN_STATUS_FW_BUSY 1).wr F.CHAIN_FW_UNIT 0
    let s := ((s.wr F.CHAIN_FW_PROGRESS 0).wr F.CHAIN_FW_RESULT 0).wr (F.GCS_STATUS_STATE.i 0) 3
    ({ s with chain := { s.chain with fwReady := false } }).put (.chain 7)

/-- CHAIN_FW_START (R414). -/
def execChainFwStart (r : Req) (s : State) : Host.Outcome State Fault Refusal :=
  .next (s.cmdAt r F.CHAIN_FW_START true State.gcsStart)

/-- GCS_FW_SWITCH (R414): with the image written and at least 3.5 ms before the next SAMPLE. -/
def execGcsFwSwitch (roomUs : Nat) (s : State) : Host.Outcome State Fault Refusal :=
  if s.on F.CHAIN_STATUS_FW_BUSY && !s.chain.fwReady && s.chain.sweep.isNone && decide (3500 ≤ roomUs) then
    .next ((({ s with chain := { s.chain with fwReady := true } }).wr F.CHAIN_FW_PROGRESS 100).put (.chain 8))
  else .next s

/-- The update ends with a result: 1 OK, 2 FAIL. -/
def State.fwEnd (s : State) (result : Nat) : State :=
  ((s.wr F.CHAIN_FW_START 0).wr F.CHAIN_STATUS_FW_BUSY 0).wr F.CHAIN_FW_UNIT 0xF |>.wr F.CHAIN_FW_RESULT result

/-- GCS_FW_RESTART_DONE (R414): the re-enumeration that follows starts the sweep instants afresh (R395). -/
def execGcsFwRestartDone (ok : Bool) (version : BitVec 16) (s : State) : Host.Outcome State Fault Refusal :=
  if s.chain.fwReady then
    let u := s.rd F.CHAIN_FW_UNIT
    let s := { s with chain := { s.chain with fwReady := false, lastInstant := none } }
    let s := s.wr (F.GCS_STATUS_STATE.i u) 1
    if ok then
      let s := (s.wr (F.GCS_STATUS_FW_VERSION.i u) version.toNat).wr (F.GCS_STATUS_BANK.i u)
        (1 - s.rd (F.GCS_STATUS_BANK.i u))
      let s := s.event 0x68 0x3050
      .next (if u + 1 < s.rd F.CHAIN_STATUS_UNITS then
          ((s.wr F.CHAIN_FW_UNIT (u + 1)).wr F.CHAIN_FW_PROGRESS 0).wr (F.GCS_STATUS_STATE.i (u + 1)) 3 |>.put (.chain 7)
        else s.fwEnd 1)
    else .next (((s.err 0x68 4).event 0x68 0x3051).fwEnd 2)
  else .next s

end Sys2Proof.Machine
end

