-- ==== Sys2Proof/Machine/Fw.lean ====
section
/-! DEFINITION. Live update of firmware (R523-R525), and the runtime's READY (R509). -/

namespace Sys2Proof.Machine

/-- FW_STATUS takes a state and a result. -/
def State.fwTo (s : State) (state result : Nat) : State := (s.wr F.FW_STATUS_RESULT result).wr F.FW_STATUS_STATE state

/-- The states in which a new operation may begin (R523). -/
def State.fwIdle (s : State) : Bool := [0, 3, 6, 7, 8].contains (s.rd F.FW_STATUS_STATE)

/-- A command while an operation runs is ignored (R523). -/
def State.fwBusy (s : State) : State := s.wr F.FW_STATUS_RESULT 0x0B

/-- A staging of the selected unit begins by `act`, which gets the unit; a reserved unit has no slot.
(DESIGN CHOICE, log 64) -/
def State.fwStage (s : State) (act : Nat → State → State) : State :=
  let u := s.rd F.FW_SEL_UNIT
  if !s.fwIdle then s.fwBusy
  else if 5 < u then s.fwTo 8 2
  else act u ((s.wr (validField u (1 - s.fwActive u)) 0).wr F.FW_STATUS_PROGRESS 0)

/-- The bytes of an image in HBM; a place that is no HBM of this module gives free values. (DESIGN CHOICE, log 63) -/
def State.fwSource (s : State) (n : Nat) : State × List Nat :=
  let g := s.rd F.FW_SRC_ADDR
  let a := g % 2 ^ 44
  let r := if g / 2 ^ 44 = s.modIdx ∧ a + n ≤ 0xA000000000 then s.rdMem none a n else (s, Res.err)
  if r.2.ok then (r.1, r.2.data)
  else ({ r.1 with draws := r.1.draws + n }, (List.range n).map (fun i => Config.freeNat (r.1.draws + i) % 256))

/-- FW_LOAD (R523): the slot takes the image, whose verification FW_STAGING_DONE ends. (DESIGN CHOICE, log 63) -/
def execFwLoad (r : Req) (s : State) : Host.Outcome State Fault Refusal :=
  .next (s.cmdAt r F.FW_CMD_CMD true (fun s => s.fwStage (fun u s =>
    let n := min (s.rd F.FW_LEN_BYTES) (slotSize u)
    let x := s.fwSource n
    let s := x.1.setSlotImage u (1 - s.fwActive u) x.2
    ({ s with fw := { s.fw with unit := u, opened := false } }.wr F.FW_STATUS_PROGRESS n).fwTo 2 0)))

/-- FW_OPEN (R523): the erased slot is open for APPEND. -/
def execFwOpen (r : Req) (s : State) : Host.Outcome State Fault Refusal :=
  .next (s.cmdAt r F.FW_CMD_CMD true (fun s => s.fwStage (fun u s =>
    let s := s.setSlotImage u (1 - s.fwActive u) []
    { s with fw := { s.fw with unit := u, opened := true } }.fwTo 1 0)))

/-- The first `n` bytes of FW_BUF. -/
def State.fwBuf (s : State) (n : Nat) : List Nat :=
  (bytesOf ((List.range 64).map (fun w => s.reg (F.FW_BUF_DATA.i w).key))).take n

/-- An APPEND or CLOSE acts on the slot that OPEN opened; while another operation runs it is ignored with BUSY, and with
none open it does nothing. (DESIGN CHOICE, log 64) -/
def State.fwOpened (s : State) (act : State → State) : State :=
  if s.rd F.FW_STATUS_STATE = 1 ∧ s.fw.opened then act s else if s.fwIdle then s else s.fwBusy

/-- FW_APPEND (R523): 1 to 512 bytes; bytes beyond the slot are not written. (DESIGN CHOICE, log 64) -/
def execFwAppend (r : Req) (s : State) : Host.Outcome State Fault Refusal :=
  .next (s.cmdAt r F.FW_CMD_CMD true (fun s => s.fwOpened (fun s =>
    let u := s.fw.unit
    let n := s.rd F.FW_BUF_CNT_BYTES
    if n = 0 ∨ 512 < n then s
    else
      let l := (s.slotImage u (1 - s.fwActive u) ++ s.fwBuf n).take (slotSize u)
      (s.setSlotImage u (1 - s.fwActive u) l).wr F.FW_STATUS_PROGRESS l.length)))

/-- FW_CLOSE (R523). -/
def execFwClose (r : Req) (s : State) : Host.Outcome State Fault Refusal :=
  .next (s.cmdAt r F.FW_CMD_CMD true (fun s => s.fwOpened (fun s =>
    { s with fw := { s.fw with opened := false } }.fwTo 2 0)))

/-- FW_STAGING_DONE (R518, R523): `written` unless the flash write failed twice. -/
def execFwStagingDone (written : Bool) (s : State) : Host.Outcome State Fault Refusal :=
  let u := s.fw.unit
  .next (
    if s.rd F.FW_STATUS_STATE ≠ 2 then s
    else if !written then (s.err 0 3).fwTo 8 0x0A
    else
      let x := s.imageVerify u (1 - s.fwActive u)
      if x.2 = 0 then (x.1.fwTo 3 0).event 3 0x0030 else x.1.fwTo 8 x.2)

/-- A unit is in TRIAL (R524). (DESIGN CHOICE, log 64) -/
def State.fwTrialOn (s : State) : State := (s.fwTo 6 0).event 3 0x0031

/-- FW_ACTIVATE (R511, R524). -/
def execFwActivate (r : Req) (s : State) : Host.Outcome State Fault Refusal :=
  .next (s.cmdAt r F.FW_CMD_CMD true (fun s =>
    let u := s.rd F.FW_SEL_UNIT
    if !s.fwIdle then s.fwBusy
    else if s.rd F.FW_STATUS_STATE ≠ 3 ∨ u ≠ s.fw.unit then s
    else
      let s := (s.fwSetPrefer u (1 - s.fwActive u)).fwTrial u true 0
      if s.rd F.SYS_BOOT_STATE = 3 then (s.fwTo 4 0).powerCycle 0 3 false
      else if u = 4 then s.fwTrialOn
      else s.fwTo 4 0))

/-- The steward is at its safe point (R524). -/
def State.stewardSafe (s : State) : Bool :=
  s.host.shake.isNone && s.host.queue.isEmpty && !s.fuse.running && !s.recorder.verifying && s.recorder.erasing.isNone
    && s.cfg.writing.isNone && !s.on F.DUMP_STATUS_FLUSHING

/-- Both fronds' cores reset, frond A's first, and boot the runtime. -/
def State.runtimeBoot (s : State) : State :=
  let s := [Frond.A, Frond.B].foldl (fun s f => (List.range 8).foldl (fun s c =>
    if s.frondFenced f.idx || s.rd (F.CORE_STATUS_STATE.pg (corePage f c)) == 4 then s else s.coreReset f c) s) s
  let s := { s with boot := { s.boot with rtSince := s.now } }
  (s.wr F.SYS_BOOT_RT_STATE 1).wr F.FW_RT_READY 0

/-- The next port from `p` on that carries traffic retrains on the new microcode (R243, R524). -/
def State.fwPort (s : State) (p : Nat) : State :=
  match (List.range 24).find? (fun q => decide (p ≤ q) && s.portUp q) with
  | some q => { s.portRetrain q with fw := { s.fw with port := q } }
  | none => s.fwTrialOn

/-- A unit hands over to its new image (R524). -/
def State.fwHand (s : State) (u : Nat) : State :=
  let s := (s.fwRun u (s.fwPrefer u)).fwTo 5 0
  match u with
  | 1 => (s.irqCoreReset .pic 0).when (s.rd F.ATTR_FIT_STATE == 1) State.fitStart
  | 2 => s.runtimeBoot
  | 3 => s.fwPort 0
  | 5 => s.gcsStart
  | _ => s

/-- FW_SAFE_POINT (R524): the unit reaches its safe point and hands over; in HANDOVER, the new steward or power-core image
has reported, the port that retrained is followed by the next, or the units' update is through. The runtime's safe point is
its write of READY. (DESIGN CHOICE, log 64) -/
def execFwSafePoint (s : State) : Host.Outcome State Fault Refusal :=
  let u := s.fw.unit
  .next (
    match s.rd F.FW_STATUS_STATE with
    | 4 =>
      if s.rd F.RST_STATUS_STEP = 4 ∨ u = 2 ∨ (u = 0 ∧ s.stewardSafe = false) ∨ (u = 1 ∧ s.power.stopPhase ≠ 0) then s
      else s.fwHand u
    | 5 =>
      if u ≤ 1 then (s.fwTrialOn).when (u == 1) State.arbBoth
      else if u = 3 then (if s.portUp s.fw.port then s.fwPort (s.fw.port + 1) else s)
      else if u = 5 then (if s.rd F.CHAIN_FW_RESULT = 1 ∧ s.on F.CHAIN_FW_START = false then s.fwTrialOn else s)
      else s
    | _ => s)

/-- FW_READY_TIMEOUT (R525): a unit in HANDOVER goes back to its previous slot; ports and cores restart on it. -/
def execFwReadyTimeout (s : State) : Host.Outcome State Fault Refusal :=
  let u := s.fw.unit
  .next (
    if s.rd F.FW_STATUS_STATE ≠ 5 then s
    else
      let s := s.fwRevert u
      let s := s.fwRun u (s.fwPrefer u)
      match u with
      | 1 => (s.irqCoreReset .pic 0).arbBoth
      | 2 => s.runtimeBoot
      | 3 => s.portTrigger s.fw.port
      | _ => s)

/-- FW_CONFIRM (R525). (DESIGN CHOICE, log 64) -/
def execFwConfirm (r : Req) (s : State) : Host.Outcome State Fault Refusal :=
  .next (s.cmdAt r F.FW_CMD_CMD true (fun s =>
    let u := s.rd F.FW_SEL_UNIT
    if !s.fwIdle then s.fwBusy
    else if bitOf s.fw.trial u then ((s.fwTrial u false 0).fwTo 7 0).event 3 0x0032
    else s))

/-- FW_ABORT (R523): what runs and is not in its handover is abandoned. (DESIGN CHOICE, log 64) -/
def execFwAbort (r : Req) (s : State) : Host.Outcome State Fault Refusal :=
  .next (s.cmdAt r F.FW_CMD_CMD true (fun s => if s.rd F.FW_STATUS_STATE = 5 then s.fwBusy else s.fwAbandon))

/-- FW_RT_READY (R509, R524): the runtime is RUNNING; a handover in progress is complete, and one that waits begins. -/
def execFwRtReady (r : Req) (s : State) : Host.Outcome State Fault Refusal :=
  .next (s.cmdAt r F.FW_RT_READY false (fun s =>
    let s := if s.rd F.SYS_BOOT_RT_STATE = 1 then
        ((s.wr F.SYS_BOOT_RT_STATE 2).wrSat F.SYS_BOOT_TIME_RT_MS (s.now / 250000)).event 0 0x0005
      else s
    let s := s.wr F.FW_RT_READY (if s.rd F.SYS_BOOT_RT_STATE = 2 then 1 else 0)
    if s.fw.unit = 2 ∧ s.rd F.FW_STATUS_STATE = 5 then s.fwTrialOn
    else if s.fw.unit = 2 ∧ s.rd F.FW_STATUS_STATE = 4 ∧ s.rd F.RST_STATUS_STEP ≠ 4 then s.fwHand 2
    else s))

end Sys2Proof.Machine
end

