-- ==== Sys2Proof/Machine/Phase.lean ====
section
/-! DEFINITION. The commands of the phase unit but for the firing of table entries (R32-R61). -/

namespace Sys2Proof.Machine

/-- The lock state after an autonomous wrap: 3 wraps in ACQUIRE and the ninth flywheeled step in HOLDOVER are FREE
(R35, R42). -/
def State.wrapState (s : State) : State :=
  if s.lock = 1 then
    if 2 ≤ s.phase.wraps then s.setLock 0 else { s with phase := { s.phase with wraps := s.phase.wraps + 1 } }
  else if s.lock = 3 then
    if 8 ≤ s.rd F.PHASE_STATUS_HOLD_STEPS then s.setLock 0 else s.inc F.PHASE_STATUS_HOLD_STEPS
  else s

/-- AUTONOMOUS_WRAP (R34, R46). -/
def execAutonomousWrap (s : State) : Host.Outcome State Fault Refusal :=
  let prof := s.profOut
  let s := s.evtAll
  let s := { s with phase := { s.phase with measPrev := s.phase.meas, lockedPrev := s.phase.lockedAll } }
  let s := s.wrapState
  let n := s.stepNumber (s.phase.step + 1) none
  .next ((n.1.stepStart false false 0 n.2).ffCheck prof)

/-- EXPECTED_MARK_MISS (R42): MISS, event 0xB002, HOLDOVER. -/
def execExpectedMarkMiss (s : State) : Host.Outcome State Fault Refusal :=
  if s.lock == 2 && !s.phase.byMark && decide (s.rd F.PHASE_WINDOW_WIN < s.angle) then
    let s := (s.incSat F.PHASE_COUNTS_MISS).phaseEvent F.PHASE_EVENTS_MISS
    .next (((s.event 0xA0 0xB002).setLock 3).wr F.PHASE_STATUS_HOLD_STEPS 1)
  else .next s

/-- ACTIVE_SOURCE_LAPSE (R36). -/
def execActiveSourceLapse (s : State) : Host.Outcome State Fault Refusal := .next s.srcUpdate

/-- STEP_IN_EDGE (R59): the new level has held for IN_FILTER ticks. -/
def execStepInEdge (rising : Bool) (s : State) : Host.Outcome State Fault Refusal :=
  if rising == (s.rd F.PHASE_STEP_IO_IN_EDGE == 0) then
    .next (s.markIn 4 (s.now - s.rd F.PHASE_STEP_IO_IN_FILTER) none none)
  else .next s

/-- PHASE_CTRL_COMMIT (R49). -/
def execPhaseCtrlCommit (r : Req) (s : State) : Host.Outcome State Fault Refusal :=
  .next (s.cmdAt r F.PHASE_CTRL_COMMIT false (fun s => (s.wr F.PHASE_CTRL_COMMIT 1).wr F.PHASE_STATUS_COMMIT_PEND 1))

/-- PHASE_CTRL_REACQUIRE (R35). -/
def execPhaseCtrlReacquire (r : Req) (s : State) : Host.Outcome State Fault Refusal :=
  .next (s.cmdAt r F.PHASE_CTRL_REACQUIRE false (fun s => s.wr F.PHASE_CTRL_REACQUIRE 1))

/-- PHASE_CTRL_FORCE_FREE (R35). -/
def execPhaseCtrlForceFree (r : Req) (s : State) : Host.Outcome State Fault Refusal :=
  .next (s.cmdAt r F.PHASE_CTRL_FORCE_FREE false (fun s =>
    let prof := s.profOut
    (({ s with phase := { s.phase with run := [] } }).setLock 0).ffCheck prof))

/-- PHASE_CTRL_PROF_CLEAR (R54). -/
def execPhaseCtrlProfClear (r : Req) (s : State) : Host.Outcome State Fault Refusal :=
  .next (s.cmdAt r F.PHASE_CTRL_PROF_CLEAR false (fun s => s.profClear.ffCheck s.profOut))

/-- PHASE_STEP_SET_WRITE (R43). -/
def execPhaseStepSetWrite (r : Req) (value : BitVec 32) (s : State) : Host.Outcome State Fault Refusal :=
  .next (s.cmdAt r F.PHASE_STEP_SET_STEP false (fun s =>
    { s with phase := { s.phase with pendStep := some value.toNat } }))

/-- SEGMENT_START (R50): an OP_PREF's point ends; the arbiter evaluates. -/
def execSegmentStart (s : State) : Host.Outcome State Fault Refusal :=
  let s := { s with phase := { s.phase with opPref := none } }
  .next s.arbBoth

/-- A frond's copy takes the phase, and the rate at which it advances. (DEDUCED, log 16) -/
def State.copyNow (s : State) : FrondCopy :=
  ⟨s.phase.acc, s.phase.step, s.lock, s.on F.PHASE_STATUS_PROF_VALID, true, s.phaseInc, s.phase.odd⟩

/-- PHASE_BROADCAST (R55, R56): a frond whose check fails, by itself or by injection (R452), keeps its copy. -/
def execPhaseBroadcast (goodA goodB : Bool) (s : State) : Host.Outcome State Fault Refusal :=
  let c := s.copyNow
  let goodA := goodA && !s.armed 0xA0 1
  let goodB := goodB && !s.armed 0xA0 2
  let s := { s with phase := { s.phase with
    copyA := if goodA then c else s.phase.copyA, copyB := if goodB then c else s.phase.copyB } }
  let s := if goodA then s else s.err 0xA0 1
  .next (if goodB then s else s.err 0xA0 2)

/-- FROND_COPY_INVALID (R56, R470). (DEDUCED, log 16) -/
def execFrondCopyInvalid (f : Frond) (s : State) : Host.Outcome State Fault Refusal :=
  let ph := s.phase
  let ph := match f with
    | .A => { ph with copyA := { ph.copyA with valid := false } }
    | .B => { ph with copyB := { ph.copyB with valid := false } }
  .next (({ s with phase := ph }).err (frondPg f 0x108) 3)

/-- STEP_OUT_PULSE_END (R59). -/
def execStepOutPulseEnd (s : State) : Host.Outcome State Fault Refusal :=
  .next { s with phase := { s.phase with stepOut := false } }

end Sys2Proof.Machine
end

