-- ==== Sys2Proof/Machine/Power.lean ====
section
/-! DEFINITION. The commands of the power path: modes, bus, draw set point, schedules, feed-forward, converter faults,
the orderly stop's beginning and drain, and the loop engine (R22-R29, R299-R332). -/

namespace Sys2Proof.Machine

/-! ### Modes and bus (R24-R29, R321) -/

/-- Every condition of R24. -/
def State.mayBuffer (s : State) : Bool :=
  s.on F.PWR_CTRL_BUF_EN && s.on F.PACK_STATUS_PRSNT && s.on F.PACK_STATUS_HVIL && s.rd F.CHAIN_STATUS_RING == 1
    && decide (0 < s.units) && s.rd F.CHAIN_STATUS_UNITS == s.units && s.rd F.CHAIN_STATUS_ISOLATED == 0
    && !s.on F.PACK_STATUS_WARN && s.on F.EST_STATUS_HELD
    && decide (1400 ≤ s.rd F.PACK_MEAS_SUM_V) && decide (s.rd F.PACK_MEAS_SUM_V ≤ 3100)
    && s.packState == 5 && s.contactClosed && !s.on F.PACK_STATUS_LIMIT && !s.bcFaultHeld
    && !s.on F.PWR_CTRL_FORCE_BUS_ONLY

/-- The load average takes a value in 0.25 W (R309). -/
def State.avgSet (s : State) (x : Int) : State :=
  ({ s with power := { s.power with avg := x * 2 ^ 24 } }).wrS F.PWR_AVG_LOAD_AVG x

/-- ENTER_BUFFERED (R24, R306, R309): the load average and P_set start from the measured bus draw. -/
def execEnterBuffered (s : State) : Host.Outcome State Fault Refusal :=
  if s.mode == 1 && s.mayBuffer && s.power.stopPhase == 0 then
    let busP := s.rdS F.PWR_MEAS_BUS_P
    let s := (s.avgSet busP).psetLoad busP
    .next ((s.changeMode 2 false).restFirst.grEnter)
  else .next s

/-- RIDE_THROUGH_ENTRY (R321). -/
def State.rideThrough (s : State) : State :=
  let s := s.changeMode 4 true
  ({ s with power := { s.power with rtSince := s.now } }).event 0x40 0x1010

/-- The bus is lost: RIDE_THROUGH from draw control, an immediate stop with cause 8 from BUS_ONLY (R25, R321).
(DESIGN CHOICE, log 49) -/
def State.busLost (s : State) : State :=
  if s.drawMode then s.rideThrough else if s.mode = 1 then s.stopBegin 8 true else s

/-- BUS_OUT_OF_RANGE (R25); without energy in the IB the rails fall at once (R321). -/
def execBusOutOfRange (ibEnergyHolds : Bool) (s : State) : Host.Outcome State Fault Refusal :=
  let only := s.mode == 1
  let s := s.busLost
  .next (if only && !ibEnergyHolds then allRails.foldl (fun s r => if s.railState r = 4 then s else s.railOff r 0) s
    else s)

/-- HVIL_LOOP_OPEN (R25): loop B when `b`. -/
def execHvilLoopOpen (b : Bool) (s : State) : Host.Outcome State Fault Refusal :=
  .next ({ s with power := if b then { s.power with hvilB := false } else { s.power with hvilA := false } }).busLost

/-- HVIL_LOOP_CLOSE (R551). -/
def execHvilLoopClose (b : Bool) (s : State) : Host.Outcome State Fault Refusal :=
  .next { s with power := if b then { s.power with hvilB := true } else { s.power with hvilA := true } }

/-- What calls for BUS_ONLY stands: software's command, a pack outside its temperature range, or no allowance under
NO_REST (R25, R435). -/
def State.busOnlyDue (s : State) : Bool :=
  s.on F.PWR_CTRL_FORCE_BUS_ONLY || bitOf s.chain.warn 2 || (s.restPolicy == 2 && s.est.allowZero)

/-- BUS_RETURN (R25, R26): the previous mode, with P_set from 0 W, and from it BUS_ONLY when that was called for
meanwhile; a stop that has begun goes on (R325). -/
def execBusReturn (s : State) : Host.Outcome State Fault Refusal :=
  if s.mode == 4 && s.power.hvilA && s.power.hvilB && s.power.stopPhase == 0 then
    let sched := s.on F.GR_CTRL_EN && s.grStarted
    let s := s.psetLoad 0
    let s := (if sched then (s.grEntry s.grEntryNow).changeMode 3 true else s.changeMode 2 true).rtRecord
    .next (if s.busOnlyDue then s.goBusOnly false else s)
  else .next s

/-! ### The draw set point (R305-R315) -/

/-- Bus draw in 0.25 W, from bus voltage and current (R300). (DESIGN CHOICE, log 49) -/
def busDraw (m : PowerSample) : Int := (m.busV.toNat : Int) * m.busI.toInt / 2500

/-- IB load in 0.25 W: FC output power plus BC IB-side power (R300). (DESIGN CHOICE, log 49) -/
def ibLoad (m : PowerSample) : Int := (m.ibMv.toNat : Int) * (m.fcI.toInt + m.bcI.toInt) / 25000

/-- FC output power in mW, and the bus draw times the efficiency, differ by more than the accuracies of R300 allow: a
running FC whose bus and IB measurements disagree. (DESIGN CHOICE, log 49) -/
def State.senseBad (s : State) (m : PowerSample) : Bool :=
  let st := s.rd F.FC_STATUS_STATE
  let bus : Int := (m.busV.toNat : Int) * m.busI.toInt / 10
  let out : Int := (m.ibMv.toNat : Int) * m.fcI.toInt / 100
  let tol := bus.natAbs / 200 + 5000 + out.natAbs / 200 + m.ibMv.toNat / 20 + m.fcI.toInt.natAbs / 5
  decide (2 ≤ st) && decide (st ≤ 4) && m.eff != 0 && decide (tol < (bus * m.eff.toNat / 10000 - out).natAbs)

/-- The measurements of a sample reach their registers; SENSE when they disagree, and the FC continues (R300, R334). -/
def State.measure (s : State) (m : PowerSample) : State :=
  let s := ((s.wrS F.PWR_MEAS_BUS_P (busDraw m)).wrS F.PWR_MEAS_IB_LOAD (ibLoad m)).wr F.FC_STATUS_EFF m.eff.toNat
  let s := ((s.wr F.PWR_IB_IB_MV m.ibMv.toNat).wr F.FC_MEAS_BUS_V m.busV.toNat).wr F.FC_MEAS_BUS_I m.busI.toNat
  let s := ((s.wr F.FC_MEAS_IOUT m.fcI.toNat).wr F.FC_MEAS_TEMP m.fcTemp.toNat).wr F.BC_MEAS_STACK_V m.stackV.toNat
  let s := (s.wr F.BC_MEAS_IB_I m.bcI.toNat).wr F.BC_MEAS_TEMP m.bcTemp.toNat
  (s.wr F.BC_STATUS_PHASES_ON m.bcOn).when (s.senseBad m) (fun s => s.err 0x41 0)

/-- The load average moves 1 / (TAU × 1,000) of the way toward IB load over efficiency (R309); an efficiency of 0 leaves
the quotient open. -/
def State.avgStep (s : State) (m : PowerSample) : State :=
  let x : Int := if m.eff = 0 then s.free else ibLoad m * 10000 / m.eff.toNat
  let s := if m.eff = 0 then s.drawn else s
  let a := s.power.avg + (x * 2 ^ 24 - s.power.avg) / (max 1 (s.rd F.PWR_AVG_TAU_S) * 1000 : Nat)
  ({ s with power := { s.power with avg := a } }).wrS F.PWR_AVG_LOAD_AVG (a / 2 ^ 24)

/-- SOC lies within WIN_LO-WIN_HI (R310). -/
def State.socInWindow (s : State) : Bool :=
  decide (100 * s.rd F.PWR_SOC_WIN_LO ≤ s.rd F.EST_SOC_SOC) && decide (s.rd F.EST_SOC_SOC ≤ 100 * s.rd F.PWR_SOC_WIN_HI)

/-- LS4 runs (R302, R310). -/
def State.socRuns (s : State) : Bool := s.drawMode && !s.on F.PWR_STATUS_REST && s.on F.PWR_CTRL_SOC_EN

/-- P_trim in 0.25 W from LS4's output (R310). (DEDUCED, log 76) -/
def State.trimNow (s : State) : Int :=
  if !s.socRuns || (s.mode == 3 && s.socInWindow) then 0
  else
    let lim : Int := (s.rd F.PWR_SOC_TRIM_MAX_W * (if s.socInWindow then 4 else 8) : Nat)
    clampInt (-lim) lim (rneShift (Sparse.get (fun _ => 0) s.power.dest 3 * 32000) 28)

/-- P_src in 0.25 W (R309). -/
def State.psrcNow (s : State) : Int :=
  if s.mode = 3 then 4 * s.rdS (F.GR_ENTRY_DRAW_W.i (s.rd F.GR_STATUS_ENTRY)) else s.power.avg / 2 ^ 24

/-- P_tgt in 0.25 W: clamp(P_src + P_trim, P_MIN, P_MAX), or a CLAMP window's target; no export while one is held
(R308, R312, R432). -/
def State.ptgtNow (s : State) : Int :=
  let lo := 4 * s.rdS F.PWR_LIMITS_P_MIN
  let lo := if s.power.exportHeld then max 0 lo else lo
  clampInt lo (4 * s.rd F.PWR_LIMITS_P_MAX)
    (match s.power.restTarget with | some t => t | none => s.psrcNow + s.trimNow)

/-- P_set moves toward P_tgt within the slew of 1 ms; P_tgt is in 0.25 W and P_set in 0.25 mW (R308).
(DESIGN CHOICE, log 50) -/
def State.psetStep (s : State) (tgt : Int) : State :=
  let lim : Int := (s.rd F.PWR_LIMITS_SLEW * 4 : Nat)
  let p := s.power.pset + clampInt (-lim) lim (tgt * 1000 - s.power.pset)
  let s := ({ s with power := { s.power with pset := p } }).wrS F.PWR_PSET_PSET (p / 1000)
  let s := s.wr F.PWR_STATUS_EXPORT (b2n (decide (p < 0)))
  (if p = tgt * 1000 then s.wr F.PWR_STATUS_SLEWING 0 else s).fcRole

/-- GR_DEV of a period under a schedule, and SCHED_DEV beyond 1.5 % of P_set (R314). -/
def State.grDevStep (s : State) (busP : Int) : State :=
  if s.mode = 3 then
    let d := (busP * 1000 - s.power.pset).natAbs
    let s := { s with power := { s.power with grDev := s.power.grDev + d } }
    let s := s.wrSat F.GR_DEV_DEV_J (s.power.grDev / 4000000)
    if 15 * s.power.pset.natAbs < 1000 * d then s.pwrEvent F.PWR_EVENTS_SCHED_DEV else s
  else s

/-- A stack-side current limit (0.01 A) as power at the present stack voltage, mW; the BC's losses are not counted.
(DESIGN CHOICE, log 49) -/
def State.stackMw (s : State) (i : Nat) : Nat := i * s.rd F.BC_MEAS_STACK_V

/-- The BC charge limit in mW, by power and by stack current, derated by fenced phases, and 0 under an inhibit (R301,
R305, R311). -/
def State.bcChgMw (s : State) : Nat :=
  if s.on F.PWR_STATUS_CHG_INHIBIT then 0
  else min (min (s.rd F.BC_CFG_P_CHG_MAX * 1000) (2400000 * s.bcPhases / 12))
    (s.stackMw (min (s.rd F.BC_CFG_I_CHG_MAX) (1800 * s.bcPhases / 12)))

/-- The BC discharge limit likewise, 0 under an inhibit or a discharge limit of 0 (R301, R305, R311, R386). -/
def State.bcDisNow (s : State) : Nat :=
  if s.on F.PWR_STATUS_DISCH_INHIBIT || s.on F.PACK_STATUS_DIS_LIMIT then 0
  else min s.bcDisMw (s.stackMw (min (s.rd F.BC_CFG_I_DIS_MAX) (3500 * s.bcPhases / 12)))

/-- One test of IB fallback: the BC could supply the load less the FC's output at P_set within 90 % of its limit
(R305). -/
def State.fbTest (s : State) : State :=
  if s.on F.PWR_STATUS_FALLBACK then
    let need : Int := s.rdS F.PWR_MEAS_IB_LOAD * 250 - s.fcIbMw
    let pass := if 0 ≤ need then decide (10 * need ≤ (9 * s.bcDisNow : Nat)) else decide (-10 * need ≤ (9 * s.bcChgMw : Nat))
    { s with power := { s.power with fbPass := if pass then s.power.fbPass + 1 else 0 } }
  else s

/-- In GRID_RESPONSE LS4 stands at 0 while SOC lies within the window, so that the trim starts from 0 outside it (R310). -/
def State.trimHold (s : State) : State := if s.mode == 3 && s.socInWindow && s.socRuns then s.trimZero else s

/-- DRAW_SETPOINT_UPDATE (R308, R309): every 1 ms, with the sample of the period that ends. -/
def execDrawSetpointUpdate (m : PowerSample) (s : State) : Host.Outcome State Fault Refusal :=
  let s := s.measure m
  if s.mode = 0 then .next s
  else
    let s := ((s.avgStep m).grDevStep (busDraw m)).fbTest.trimHold
    let tgt := s.ptgtNow
    let s := ((s.wrS F.PWR_SRC_PSRC s.psrcNow).wrS F.PWR_SRC_TRIM s.trimNow).wrS F.PWR_PSET_PTGT tgt
    .next (if s.drawMode then s.psetStep tgt else s)

/-- FALLBACK_ENTRY (R305). -/
def execFallbackEntry (s : State) : Host.Outcome State Fault Refusal :=
  if s.drawMode && !s.subState then
    let s := (s.setSub F.PWR_STATUS_FALLBACK 1 true).pwrEvent F.PWR_EVENTS_FALLBACK
    .next (({ s with power := { s.power with fbPass := 0 } }).err 0x40 0 |>.event 0x40 0x1002)
  else .next s

/-- FALLBACK_EXIT (R305): ten consecutive passing tests; draw control resumes under R306. -/
def execFallbackExit (s : State) : Host.Outcome State Fault Refusal :=
  if s.on F.PWR_STATUS_FALLBACK && decide (10 ≤ s.power.fbPass) then
    let s := s.psetLoad (s.rdS F.PWR_MEAS_BUS_P)
    .next ((s.setSub F.PWR_STATUS_FALLBACK 0 false).event 0x40 0x1003)
  else .next s

/-- EXPORT_STOP (R312). -/
def execExportStop (s : State) : Host.Outcome State Fault Refusal :=
  if s.drawMode && s.on F.PWR_STATUS_EXPORT then
    let s := { s with power := { s.power with pset := 0, exportHeld := true } }
    .next (((s.wr F.PWR_PSET_PSET 0).wr F.PWR_STATUS_EXPORT 0).fcRole.pwrEvent F.PWR_EVENTS_EXPORT_STOP)
  else .next s

/-- EXPORT_RESUME (R312). -/
def execExportResume (s : State) : Host.Outcome State Fault Refusal :=
  .next { s with power := { s.power with exportHeld := false } }

/-! ### Feed-forward (R316-R318) -/

/-- The activity scale (R317). At a bin boundary A is the activity estimate of the bin just ended, the priced activity
plus BASE_W, over the bin's time (R319, R378), and P that bin's profile value; s is 1 when either condition fails.
(DESIGN CHOICE, log 50) -/
def State.scaleStep (s : State) : State :=
  let ok := s.on F.PWR_CTRL_ACT_SCALE && !s.on F.PWR_STATUS_FF_DIVERGE
  let b := binOf s.angle
  if b = s.power.ffBin then (if ok then s else { s with power := { s.power with ffScale := 65536 } })
  else
    let ns := 4 * (s.now - s.power.ffAt)
    let pj := s.power.ffCarry + (s.stepPj - s.power.ffPj0) + 1000 * s.rd F.ATTR_BASE_BASE_W * ns
    let p := s.rd (binField s.power.ffBin)
    let sc := if ok && p != 0 && ns != 0 then clampNat 49152 81920 (pj * 65536 / (250 * ns * p)) else 65536
    { s with power := { s.power with ffScale := sc, ffBin := b, ffAt := s.now, ffPj0 := s.stepPj, ffCarry := 0 } }

/-- The ramp gain after one microsecond (R318). (DESIGN CHOICE, log 50) -/
def State.gainRamp (s : State) : State :=
  let st := s.rd F.PWR_STATUS_FF_STATE
  let d := s.ffGain / (max 1 (s.rd F.PWR_FF_RAMP_MS) * 1000)
  let k := if st = 1 then min s.ffGain (s.power.ffK + d) else if st = 2 then s.ffGain
    else if st = 3 then s.power.ffK - d else 0
  { s with power := { s.power with ffK := k } }

/-- FEED_FORWARD_UPDATE (R316): `fcOut` is the measured FC output power (0.25 W), `ibMv` the IB voltage; an IB voltage
of 0 leaves the quotient open. -/
def execFeedForwardUpdate (fcOut : Int) (ibMv : Nat) (s : State) : Host.Outcome State Fault Refusal :=
  let s := s.scaleStep.gainRamp
  let (prof, sc) := match s.power.ffHeld with | some h => h | none => (s.profOut, s.power.ffScale)
  let pfc := if s.mode = 4 then 0 else fcOut
  let mw : Int := ((sc * prof : Nat) - pfc * 65536) * 250
  if ibMv = 0 ∧ s.power.ffK ≠ 0 then .next (s.wr F.PWR_FF_IREF_FF s.free).drawn
  else .next (s.wrS F.PWR_FF_IREF_FF (rneDiv (s.power.ffK * mw * 1000) (2 ^ 63 * 65536 * max 1 ibMv)))

/-- FF_RAMP_END (R318). -/
def execFfRampEnd (s : State) : Host.Outcome State Fault Refusal :=
  let st := s.rd F.PWR_STATUS_FF_STATE
  if st = 1 then .next (({ s with power := { s.power with ffK := s.ffGain } }).ffSet 2)
  else if st = 3 then .next (({ s with power := { s.power with ffK := 0, ffHeld := none } }).ffSet 0)
  else .next s

/-! ### Converter faults and stops (R301, R323-R325) -/

/-- The BC carries the load again when a substate had the FC regulate the IB. (DESIGN CHOICE, log 49) -/
def State.leaveSub (s : State) : State :=
  let s := if s.on F.PWR_STATUS_FALLBACK then s.setSub F.PWR_STATUS_FALLBACK 0 true else s
  s.restEnd 3

/-- FC_FAULT (R323): an orderly stop from draw control, an immediate one from BUS_ONLY. (DESIGN CHOICE, log 49) -/
def execFcFault (k : ConvFault) (s : State) : Host.Outcome State Fault Refusal :=
  let bit := match k with | .oc => 1 | .ot => 2 | .switch => 3
  let s := if s.drawMode then s.leaveSub else s
  let s := (s.err 0x41 bit).wr F.FC_STATUS_STATE 5
  .next (if s.drawMode then s.stopBegin 2 false else if s.mode = 1 then s.stopBegin 2 true else s)

/-- BC_FAULT (R323). -/
def execBcFault (k : ConvFault) (s : State) : Host.Outcome State Fault Refusal :=
  let bit := match k with | .oc => 0 | .ot => 2 | .switch => 3
  .next ((s.err 0x42 bit).wr F.BC_STATUS_STATE 5).bcLost

/-- The BC_CFG limits are held to their derated ratings (R301). -/
def State.bcDerate (s : State) : State :=
  let n := s.bcPhases
  let cap (s : State) (f : Field) (full : Nat) : State := s.wr f (min (s.rd f) (full * n / 12))
  cap (cap (cap (cap s F.BC_CFG_P_DIS_MAX 4800) F.BC_CFG_P_CHG_MAX 2400) F.BC_CFG_I_DIS_MAX 3500) F.BC_CFG_I_CHG_MAX 1800

/-- BC_PHASE_FENCE (R301, R449). -/
def execBcPhaseFence (p : Fin 12) (s : State) : Host.Outcome State Fault Refusal :=
  if bitOf (s.rd F.BC_STATUS_PHASES_OK) p then
    .next (((s.clrBit F.BC_STATUS_PHASES_OK p).bcDerate.err 0x42 1).event 0x42 0xA002)
  else .next s

/-- IB_OUT_OF_RANGE (R324): wherever a converter regulates the IB, in start-up too. -/
def execIbOutOfRange (s : State) : Host.Outcome State Fault Refusal :=
  if s.mode = 0 ∧ s.rd F.FC_STATUS_STATE ≠ 2 then .next s
  else .next (((s.wr F.FC_STATUS_STATE 0).wr F.BC_STATUS_STATE 0).err 0x40 3 |>.stopBegin 5 true)

/-- PWR_CTRL_STOP (R325). -/
def execPwrCtrlStop (r : Req) (s : State) : Host.Outcome State Fault Refusal :=
  .next (s.cmdAt r F.PWR_CTRL_STOP true (fun s => s.stopBegin 3 false))

/-- STOP_DRAIN_END (R325): recorder and dump are in flash, the rails stop. -/
def execStopDrainEnd (s : State) : Host.Outcome State Fault Refusal :=
  .next (if s.power.stopPhase = 1 then s.recFlush.dumpFlush.stopRails else s)

/-- PWR_CTRL_WRITE (R312, R318, R310, R25): the fields, then what they command. -/
def execPwrCtrlWrite (r : Req) (value : BitVec 64) (s : State) : Host.Outcome State Fault Refusal :=
  .next (s.cmdWord r F.PWR_CTRL_STOP.key value (fun w s =>
    let prof := s.profOut
    let s := s.setReg F.PWR_CTRL_STOP.key w
    let s := if s.on F.PWR_CTRL_FORCE_BUS_ONLY then s.goBusOnly false else s
    let s := if s.on F.PWR_CTRL_REVERSE_EN then s else s.wr F.PWR_LIMITS_P_MIN 0
    let s := if s.on F.PWR_CTRL_SOC_EN then s else s.wr F.PWR_SRC_TRIM 0
    let s := s.ffCheck prof
    if F.PWR_CTRL_STOP.get value = 1 ∧ r.level = .L0 then s.stopBegin 3 false else s))

/-! ### Draw schedules (R313-R315) -/

/-- A schedule write that R313 refuses. (DESIGN CHOICE, log 71) -/
def State.grBad (s : State) : State := (s.wr F.GR_STATUS_BAD 1).err 0x43 0

/-- GR_ENABLE (R313, R314): a write of EN = 1. -/
def execGrEnable (r : Req) (timebase : Bool) (s : State) : Host.Outcome State Fault Refusal :=
  .next (s.cmdAt r F.GR_CTRL_EN false (fun s =>
    if s.on F.GR_CTRL_EN then (if s.on F.GR_CTRL_TIMEBASE == timebase then s else s.grBad)
    else
      let s := s.wr F.GR_CTRL_TIMEBASE (b2n timebase)
      if s.grWellFormed then
        let s := ({ s with power := { s.power with grDev := 0 } }).wr F.GR_DEV_DEV_J 0
        ((s.wr F.GR_CTRL_EN 1).grEnter).grCheck
      else s.grBad))

/-- GR_CANCEL (R314). -/
def execGrCancel (r : Req) (s : State) : Host.Outcome State Fault Refusal :=
  .next (s.cmdAt r F.GR_CTRL_EN false (fun s => if s.on F.GR_CTRL_EN then s.grEnd true else s))

/-- GR_ENTRY_WRITE (R313). -/
def execGrEntryWrite (r : Req) (t : GrTarget) (value : BitVec 64) (s : State) : Host.Outcome State Fault Refusal :=
  let key := match t with
    | .entry n => (F.GR_ENTRY_T_MS.i n).key
    | .start => F.GR_START_START.key
    | .timebase => F.GR_CTRL_EN.key
  .next (s.cmdWord r key value (fun w s =>
    if s.on F.GR_CTRL_EN then s.grBad
    else match t with
      | .timebase => s.wr F.GR_CTRL_TIMEBASE (F.GR_CTRL_TIMEBASE.get w)
      | _ => s.setReg key w))

/-- GRID_RESPONSE_ENTRY (R314): GR_START passes; outside BUFFERED the schedule is suspended (R315). -/
def execGridResponseEntry (s : State) : Host.Outcome State Fault Refusal :=
  if s.on F.GR_CTRL_EN then
    let s := s.grEntry s.grEntryNow
    .next (if s.mode = 2 then s.changeMode 3 false else s.grCheck)
  else .next s

/-- GR_ENTRY_IN_FORCE (R313): entry `n`'s time arrives. -/
def execGrEntryInForce (n : Fin 64) (s : State) : Host.Outcome State Fault Refusal :=
  if s.on F.GR_CTRL_EN && s.grUsable n then .next (s.grEntry n)
  else .next s

/-- GR_SCHEDULE_END (R314, R315). -/
def execGrScheduleEnd (s : State) : Host.Outcome State Fault Refusal :=
  .next (if s.on F.GR_CTRL_EN then s.grEnd false else s)

/-! ### The loop engine (R326-R332) -/

/-- A write that a slot rejects: COEF_REJECT in the slot and on the page, event 0x1040 (R328). (DESIGN CHOICE, log 51) -/
def State.lsReject (s : State) (i : Nat) : State :=
  ((s.wr (F.LS_STATE_COEF_REJECT.i i) 1).err 0x44 0).event 0x44 0x1040

/-- The slot computes under the routing (R302, R310, R376): LS0-LS3 as it says, LS4 with the SOC loop, LS5-LS8 outside
STANDBY. -/
def State.lsRuns (s : State) (i : Nat) : Bool :=
  if i ≤ 3 then s.routeOf.any (fun e => e.1 == i) else if i = 4 then s.socRuns && !(s.mode == 3 && s.socInWindow) else if i ≤ 8 then s.mode != 0 else true

/-- The sample of a slot: 0 for NONE and reserved sources, the estimator's SOC for SOC; LS5-LS8's temperatures are tested
against their maxima (R331, R377, R421). -/
def State.lsSample (s : State) (i : Nat) (sample : Int) : State :=
  let src := s.rd (F.LS_CFG_MEAS_SRC.i i)
  let m := if src = 5 then rneDiv ((s.rd F.EST_SOC_SOC : Int) * q28) 10000 else if 1 ≤ src ∧ src ≤ 0x0A then sample else 0
  let s := s.wrS (F.LS_STATE_MEAS.i i) m
  if 7 ≤ src ∧ src ≤ 0x0A then s.thermRead (Frond.at ((src - 7) % 2)) (decide (9 ≤ src)) (m * 128 / q28) else s

/-- A slot's cascaded set point is taken in each period whose index is a multiple of D (R330). -/
def State.lsCascade (s : State) (i : Nat) : State :=
  if s.on (F.LS_CASC_EN.i i) && s.now / 250 / max 1 (s.slot i).n % max 1 (s.rd (F.LS_CASC_D.i i)) == 0 then
    let x := s.slot i
    s.setSlot i { x with sp := s.rdS (F.LS_KFF_OUT.i (s.rd (F.LS_CASC_SRC_SLOT.i i))) }
  else s

/-- One computing period of a CLOSED slot (R327). -/
def State.lsCompute (s : State) (i : Nat) : State :=
  let s := s.lsCascade i
  let x := s.slot i
  let e := satBits 32 (s.lsSp i - s.rdS (F.LS_STATE_MEAS.i i))
  let o := loopLaw (s.lsCoef i) ⟨x.integ, x.deriv, x.ePrev, x.atLim⟩ e (s.lsFf i)
  let s := s.setSlot i { x with integ := o.mem.integ, deriv := o.mem.deriv, ePrev := o.mem.ePrev, atLim := o.mem.atLim }
  let s := s.when o.satAcc (fun s => s.wr (F.LS_STATE_SAT_ACC.i i) 1)
  let s := s.when o.satInt (fun s => s.wr (F.LS_STATE_SAT_INT.i i) 1)
  let s := s.when o.satOut (fun s => s.wr (F.LS_STATE_SAT_OUT.i i) 1)
  (s.wr (F.LS_STATE_AT_LIM.i i) (b2n o.mem.atLim)).lsPut i o.out

/-- A tracking LS3: its output equals the set point that LS0 holds (R302). -/
def State.lsTrack (s : State) : State :=
  let out := (s.slot 0).sp
  (s.lsLoad 3 out).wrS (F.LS_KFF_OUT.i 3) out

/-- LOOP_SLOT_PERIOD (R326-R328): one period, with the sample in Q4.28. -/
def execLoopSlotPeriod (slot : Fin 16) (sample : BitVec 32) (s : State) : Host.Outcome State Fault Refusal :=
  let m := s.lsMode slot
  if m = 1 then
    let s := s.lsSample slot sample.toInt
    if s.lsRuns slot then .next (s.lsCompute slot)
    else .next (if slot.val = 3 ∧ s.ls3Tracks then s.lsTrack else s)
  else if m = 3 then
    let c := s.lsCoef slot
    .next (s.lsPut slot (clampInt c.outMin c.outMax (s.rdS (F.LS_SP_MAN.i slot))))
  else .next s

/-- Another slot that is not OFF drives the slot's destination (R332). -/
def State.lsTaken (s : State) (i : Nat) : Bool :=
  s.lsDest i != 0 && (List.range 16).any (fun j => j != i && s.lsMode j != 0 && s.lsDest j == s.lsDest i)

/-- A slot is closed by software (R328, R331, R332). -/
def State.lsSoftClose (s : State) (i : Nat) : State :=
  if s.lsTaken i then s.lsReject i
  else
    let s := s.lsClose i
    if 0x0B ≤ s.rd (F.LS_CFG_MEAS_SRC.i i) then s.lsReject i else s

/-- LS_MODE_WRITE (R328). -/
def execLsModeWrite (r : Req) (slot : Fin 16) (mode : BitVec 2) (s : State) : Host.Outcome State Fault Refusal :=
  let m := mode.toNat
  .next (s.cmdHeld r (F.LS_STATE_MODE.i slot) (s.lsMode slot == m) (fun s =>
    if s.lsMode slot = m then s
    else if m = 0 ∧ slot.val ≤ 4 ∧ s.mode ≠ 0 then s.lsReject slot
    else if m = 1 then s.lsSoftClose slot
    else (s.wr (F.LS_STATE_MODE.i slot) m).lsShow slot))

/-- The register of a slot that a coefficient write names. -/
def loopRegField : LoopReg → Field
  | .cfg => F.LS_CFG_PERIOD_N
  | .kpi => F.LS_KPI_KP
  | .kdf => F.LS_KDF_KD
  | .kff => F.LS_KFF_KFF
  | .outlim => F.LS_OUTLIM_OUT_MAX
  | .sp => F.LS_SP_SP

/-- A coefficient word is stored: PERIOD_N and KF are clamped, OUT stays, an OUT_MIN above OUT_MAX is rejected, SP is
kept while a cascade or a register gives the set point (R326, R328, R330, R332, R334). -/
def State.lsStore (s : State) (i : Nat) (which : LoopReg) (w : Word) : State :=
  let old := s.reg ((loopRegField which).i i).key
  let s' := s.setReg ((loopRegField which).i i).key w
  match which with
  | .cfg => s'.wr (F.LS_CFG_PERIOD_N.i i) (max 4 (F.LS_CFG_PERIOD_N.get w))
  | .kpi => s'
  | .kdf => s'.wr (F.LS_KDF_KF.i i) (clampInt 0 q28 (bitsInt 32 (F.LS_KDF_KF.get w))).toNat
  | .kff => s'.wr (F.LS_KFF_OUT.i i) (F.LS_KFF_OUT.get old)
  | .outlim => if s'.rdS (F.LS_OUTLIM_OUT_MAX.i i) < s'.rdS (F.LS_OUTLIM_OUT_MIN.i i) then s.lsReject i else s'
  | .sp => if s.on (F.LS_CASC_EN.i i) || decide (i ≤ 8) then s'.wr (F.LS_SP_SP.i i) (F.LS_SP_SP.get old) else s'

/-- LS_COEF_WRITE (R328): a CLOSED slot takes none but LS_SP. -/
def execLsCoefWrite (r : Req) (slot : Fin 16) (which : LoopReg) (value : BitVec 64) (s : State) :
    Host.Outcome State Fault Refusal :=
  let f := (loopRegField which).i slot
  .next (s.cmdHeld r f (s.reg f.key == value) (fun s =>
    if s.lsMode slot = 1 ∧ which ≠ .sp then s.lsReject slot else s.lsStore slot which value))

/-- Following sources from `src` reaches `i`: a cycle (R330). -/
def State.cascCycle (s : State) (i : Nat) : Nat → Nat → Bool
  | 0, _ => true
  | n + 1, src => src == i || (s.on (F.LS_CASC_EN.i src) && State.cascCycle s i n (s.rd (F.LS_CASC_SRC_SLOT.i src)))

/-- LS_CASC_WRITE (R330): read-only for LS0 and LS1; a source that is no CASCADE slot, or a cycle, is rejected. -/
def execLsCascWrite (r : Req) (slot : Fin 16) (value : BitVec 64) (s : State) : Host.Outcome State Fault Refusal :=
  let f := F.LS_CASC_EN.i slot
  .next (s.cmdWord r f.key value (fun w s =>
    let src := F.LS_CASC_SRC_SLOT.get w
    if slot.val ≤ 1 ∨ r.level ≠ .L0 then s
    else if s.lsMode slot = 1 then s.lsReject slot
    else if F.LS_CASC_EN.get w = 1 ∧ (s.rd (F.LS_CFG_DEST.i src) ≠ 8 ∨ s.cascCycle slot 16 src) then s.lsReject slot
    else s.setReg f.key w))

end Sys2Proof.Machine
end

