-- ==== Sys2Proof/Machine/Rails.lean ====
section
/-! DEFINITION. The commands of the rail regulators (R335-R361). -/

namespace Sys2Proof.Machine

/-! ### Commands and the PWM period (R337-R351) -/

/-- RAIL_CMD_WRITE (R337): a rail under ARBITER rejects it. -/
def execRailCmdWrite (r : Req) (rail : Fin 12) (slew : BitVec 8) (target : BitVec 16) (s : State) :
    Host.Outcome State Fault Refusal :=
  let same := s.rd (rf F.RAIL_CMD_TARGET rail) == target.toNat && s.rd (rf F.RAIL_CMD_SLEW rail) == slew.toNat
  .next (s.cmdHeld r (rf F.RAIL_CMD_TARGET rail) same (fun s =>
    if s.on (rf F.RAIL_CFG_CMD_SRC rail) then s.railReject rail
    else s.railCommand rail target.toNat slew.toNat))

/-- RAIL_CMD_DONE (R341): two consecutive boundaries at which the reference equals its goal and the output lies within
5 mV of it complete the command. A completion of the arbiter's rail does not count for it while a newer command waits for
its latch: the clock stays until the last target completes (R365). -/
def State.railSettle (s : State) (r v : Nat) : State :=
  let u := s.rail r
  if !u.busy then s
  else if u.ref = u.goal ∧ 5 * v ≤ u.goal + 50 ∧ u.goal ≤ 5 * v + 50 then
    if u.settle = 0 then s.setRail r { u with settle := 1 }
    else
      let s := (s.setRail r { u with busy := false, settle := 0 }).wr (rf F.RAIL_STATUS_DONE r) 1
      let s := (s.railEvent r F.RAIL_EVENTS_CMD_DONE).event (railPage r) 0x2001
      if u.cmd.isSome then s else if r = 0 then s.vcDone .A else if r = 1 then s.vcDone .B else s
  else s.setRail r { u with settle := 0 }

/-- The reference moves toward its goal by at most the step (R338). -/
def State.railRefStep (s : State) (r : Nat) : State :=
  let u := s.rail r
  let ref := if u.ref ≤ u.goal then min u.goal (u.ref + u.step) else max u.goal (u.ref - u.step)
  (s.setRail r { u with ref := ref }).railShow r

/-- The waiting command is latched (R339). -/
def State.railTakeCmd (s : State) (r : Nat) : State :=
  match (s.rail r).cmd with
  | some c => s.railLatch r c.1 c.2
  | none => s

/-- A pending swap hands over unless a brake runs (R345). -/
def State.railSwapDue (s : State) (r v : Nat) : State :=
  if s.on (rf F.RAIL_CTRL_SWAP r) && !s.on (rf F.RAIL_STATUS_BRAKING r) then
    s.compHandover r (railError (s.rail r).ref v)
  else s

/-- A brake starts when the output rises past 3 % above the reference within one period, armed, the reference not
moving downward (R342, R351). -/
def State.railBrake (s : State) (r v : Nat) : State :=
  let u := s.rail r
  if u.armed && decide (u.ref ≤ u.goal) && decide (103 * u.ref < 500 * v) && decide (500 * u.lastV ≤ 103 * u.ref) then
    ((s.setRail r { u with armed := false }).wr (rf F.RAIL_STATUS_BRAKING r) 1).railEvent r F.RAIL_EVENTS_BRAKE
  else s

/-- The phases at a boundary: those being added, a load step during or just after a shed, the add rule, the guard
band (R347-R349). -/
def State.railPhaseStep (s : State) (r v : Nat) (i : Int) : State :=
  let s := s.phAdding r
  let s := if s.loadStep r v i && s.shedRecent r then s.shedAbort r else s
  (s.phAddRule r i).phPreadd r

/-- A boundary of a rail in service. (DESIGN CHOICE, log 52) -/
def State.railService (s : State) (r v : Nat) (i : Int) : State :=
  let s := ((s.railSettle r v).railRefStep r).railTakeCmd r
  let s := (s.railSwapDue r v).compRun r (railError (s.rail r).ref v)
  (s.railPhaseStep r v i).railBrake r v

/-- A boundary of a rail that starts or stops. -/
def State.railRamp (s : State) (r v : Nat) : State :=
  let s := s.rampStep r
  (s.railSwapDue r v).compRun r (railError (s.rail r).ref v)

/-- The rail has fewer healthy phases than MIN_PH (R353). -/
def State.railFew (s : State) (r : Nat) : Bool :=
  decide (s.rd (rf F.RAIL_STATUS_PHASES_OK r) < s.rd (rf F.RAIL_CFG_MIN_PH r))

/-- The rail switches or regulates. -/
def State.railUp (s : State) (r : Nat) : Bool := s.railState r == 1 || s.railState r == 2 || s.railState r == 3

/-- RAIL_PWM_PERIOD (R336): the measurements of the period, then what the rail's state does at the boundary; a rail with too
few healthy phases trips (R353). (DESIGN CHOICE, log 52) -/
def execRailPwmPeriod (rail : Fin 12) (vSense current temp : BitVec 16) (s : State) :
    Host.Outcome State Fault Refusal :=
  let v := vSense.toNat
  let i := current.toInt
  let s := s.railMeasure rail v i temp.toInt
  let s := if s.railUp rail && s.railFew rail then s.railTrip rail 6 2 0x2021
    else if s.railState rail = 2 then s.railService rail v i
    else if s.railState rail = 1 ∨ s.railState rail = 3 then s.railRamp rail v
    else s.railSwapDue rail v
  .next (s.setRail rail { s.rail rail with lastV := v, lastI := i })

/-- A coefficient word as it is stored: KF clamped to 0-1.0 (R362). -/
def compWord (kdf : Bool) (v : Word) : Word :=
  let kf := clampInt 0 q28 (bitsInt 32 (v.toNat % 2 ^ 32))
  if kdf then BitVec.ofNat 64 (v.toNat / 2 ^ 32 * 2 ^ 32 + kf.toNat) else v

/-- RAIL_COMP_WRITE (R344): the active compensator, or the open one while a swap is pending, rejects it; KF is clamped
to 0-1.0. -/
def execRailCompWrite (r : Req) (rail : Fin 12) (comp1 kdf : Bool) (value : BitVec 64) (s : State) :
    Host.Outcome State Fault Refusal :=
  let f := rf (match comp1, kdf with
    | false, false => F.RAIL_COMP0_KPI_KP | false, true => F.RAIL_COMP0_KDF_KD
    | true, false => F.RAIL_COMP1_KPI_KP | true, true => F.RAIL_COMP1_KDF_KD) rail
  let w := compWord kdf value
  .next (s.cmdHeld r f (s.reg f.key == value) (fun s =>
    if s.compActive rail == comp1 || s.on (rf F.RAIL_CTRL_SWAP rail) then
      (s.railEvent rail F.RAIL_EVENTS_COMP_REJECT).railReject rail
    else s.setReg f.key w))

/-- RAIL_SWAP (R345): pending until the next boundary; rejected when the open compensator holds KP = 0 and KI = 0. -/
def execRailSwap (r : Req) (rail : Fin 12) (s : State) : Host.Outcome State Fault Refusal :=
  .next (s.cmdAt r (rf F.RAIL_CTRL_SWAP rail) true (fun s =>
    let c := s.compCoef rail (!s.compActive rail)
    if c.kp = 0 ∧ c.ki = 0 then s.railReject rail else s.wr (rf F.RAIL_CTRL_SWAP rail) 1))

/-! ### Balance, shedding, guard, brakes (R346-R351) -/

/-- One phase's trim moves one step toward balance, within 30 steps; each 1,000 consecutive loops at a limit are 100 ms and
set BAL_LIMIT (R346). -/
def State.phTrim (s : State) (r n : Nat) (sum : Int) (p : Nat) : State :=
  let i := s.rdS (phf F.RAIL_PH_I r p) * n
  let t := s.rdS (phf F.RAIL_PH_TRIM r p)
  let t' := clampInt (-30) 30 (if sum < i then t - 1 else if i < sum then t + 1 else t)
  let s := s.wrS (phf F.RAIL_PH_TRIM r p) t'
  let u := s.rail r
  let c := if t' = 30 ∨ t' = -30 then Sparse.get (fun _ => 0) u.limits p + 1 else 0
  let s := s.setRail r { u with limits := Sparse.set (fun _ => 0) u.limits p (c % 1000) }
  if c = 1000 then s.err (railPage r) 1 else s

/-- The phase measurements of a balance period. -/
def State.phShow (s : State) (r : Nat) (currents temps : List (BitVec 16)) : State :=
  (List.range (railPhases r)).foldl (fun s p =>
    (s.wr (phf F.RAIL_PH_I r p) (currents.getD p 0).toNat).wr (phf F.RAIL_PH_TEMP r p) (temps.getD p 0).toNat) s

/-- The shed rule of R347 over the 100 µs that end: one shed in 50 µs, of the ON phase that has been on longest. -/
def State.shedRule (s : State) (r n : Nat) (sum : Int) : State :=
  let u := s.rail r
  let spaced := match u.shedStart with | some t => decide (t + 12500 ≤ s.now) | none => true
  if s.railState r == 2 && s.on (rf F.RAIL_SHED_SHED_EN r) && s.shedFree r && spaced
      && decide (s.rd (rf F.RAIL_CFG_MIN_PH r) < n) && decide (sum < (10 * n * s.rd (rf F.RAIL_SHED_SHED_A r) : Nat)) then
    match u.onOrder.getLast? with
    | some p => s.shedStart r p
    | none => s
  else s

/-- PHASE_BALANCE (R346, R347): `currents` and `temps` are each phase's mean current and its temperature over the
100 µs. (DESIGN CHOICE, log 52) -/
def execPhaseBalance (rail : Fin 12) (currents temps : List (BitVec 16)) (s : State) :
    Host.Outcome State Fault Refusal :=
  let s := s.phShow rail currents temps
  let on := s.phIn rail 1
  let sum := (on.map (fun p => s.rdS (phf F.RAIL_PH_I rail p))).foldl (· + ·) 0
  let s := if s.on (rf F.RAIL_STATUS_BRAKING rail) then s
    else on.foldl (fun s p => s.phTrim rail on.length sum p) s
  .next (s.shedRule rail on.length sum)

/-- SHED_COMPLETE (R347): the shed's switches turn off; a brake pauses the shed (R350). -/
def execShedComplete (rail : Fin 12) (s : State) : Host.Outcome State Fault Refusal :=
  let u := s.rail rail
  match u.shed with
  | some p =>
    if s.on (rf F.RAIL_STATUS_BRAKING rail) then .next s
    else .next ((s.wr (phf F.RAIL_PH_STATE rail p) 0).setRail rail { u with shed := none, shedEnd := some (s.now, p) })
  | none => .next s

/-- SHED_INHIBIT_END (R348). -/
def execShedInhibitEnd (rail : Fin 12) (s : State) : Host.Outcome State Fault Refusal :=
  .next (s.wr (rf F.RAIL_STATUS_SHED_INH rail) 0)

/-- GUARD_PREADD (R349): the guard band begins, in which no shed starts; with PREADD_EN every healthy phase is added, up to
12 at once and the rest at the boundaries that follow. -/
def execGuardPreadd (rail : Fin 12) (s : State) : Host.Outcome State Fault Refusal :=
  .next (if s.railState rail = 2 then s.phPreadd rail else s)

/-- BRAKE_END (R351): normal PWM resumes, and a swap that waited hands over (R345). -/
def execBrakeEnd (rail : Fin 12) (s : State) : Host.Outcome State Fault Refusal :=
  if s.on (rf F.RAIL_STATUS_BRAKING rail) then
    let s := s.wr (rf F.RAIL_STATUS_BRAKING rail) 0
    .next (s.railSwapDue rail (s.rd (rf F.RAIL_MEAS_V rail)))
  else .next s

/-- BRAKE_REARM (R351). -/
def execBrakeRearm (rail : Fin 12) (s : State) : Host.Outcome State Fault Refusal :=
  if s.on (rf F.RAIL_STATUS_BRAKING rail) then .next s
  else .next (s.setRail rail { s.rail rail with armed := true })

/-! ### Remote sense (R352) -/

/-- A reference above SAFE moves down to it at 1 mV/µs, and one below it goes no higher (R352). (DESIGN CHOICE, log 52) -/
def State.railToSafe (s : State) (r safe : Nat) : State :=
  let u := s.rail r
  if safe < u.goal then
    (s.setRail r { u with goal := safe, step := if safe < u.ref then 10 else u.step }).railShow r
  else s

/-- SENSE_LOST (R352): local sense, with a rail fault's record and DETAIL (R359, R360). -/
def execSenseLost (rail : Fin 12) (s : State) : Host.Outcome State Fault Refusal :=
  if s.railUp rail && !s.on (rf F.RAIL_STATUS_SENSE_LOCAL rail) then
    let s := s.wr (rf F.RAIL_STATUS_SENSE_LOCAL rail) 1
    let s := ((s.err (railPage rail) 3).event (railPage rail) 0x2010).railLastFault rail 4 0
    let s := { s with railSys := { s.railSys with faultAt := some s.now } }
    .next (s.railToSafe rail (5 * s.rd (rf F.RAIL_LIMIT_SAFE rail)))
  else .next s

/-- RAIL_SENSE_RETRY (R352). -/
def execRailSenseRetry (r : Req) (rail : Fin 12) (s : State) : Host.Outcome State Fault Refusal :=
  .next (s.cmdAt r (rf F.RAIL_CTRL_SENSE_RETRY rail) true (fun s => s.wr (rf F.RAIL_CTRL_SENSE_RETRY rail) 1))

/-- SENSE_RETRY_RESULT (R352): remote sense returns when both lines read within the window for 1 ms. -/
def execSenseRetryResult (rail : Fin 12) (good : Bool) (s : State) : Host.Outcome State Fault Refusal :=
  if s.on (rf F.RAIL_CTRL_SENSE_RETRY rail) then
    let s := s.wr (rf F.RAIL_CTRL_SENSE_RETRY rail) 0
    .next (if good then s.wr (rf F.RAIL_STATUS_SENSE_LOCAL rail) 0 else s)
  else .next s

/-! ### Protections and fences (R353-R355) -/

/-- RAIL_OV (R353). -/
def execRailOv (rail : Fin 12) (s : State) : Host.Outcome State Fault Refusal :=
  .next (if s.railUp rail then s.railTrip rail 7 1 0x2020 else s)

/-- RAIL_UV (R353): in REGULATING, or with fewer healthy phases than MIN_PH. -/
def execRailUv (rail : Fin 12) (s : State) : Host.Outcome State Fault Refusal :=
  .next (if s.railState rail == 2 || (s.railUp rail && s.railFew rail) then s.railTrip rail 6 2 0x2021 else s)

/-- RAIL_OC (R353). -/
def execRailOc (rail : Fin 12) (s : State) : Host.Outcome State Fault Refusal :=
  .next (if s.railUp rail then s.railTrip rail 5 3 0x2024 else s)

/-- PHASE_PEAK_LIMIT (R353): the sixteenth consecutive cycle that ends early fences the phase. (DESIGN CHOICE, log 49) -/
def execPhasePeakLimit (rail : Fin 12) (phase : Fin 48) (consecutive : Bool) (s : State) :
    Host.Outcome State Fault Refusal :=
  if railPhases rail ≤ phase ∨ s.on (phf F.RAIL_PH_FENCE rail phase) then .next s
  else
    let u := s.rail rail
    let n := if consecutive then Sparse.get (fun _ => 0) u.peaks phase + 1 else 1
    let s := s.setRail rail { u with peaks := Sparse.set (fun _ => 0) u.peaks phase (if 16 ≤ n then 0 else n) }
    .next (if 16 ≤ n then (s.event (railPage rail) 0x2023).phFence rail phase (some 5) else s)

/-- PHASE_OT_FENCE (R353). -/
def execPhaseOtFence (rail : Fin 12) (phase : Fin 48) (s : State) : Host.Outcome State Fault Refusal :=
  if railPhases rail ≤ phase ∨ s.on (phf F.RAIL_PH_FENCE rail phase) then .next s
  else .next ((s.event (railPage rail) 0x2022).phFence rail phase (some 6))

/-- A fenced phase returns to service, OFF until it is added (R354). -/
def State.phReturn (s : State) (r p : Nat) : State :=
  if s.on (phf F.RAIL_PH_FENCE r p) then
    ((s.wr (phf F.RAIL_PH_FENCE r p) 0).wr (phf F.RAIL_PH_STATE r p) 0).phHealthy r
  else s

/-- RAIL_PH_FENCE_WRITE (R354); a phase beyond the rail's count ignores it (R362). -/
def execRailPhFenceWrite (r : Req) (rail : Fin 12) (phase : Fin 48) (fence : Bool) (s : State) :
    Host.Outcome State Fault Refusal :=
  .next (s.cmdHeld r (phf F.RAIL_PH_FENCE rail phase) (s.on (phf F.RAIL_PH_FENCE rail phase) == fence) (fun s =>
    if railPhases rail ≤ phase then s
    else if fence then s.phFence rail phase none else s.phReturn rail phase))

/-- The gate of a sense check (R355). -/
def State.checkGate (s : State) : Bool :=
  !s.on F.RAIL_SYS_CTRL_TEST_GATE || bitOf s.phase.testOpen 1 || s.on F.RAIL_SYS_CTRL_SELFTEST_FORCE

/-- SENSE_CHECK_START (R355): one phase of one rail at a time, shed under R347, R349 and R350; a phase that reads below
2 A is skipped. -/
def execSenseCheckStart (rail : Fin 12) (phase : Fin 48) (s : State) : Host.Outcome State Fault Refusal :=
  let i := s.rdS (phf F.RAIL_PH_I rail phase)
  if s.rd F.RAIL_SYS_TEST_PERIOD_S != 0 && s.checkGate && s.railState rail == 2 && s.shedFree rail
      && allRails.all (fun r => (s.rail r).test.isNone) && s.phState rail phase == 1 && decide (200 ≤ i)
      && decide (s.rd (rf F.RAIL_CFG_MIN_PH rail) < (s.phIn rail 1).length) then
    let s := s.phLeave rail phase 4
    let s := s.setRail rail { s.rail rail with test := some (phase.val, i) }
    .next ((s.wr F.RAIL_SYS_TEST_RAIL rail).wr F.RAIL_SYS_TEST_PHASE phase)
  else .next s

/-- SENSE_CHECK_RESULT (R355): `rise` is the rise in the other phases' summed current, signed 0.01 A. A difference above
5 % of the reading plus 1 A fails; two consecutive failures fence the phase. -/
def execSenseCheckResult (rail : Fin 12) (rise : BitVec 16) (s : State) : Host.Outcome State Fault Refusal :=
  let u := s.rail rail
  match u.test with
  | none => .next s
  | some (p, reading) =>
    let bad := decide (reading + 2000 < 20 * ((rise.toInt - reading).natAbs : Int))
    let n := if bad then Sparse.get (fun _ => 0) u.fails p + 1 else 0
    let s := s.setRail rail { u with test := none, fails := Sparse.set (fun _ => 0) u.fails p (if 2 ≤ n then 0 else n) }
    let s := if bad then s.err (railPage rail) 4 else s
    .next (if 2 ≤ n then (s.event (railPage rail) 0x2025).phFence rail p (some 7) else s.phAdd rail p)

/-! ### Start and stop (R356-R358) -/

/-- A rail has PGOOD. -/
def State.pgood (s : State) (r : Nat) : Bool := bitOf (s.rd F.RAIL_SYS_STATUS_PGOOD) r

/-- RAIL_START_STAGE (R357): stage 0 at step 5 of start-up, another once every rail of the stage before has PGOOD.
(DESIGN CHOICE, log 52) -/
def execRailStartStage (stage : Fin 4) (s : State) : Host.Outcome State Fault Refusal :=
  let due := if stage.val = 0 then s.railSys.seq == 0 && s.rd F.SYS_BOOT_STEP == 5
    else s.railSys.seq == 1 && s.rd F.RAIL_SYS_STATUS_STAGE + 1 == stage.val
      && (s.stageRails (stage.val - 1)).all s.pgood
  if due then
    let s := ({ s with railSys := { s.railSys with seq := 1 } }).wr F.RAIL_SYS_STATUS_SEQ_BUSY 1
    let s := s.wr F.RAIL_SYS_STATUS_STAGE stage
    .next ((s.stageRails stage).foldl (fun s r => if s.railState r = 0 then s.railStart r else s) s)
  else .next s

/-- PGOOD_SET (R342, R356, R357): the rail regulates, a held command becomes its target; with the last rail the start
ends. -/
def execPgoodSet (rail : Fin 12) (s : State) : Host.Outcome State Fault Refusal :=
  let tgt := s.railTarget rail
  if s.railState rail = 1 ∧ (s.rail rail).ref = tgt ∧ 95 * tgt ≤ 500 * s.rd (rf F.RAIL_MEAS_V rail) then
    let s := (s.setBit F.RAIL_SYS_STATUS_PGOOD rail).wr (rf F.RAIL_STATUS_STATE rail) 2
    let u := s.rail rail
    let s := s.setRail rail { u with goal := u.ref, cmd := u.held, held := none }
    if allRails.all s.pgood then
      let s := { s with railSys := { s.railSys with seq := 0 } }
      .next (((s.wr F.RAIL_SYS_STATUS_ALL_PGOOD 1).wr F.RAIL_SYS_STATUS_SEQ_BUSY 0).event 0x48 0x2040)
    else .next s
  else .next s

/-- Every rail of a stage is below 10 % of its target (R358). -/
def State.stageLow (s : State) (stage : Nat) : Bool :=
  (s.stageRails stage).all (fun r => s.railState r == 0 || s.railState r == 4
    || decide (50 * s.rd (rf F.RAIL_MEAS_V r) < s.railTarget r))

/-- RAIL_STOP_STAGE (R358): stage 3 first, another once every rail of the stage before it is low. -/
def execRailStopStage (stage : Fin 4) (s : State) : Host.Outcome State Fault Refusal :=
  let due := s.railSys.seq == 2 && (stage.val == 3 || (s.rd F.RAIL_SYS_STATUS_STAGE == stage.val + 1
    && s.stageLow (stage.val + 1)))
  if due then
    let s := s.wr F.RAIL_SYS_STATUS_STAGE stage
    let s := (s.stageRails stage).foldl State.railStopOne s
    if stage.val = 0 ∧ allRails.all (fun r => s.railState r == 0 || s.railState r == 4) then
      .next (({ s with railSys := { s.railSys with seq := 0 } }).wr F.RAIL_SYS_STATUS_SEQ_BUSY 0)
    else .next s
  else .next s

/-! ### Records (R359, R360) -/

/-- LAST_FAULT_FLASH_WRITE (R360). -/
def execLastFaultFlashWrite (s : State) : Host.Outcome State Fault Refusal :=
  if s.railSys.lfDirty then
    .next { s with railSys := { s.railSys with lfFlash := lfKeys.map s.reg, lfDirty := false } }
  else .next s

/-- RAIL_LF_CLEAR (R360): the record goes from SRAM and flash. -/
def execRailLfClear (r : Req) (s : State) : Host.Outcome State Fault Refusal :=
  .next (s.cmdAt r F.RAIL_LF_CMD_CLEAR true (fun s =>
    let s := lfKeys.foldl (fun s k => s.setReg k 0) s
    { s with railSys := { s.railSys with lfFlash := [0, 0, 0, 0], lfDirty := false } }))

/-- RAIL_PEAK_CLR (R359): every rail's held peaks start again with its next sample. -/
def execRailPeakClr (r : Req) (s : State) : Host.Outcome State Fault Refusal :=
  .next (s.cmdAt r F.RAIL_SYS_CTRL_PEAK_CLR false (fun s =>
    allRails.foldl (fun s x => s.setRail x { s.rail x with peakOn := false }) s))

end Sys2Proof.Machine
end

