-- ==== Sys2Proof/Machine/Hang.lean ====
section
/-! DEFINITION. The hang unit: the wait-for graph, cycles and orphans (R456-R460). A counter is named by its number, a tile
counter by 2^17 plus its INDEX of R169. -/

namespace Sys2Proof.Machine

/-! ### The graph (R456, R457) -/

/-- The counter that the head item of a waiting context awaits. -/
def State.headAwaits (s : State) (c : Nat) : List Nat :=
  match (s.ctx c).wait with
  | some w =>
    if w.kind = 1 then
      let i := s.headPeek c
      if itemKind i = 0x81 then [i.getD 2 0 % 2 ^ 17] else if s.signalRemote (i.getD 1 0) then [] else [i.getD 1 0 % 2 ^ 17]
    else []
  | none => []

/-- What a waiting context awaits: the counter of its head item, and the tile counters that its programs wait on.
(DESIGN CHOICE, log 59) -/
def State.awaits (s : State) (c : Nat) : List Nat :=
  let f := s.partFrond (s.ctx c).part
  s.headAwaits c ++ ((s.ctx c).tiles.flatMap (fun p =>
    (s.tileAwaits f p).map (fun n => 2 ^ 17 + tcIndex f (s.logicalOf f p) n))).eraseDups

/-- The value of a counter of the graph. -/
def State.awaitValue (s : State) (k : Nat) : Nat :=
  if k < 2 ^ 17 then s.counter k
  else
    let f := Frond.at (k / 2 ^ 11 % 2)
    match s.physOf f (k / 16 % 128) with
    | some p => s.rd (tcnt f p (k % 16))
    | none => 0

/-- An item's signal goes to a counter of this module (R209). -/
def State.itemSignals (s : State) (k : Nat) (w : List Nat) : Bool :=
  let w1 := w.getD 1 0
  let kind := itemKind w
  let adds := kind == 0x80 || (decide (1 ≤ kind) && decide (kind ≤ 8))
    || (kind == 0x82 && decide (w.headD 0 / 2 ^ 56 % 4 ≤ 1))
  adds && w1 / 2 ^ 30 % 4 == 1 && !s.signalRemote w1 && w1 % 2 ^ 17 == k

/-- Context `c` produces signal counter `k`: registered, or by an item accepted and not yet signalled or discarded. -/
def State.produces (s : State) (k c : Nat) : Bool :=
  let x := s.ctx c
  x.prods.any (fun e => e.2 == 2 ^ 17 + k) || x.outstanding.any (fun o => s.itemSignals k o.words)
    || (List.range x.count).any (fun i => s.itemSignals k (s.itemPeek c (x.head + i)))

/-- The contexts that own queued or running descriptors whose signal names a tile counter by its INDEX. -/
def State.tileProducers (s : State) (idx : Nat) : List Nat :=
  let all := s.ring.engines.flatMap (fun e => e.2.queue ++ (match e.2.running with | some d => [d] | none => []))
  let all := all ++ s.work.passed.map (·.2)
  (all.filter (fun d => let w1 := d.w 1
    w1 / 2 ^ 30 % 4 == 2 && !s.signalRemote w1 && w1 % 2 ^ 12 == idx)).map (·.ctx)

/-- The producers of a counter that can still dispatch: IDLE, READY, RUNNING or WAITING; none for an EXTERNAL one. -/
def State.liveProducers (s : State) (k : Nat) : List Nat :=
  let l := if k < 2 ^ 17 then (if s.counterExt k then [] else s.ctxIds.filter (s.produces k))
    else (s.tileProducers (k % 2 ^ 12)).eraseDups
  l.filter (fun c => decide (1 ≤ s.ctxState c) && decide (s.ctxState c ≤ 4))

/-! ### Since when a context waits (R458) -/

def State.waitSeen (s : State) (c : Nat) : WaitSeen := Sparse.get (fun _ => ⟨[], 0, 0, 0⟩) s.hang.waits c

/-- A wait of a context goes on, has changed, or is over; called before every advance of time and at every scan. -/
def State.waitTrack1 (s : State) (c : Nat) : State :=
  let a := s.awaits c
  let old := s.waitSeen c
  let h := (s.ctx c).head
  let new : WaitSeen :=
    if s.ctxState c != 4 then ⟨[], 0, 0, 0⟩
    else ⟨a, if old.awaits = a && old.since != 0 then old.since else s.now + 1, h,
      if old.head = h && old.entered != 0 then old.entered else s.now + 1⟩
  { s with hang := { s.hang with waits := Sparse.set (fun _ => ⟨[], 0, 0, 0⟩) s.hang.waits c new } }

def State.waitTrack (s : State) : State := s.ctxIds.foldl State.waitTrack1 s

/-- When the present wait of a context began. -/
def State.waitSince (s : State) (c : Nat) : Nat := (s.waitSeen c).since

/-! ### Cycles (R458) -/

/-- Nodes reached from `seen` along edges, within `fuel` steps. -/
def hangReach (g : List (Nat × List Nat)) : Nat → List Nat → List Nat
  | 0, seen => seen
  | fuel + 1, seen =>
    let more := ((g.filter (fun e => seen.contains e.1)).flatMap (·.2)).eraseDups.filter (fun c => !seen.contains c)
    if more = [] then seen else hangReach g fuel (seen ++ more)

/-- The members of the cycle that runs through node `n`, ascending; empty when none does. (DESIGN CHOICE, log 59) -/
def hangCycle (g : List (Nat × List Nat)) (n : Nat) : List Nat :=
  let from_ := fun c => hangReach g g.length ((g.filter (fun e => e.1 == c)).flatMap (·.2))
  let r := from_ n
  if r.contains n then (g.map (·.1)).filter (fun m => r.contains m && (from_ m).contains n) else []

/-- The cycles among the covered contexts, each named by its lowest member. (DESIGN CHOICE, log 59) -/
def hangCycles (g : List (Nat × List Nat)) : List (List Nat) :=
  (g.map (fun e => (e.1, hangCycle g e.1))).filterMap (fun e => if e.2 != [] && e.2.foldl min e.1 == e.1 then some e.2 else none)

/-- A cycle as a scan sees it: each member with a counter through which it waits for a member, and the values of all. -/
def State.cycleSeen (s : State) (members : List Nat) : HangSeen :=
  let via := fun c => (s.awaits c).filter (fun k => (s.liveProducers k).any (fun d => members.contains d))
  let ks := (members.flatMap via).eraseDups
  ⟨members.map (fun c => (c, (via c).headD 0)), ks.map (fun k => (k, s.awaitValue k)), s.now⟩

/-- The cycle goes on from an earlier scan: the same members and counter values. -/
def State.cycleKeep (s : State) (x : HangSeen) : HangSeen :=
  match s.hang.cycles.find? (fun y => y.members.map (·.1) == x.members.map (·.1) && y.values == x.values) with
  | some y => { x with since := y.since }
  | none => x

/-- Of two members the one whose wait began later, the first on a tie. -/
def guiltier (s : State) (best : Option Nat) (c : Nat) : Option Nat :=
  match best with
  | none => some c
  | some b => if s.waitSince b < s.waitSince c then some c else some b

/-- A member of a cycle, by the words of HANG_RPT and HANG_MEMBER_n. -/
def State.memberWord (s : State) (c k : Nat) : Nat := c * 2 ^ 48 + (s.ctx c).gen * 2 ^ 40 + k % 2 ^ 17

/-- HANG_REPORT (R458). (DESIGN CHOICE, log 59) -/
def State.hangReport (s : State) (x : HangSeen) : State :=
  let ids := x.members.map (·.1)
  let guilty := (ids.foldl (guiltier s) none).getD 0
  let others := (x.members.filter (fun e => e.1 != guilty)).take 15
  let n := ids.length
  let k := (x.members.find? (fun e => e.1 == guilty)).elim 0 (·.2)
  let rpt := s.memberWord guilty k + min 16 n * 2 ^ 35 + b2n (decide (16 < n)) * 2 ^ 34
  let s := (List.range others.length).foldl (fun s i =>
    let e := others.getD i (0, 0)
    s.setReg (F.HANG_MEMBER_CTX.i i).key (BitVec.ofNat 64 (s.memberWord e.1 e.2))) s
  let s := (s.setReg F.HANG_RPT_GUILTY.key (BitVec.ofNat 64 rpt)).wr F.HANG_TIME_TIME s.now
  let s := { s with hang := { s.hang with toldCycles := (ids, s.now + 1) :: s.hang.toldCycles } }
  ((s.wr F.HANG_STATUS_HANG 1).err 0x83 0).event 0x83 0x9020

/-! ### Orphans (R459) -/

/-- The orphaned waits of the covered contexts. -/
def State.orphanSeen (s : State) (cs : List Nat) : List OrphanSeen :=
  cs.flatMap (fun c => ((s.awaits c).filter (fun k =>
    !(decide (k < 2 ^ 17) && s.counterExt k) && s.liveProducers k == [])).map (fun k => ⟨c, k, s.awaitValue k, s.now⟩))

def State.orphanKeep (s : State) (x : OrphanSeen) : OrphanSeen :=
  match s.hang.orphans.find? (fun y => y.ctx == x.ctx && y.counter == x.counter && y.value == x.value) with
  | some y => { x with since := y.since }
  | none => x

/-- ORPHAN_REPORT (R459). (DESIGN CHOICE, log 59) -/
def State.orphanReport (s : State) (x : OrphanSeen) : State :=
  let rpt := s.memberWord x.ctx x.counter + 1 * 2 ^ 35 + 1 * 2 ^ 32
  let s := (s.setReg F.HANG_RPT_GUILTY.key (BitVec.ofNat 64 rpt)).wr F.HANG_TIME_TIME s.now
  let s := { s with hang := { s.hang with toldOrphans := (x.ctx, x.counter, s.now + 1) :: s.hang.toldOrphans } }
  ((s.wr F.HANG_STATUS_ORPHAN 1).err 0x83 1).event 0x83 0x9021

/-! ### A scan (R456-R460) -/

/-- A report stands while every member has not left WAITING; a wait of another item counts as another. (DESIGN CHOICE,
log 59) (DESIGN CHOICE, log 59) -/
def State.stillWaits (s : State) (at_ c : Nat) : Bool := s.ctxState c == 4 && decide ((s.waitSeen c).entered ≤ at_)

/-- The waiting contexts that a scan covers, from `next` on, and whether some were left out. -/
def State.covered (s : State) : List Nat × Bool :=
  let w := s.ctxIds.filter (fun c => s.ctxState c == 4)
  let l := w.filter (fun c => decide (s.hang.next ≤ c)) ++ w.filter (fun c => decide (c < s.hang.next))
  (l.take 4096, decide (4096 < l.length))

/-- HANG_SCAN (R456-R460). (DESIGN CHOICE, log 59) -/
def execHangScan (s : State) : Host.Outcome State Fault Refusal :=
  if !s.on F.HANG_CFG_EN || s.chipReset then .next s
  else
    let s := s.waitTrack
    let cs := s.covered
    let g := cs.1.map (fun c => (c, ((s.awaits c).flatMap s.liveProducers).eraseDups))
    let cycles := (hangCycles g).map (fun m => s.cycleKeep (s.cycleSeen m))
    let orphans := (s.orphanSeen cs.1).map s.orphanKeep
    let toldC := s.hang.toldCycles.filter (fun e => e.1.all (fun c => s.stillWaits e.2 c))
    let toldO := s.hang.toldOrphans.filter (fun e => s.stillWaits e.2.2 e.1)
    let next := if cs.2 then (cs.1.getLastD 0 + 1) % 65536 else 0
    let s := { s with hang := { s.hang with
      cycles := cycles, orphans := orphans, toldCycles := toldC, toldOrphans := toldO, next := next } }
    let s := ((s.inc F.HANG_STATUS_SCANS).wrSat F.HANG_STATUS_WAITING cs.1.length).wr F.HANG_STATUS_TRUNC (b2n cs.2)
    let late := fun (since ms : Nat) => decide (ms * 250000 ≤ s.now - since)
    let s := (cycles.filter (fun x => late x.since (s.rd F.HANG_CFG_PERSIST_MS)
      && !toldC.any (fun e => e.1 == x.members.map (·.1)))).foldl State.hangReport s
    let ms := s.rd F.HANG_CFG_ORPHAN_MS
    .next ((orphans.filter (fun x => ms != 0 && late x.since ms
      && !toldO.any (fun e => e.1 == x.ctx && e.2.1 == x.counter))).foldl State.orphanReport s)

end Sys2Proof.Machine
end

