-- ==== Sys2Proof/Machine/Resets.lean ====
section
/-! DEFINITION. The commands of the recovery steps, the crash dump and the tray controller, but for the phases of a chip
reset (R461-R478). -/

namespace Sys2Proof.Machine

/-! ### Step 1 (R462) -/

/-- CTX_RESET (R202, R462): RESET on a context that is not FREE. -/
def execCtxReset (r : Req) (s : State) : Host.Outcome State Fault Refusal :=
  .next (s.cmdAt r F.CTX_CMD_CMD false (fun s =>
    let c := s.sel r F.CTX_SEL_ID.key % 65536
    if (s.ctx c).alloc then s.ctxReset c 0 else s.err 0x20 2))

/-- Every tile has left the context's programs. -/
def State.ctxReleased (s : State) (c : Nat) : Bool := s.tilesOf .A c == [] && s.tilesOf .B c == []

/-- CONTEXT_RESET_COMPLETE (R462): a partition reset completes its contexts itself. -/
def execContextResetComplete (ctx : BitVec 16) (s : State) : Host.Outcome State Fault Refusal :=
  let c := ctx.toNat
  .next (if (s.ctx c).resetting && s.ctxReleased c && s.partState (s.ctx c).part != 4
    then (s.ctxResetEnd c).buildRetry else s)

/-- CONTEXT_RESET_TILE_TIMEOUT (R462, R467): the partition is reset. -/
def execContextResetTileTimeout (ctx : BitVec 16) (s : State) : Host.Outcome State Fault Refusal :=
  let c := ctx.toNat
  .next (if (s.ctx c).resetting && !s.ctxReleased c
    then s.stepFail 1 c (fun s => s.partReset (s.ctx c).part 2) else s)

/-! ### Step 2 (R464) -/

/-- RST_CMD_ENGINE (R464, R469): TARGET [15] names the frond, [5:0] the instance. -/
def execRstCmdEngine (r : Req) (target : BitVec 16) (s : State) : Host.Outcome State Fault Refusal :=
  .next (s.cmdAt r F.RST_CMD_CMD false (fun s =>
    let n := target.toNat % 64
    if n < 44 && decide (s.rd F.RST_STATUS_STEP ≤ 3) then s.engReset (Frond.at (target.toNat / 2 ^ 15)) n 0 else s))

/-- The engine serves a partition that is in reset, which completes its engines itself. -/
def State.engInPartReset (s : State) (f : Frond) (n : Nat) : Bool :=
  s.on (ef F.ENG_STATUS_PART_VALID f n) && s.partState (s.rd (ef F.ENG_STATUS_PART f n)) == 4

/-- ENGINE_RESET_COMPLETE (R464). -/
def execEngineResetComplete (f : Frond) (n : Fin 44) (s : State) : Host.Outcome State Fault Refusal :=
  .next (if s.engInPartReset f n.val then s else s.engResetEnd f n.val)

/-- ENGINE_RESET_TIMEOUT (R464, R467): the engine is fenced. -/
def execEngineResetTimeout (f : Frond) (n : Fin 44) (s : State) : Host.Outcome State Fault Refusal :=
  .next (if s.rd (ef F.ENG_STATUS_STATE f n.val) = 3
    then s.stepFail 2 (f.idx * 2 ^ 15 + n.val) (fun s => s.engFence f n.val) else s)

/-! ### Step 3 (R465) -/

/-- RST_CMD_PARTITION (R465, R469). -/
def execRstCmdPartition (r : Req) (target : BitVec 16) (s : State) : Host.Outcome State Fault Refusal :=
  .next (s.cmdAt r F.RST_CMD_CMD false (fun s =>
    if target.toNat < 64 then s.partReset target.toNat 0 else s))

/-- A tile of a partition in reset is idle: no program, TSEQ_STATUS and TSEQ_WAIT at Reset, empty queues, counters at 0,
banks invalid (R465, R473). -/
def State.tileAfresh (s : State) (f : Frond) (p : Nat) : State :=
  ((((s.tileFlush f p).tileIdle f p).wr (tf F.TSEQ_STATUS_PC f p) 0).tcClear f p).updTile f p (fun u => { u with bankValid := 0 })

/-- The end of a partition reset. -/
def State.partResetEnd (s : State) (p : Nat) : State := (s.stepClose 3 p false).event 0x82 0x9032

/-- PARTITION_RESET_COMPLETE (R465): contexts, engines and tiles are reset and the partition is rebuilt; a rebuild that waits
for a spare's calibration ends the reset later. -/
def execPartitionResetComplete (p : Fin 64) (s : State) : Host.Outcome State Fault Refusal :=
  let q := p.val
  if s.partState q = 4 ∧ Sparse.get (fun _ => 0) s.work.building q = 0 then
    let f := s.partFrond q
    let s := (s.partCtxs q).foldl (fun s c => s.ctxResetEnd c) s
    let s := (s.partEngs q).foldl (fun s n => s.engResetEnd f n) s
    let s := (s.partPhys q).foldl (fun s t => s.tileAfresh f t) s
    let s := s.partSteps q 2
    .next (if s.partState q = 2 then s.partResetEnd q else s)
  else .next (if s.partState q = 2 && (s.stepOf 3 q).isSome then s.partResetEnd q else s)

/-! ### Steps 4 and 5 (R466, R478) -/

/-- RST_CMD_CHIP (R466, R467). -/
def execRstCmdChip (r : Req) (s : State) : Host.Outcome State Fault Refusal :=
  .next (s.cmdAt r F.RST_CMD_CMD true (fun s => s.chipRequest 0))

/-- RST_CMD_POWER_CYCLE (R478). -/
def execRstCmdPowerCycle (r : Req) (s : State) : Host.Outcome State Fault Refusal :=
  .next (s.cmdAt r F.RST_CMD_CMD true (fun s => s.powerCycle 0 3 false))

/-- RECOVERY_STEP_OVERRUN (R467). -/
def execRecoveryStepOverrun (step : BitVec 3) (target : BitVec 16) (s : State) : Host.Outcome State Fault Refusal :=
  let n := step.toNat
  let t := target.toNat
  if (s.stepOf n t).isNone then .next s
  else
    .next (match n with
      | 1 => s.stepFail 1 t (fun s => s.partReset (s.ctx t).part 2)
      | 2 => s.stepFail 2 t (fun s => s.engFence (Frond.at (t / 2 ^ 15)) (t % 64))
      | 3 => s.stepFail 3 t (fun s => s.chipRequest 2)
      | 4 => s.stepFail 4 t (fun s => s.powerCycle 2 3 false)
      | _ => s)

/-- POWER_CYCLE_IBI (R478): sent in STANDBY until acknowledged; 0x9035 once for a request. -/
def execPowerCycleIbi (s : State) : Host.Outcome State Fault Refusal :=
  if s.on F.MCOL_STATUS_PC_REQ && s.mode == 0 && s.power.stopPhase == 0 && !s.on F.RST_TRAY_PC_ACKED then
    let s := s.ibi 2
    .next (if s.rst.pcTold then s else { s with rst := { s.rst with pcTold := true } }.event 0x82 0x9035)
  else .next s

/-! ### The tray controller (R477) -/

/-- A private write is received: LAST_CMD, and the PIC's source 44 pulses (R482). -/
def State.trayWrite (s : State) (cmd : Nat) : State := (s.wr F.RST_TRAY_LAST_CMD cmd).irqPulse .pic 44

/-- TRAY_STOP (R325, R477). -/
def execTrayStop (s : State) : Host.Outcome State Fault Refusal := .next ((s.trayWrite 0x10).stopBegin 4 false)

/-- TRAY_CHIP_RESET (R477). -/
def execTrayChipReset (s : State) : Host.Outcome State Fault Refusal := .next ((s.trayWrite 0x11).chipRequest 4)

/-- TRAY_PC_ACK (R477, R478). -/
def execTrayPcAck (s : State) : Host.Outcome State Fault Refusal :=
  let s := s.trayWrite 0x12
  .next (if s.on F.MCOL_STATUS_PC_REQ then s.wr F.RST_TRAY_PC_ACKED 1 else s)

/-- TRAY_FAULT_RELEASE (R450, R477). -/
def execTrayFaultRelease (s : State) : Host.Outcome State Fault Refusal := .next (s.trayWrite 0x13).pinRelease

/-- The byte that STATUS reads. -/
def State.trayStatus (s : State) : Nat :=
  s.rd F.MCOL_STATUS_FE * 128 + b2n (s.fencedUnits != 0) * 64 + s.rd F.PWR_STATUS_STOPPING * 32
    + s.rd F.MCOL_STATUS_PC_REQ * 16 + s.rd F.MCOL_STATUS_ALIVE_RUN * 8 + s.mode

/-- TRAY_READ_STATUS (R477). -/
def execTrayReadStatus (s : State) : Host.Outcome State Fault Refusal := .next (s.put (.answer true false [s.trayStatus]))

/-- TRAY_READ_MFS (R477). -/
def execTrayReadMfs (s : State) : Host.Outcome State Fault Refusal :=
  .next (s.put (.answer true false (leBytes 4 (s.rd F.MFS_SRC))))

/-! ### Crash dump (R475) -/

/-- DUMP_CAPTURE (R475). -/
def execDumpCapture (r : Req) (s : State) : Host.Outcome State Fault Refusal :=
  .next (s.cmdAt r F.DUMP_CMD_CAPTURE false (fun s => s.dumpCapture (s.rd F.RST_LAST_CAUSE) (s.rd F.RST_STATUS_STEP)))

/-- DUMP_CAPTURE_DONE (R475): the SRAM copy is there, and its flush begins. -/
def execDumpCaptureDone (s : State) : Host.Outcome State Fault Refusal :=
  match s.dump.taking with
  | none => .next s
  | some d =>
    let s := { s with dump := { s.dump with taking := none, sram := some d } }
    .next ((s.wr F.DUMP_STATUS_BUSY 0).wr F.DUMP_STATUS_SRAM_VALID 1).dumpFlush

/-- DUMP_FLASH_WRITE_DONE (R475): the oldest slot takes the dump; a failed write leaves that slot invalid. -/
def execDumpFlashWriteDone (ok : Bool) (s : State) : Host.Outcome State Fault Refusal :=
  if !s.on F.DUMP_STATUS_FLUSHING then .next s
  else
    let k := s.dumpOldest
    let s := (s.wr F.DUMP_STATUS_FLUSHING 0).dumpSetSlot k (if ok then s.dump.sram else none)
    .next (if ok then s else s.err 0x84 0)

/-- DUMP_FLUSH (R475). -/
def execDumpFlush (r : Req) (s : State) : Host.Outcome State Fault Refusal :=
  .next (s.cmdAt r F.DUMP_CMD_FLUSH false (fun s => s.dumpFlush))

/-- DUMP_ERASE (R479): all flash slots; L0 only. -/
def execDumpErase (r : Req) (s : State) : Host.Outcome State Fault Refusal :=
  .next (s.cmdAt r F.DUMP_CMD_ERASE true (fun s => [1, 2, 3, 4].foldl (fun s k => s.dumpSetSlot k none) s))

/-! ### An invalid phase copy (R470) -/

/-- PHASE_INVALID_TIMEOUT (R56, R470): a context that waits on the phase of a frond whose copy is invalid faults. -/
def execPhaseInvalidTimeout (ctx : BitVec 16) (s : State) : Host.Outcome State Fault Refusal :=
  let c := ctx.toNat
  let f := s.partFrond (s.ctx c).part
  let head := match (s.ctx c).wait with | some w => w.kind == 3 | none => false
  .next (if (s.ctx c).alloc && !(s.copyOf f).valid && (head || (s.waitTile c 3).isSome)
    then (s.err (frondPg f 0x108) 3).sysFault c 0x14 else s)

end Sys2Proof.Machine
end

