-- ==== Sys2Proof/Machine/Stores.lean ====
section
/-! DEFINITION. Stores and HBM: the meaning of each command (R134-R166). -/

namespace Sys2Proof.Machine

/-- Window address of a logical tile (R135). -/
def windowAddr (f : Frond) (t off : Nat) : Nat := 0xC0000000000 + f.idx * 0x100000000 + t * 0x1000000 + off

/-- TILE_COUNTER_WINDOW_WRITE (R125). -/
def execTileCounterWindowWrite (who : Accessor) (f : Frond) (t : Fin 128) (n : Fin 16) (data : BitVec 64) (s : State) :
    Host.Outcome State Fault Refusal :=
  .next (s.access (writeOf who (windowAddr f t.val (0xE00000 + 8 * n.val)) (leBytes 8 data.toNat) false))

/-- TILE_WINDOW_ACCESS (R135, R137). -/
def execTileWindowAccess (who : Accessor) (f : Frond) (t : Fin 128) (off : BitVec 24) (op : MemOp) (e : Ecc) (s : State) :
    Host.Outcome State Fault Refusal :=
  .next (s.access { memOf who (windowAddr f t.val off.toNat) op with ecc := e })

/-- STORE_SCRUB (R138). -/
def execStoreScrub (f : Frond) (t : Fin 132) (off : BitVec 24) (e : Ecc) (late : Bool) (s : State) :
    Host.Outcome State Fault Refusal :=
  let s := if late then s.wr (F.STORE_SCRUB_LATE.pg (frondPg f 0x102)) 1 else s
  .next (if s.tileState f t.val = 4 ∨ 0xE00000 ≤ off.toNat then s
    else (s.storeFind f.idx t.val off.toNat 32 e).activity f 4 1 none none)

/-- HBM_READ_REQUEST (R146): a read of one block. -/
def execHbmReadRequest (who : Accessor) (addr : BitVec 44) (e : Ecc) (s : State) : Host.Outcome State Fault Refusal :=
  .next (s.access (readOf who (addr.toNat / 64 * 64) 64 e))

/-- HBM_WRITE_REQUEST (R147): a write of a block, of part of one, or of several; `e` is what the read of a partial write
finds. -/
def execHbmWriteRequest (who : Accessor) (addr : BitVec 44) (data : List (BitVec 8)) (poison : Bool) (e : Ecc) (s : State) :
    Host.Outcome State Fault Refusal :=
  .next (s.access { writeOf who addr.toNat (data.map BitVec.toNat) poison with ecc := e })

/-- NMU_REDUCE_WRITE (R158): whole elements of a format it has; operation 0 is a plain write. (DESIGN CHOICE, log 27) -/
def execNmuReduceWrite (who : Accessor) (addr : BitVec 44) (fmt : BitVec 2) (red : BitVec 2) (data : List (BitVec 8))
    (s : State) : Host.Outcome State Fault Refusal :=
  let d := data.map BitVec.toNat
  let w := if fmt.toNat = 1 then 2 else 4
  .next (if red.toNat = 0 then s.access (writeOf who addr.toNat d false)
    else if fmt.toNat = 3 ∨ d.length % w ≠ 0 ∨ addr.toNat % w ≠ 0 then s.answer Res.err
    else s.access ⟨who, addr.toNat, 2, 0, fmt.toNat, red.toNat, d, false, .clean⟩)

/-- The memory test of a frond runs, and not paused: a test window with the HBM bit, or SELFTEST_FORCE (R163). -/
def State.hbmTestOpen (s : State) (f : Nat) : Bool := bitOf s.phase.testOpen 4 || s.on (hf F.HBMF_TEST_CTRL_SELFTEST_FORCE f)

/-- The scrub of a frond's stack runs: its controller is READY, in every mode but STANDBY, and outside a chip reset (R148). -/
def State.scrubRuns (s : State) (f pc : Nat) : Bool :=
  s.mode != 0 && !s.chipReset && s.rd (hc F.HBMC_STATUS_STATE f pc) == 3

/-- Scrub meets inverted check bits of a block (R146). -/
def State.scrubSee (s : State) (f a : Nat) : State :=
  let v := s.hbmSee f a true
  let s := { v.1 with col := { v.1.col with inverted := Sparse.erase v.1.col.inverted (hbmKey f a) } }
  if v.2 then (s.memZero (hbmKey f a) 64).setPoison (hbmKey f a) true else s

/-- HBM_SCRUB_BLOCK (R146, R148): corrections are written back, an uncorrectable block becomes zero and poisoned; a region
under a running test is skipped. (DESIGN CHOICE, log 27) -/
def execHbmScrubBlock (addr : BitVec 44) (e : Ecc) (passEnd : Bool) (s : State) : Host.Outcome State Fault Refusal :=
  let p := hbmSplit (addr.toNat / 64 * 64)
  let f := p.1
  let a := p.2
  if 2 ≤ f || !s.scrubRuns f (s.pcOf f a) then .next s
  else
    let s := if passEnd then s.inc (hf F.HBMF_SCRUB_PASSES f) else s
    let s := s.activity (Frond.at f) 8 1 none none
    .next (if s.inTest f a && s.rd (hf F.HBMF_TEST_STATUS_STATE f) == 3 then s
      else if s.pcBit F.HBMF_FENCE_PC f (s.pcOf f a) then s.hbmDE f a true
      else match e with
        | .clean => s.scrubSee f a
        | .parity => (s.hbmParity f a).scrubSee f a
        | .corrected sym => s.hbmCE f a sym.val true
        | .bad => ((s.memZero (hbmKey f a) 64).setPoison (hbmKey f a) true).hbmDE f a true)

/-- A block is copied to a retirement target: corrected, or written poisoned when it is poisoned, uncorrectable or lies on a
fenced pseudo-channel (R150, R154). -/
def State.copyBlock (s : State) (f a : Nat) (e : Ecc) : State :=
  let r := (s.activity (Frond.at f) 8 2 none none).hbmRead f a 64 e
  r.1.setPoison (hbmKey f a) r.2.poison

/-- PAGE_RETIRE_DONE (R150): the oldest copy of the frond ends; `found` lists the blocks of the page in which the copy's reads
find an error. -/
def execPageRetireDone (f : Frond) (found : List (Fin 64 × Ecc)) (s : State) : Host.Outcome State Fault Refusal :=
  let h := s.hbmF f.idx
  match h.table.find? (fun e => !e.current) with
  | none => .next s
  | some x =>
    let s := (List.range 64).foldl (fun s b => s.copyBlock f.idx (x.page * 4096 + b * 64)
      (match found.find? (fun e => e.1.val == b) with | some e => e.2 | none => .clean)) s
    let h := s.hbmF f.idx
    let s := s.setHbmF f.idx { h with
      table := h.table.map (fun e => if e.page = x.page then { e with current := true } else e) }
    .next ((s.inc (hf F.HBMF_STATUS_RET_USED f.idx)).event (frondPg f 0x104) 0x6003)

/-- HBMF_RET_ADD_WRITE (R149, R152). -/
def execHbmfRetAddWrite (r : Req) (f : Frond) (value : BitVec 64) (s : State) : Host.Outcome State Fault Refusal :=
  let page := value.toNat / 2 ^ 32 % 2 ^ 27
  .next (s.cmdAt r (hf F.HBMF_RET_ADD_PAGE f.idx) true (fun s =>
    if s.visible f.idx ≤ page * 4096 then s.err (frondPg f 0x104) 0 else s.retire f.idx page 2))

/-- HBMF_FENCE_WRITE (R154): bits of pseudo-channels 0-63, or 64-127 for `hi`. -/
def execHbmfFenceWrite (r : Req) (f : Frond) (hi : Bool) (value : BitVec 64) (s : State) :
    Host.Outcome State Fault Refusal :=
  .next (s.cmdHeld r ((hf F.HBMF_FENCE_PC f.idx).i (b2n hi)) (value == 0) (fun s =>
    (bitsOf value.toNat).foldl (fun s b => s.pcFence f.idx (b2n hi * 64 + b)) s))

/-- The lowest credit over a stack's pseudo-channels. -/
def HbmFrond.lowest (h : HbmFrond) (stack : Nat) : Int :=
  (List.range 32).foldl (fun m c => min m (Sparse.get (fun _ => (0 : Int)) h.credit (stack * 32 + c))) 127

/-- REFRESH_INTERVAL (R140, R156, R157): the stack's temperature is read out; in a window the credit falls to -PULLIN_MAX by all-bank refreshes, after 16 intervals one
refresh an interval; outside, refresh is postponed up to POSTPONE_MAX. (DESIGN CHOICE, log 27) -/
def execRefreshInterval (stack : Fin 8) (pc : Fin 32) (tempC : BitVec 8) (s : State) : Host.Outcome State Fault Refusal :=
  let f := stack.val / 4
  let pg := hbmcPage stack.val
  let k := stack.val % 4 * 32 + pc.val
  let h := s.hbmF f
  let c := Sparse.get (fun _ => (0 : Int)) h.credit k + 1
  let opened := bitOf s.phase.refreshOpen stack.val && s.on (F.HBMC_REF_CTRL_WINDOW_EN.pg pg)
  let n := if opened then Sparse.get (fun _ => 0) h.openFor k + 1 else 0
  let low : Int := -(s.rd (F.HBMC_REF_CTRL_PULLIN_MAX.pg pg) : Int)
  let new := if !opened then min c (s.rd (F.HBMC_REF_CTRL_POSTPONE_MAX.pg pg))
    else if n ≤ 16 then min c low else min c (c - 1)
  let h := { h with credit := Sparse.set (fun _ => (0 : Int)) h.credit k new,
                    openFor := Sparse.set (fun _ => 0) h.openFor k n }
  let s := s.setHbmF f h
  let s := if opened then s.inc (F.HBMC_REF_STATUS_REFAB.pg pg) (c - new).toNat else s
  .next ((s.wr (F.HBMC_REF_STATUS_CREDIT.pg pg) (intBits 8 (h.lowest (stack.val % 4)))).wr (F.HBMC_STATUS_TEMP.pg pg)
    tempC.toNat)

/-- BRIDGE_FLIT_RETRY (R144): `good` when the retry passes; 16 consecutive failures end the bridge. -/
def execBridgeFlitRetry (f : Frond) (good : Bool) (s : State) : Host.Outcome State Fault Refusal :=
  if s.bridgeDown then .next s
  else
    let s := (s.incSat (hf F.BRIDGE_STATUS_RETRIES f.idx)).err (frondPg f 0x104) 2
    let h := s.hbmF f.idx
    let n := if good then 0 else h.bridgeFails + 1
    let s := s.setHbmF f.idx { h with bridgeFails := n }
    .next (if n < 16 then s
      else ((s.wr (hf F.BRIDGE_STATUS_STATE 0) 2).wr (hf F.BRIDGE_STATUS_STATE 1) 2).err (frondPg f 0x104) 3)

/-- HBM_TEST_RELEASE (R163). -/
def execHbmTestRelease (r : Req) (f : Frond) (s : State) : Host.Outcome State Fault Refusal :=
  .next (s.cmdHeld r (hf F.HBMF_TEST_CTRL_RELEASE f.idx) (s.on (hf F.HBMF_TEST_CTRL_RELEASE f.idx)) (fun s =>
    if s.on (hf F.HBMF_TEST_CTRL_RELEASE f.idx) then s
    else (s.wr (hf F.HBMF_TEST_CTRL_RELEASE f.idx) 1).wr (hf F.HBMF_TEST_STATUS_STATE f.idx) 1))

/-- HBM_TEST_START (R163): a released region, no reserved PATTERN, no test that waits or runs. -/
def execHbmTestStart (r : Req) (f : Frond) (s : State) : Host.Outcome State Fault Refusal :=
  .next (s.cmdAt r (hf F.HBMF_TEST_CTRL_START f.idx) true (fun s =>
    let st := s.rd (hf F.HBMF_TEST_STATUS_STATE f.idx)
    if !s.on (hf F.HBMF_TEST_CTRL_RELEASE f.idx) || s.rd (hf F.HBMF_TEST_CTRL_PATTERN f.idx) == 3 || st == 2 || st == 3
    then s
    else
      let s := (s.wr (hf F.HBMF_TEST_CTRL_START f.idx) 1).wr (hf F.HBMF_TEST_STATUS_FAIL_PAGES f.idx) 0
      s.wr (hf F.HBMF_TEST_STATUS_STATE f.idx) (if s.hbmTestOpen f.idx then 3 else 2)))

/-- HBM_TEST_RUN (R163). (DESIGN CHOICE, log 27) -/
def execHbmTestRun (f : Frond) (s : State) : Host.Outcome State Fault Refusal :=
  .next (if s.rd (hf F.HBMF_TEST_STATUS_STATE f.idx) = 2 && s.hbmTestOpen f.idx
    then s.wr (hf F.HBMF_TEST_STATUS_STATE f.idx) 3 else s)

/-- HBM_TEST_DONE (R163): `fails` lists the failing pages, `soft` the stack of each soft repair. -/
def execHbmTestDone (f : Frond) (fails : List (BitVec 27)) (soft : List (Fin 4)) (s : State) :
    Host.Outcome State Fault Refusal :=
  if s.rd (hf F.HBMF_TEST_STATUS_STATE f.idx) != 3 || !s.hbmTestOpen f.idx then .next s
  else
    let bad := (fails.map BitVec.toNat).filter (fun p => s.inTest f.idx (p * 4096))
    let s := (s.wr (hf F.HBMF_TEST_STATUS_STATE f.idx) 4).wr (hf F.HBMF_TEST_CTRL_START f.idx) 0
    let s := s.wr (hf F.HBMF_TEST_STATUS_FAIL_PAGES f.idx) bad.length
    let s := bad.foldl (fun s p => s.candidate f.idx p 3) s
    .next (if s.on (hf F.HBMF_TEST_CTRL_SPPR_EN f.idx) then
        soft.foldl (fun s k => s.inc (F.HBMC_PPR_SOFT_ACTIVE.pg (hbmcPage (4 * f.idx + k.val)))) s
      else s)

/-- HBM_TEST_RETURN (R163): the region returns zeroed; in WAIT_WINDOW and RUNNING the clear is ignored. -/
def execHbmTestReturn (r : Req) (f : Frond) (s : State) : Host.Outcome State Fault Refusal :=
  .next (s.cmdHeld r (hf F.HBMF_TEST_CTRL_RELEASE f.idx) (!s.on (hf F.HBMF_TEST_CTRL_RELEASE f.idx)) (fun s =>
    let st := s.rd (hf F.HBMF_TEST_STATUS_STATE f.idx)
    if !s.on (hf F.HBMF_TEST_CTRL_RELEASE f.idx) || st == 2 || st == 3 then s
    else
      let lo := s.rd (hf F.HBMF_TEST_BASE_BASE f.idx) / 4096 * 4096
      let n := min (s.rd (hf F.HBMF_TEST_SIZE_SIZE f.idx) / 4096 * 4096) (0x5000000000 - lo)
      let s := s.memZero (hbmKey f.idx lo) n
      let h := s.hbmF f.idx
      let s := s.setHbmF f.idx { h with relocZeroed := (lo, lo + n) :: h.relocZeroed }
      (s.wr (hf F.HBMF_TEST_CTRL_RELEASE f.idx) 0).wr (hf F.HBMF_TEST_STATUS_STATE f.idx) 0))

end Sys2Proof.Machine
end

