-- ==== Sys2Proof/Machine/Tiles.lean ====
section
/-! DEFINITION. Arrays, calibration, rotation, self-test and the tile map: the meaning of each command (R62-R102). -/

namespace Sys2Proof.Machine

/-- STALE of an array one of whose conditions in R80 fails (R81). -/
def State.staleMark (s : State) (f : Frond) (p a : Nat) : State :=
  s.when (s.drifted f p a || s.calOld f p a) (fun s => s.wr (af F.ARR_STATUS_STALE f p a) 1)

/-- A READY spare turns to the array that the temperature trigger puts first, which its verification pass alone follows
(R85, R88). -/
def State.retarget (s : State) (f : Frond) (p : Nat) : State :=
  if s.rot f p = 3 && (List.range 4).foldl (targetBetter s f p) none != some (s.rd (tf F.ARR_SLOT_TARGET f p)) then
    (s.updTile f p (fun u => { u with verifyOnly := true })).rotBegin f p
  else s

/-- A sensor reading of an array (R81, R88): STALE beyond the threshold or 600 s, TEMP_TRIG and the queue of an in-service
array, a READY spare that retargets or repeats CAL. -/
def State.arrayTemp (s : State) (f : Frond) (p a temp : Nat) : State :=
  let s := (s.wr (af F.ARR_STATUS_TEMP f p a) temp).staleMark f p a
  if !s.drifted f p a || !s.on (acf F.ACAL_CTRL_TEMP_TRIG_EN f) || bitOf (s.tile f p).sensorBad a then s
  else if s.rd (af F.ARR_STATUS_ARR_STATE f p a) = 0 then (s.wr (af F.ARR_STATUS_TEMP_TRIG f p a) 1).retarget f p
  else if s.rot f p = 3 && s.spareArr f p = a then (s.updTile f p (fun u => { u with verifyOnly := false })).setRot f p 2
  else s

/-- ARRAY_TEMP_SAMPLE (R81, R88, R102): a reading out of range ends the array's temperature trigger. -/
def execArrayTempSample (f : Frond) (t : Fin 132) (a : Fin 5) (temp : BitVec 16) (inRange : Bool) (s : State) :
    Host.Outcome State Fault Refusal :=
  .next (if inRange then s.arrayTemp f t.val a.val temp.toNat
    else ((s.updTile f t.val (fun u => { u with sensorBad := setBitN u.sensorBad a.val })).staleMark f t.val a.val).err
      (tilePage f t.val) 4)

/-- ACAL_INTERVAL_EXPIRE (R86). -/
def execAcalIntervalExpire (f : Frond) (s : State) : Host.Outcome State Fault Refusal :=
  .next (if s.on (acf F.ACAL_CTRL_PHASE_ONLY f) then s else s.rotTriggerAll f)

/-- SPARE_ROTATION (R86): a held trigger and a READY spare. -/
def execSpareRotation (f : Frond) (t : Fin 132) (s : State) : Host.Outcome State Fault Refusal :=
  .next (if s.rot f t.val = 3 && (s.tile f t.val).trigger then s.rotate f t.val else s)

/-- SPARE_COPY_DONE (R84): the copy ends in CAL; a parity error restarts it. -/
def execSpareCopyDone (f : Frond) (t : Fin 132) (parity : Bool) (s : State) : Host.Outcome State Fault Refusal :=
  if s.rot f t.val != 1 then .next s
  else if parity || s.armed (tilePage f t.val) 0 then .next (s.err (tilePage f t.val) 0)
  else
    .next ((s.bankCopy f t.val (s.slotArr f t.val (s.rd (tf F.ARR_SLOT_TARGET f t.val))) (s.spareArr f t.val)).setRot
      f t.val 2)

/-- SPARE_CAL_DONE (R82, R87, R91): pass gives READY; a fail gives FAIL, and the second in a row fences the array. With
CAL_GATE a measurement ends only in an open window. -/
def execSpareCalDone (f : Frond) (t : Fin 132) (res : CalResult) (s : State) : Host.Outcome State Fault Refusal :=
  let only := (s.tile f t.val).verifyOnly
  let gated := s.on (acf F.ACAL_CTRL_CAL_GATE f) && !s.calGateOpen f && !only
  if s.rot f t.val != 2 || gated then .next s
  else
    let a := s.spareArr f t.val
    let ok := if only then res.verified else s.calPass f res
    let s := s.updTile f t.val (fun u => { u with verifyOnly := false })
    if ok && only then .next (s.setRot f t.val 3)
    else
      let s := s.calRecord f t.val a res ok
      if ok then .next (s.setRot f t.val 3)
      else
        let s := s.setRot f t.val 4
        .next (if 2 ≤ Sparse.get (fun _ => 0) (s.tile f t.val).calFails a then s.arrayFence f t.val a else s)

/-- A tile may end an in-place calibration on a slot: one that runs there, or one that may begin there now (R89). -/
def State.ipRuns (s : State) (f : Frond) (p k : Nat) : Bool :=
  match (s.tile f p).ipSlot with
  | some n => n == k
  | none => s.on (af F.ARR_STATUS_TEMP_TRIG f p (s.slotArr f p k)) && s.calGateOpen f

/-- IN_PLACE_CALIBRATION (R89): the calibration of a queued array on its own slot ends, whether or not its window is still
open. (DESIGN CHOICE, log 26) -/
def execInPlaceCalibration (f : Frond) (t : Fin 132) (slot : Fin 4) (res : CalResult) (s : State) :
    Host.Outcome State Fault Refusal :=
  let p := t.val
  let a := s.slotArr f p slot.val
  if s.rot f p != 6 || !s.ipRuns f p slot.val then .next s
  else
    let s := (s.updTile f p (fun u => { u with ipSlot := none })).wr (af F.ARR_STATUS_ARR_STATE f p a) 0
    let s := (s.calRecord f p a res (s.calPass f res)).inService f p
    .next (if 2 ≤ Sparse.get (fun _ => 0) (s.tile f p).calFails a then s.arrayFence f p a else s)

/-- ACAL_FULL_CAL_REQ (R89). -/
def execAcalFullCalReq (r : Req) (f : Frond) (s : State) : Host.Outcome State Fault Refusal :=
  .next (s.cmdAt r (acf F.ACAL_CTRL_FULL_CAL_REQ f) false (fun s =>
    (s.wr (acf F.ACAL_CTRL_FULL_CAL_REQ f) 1).fullCalPoke f))

/-- FULL_CALIBRATION_DONE (R83, R96): `bad` lists the arrays that failed twice. -/
def execFullCalibrationDone (f : Frond) (bad : List (Fin 132 × Fin 5)) (s : State) : Host.Outcome State Fault Refusal :=
  if !s.on (acf F.ACAL_STATUS_FULL_CAL_BUSY f) then .next s
  else
    let s := (List.range 132).foldl (fun s p =>
      if s.tileState f p = 4 then s
      else s.tileCal f p ((bad.filter (fun e => e.1.val == p)).map (fun e => e.2.val))) s
    .next (((s.tilesSettle f).wr (acf F.ACAL_STATUS_FULL_CAL_BUSY f) 0).wr (acf F.ACAL_CTRL_FULL_CAL_REQ f) 0)

/-- ACAL_BIST_REQ (R90): each tile tests its spare before its next COPY, at once while none is under way, or its slots in
turn. -/
def execAcalBistReq (r : Req) (f : Frond) (s : State) : Host.Outcome State Fault Refusal :=
  .next (s.cmdAt r (acf F.ACAL_CTRL_BIST_REQ f) false (fun s =>
    let s := (s.wr (acf F.ACAL_CTRL_BIST_REQ f) 1).wr (acf F.ACAL_STATUS_BIST_BUSY f) 1
    (List.range 132).foldl (fun s p =>
      if s.tileState f p = 4 then s
      else if s.rot f p = 6 then s.updTile f p (fun u => { u with bistSlots := [0, 1, 2, 3] })
      else if s.rot f p = 0 || s.rot f p = 4 then s.setRot f p 5
      else s.updTile f p (fun u => { u with bist := true })) s))

/-- Every tile of the frond has run the self-test: BIST_REQ and BIST_BUSY clear. -/
def State.bistEnd (s : State) (f : Frond) : State :=
  if (List.range 132).any (fun p => s.tileState f p != 4 &&
      (s.rot f p == 5 || (s.tile f p).bist || (s.tile f p).bistSlots != [])) then s
  else (s.wr (acf F.ACAL_CTRL_BIST_REQ f) 0).wr (acf F.ACAL_STATUS_BIST_BUSY f) 0

/-- ARRAY_BIST_DONE (R90): the spare's test at once, a slot's only in a test window for arrays or under SELFTEST_FORCE.
(DESIGN CHOICE, log 26) -/
def execArrayBistDone (f : Frond) (t : Fin 132) (a : Fin 5) (ok : Bool) (s : State) : Host.Outcome State Fault Refusal :=
  let p := t.val
  if s.rot f p = 5 && s.spareArr f p = a.val then
    let s := s.setRot f p 0
    .next ((if ok then s else s.arrayFence f p a.val).bistEnd f)
  else
    match (s.tile f p).bistSlots with
    | [] => .next s
    | k :: rest =>
      if s.slotArr f p k = a.val && (bitOf s.phase.testOpen 0 || s.on (acf F.ACAL_CTRL_SELFTEST_FORCE f)) then
        let s := s.updTile f p (fun u => { u with bistSlots := rest })
        .next ((if ok then s else s.arrayFence f p a.val).bistEnd f)
      else .next s

/-- TILE_RECAL_DONE (R100): the calibration of an unfenced tile ends in SPARE, or FENCED; that of a spare that a build
awaits in READY (R99). (DESIGN CHOICE, log 26) -/
def execTileRecalDone (f : Frond) (t : Fin 132) (bad : List (Fin 5)) (s : State) : Host.Outcome State Fault Refusal :=
  let p := t.val
  if !(s.tile f p).recal then .next s
  else
    let s := s.tileCal f p (bad.map Fin.val)
    let used := s.logicalOf f p != 0xFF && s.physOf f (s.logicalOf f p) == some p && s.tileState f p == 1
    let ok := decide (s.arraysFenced f p < 2)
    let s := s.updTile f p (fun u => { u with recal := false })
    let st := if !ok then 4 else if used then 2 else 3
    let s := if !ok then s else if used then s.storeZero f p else s.wr (tf F.TILE_STATUS_LOGICAL f p) 0xFF
    .next ((((s.wr (tf F.TILE_STATUS_STATE f p) st).inService f p).mapSync f).buildRetry)

/-- TMAP_ENTRY_WRITE (R101): ignored with MAP_BUSY while the logical tile is in a built partition, with MAP_BAD when it
names a physical tile that does not exist, is fenced or is mapped to another logical tile already. (DESIGN CHOICE, log 26) -/
def execTmapEntryWrite (r : Req) (f : Frond) (t : Fin 128) (value : BitVec 64) (s : State) :
    Host.Outcome State Fault Refusal :=
  let g := mapField F.TMAP_ENTRY_VALID f t.val
  .next (s.cmdWord r g.key value (fun w s =>
    let p := F.TMAP_ENTRY_PHYS.get w
    let valid := F.TMAP_ENTRY_VALID.get w == 1
    let pg := frondPg f 0x100
    let busy := s.on (acf F.ACAL_STATUS_FULL_CAL_BUSY f)
    if r.level != .L0 then s
    else if (s.partOfTile f t.val).isSome then s.err pg 0
    else if 131 < p || s.tileState f p == 4
        || (List.range 128).any (fun x => x != t.val && s.physOf f x == some p) then s.err pg 1
    else
      let s := match s.physOf f t.val with
        | some old => if s.tileState f old = 4 then s.wr (tf F.TILE_STATUS_LOGICAL f old) 0xFF
            else (s.wr (tf F.TILE_STATUS_LOGICAL f old) 0xFF).wr (tf F.TILE_STATUS_STATE f old) (if busy then 1 else 3)
        | none => s
      let s := s.setReg g.key w
      (if valid then (s.wr (tf F.TILE_STATUS_LOGICAL f p) t.val).wr (tf F.TILE_STATUS_STATE f p) (if busy then 1 else 2) else s).mapSync f))

/-- ROT_TIMEOUT (R102): a held trigger still waits. -/
def execRotTimeout (f : Frond) (t : Fin 132) (s : State) : Host.Outcome State Fault Refusal :=
  .next (if (s.tile f t.val).trigger && s.rot f t.val != 3 then s.err (tilePage f t.val) 5 else s)

end Sys2Proof.Machine
end

