-- ==== Sys2Proof/Machine/RegOps.lean ====
section
/-! DEFINITION. A write of any register as one operation (R530-R546): each field under its access code, the clamps that
depend on other fields, what a unit does at the write, and every command bit through the command that it starts. -/

namespace Sys2Proof.Machine

/-- The state that a command leaves. -/
def after (o : Host.Outcome State Fault Refusal) (s : State) : State :=
  match o with
  | .next t => t
  | _ => s

/-- A stored register takes the merged word by `g`. A write answers 1 for a privilege error that is still to be recorded, 2
for one that is, else 0. -/
def State.plain (s : State) (r : Req) (key : Nat) (v : Word) (g : Word → State → State) : State × Nat :=
  let m := s.mergeWord (r.level == .L0) key v
  (g m.1 s, b2n m.2)

/-- A stored register takes the merged word, and `g` follows. -/
def State.store (s : State) (r : Req) (key : Nat) (v : Word) (g : State → State) : State × Nat :=
  s.plain r key v (fun w s => g (s.setReg key w))

/-- A command bit: its field, whether it is L0 only, and what it starts. -/
structure CmdBit where
  field : Field
  l0 : Bool
  act : State → State

/-- The command bits that a word sets act in the order of the list; one that is L0 only waits for L0.
(DESIGN CHOICE, log 70) -/
def State.cmdBits (s : State) (r : Req) (v : Word) (l : List CmdBit) : State :=
  l.foldl (fun s c => if c.field.get v ≠ 0 && (!c.l0 || r.level == .L0) then c.act s else s) s

/-- A number of a fixed range. -/
def fin (n : Nat) [NeZero n] (k : Nat) : Fin n := Fin.ofNat n k

/-- A write that its own command handles whole, and whose privilege error it records itself. -/
def State.whole (s : State) (r : Req) (key : Nat) (v : Word) (o : State → Host.Outcome State Fault Refusal) : State × Nat :=
  (after (o s) s, if (s.mergeFrom (r.level == .L0) key (s.view (some r) key) v).2 then 2 else 0)

/-- As `whole`, where a code that the word carries is L0 only though its field is not (`shut`). -/
def State.wholeCode (s : State) (r : Req) (key : Nat) (v : Word) (shut : Bool)
    (o : State → Host.Outcome State Fault Refusal) : State × Nat :=
  let m := s.whole r key v o
  (m.1, if shut && r.level != .L0 then 2 else m.2)

/-! ### Headers (R544-R546) -/

/-- BLK_CTRL: ENABLE, FENCE and CFG_LOCK at L0; RESET_REQ as its level allows. -/
def State.blkCtrlWrite (s : State) (r : Req) (p : Nat) (v : Word) : State × Nat :=
  let pg := BitVec.ofNat 16 p
  let en := F.BLK_CTRL_ENABLE.get v == 1
  let fence := F.BLK_CTRL_FENCE.get v == 1
  let lock := F.BLK_CTRL_CFG_LOCK.get v == 1
  let bad := r.level != .L0 && (lock || (capOf p 2 && b2n en != s.rd (F.BLK_CTRL_ENABLE.pg p))
    || (capOf p 0 && fence != s.blkFenced p))
  let s := if r.level = .L0 then
      let s := after (execBlkCtrlEnable r pg en s) s
      let s := after (if fence then execBlkCtrlFenceSet r pg s else execBlkCtrlFenceClear r pg s) s
      if lock then after (execBlkCtrlCfgLock r pg s) s else s
    else s
  (if F.BLK_CTRL_RESET_REQ.get v = 1 then after (execBlkCtrlResetReq r pg s) s else s, b2n bad)

/-- A header register. -/
def State.headerWrite (s : State) (r : Req) (p off : Nat) (v : Word) : State × Nat :=
  let pg := BitVec.ofNat 16 p
  let key := p * 4096 + off
  if off = 0x010 then s.blkCtrlWrite r p v
  else if off = 0x028 then s.whole r key v (execErrMaskWrite r pg v)
  else if off = 0x030 then s.whole r key v (execErrInjectWrite r pg v)
  else if off = 0x038 then (if errImplAt p = 0 then (s, 0) else s.store r key v id)
  else if off = 0x040 then s.whole r key v (execAccessClassWrite r pg v)
  else s.store r key v id

/-! ### Security and start-up pages -/

/-- FUSE page. -/
def State.fuseWrite (s : State) (r : Req) (off : Nat) (v : Word) : State × Nat :=
  let key := 0x01 * 4096 + off
  if off = 0x108 then
    s.plain r key v (fun _ s => s.cmdBits r v [⟨F.FUSE_CMD_NONCE_REQ, false, fun s => after (execFuseNonceReq r s) s⟩,
      ⟨F.FUSE_CMD_PTR_RESET, false, fun s => after (execFusePtrReset r s) s⟩,
      ⟨F.FUSE_CMD_EXECUTE, false, fun s => after (execFuseExecute r s) s⟩])
  else if off = 0x110 then s.whole r key v (execFuseAuthDataWrite r v)
  else s.store r key v id

/-- CFG page. -/
def State.cfgWrite (s : State) (r : Req) (off : Nat) (v : Word) : State × Nat :=
  let key := 0x02 * 4096 + off
  if off = 0x108 then
    s.plain r key v (fun _ s => s.cmdBits r v [⟨F.CFG_CMD_PTR_RESET, false, fun s => after (execCfgPtrReset r s) s⟩,
      ⟨F.CFG_CMD_COMMIT, false, fun s => after (execCfgCommit r s) s⟩,
      ⟨F.CFG_CMD_READ, false, fun s => after (execCfgRead r s) s⟩,
      ⟨F.CFG_CMD_ERASE, false, fun s => after (execCfgErase r s) s⟩])
  else if off = 0x118 then s.whole r key v (execCfgDataAccess r (some v))
  else s.store r key v id

/-- FW_CMD by its code. -/
def fwCmd (r : Req) (n : Nat) (s : State) : Host.Outcome State Fault Refusal :=
  if n = 1 then execFwLoad r s else if n = 2 then execFwOpen r s else if n = 3 then execFwAppend r s
  else if n = 4 then execFwClose r s else if n = 5 then execFwActivate r s else if n = 6 then execFwConfirm r s
  else if n = 7 then execFwAbort r s else .next s

/-- FW page. -/
def State.fwWrite (s : State) (r : Req) (off : Nat) (v : Word) : State × Nat :=
  let key := 0x03 * 4096 + off
  if off = 0x118 then
    if F.FW_CMD_CMD.get v = 0 then s.plain r key v (fun _ s => s) else s.whole r key v (fwCmd r (F.FW_CMD_CMD.get v))
  else if off = 0x128 then (if F.FW_RT_READY.get v = 1 then s.whole r key v (execFwRtReady r) else (s, 0))
  else s.store r key v id

/-! ### Contexts, domains, partitions -/

/-- CTX_CMD by its code. -/
def ctxCmdOf (r : Req) (n : Nat) (s : State) : Host.Outcome State Fault Refusal :=
  if n = 1 then execCtxAlloc r s else if n = 2 then execCtxFree r s else if n = 3 then execCtxStop r s
  else if n = 4 then execCtxStart r s else if n = 5 then execCtxReset r s else .next s

/-- CTXT page: CTX_RING is written only in FREE. (DESIGN CHOICE, log 33) -/
def State.ctxWrite (s : State) (r : Req) (off : Nat) (v : Word) : State × Nat :=
  let key := 0x20 * 4096 + off
  let c := s.selCtx r
  if off = 0x100 then (s.setSel r key (v.toNat % 65536), 0)
  else if off = 0x108 then
    let m := s.mergeFrom (r.level == .L0) key (s.view (some r) key) v
    (after (execCtxCfgWrite r m.1 s) s, b2n m.2)
  else if off = 0x110 then
    let m := s.mergeFrom (r.level == .L0) key (s.view (some r) key) v
    (if s.ctxState c = 0 then s.updCtx c (fun x => { x with ringBase := m.1.toNat / 4096 * 4096 % 2 ^ 50, ringLog := m.1.toNat % 32 })
      else s, b2n m.2)
  else if off = 0x140 then s.whole r key v (ctxCmdOf r (F.CTX_CMD_CMD.get v))
  else s.store r key v id

/-- DOM page: the window and the setting that DOM_SEL names, in the staged copy only. (DESIGN CHOICE, log 36) -/
def State.domWrite (s : State) (r : Req) (off : Nat) (v : Word) : State × Nat :=
  let key := 0x21 * 4096 + off
  let sel := s.sel r F.DOM_SEL_DOMAIN.key
  let n := sel % 4096
  let win := sel / 4096 % 16
  let d := s.dom n
  let m := s.mergeFrom (r.level == .L0) key (s.view (some r) key) v
  let zero : Nat → Word := fun _ => 0
  if off = 0x100 then (s.setSel r key (v.toNat % 2 ^ 17), 0)
  else if 0x108 ≤ off ∧ off ≤ 0x118 then
    if bitOf sel 16 then (s, 0)
    else
      let t := if off = 0x108 then { d.staged with base := Sparse.set zero d.staged.base win m.1 }
        else if off = 0x110 then { d.staged with size := Sparse.set zero d.staged.size win m.1 }
        else { d.staged with enable := bitOf m.1.toNat 0 }
      (s.setDom n { d with staged := t }, b2n m.2)
  else if off = 0x120 then
    (if m.1 = s.view (some r) key then s else s.setDom n { d with energy := m.1.toNat * 1000000 }, b2n m.2)
  else if off = 0x128 then
    s.plain r key v (fun _ s => s.cmdBits r v [⟨F.PROT_EPOCH_CTRL_ADVANCE, true, fun s => after (execProtEpochAdvance r s) s⟩])
  else s.store r key v id

/-- PART page. -/
def State.partWrite (s : State) (r : Req) (off : Nat) (v : Word) : State × Nat :=
  let key := 0x22 * 4096 + off
  let p := fin 64 ((off - 0x100) / 32)
  if off < 0x100 ∨ 0x900 ≤ off then (s, 0)
  else if off % 32 = 0 then
    let m := s.mergeWord (r.level == .L0) key v
    (after (execPartCfgWrite r p false m.1 s) s, b2n m.2)
  else if off % 32 = 8 then
    let m := s.mergeWord (r.level == .L0) key v
    (after (execPartCfgWrite r p true m.1 s) s, b2n m.2)
  else if off % 32 = 24 then
    s.whole r key v (fun s => match F.PART_CMD_CMD.get v with
      | 1 => execPartBuild r p s
      | 2 => execPartRebuild r p s
      | 3 => execPartFree r p s
      | _ => .next s)
  else (s, 0)

/-! ### Links -/

/-- LINKM page: the words of the relay key are kept until COMMIT. -/
def State.linkmWrite (s : State) (r : Req) (off : Nat) (v : Word) : State × Nat :=
  let key := 0x28 * 4096 + off
  if off = 0x120 then
    s.store r key v (fun s => s.cmdBits r v [⟨F.LINK_PING_START, false, fun s =>
      after (execLinkPingStart r (BitVec.ofNat 6 (F.LINK_PING_TARGET.get v)) s) s⟩])
  else if 0x128 ≤ off ∧ off < 0x148 then
    if r.level = .L0 then (s.setReg key v, 0) else (s, 1)
  else if off = 0x148 then
    s.plain r key v (fun _ s => s.cmdBits r v [⟨F.LINK_RELAY_KEY_CMD_COMMIT, true, fun s =>
      after (execLinkRelayKeyCommit r s) s⟩])
  else s.store r key v id

/-- COLL page: a slot that is ARMED or runs keeps its other fields (R264). -/
def State.collRegWrite (s : State) (r : Req) (off : Nat) (v : Word) : State × Nat :=
  let key := 0x29 * 4096 + off
  let n := (off - 0x200) / 64
  if off < 0x200 ∨ 0x600 ≤ off then s.store r key v id
  else
    let busy := s.collState n == 1 || s.collState n == 2
    let m := s.plain r key v (fun w s => if busy then s else s.setReg key w)
    if off % 64 = 0 then
      (m.1.cmdBits r v [⟨F.COLL_CTRL_ARM, false, fun s => after (execCollArm r (fin 16 n) s) s⟩,
        ⟨F.COLL_CTRL_ABORT, false, fun s => after (execCollAbort r (fin 16 n) s) s⟩], m.2)
    else m

/-- LINKF pages: a cleared LINK_CORE_ERR drops its line (R482). -/
def State.linkfWrite (s : State) (r : Req) (f : Frond) (key : Nat) (v : Word) : State × Nat :=
  s.store r key v (fun s =>
    if key % 4096 = 0x120 ∧ s.rd (lf F.LINK_CORE_ERR_VALID f) = 0 then s.irqRaw (.fic f) 24 false else s)

/-- LPORT pages. -/
def State.lportWrite (s : State) (r : Req) (p key : Nat) (v : Word) : State × Nat :=
  if key % 4096 = 0x100 then s.store r key v (fun s => s.portEnables p)
  else if key % 4096 = 0x110 then
    s.wholeCode r key v (F.LPORT_CMD_CMD.get v == 2) (fun s => match F.LPORT_CMD_CMD.get v with
      | 1 => execLportCmdRetrain r (fin 24 p) s
      | 2 => execLportCmdTest r (fin 24 p) s
      | _ => .next s)
  else s.store r key v id

/-! ### Power -/

/-- A signed field of a word, held within bounds. (DESIGN CHOICE, log 70) -/
def clampField (f : Field) (lo hi : Int) (w : Word) : Word :=
  f.put w (intBits f.width (clampInt lo hi (bitsInt f.width (f.get w))))

/-- An unsigned field of a word, held within bounds. -/
def clampFieldN (f : Field) (lo hi : Nat) (w : Word) : Word := f.put w (min hi (max lo (f.get w)))

/-- PWR page: P_MIN within the range that REVERSE_EN gives (R312), TARGET within its window. -/
def State.pwrWrite (s : State) (r : Req) (off : Nat) (v : Word) : State × Nat :=
  let key := 0x40 * 4096 + off
  if off = 0x100 then s.whole r key v (execPwrCtrlWrite r v)
  else if off = 0x110 then s.store r key v State.pwrLine
  else if off = 0x130 then
    s.plain r key v (fun w s =>
      s.setReg key (clampField F.PWR_LIMITS_P_MIN (if s.on F.PWR_CTRL_REVERSE_EN then -1000 else 0) 0 w))
  else if off = 0x140 then
    s.plain r key v (fun w s =>
      s.setReg key (clampFieldN F.PWR_SOC_TARGET (F.PWR_SOC_WIN_LO.get w) (F.PWR_SOC_WIN_HI.get w) w))
  else s.store r key v id

/-- GR page (R313, R314). (DESIGN CHOICE, log 71) -/
def State.grWrite (s : State) (r : Req) (off : Nat) (v : Word) : State × Nat :=
  let key := 0x43 * 4096 + off
  if off = 0x100 then
    let m := s.mergeWord (r.level == .L0) key v
    let tb := F.GR_CTRL_TIMEBASE.get m.1
    let was := s.on F.GR_CTRL_EN
    let s := if F.GR_CTRL_EN.get m.1 = 1 then after (execGrEnable r (tb == 1) s) s
      else
        let s := if tb ≠ s.rd F.GR_CTRL_TIMEBASE then after (execGrEntryWrite r .timebase v s) s else s
        if was then after (execGrCancel r s) s else s
    (s, b2n m.2)
  else if off = 0x110 then s.whole r key v (execGrEntryWrite r .start v)
  else if 0x200 ≤ off ∧ off < 0x400 then s.whole r key v (execGrEntryWrite r (.entry (fin 64 ((off - 0x200) / 8))) v)
  else s.store r key v id

/-- LOOP page (R326-R330). -/
def State.loopWrite (s : State) (r : Req) (off : Nat) (v : Word) : State × Nat :=
  let key := 0x44 * 4096 + off
  let i := fin 16 ((off - 0x200) / 64)
  let k := off % 64
  if off < 0x200 ∨ 0x600 ≤ off then s.store r key v id
  else if k = 0x00 then s.whole r key v (execLsCoefWrite r i .cfg v)
  else if k = 0x08 then s.whole r key v (execLsCascWrite r i v)
  else if k = 0x10 then s.whole r key v (execLsCoefWrite r i .kpi v)
  else if k = 0x18 then s.whole r key v (execLsCoefWrite r i .kdf v)
  else if k = 0x20 then s.whole r key v (execLsCoefWrite r i .kff v)
  else if k = 0x28 then s.whole r key v (execLsCoefWrite r i .outlim v)
  else if k = 0x30 then s.whole r key v (execLsCoefWrite r i .sp v)
  else
    let g := F.LS_STATE_MODE.i i
    let m := s.mergeWord (r.level == .L0) key v
    let mode := g.get m.1
    let s' := s.setReg key (g.put m.1 (s.rd g))
    (if mode = s.rd g then s' else after (execLsModeWrite r i (BitVec.ofNat 2 mode) s') s', b2n m.2)

/-! ### Rails and budget -/

/-- RAIL pages: SHED_A at or above ADD_A is rejected with the rest of its word (R347). -/
def State.railWrite (s : State) (r : Req) (i off : Nat) (v : Word) : State × Nat :=
  let key := railPage i * 4096 + off
  let rail := fin 12 i
  if off = 0x108 then
    s.whole r key v (execRailCmdWrite r rail (BitVec.ofNat 8 (F.RAIL_CMD_SLEW.get v)) (BitVec.ofNat 16 (F.RAIL_CMD_TARGET.get v)))
  else if off = 0x118 then s.store r key v State.railLine
  else if off = 0x128 then
    s.plain r key v (fun w s =>
      if w = s.reg key then s
      else if F.RAIL_SHED_ADD_A.get w ≤ F.RAIL_SHED_SHED_A.get w then s.railReject i else s.setReg key w)
  else if off = 0x130 then
    s.store r key v (fun s => s.cmdBits r v [⟨F.RAIL_CTRL_SWAP, true, fun s => after (execRailSwap r rail s) s⟩,
      ⟨F.RAIL_CTRL_SENSE_RETRY, true, fun s => after (execRailSenseRetry r rail s) s⟩])
  else if 0x138 ≤ off ∧ off ≤ 0x150 then
    s.whole r key v (execRailCompWrite r rail (decide (0x148 ≤ off)) (decide (off % 16 = 0)) v)
  else if 0x400 ≤ off then
    s.whole r key v (execRailPhFenceWrite r rail (fin 48 ((off - 0x400) / 8)) (F.RAIL_PH_FENCE.get v == 1))
  else s.store r key v id

/-- RAIL_SYS page. -/
def State.railSysWrite (s : State) (r : Req) (off : Nat) (v : Word) : State × Nat :=
  let key := 0x48 * 4096 + off
  if off = 0x100 then
    s.store r key v (fun s => s.cmdBits r v [⟨F.RAIL_SYS_CTRL_PEAK_CLR, false, fun s => after (execRailPeakClr r s) s⟩])
  else if off = 0x148 then
    s.plain r key v (fun _ s => s.cmdBits r v [⟨F.RAIL_LF_CMD_CLEAR, true, fun s => after (execRailLfClear r s) s⟩])
  else s.store r key v id

/-- CAP page: PEAK_W lies between SUST_W and 5,000 W. -/
def State.capWrite (s : State) (r : Req) (off : Nat) (v : Word) : State × Nat :=
  let key := 0x60 * 4096 + off
  if off = 0x100 then
    s.plain r key v (fun w s => s.setReg key (clampFieldN F.CAP_MODULE_PEAK_W (F.CAP_MODULE_SUST_W.get w) 5000 w))
  else s.store r key v id

/-- OPT page: VOLT lies within 25 mV above the fused value and not below the entry before; MAX_OP acts on the arbiter. -/
def State.optWrite (s : State) (r : Req) (off : Nat) (v : Word) : State × Nat :=
  let key := 0x61 * 4096 + off
  let n := (off - 0x200) / 8
  if off = 0x100 then s.store r key v State.arbBoth
  else if 0x200 ≤ off ∧ off < 0x280 then
    s.plain r key v (fun w s =>
      let fused := F.OPT_ENTRY_VOLT.get (resetOf key)
      let lo := if n = 0 then fused else max fused (s.rd (F.OPT_ENTRY_VOLT.i (n - 1)))
      if w = s.reg key then s else s.setReg key (clampFieldN F.OPT_ENTRY_VOLT (min lo (fused + 50)) (fused + 50) w))
  else s.store r key v id

/-- ATTR page. -/
def State.attrWrite (s : State) (r : Req) (off : Nat) (v : Word) : State × Nat :=
  let key := 0x62 * 4096 + off
  if off = 0x100 then
    s.store r key v (fun s => s.cmdBits r v [⟨F.ATTR_CTRL_FIT_REQ, true, fun s => after (execAttrFitReq r s) s⟩])
  else s.store r key v id

/-! ### Pack and estimator -/

/-- CHAIN page. -/
def State.chainWrite (s : State) (r : Req) (off : Nat) (v : Word) : State × Nat :=
  let key := 0x68 * 4096 + off
  if off = 0x100 then
    s.store r key v (fun s => s.cmdBits r v [⟨F.CHAIN_CFG_OW_REQ, false, fun s => after (execOwReq r s) s⟩])
  else if off = 0x130 then
    s.plain r key v (fun _ s => s.cmdBits r v [⟨F.CHAIN_FW_START, true, fun s => after (execChainFwStart r s) s⟩])
  else if off = 0x138 then s.store r key v State.wakeLine
  else s.store r key v id

/-- PACK_LIM_V and PACK_LIM_T keep their warning levels inside their limits (R385). -/
def packClamp (off : Nat) (w : Word) : Word :=
  if off = 0x128 then
    let w := clampFieldN F.PACK_LIM_V_OV_WARN 0 (F.PACK_LIM_V_OV.get w - 20) w
    clampFieldN F.PACK_LIM_V_UV_WARN (F.PACK_LIM_V_UV.get w + 20) 65535 w
  else
    let sg := fun (f : Field) (w : Word) => bitsInt f.width (f.get w)
    let w := clampField F.PACK_LIM_T_UT (-30) 127 (clampField F.PACK_LIM_T_OT (-128) 65 w)
    clampField F.PACK_LIM_T_UT_WARN (sg F.PACK_LIM_T_UT w + 2) 127
      (clampField F.PACK_LIM_T_OT_WARN (-128) (sg F.PACK_LIM_T_OT w - 2) w)

/-- PACK page: a changed capacity keeps each cell's SOC. -/
def State.packWrite (s : State) (r : Req) (off : Nat) (v : Word) : State × Nat :=
  let key := 0x69 * 4096 + off
  if off = 0x100 then
    let old := s.cEff
    s.store r key v (fun s => s.capRescale old)
  else if off = 0x110 then
    s.plain r key v (fun _ s => s.cmdBits r v [⟨F.PACK_CMD_RELEASE, false, fun s => after (execPackCmdRelease r s) s⟩,
      ⟨F.PACK_CMD_CLR_LIMIT, true, fun s => after (execPackCmdClrLimit r s) s⟩,
      ⟨F.PACK_CMD_WAKE_CLR, false, fun s => after (execPackCmdWakeClr r s) s⟩,
      ⟨F.PACK_CMD_ACCEPT, false, fun s => after (execPackCmdAccept r s) s⟩])
  else if off = 0x128 ∨ off = 0x130 then s.plain r key v (fun w s => s.setReg key (packClamp off w))
  else if off = 0x138 then s.store r key v State.balRefresh
  else s.store r key v id

/-- EST page. -/
def State.estWrite (s : State) (r : Req) (off : Nat) (v : Word) : State × Nat :=
  let key := 0x70 * 4096 + off
  if off = 0x100 then s.whole r key v (execEstCtrlWrite r (BitVec.ofNat 2 (F.EST_CTRL_POLICY.get v)))
  else if off = 0x120 then
    let old := s.cEff
    s.store r key v (fun s => s.capRescale old)
  else if off = 0x138 ∨ off = 0x140 then s.store r key v State.restRebase
  else if off = 0x160 then (s.setSel r key (v.toNat % 128), 0)
  else if off = 0x170 then
    s.plain r key v (fun _ s => s.cmdBits r v [⟨F.EST_CMD_ABORT_REST, false, fun s => after (execEstCmdAbortRest r s) s⟩,
      ⟨F.EST_CMD_REST_NOW, false, fun s => after (execEstCmdRestNow r s) s⟩,
      ⟨F.EST_CMD_RESTORE, true, fun s => after (execEstCmdRestore r s) s⟩,
      ⟨F.EST_CMD_CAPTURE, false, fun s => after (execEstCmdCapture r s) s⟩])
  else s.store r key v id

/-- EST_OCV page. -/
def State.ocvWrite (s : State) (r : Req) (off : Nat) (v : Word) : State × Nat :=
  let key := 0x71 * 4096 + off
  if off = 0x110 then
    s.plain r key v (fun _ s => s.cmdBits r v [⟨F.OCV_CMD_COMMIT, true, fun s => after (execOcvCommit r s) s⟩])
  else s.store r key v id

/-! ### Faults, interrupts, recorder -/

/-- MCOL page. -/
def State.mcolWrite (s : State) (r : Req) (off : Nat) (v : Word) : State × Nat :=
  let key := 0x80 * 4096 + off
  if off = 0x100 then s.whole r key v (execMfsWrite r v)
  else if off = 0x120 then
    s.store r key v (fun s => s.cmdBits r v [⟨F.MCOL_PIN_RELEASE, false, fun s => after (execMcolPinRelease r s) s⟩,
      ⟨F.MCOL_PIN_ASSERT, true, fun s => after (execMcolPinAssert r s) s⟩])
  else s.store r key v id

/-- RST_CMD by its code. -/
def rstCmdOf (r : Req) (v : Word) (s : State) : Host.Outcome State Fault Refusal :=
  let n := F.RST_CMD_CMD.get v
  let t := BitVec.ofNat 16 (F.RST_CMD_TARGET.get v)
  if n = 2 then execRstCmdEngine r t s else if n = 3 then execRstCmdPartition r t s
  else if n = 4 then execRstCmdChip r s else if n = 5 then execRstCmdPowerCycle r s else .next s

/-- DUMP page. -/
def State.dumpWrite (s : State) (r : Req) (off : Nat) (v : Word) : State × Nat :=
  let key := 0x84 * 4096 + off
  if off = 0x108 then
    s.plain r key v (fun _ s => s.cmdBits r v [⟨F.DUMP_CMD_CAPTURE, false, fun s => after (execDumpCapture r s) s⟩,
      ⟨F.DUMP_CMD_FLUSH, false, fun s => after (execDumpFlush r s) s⟩,
      ⟨F.DUMP_CMD_ERASE, true, fun s => after (execDumpErase r s) s⟩])
  else s.store r key v id

/-- An interrupt controller's page. -/
def State.ficWrite (s : State) (r : Req) (c : Ctl) (off : Nat) (v : Word) : State × Nat :=
  let key := ctlPage c * 4096 + off
  if 0x400 ≤ off ∧ off < 0x480 then s.whole r key v (execFicPendSet r c (fin 16 ((off - 0x400) / 8)) v)
  else if 0x480 ≤ off ∧ off < 0x500 then s.whole r key v (execFicPendClr r c (fin 16 ((off - 0x480) / 8)) v)
  else if 0x200 ≤ off ∧ off < 0x300 ∧ off % 32 = 16 then
    s.whole r key v (execFicEoi r c (fin 8 ((off - 0x200) / 32)) (BitVec.ofNat 10 v.toNat))
  else s.store r key v id

/-- A source's SRC register has been written. An armed PARITY injection meets the entry, which reads as erroneous: the
source is disabled (R452, R492). (DESIGN CHOICE, log 56) -/
def State.irqSrcSet (s : State) (c : Ctl) (src : Nat) : State :=
  let s := s.irqSrcSync c src
  if s.armed (ctlPage c) 1 then (s.err (ctlPage c) 1).wr (srcField c F.SRC_ENABLE src) 0 else s

/-- FIC_SRC and PIC_SRC pages: source `src` stands at this offset. -/
def State.srcWrite (s : State) (r : Req) (c : Ctl) (src key : Nat) (v : Word) : State × Nat :=
  if key % 4096 < 0x900 then s.store r key v (fun s => s.irqSrcSet c src) else s.store r key v id

/-- REC page. -/
def State.recWrite (s : State) (r : Req) (off : Nat) (v : Word) : State × Nat :=
  let key := 0x88 * 4096 + off
  if off = 0x100 then
    let f := F.REC_CTRL_FREEZE.get v == 1
    let u := F.REC_CTRL_UNFREEZE.get v == 1
    s.store r key v (fun s =>
      let s := s.tmodeCheck
      if f then after (execRecFreeze r u s) s else if u then after (execRecUnfreeze r s) s else s)
  else if off = 0x128 then
    s.whole r key v (execRecRdSelWrite r (bitOf v.toNat 63) (BitVec.ofNat 48 v.toNat))
  else s.store r key v id

/-- REC_CLR page. -/
def State.recClrWrite (s : State) (r : Req) (off : Nat) (v : Word) : State × Nat :=
  let key := 0x8A * 4096 + off
  if off = 0x120 then
    s.plain r key v (fun _ s => s.cmdBits r v [⟨F.REC_CLR_CMD_NONCE_REQ, false, fun s => after (execRecClrNonceReq r s) s⟩,
      ⟨F.REC_CLR_CMD_PTR_RESET, false, fun s => after (execRecClrPtrReset r s) s⟩,
      ⟨F.REC_CLR_CMD_VERIFY, false, fun s => after (execRecClrVerify r s) s⟩])
  else if off = 0x128 then s.whole r key v (execRecAuthDataWrite r v)
  else s.store r key v id

/-! ### Phase and host port -/

/-- PHASE page: a written nominal period is held within R44's range. -/
def State.phaseWrite (s : State) (r : Req) (off : Nat) (v : Word) : State × Nat :=
  let key := 0xA0 * 4096 + off
  if off = 0x100 then
    s.store r key v (fun s => s.cmdBits r v [⟨F.PHASE_CTRL_PROF_CLEAR, false, fun s => after (execPhaseCtrlProfClear r s) s⟩,
      ⟨F.PHASE_CTRL_FORCE_FREE, false, fun s => after (execPhaseCtrlForceFree r s) s⟩,
      ⟨F.PHASE_CTRL_REACQUIRE, false, fun s => after (execPhaseCtrlReacquire r s) s⟩,
      ⟨F.PHASE_CTRL_COMMIT, false, fun s => after (execPhaseCtrlCommit r s) s⟩])
  else if off = 0x118 then
    s.plain r key v (fun w s => s.setReg key (clampFieldN F.PHASE_NOM_PERIOD_PERIOD 250000 150000000000 w))
  else if off = 0x128 then s.store r key v State.srcUpdate
  else if off = 0x140 then s.whole r key v (execPhaseStepSetWrite r (BitVec.ofNat 32 v.toNat))
  else if off = 0x150 then s.store r key v State.stepOutMode
  else if off = 0x158 then s.store r key v State.phaseLine
  else s.store r key v id

/-- PHASE_PROF page: PROF_VALID and the mirror of PROF_STEPS follow a written PROF_STATUS (R53, R54). -/
def State.phaseProfWrite (s : State) (r : Req) (off : Nat) (v : Word) : State × Nat :=
  let key := 0xA2 * 4096 + off
  if off = 0x300 then s.store r key v (fun t => t.profCheck.ffCheck s.profOut) else s.store r key v id

/-- HOSTP page: MTU lies within R278's range; PTP follows its enable; frames go that a cleared RX_EN no longer stops. -/
def State.hostpWrite (s : State) (r : Req) (off : Nat) (v : Word) : State × Nat :=
  let key := hostpPage * 4096 + off
  if off = 0x100 then s.plain r key v (fun w s => s.setReg key (clampFieldN F.HOSTP_CFG_MTU 4096 9000 w))
  else if off = 0x130 then s.store r key v State.hostFlush
  else if off = 0x150 then s.store r key v State.ptpEnable
  else s.store r key v id

/-- BRYN page: the session that HSESS_SEL names. -/
def State.brynWrite (s : State) (r : Req) (off : Nat) (v : Word) : State × Nat :=
  let key := brynPage * 4096 + off
  let n := s.selSess r
  if off = 0x118 then (s.setSel r key (v.toNat % 64), 0)
  else if off = 0x138 then
    let m := s.mergeFrom (r.level == .L0) key (s.view (some r) key) v
    (s.setSess n { s.sess n with evRanges := m.1.toNat % 65536, evMinSev := m.1.toNat / 65536 % 16 }, b2n m.2)
  else if off = 0x140 then
    if F.HSESS_CMD_CMD.get v = 1 then s.whole r key v (execHsessCmdClose r) else (s, 0)
  else s.store r key v id

/-! ### Frond pages -/

/-- ACAL pages. -/
def State.acalWrite (s : State) (r : Req) (f : Frond) (key : Nat) (v : Word) : State × Nat :=
  if key % 4096 = 0x100 then
    s.store r key v (fun s => s.cmdBits r v [⟨F.ACAL_CTRL_FULL_CAL_REQ, false, fun s => after (execAcalFullCalReq r f s) s⟩,
      ⟨F.ACAL_CTRL_BIST_REQ, false, fun s => after (execAcalBistReq r f s) s⟩])
  else if key % 4096 = F.ACAL_TEMP_TRIG_THRESH.off then
    s.store r key v (fun s => (List.range 132).foldl (fun s p => (List.range 5).foldl (fun s a => s.staleMark f p a) s) s)
  else s.store r key v id

/-- HBMF pages: RELEASE and START through their commands. -/
def State.hbmfWrite (s : State) (r : Req) (f : Frond) (key : Nat) (v : Word) : State × Nat :=
  let off := key % 4096
  if off = 0x110 ∨ off = 0x118 then s.whole r key v (execHbmfFenceWrite r f (off == 0x118) v)
  else if off = 0x140 then s.whole r key v (execHbmfRetAddWrite r f v)
  else if off = 0x170 then
    let g := hf F.HBMF_TEST_CTRL_RELEASE f.idx
    let was := s.rd g
    let m := s.mergeWord (r.level == .L0) key v
    let s := s.setReg key (g.put m.1 was)
    let s := if g.get m.1 = was then s
      else if was = 0 then after (execHbmTestRelease r f s) s else after (execHbmTestReturn r f s) s
    (s.cmdBits r v [⟨F.HBMF_TEST_CTRL_START, true, fun s => after (execHbmTestStart r f s) s⟩], b2n m.2)
  else if off = 0x160 ∨ off = 0x168 then
    s.store r key v (fun s => s.setReg key (BitVec.ofNat 64 ((s.reg key).toNat / 4096 * 4096)))
  else s.store r key v id

/-- RING pages: the words of a crypto key are kept until COMMIT. -/
def State.ringWrite (s : State) (r : Req) (f : Frond) (key : Nat) (v : Word) : State × Nat :=
  let off := key % 4096
  if 0x118 ≤ off ∧ off < 0x138 then (if r.level = .L0 then (s.setReg key v, 0) else (s, 1))
  else if off = 0x138 then
    s.plain r key v (fun _ s => s.cmdBits r v [⟨F.CRYPTO_KEY_CMD_COMMIT, true, fun s => after (execCryptoKeyCommit r f s) s⟩,
      ⟨F.CRYPTO_KEY_CMD_CLEAR, true, fun s => after (execCryptoKeyClear r f s) s⟩])
  else s.store r key v id

/-- A core follows HALT: halted while it is 1, running once it is 0. (DESIGN CHOICE, log 69) -/
def State.coreHalt (s : State) (f : Frond) (c : Nat) : State :=
  let g := F.CORE_STATUS_STATE.pg (corePage f c)
  let st := s.rd g
  if s.on (F.CORE_CTRL_HALT.pg (corePage f c)) then (if st = 1 ∨ st = 2 then s.wr g 3 else s)
  else if st = 3 then s.wr g 1 else s

/-- CORE pages. -/
def State.coreWrite (s : State) (r : Req) (f : Frond) (c key : Nat) (v : Word) : State × Nat :=
  if key % 4096 = 0x100 then
    s.store r key v (fun s => (s.coreHalt f c).cmdBits r v [⟨F.CORE_CTRL_RESET, false, fun s =>
      after (execCoreReset r f (fin 8 c) s) s⟩])
  else s.store r key v id

/-! ### Any register -/

/-- A write of a register of a page that takes it. (DESIGN CHOICE, log 70) -/
def State.regPut (s : State) (r : Req) (key : Nat) (v : Word) : State × Nat :=
  let p := key / 4096
  let off := key % 4096
  match pageInfo p with
  | none => (s, 0)
  | some i =>
    if off < 0x100 then s.headerWrite r p off v
    else
      let f := Frond.at i.frond
      match i.kind with
      | .sys =>
        if off = 0x130 then s.whole r key v (execDbgUnlockWrite r (F.DBG_CTRL_UNLOCK.get v == 1)) else s.store r key v id
      | .fuse => s.fuseWrite r off v
      | .cfg => s.cfgWrite r off v
      | .fw => s.fwWrite r off v
      | .ctxt => s.ctxWrite r off v
      | .dom => s.domWrite r off v
      | .part => s.partWrite r off v
      | .linkm => s.linkmWrite r off v
      | .coll => s.collRegWrite r off v
      | .pwr => s.pwrWrite r off v
      | .bc => if off = 0x100 then s.plain r key v (fun w s => (s.setReg key w).bcDerate) else s.store r key v id
      | .gr => s.grWrite r off v
      | .loop => s.loopWrite r off v
      | .railSys => s.railSysWrite r off v
      | .rail => s.railWrite r i.inst off v
      | .cap => s.capWrite r off v
      | .opt => s.optWrite r off v
      | .attr => s.attrWrite r off v
      | .chain => s.chainWrite r off v
      | .pack => s.packWrite r off v
      | .est => s.estWrite r off v
      | .estOcv => s.ocvWrite r off v
      | .mcol => s.mcolWrite r off v
      | .rst => if off = 0x108 then
            s.wholeCode r key v (F.RST_CMD_CMD.get v == 4 || F.RST_CMD_CMD.get v == 5) (rstCmdOf r v) else s.store r key v id
      | .dump => s.dumpWrite r off v
      | .pic => s.ficWrite r .pic off v
      | .fic => s.ficWrite r (.fic f) off v
      | .ficSrc => s.srcWrite r (.fic f) ((i.idx - 1) * 256 + (off - 0x100) / 8 % 256) key v
      | .picSrc => s.srcWrite r .pic ((off - 0x100) / 8 % 256) key v
      | .recd => s.recWrite r off v
      | .recClr => s.recClrWrite r off v
      | .phase => s.phaseWrite r off v
      | .phaseProf => s.phaseProfWrite r off v
      | .hostp => s.hostpWrite r off v
      | .bryn => s.brynWrite r off v
      | .tmap => if 0x200 ≤ off ∧ off < 0x600 then s.whole r key v (execTmapEntryWrite r f (fin 128 ((off - 0x200) / 8)) v)
          else s.store r key v id
      | .acal => s.acalWrite r f key v
      | .hbmf => s.hbmfWrite r f key v
      | .fcol => if off = 0x100 then s.whole r key v (execFfsWrite r f v) else s.store r key v id
      | .ring => s.ringWrite r f key v
      | .core => s.coreWrite r f i.inst key v
      | .linkf => s.linkfWrite r f key v
      | .lport => s.lportWrite r i.inst key v
      | _ => s.store r key v id

/-- A local address as the key of a register; none outside the register space (R530). -/
def keyOf (a : Nat) : Option Nat :=
  if 0xF0000000000 ≤ a ∧ a < 0xF0010000000 then some (a - 0xF0000000000) else none

/-- The page and the offset that a failed access reports. -/
def pageOf (a : Nat) : Nat := (a - 0xF0000000000) / 4096

/-- The reason for which an access of `bytes` bytes at a local address fails, if any (R539, R540). (DESIGN CHOICE, log 70) -/
def State.regFault (s : State) (r : Req) (a bytes : Nat) (write : Bool) : Option Nat :=
  match keyOf a with
  | none => some 1
  | some k =>
    if (pageInfo (k / 4096)).isNone then some 1
    else if bytes ≠ 8 ∨ k % 8 ≠ 0 then some 2
    else s.pageFault r (k / 4096) write

/-- A write at a local address: the failure's reason, or 0 when it is done, 6 when part of it was a privilege error. -/
def State.regWrite (s : State) (r : Req) (a bytes : Nat) (v : Word) : State × Nat :=
  match s.regFault r a bytes true with
  | some reason => (s.denied r (pageOf a) (a % 4096) reason, reason)
  | none =>
    let m := s.regPut r (a - 0xF0000000000) v
    (if m.2 = 1 then m.1.fieldPriv r (pageOf a) (a % 4096) else m.1, if m.2 = 0 then 0 else 6)

/-- A read at a local address: the failure's reason, or 0 and the word; a read of DUMP_DATA or CFG_DATA advances its
pointer (R535). -/
def State.regRead (s : State) (r : Req) (a bytes : Nat) : State × Nat × Word :=
  match s.regFault r a bytes false with
  | some reason => (s.denied r (pageOf a) (a % 4096) reason, reason, 0)
  | none =>
    let k := a - 0xF0000000000
    let w := s.view (some r) k
    if k = F.DUMP_DATA_WORD.key then (s.inc F.DUMP_SEL_OFFSET, 0, w)
    else if k = F.CFG_DATA_WORD.key then (s.cfgStep, 0, w)
    else (s, 0, w)

/-- REGISTER_WRITE (R534): of `bytes` bytes at a local address. -/
def execRegisterWrite (r : Req) (addr : BitVec 44) (bytes : BitVec 7) (value : BitVec 64) (s : State) :
    Host.Outcome State Fault Refusal :=
  let m := s.regWrite r addr.toNat bytes.toNat value
  .next (if m.2 = 0 ∨ m.2 = 6 then m.1 else m.1.put (.answer false false []))

end Sys2Proof.Machine
end

