-- ==== Sys2Proof/Machine/Bryn.lean ====
section
/-! DEFINITION. The request records of a session in their turn: registers, submissions, data, marks and attestation
(R289-R296, R522). -/

namespace Sys2Proof.Machine

/-! ### Register and SUBMIT records (R290, R291) -/

/-- What a register or SUBMIT record is answered with: STATUS, REASON, FAIL_INDEX and data words. -/
structure RegAns where
  status : Nat
  reason : Nat
  index : Nat
  words : List Word
  deriving DecidableEq, Repr

/-- The STATUS for the reason of a failed register access: RESET, PRIV or ACCESS (R289, R539). (DESIGN CHOICE, log 46) -/
def regStatus (reason : Nat) : Nat := if reason = 5 then 8 else if reason = 3 ∨ reason = 6 then 1 else 2

/-- `n` consecutive registers from local address `a` on are read; the first failure ends the record (R290). -/
def State.regReads (s : State) (r : Req) (a : Nat) : Nat → Nat → List Word → State × RegAns
  | 0, _, l => (s, ⟨0, 0, 0, l⟩)
  | n + 1, i, l =>
    let x := s.regRead r (a + 8 * i) 8
    if x.2.1 = 0 then State.regReads x.1 r a n (i + 1) (l ++ [x.2.2]) else (x.1, ⟨regStatus x.2.1, 0, i, l⟩)

/-- The words of a REG_WRITE go to consecutive registers; the first failure ends the record (R290). -/
def State.regWrites (s : State) (r : Req) (a : Nat) : List Word → Nat → State × RegAns
  | [], _ => (s, ⟨0, 0, 0, []⟩)
  | v :: l, i =>
    let x := s.regWrite r (a + 8 * i) 8 v
    if x.2 = 0 then State.regWrites x.1 r a l (i + 1) else (x.1, ⟨regStatus x.2, 0, i, []⟩)

/-- COUNT of a register or SUBMIT record. -/
def recCount (w0 : Nat) : Nat := w0 / 2 ^ 24 % 256

/-- A register record leaves its 4 KB page (R290). (DESIGN CHOICE, log 46) -/
def leavesPage (typ w0 w1 : Nat) : Bool := (typ == 3 || typ == 4) && decide (4096 < w1 % 4096 + 8 * recCount w0)

/-- The 64-byte items of a SUBMIT. -/
def itemsOf (n : Nat) (d : List Nat) : List (List Nat) := (List.range n).map (fun i => imgBytes d (64 * i) 64)

/-- A SUBMIT is accepted whole or rejected; `dom` is the domain that an L2 session is checked against (R216, R291). -/
def State.submitRec (s : State) (dom : Option Nat) (w0 : Nat) (d : List Nat) : State × RegAns :=
  let c := w0 / 2 ^ 32 % 2 ^ 16
  let may := match dom with
    | none => true
    | some k => s.domMay k rightW (s.globalOf (0xE1000000000 + 64 * c)) 64
  if !may then (s.subReject c 4 4, ⟨3, 4, 0, []⟩)
  else
    let r := s.submit c 4 (itemsOf (recCount w0) d)
    match r.2 with
    | none => (r.1, ⟨0, 0, 0, []⟩)
    | some reason => (r.1, ⟨3, reason, 0, []⟩)

/-- A register or SUBMIT record acts on this module: TYPE 3 REG_READ, 4 REG_WRITE, 6 SUBMIT. -/
def State.localRec (s : State) (r : Req) (dom : Option Nat) (typ w0 w1 : Nat) (d : List Nat) : State × RegAns :=
  if typ = 3 then s.regReads r w1 (recCount w0) 0 []
  else if typ = 4 then s.regWrites r w1 (wordsOf (recCount w0) d) 0
  else s.submitRec dom w0 d

/-- The domain that a session's records are checked against. -/
def Session.checkedBy (x : Session) : Option Nat := if x.level = .L2 then some x.domain else none

/-- The record answers a host. -/
def State.regAnswer (s : State) (n tag : Nat) (a : RegAns) : State :=
  if (s.sess n).open_ then s.regResp n tag a.status a.reason a.index a.words else s

/-! ### Relayed records at the pod steward (R293) -/

/-- The record names another module. -/
def State.relayed (s : State) (w0 : Nat) : Bool := bitOf w0 14 && w0 / 2 ^ 16 % 64 != s.modIdx

/-- This module is the pod steward and relays. (DESIGN CHOICE, log 47) -/
def State.relays (s : State) : Bool :=
  s.on F.LINK_CTRL_RELAY_EN && s.on F.LINK_STEWARD_VALID && s.rd F.LINK_STEWARD_INDEX == s.modIdx

/-- The RELAY transaction of a record: level and SESSION in AUX; its data is a word of TYPE and HKEY entry, then the record.
(DESIGN CHOICE, log 47) -/
def State.relayTxn (s : State) (n : Nat) (e : HRec) : Txn :=
  let x := s.sess n
  let l := leBytes 8 (e.typ + 256 * x.key) ++ leBytes 8 e.w0 ++ leBytes 8 e.w1 ++ e.data
  { s.txnOf .A 0x21 (e.w0 / 2 ^ 16 % 64 * 2 ^ 44) with
    aux := BitVec.ofNat 32 (x.level.num * 2 ^ 16 + x.gen * 256 + n), h3 := BitVec.ofNat 64 s.link.relayTx,
    len := BitVec.ofNat 13 l.length, data := l.map (BitVec.ofNat 8) }

/-- A record is relayed: its tag stays live; with no tracker entry free it waits, and with no route it is answered with
TIMEOUT. (DESIGN CHOICE, log 41) -/
def State.relayOut (s : State) (n : Nat) (e : HRec) : State :=
  let tag := e.w0 % 8192
  let r := s.askOpen .A (.relay n tag) (s.relayTxn n e) (e.w0 / 2 ^ 16 % 64 * 2 ^ 44)
  match r.2 with
  | none => s
  | some false => ((r.1.err brynPage 0).recTake n).answerRec n e.typ tag 7
  | some true =>
    let s := r.1.recTake n
    let s := { s with link := { s.link with relayTx := s.link.relayTx + 1 } }
    let x := s.sess n
    s.setSess n { x with tags := x.tags ++ [(⟨tag, e.typ != 3⟩ : LiveTag)] }

/-- A register or SUBMIT record starts: it acts here, is relayed, or is answered without either. A register record waits
for the relayed records of its session; a SUBMIT of a domain that an epoch fence holds waits (R231, R287).
(DESIGN CHOICE, log 46) -/
def State.regRec (s : State) (n : Nat) (e : HRec) : State :=
  let x := s.sess n
  let tag := e.w0 % 8192
  if leavesPage e.typ e.w0 e.w1 then (s.recTake n).answerRec n e.typ tag 9
  else if s.relayed e.w0 && !s.relays then (s.recTake n).answerRec n e.typ tag 6
  else if e.typ != 6 && !x.tags.isEmpty then s
  else if s.relayed e.w0 then s.relayOut n e
  else if e.typ == 6 && s.accHeld (.host (fin 64 n)) then s
  else
    let r := (s.recTake n).localRec ⟨.host (fin 64 n), x.level⟩ x.checkedBy e.typ e.w0 e.w1 e.data
    r.1.regAnswer n tag r.2

/-- REG_READ (R290, R293). -/
def execRegRead (slot : Fin 64) (s : State) : Host.Outcome State Fault Refusal :=
  .next (s.recRun slot.val 3 (fun e s => s.regRec slot.val e))

/-- REG_WRITE (R290, R293). -/
def execRegWrite (slot : Fin 64) (s : State) : Host.Outcome State Fault Refusal :=
  .next (s.recRun slot.val 4 (fun e s => s.regRec slot.val e))

/-- SUBMIT (R291, R293). -/
def execSubmit (slot : Fin 64) (s : State) : Host.Outcome State Fault Refusal :=
  .next (s.recRun slot.val 6 (fun e s => s.regRec slot.val e))

/-! ### Data records (R292) -/

/-- `n` bytes from a local address touch HBM or a tile window: targets that a chip reset takes away. -/
def resetTarget (a : Nat) : Bool :=
  decide (a < 0xA000000000) || (decide (0xC0000000000 ≤ a) && decide (a < 0xC0200000000))
    || (decide (0xF0000000000 ≤ a) && decide (a < 0xF0010000000) &&
      (match pageInfo ((a - 0xF0000000000) / 4096) with
        | some i => decide (i.frond < 2)
        | none => false))

/-- Why a data record of `n` bytes fails before it acts: ACCESS for another module, RESET, PRIV; 0 when it may act.
(DESIGN CHOICE, log 46) -/
def State.dataStatus (s : State) (slot right g n : Nat) : Nat :=
  let a := g % 2 ^ 44
  if g / 2 ^ 44 ≠ s.modIdx then 2
  else if s.frondReset ∧ (resetTarget a = true ∨ resetTarget (a + n - 1) = true) then 8
  else if s.mayAccess (.host (fin 64 slot)) right a n then 0 else 1

/-- A DATA_WRITE that reaches the submission window without being one aligned slot is a SIZE rejection, and one that the
session's domain does not permit a PROT rejection (R215, R216). (DESIGN CHOICE, log 46) -/
def State.dataReject (s : State) (g n st : Nat) : Option Nat :=
  let a := g % 2 ^ 44
  if g / 2 ^ 44 = s.modIdx ∧ a < 0xE1000400000 ∧ 0xE1000000000 < a + n then
    if a % 64 ≠ 0 ∨ n ≠ 64 then some 1 else if st = 1 then some 4 else none
  else none

/-- The poison of the granule at address `a`, of data that starts at `base`: some 64-byte block of the data that lies in
it is marked. (DESIGN CHOICE, log 46) -/
def granulePoison (base n map a : Nat) : Bool :=
  let g := granuleOf a
  let last := min (base + n) (a / g * g + g) - 1
  (List.range 3).any (fun k => bitOf map ((a - base) / 64 + k) && decide ((a - base) / 64 + k ≤ (last - base) / 64))

/-- The bytes of a DATA_WRITE go to memory: written, or reduced in HBM in whole aligned elements. (DESIGN CHOICE, log 46) -/
def State.dataPut (s : State) (e : HRec) : State × Bool :=
  let a := e.w1 % 2 ^ 44
  let n := e.data.length
  let red := e.w0 / 2 ^ 30 % 4
  let fmt := e.w0 / 2 ^ 32 % 4
  let w := if fmt = 1 then 2 else 4
  let p := granulePoison a n e.map
  if red = 0 then (s.countBytes a n 1 none).wrMemP none 4 a e.data p .clean
  else if a % w ≠ 0 ∨ n % w ≠ 0 ∨ 0xA000000000 < a + n then (s, false)
  else (s.countBytes a n 2 none).redMem none a fmt red e.data p .clean

/-- DATA_WRITE (R292): with a protection-epoch fence on its domain it waits. -/
def execDataWrite (slot : Fin 64) (s : State) : Host.Outcome State Fault Refusal :=
  let n := slot.val
  .next (s.recRun n 7 (fun e s =>
    let tag := e.w0 % 8192
    let st := s.dataStatus n rightW e.w1 e.data.length
    match s.dataReject e.w1 e.data.length st with
    | some why =>
      ((s.recTake n).subReject ((e.w1 % 2 ^ 44 - 0xE1000000000) / 64) 4 why).dataResp n tag (if why = 1 then 2 else 1) none
    | none =>
      if st ≠ 0 then (s.recTake n).dataResp n tag st none
      else if s.accHeld (.host slot) then s
      else
        let r := (s.recTake n).dataPut e
        r.1.dataResp n tag (if r.2 then 0 else 2) none))

/-- The data of a DATA_READ by 64-byte blocks of the data: done, the poison map, the bytes. -/
def State.dataGet (s : State) (a : Nat) : Nat → Nat → Nat → Nat × List Nat → State × Option (Nat × List Nat)
  | 0, _, _, acc => (s, some acc)
  | fuel + 1, b, n, acc =>
    if n = 0 then (s, some acc)
    else
      let m := min 64 n
      let r := s.rdMem none (a + 64 * b) m
      if r.2.ok then
        State.dataGet r.1 a fuel (b + 1) (n - m) (if r.2.poison then setBitN acc.1 b else acc.1, acc.2 ++ r.2.data)
      else (r.1, none)

/-- The Ethernet payload of a DATA_RESP with so many data bytes lies within MTU (R278). -/
def State.respFits (s : State) (n len : Nat) : Bool :=
  decide (32 + 32 + (len + 7) / 8 * 8 + 16 + (if (s.sess n).udp then 48 else 0) ≤ s.rd F.HOSTP_CFG_MTU)

/-- DATA_READ (R292); one whose response would not fit in MTU is malformed. (DESIGN CHOICE, log 46) -/
def execDataRead (slot : Fin 64) (s : State) : Host.Outcome State Fault Refusal :=
  let n := slot.val
  .next (s.recRun n 8 (fun e s =>
    let tag := e.w0 % 8192
    let a := e.w1 % 2 ^ 44
    let len := e.w0 / 2 ^ 16 % 2 ^ 14 + 1
    if s.respFits n len = false then (s.recTake n).dataResp n tag 9 none else
    match s.dataStatus n rightR e.w1 len with
    | 0 =>
      if s.accHeld (.host slot) then s
      else
        let r := ((s.recTake n).countBytes a len 1 none).dataGet a 129 0 len (0, [])
        r.1.dataResp n tag (if r.2.isSome then 0 else 2) r.2
    | st => (s.recTake n).dataResp n tag st none))

/-! ### Marks and attestation (R294, R296, R522) -/

/-- MARK_FRAME (R294): it has no response. (DESIGN CHOICE, log 46) -/
def execMarkFrame (slot : Fin 64) (s : State) : Host.Outcome State Fault Refusal :=
  let n := slot.val
  .next (
    match s.frontRec n 0x0B with
    | none => s
    | some e =>
      let x := s.sess n
      let s := s.recTake n
      if x.level != .L2 && e.inOrder && !e.bad then s.markIn 3 e.at_ none (some (e.w0 % 2 ^ 32))
      else s.incSat F.PHASE_COUNTS_DUP)

/-- The slot whose image stands for a unit: the one that runs, for GCS the preferred one. -/
def State.reportSlot (s : State) (u : Nat) : Option Nat :=
  let r := Sparse.get (fun _ => 0) s.fw.running u
  if u = 5 then some (s.fwPrefer 5) else if r = 0 then none else some (r - 1)

/-- The digest of an entry behind which nothing stands. (DESIGN CHOICE, log 48) -/
def romDigest (e : Nat) : List Nat := (List.range 64).map (fun i => Config.romDigest e i % 256)

/-- The report's entry for a unit. -/
def State.reportUnit (s : State) (u : Nat) : List Nat :=
  match s.reportSlot u with
  | some k =>
    let l := s.slotImage u k
    [1, u, k, b2n (bitOf s.fw.trial u) + 4 * (byteAt l 5 % 2)] ++ imgBytes l 8 4 ++ imgBytes l 12 4 ++ zeros 4 ++
      imageDigest l
  | none => [1, u, 0xF, 0] ++ zeros 12 ++ romDigest u

/-- The report's entry for a block. (DESIGN CHOICE, log 48) -/
def State.reportBlock (s : State) (id : Nat) : List Nat :=
  match Sparse.get (fun _ => none) s.cfg.loaded id with
  | some l =>
    [2, id, 0, 0] ++ leBytes 4 (cfgWord l 0 / 2 ^ 16 % 256) ++ zeros 8 ++ shake256 64 (bytesOf (l.take (cfgLength l / 8)))
  | none => [2, id, 0xF, 2] ++ leBytes 4 1 ++ zeros 8 ++ romDigest (8 + id)

/-- The endorsement field of an IDENTITY reply (R522). (DESIGN CHOICE, log 48) -/
def endorsement : List Nat :=
  sigField (Config.endorsement 0 % 1537) ((List.range 1536).map (fun i => Config.endorsement (1 + i) % 256))

/-- The report over a nonce (R522). (DESIGN CHOICE, log 48) -/
def State.report (s : State) (nonce : List Nat) (sigLen : Nat) (sig : List Nat) : List Nat :=
  let ptp := if s.rd F.PTP_STATUS_STATE = 3 then s.rd F.PTP_TIME_TAI_NS else 0
  let fuse := s.rd F.DBG_CTRL_UNLOCK * 2 ^ 63 + (s.reg F.FUSE_STATE_ROLLBACK.key).toNat
  leBytes 4 0x4D4C4154 ++ leBytes 2 1 ++ leBytes 2 (128 + 80 * 14 + 1544) ++ leBytes 8 (s.rd F.SYS_SERIAL_SERIAL) ++
    [s.modIdx, s.rd F.SYS_BOOT_STATE, 14, 0] ++ leBytes 4 (s.rd F.SYS_UPTIME_POWER_CYCLES) ++
    leBytes 4 (s.rd F.SYS_UPTIME_OP_SECONDS) ++ zeros 4 ++ nonce ++ leBytes 8 fuse ++ leBytes 8 ptp ++
    (List.range 4).flatMap (fun w => leBytes 8 (s.rd (F.SYS_ID_HASH_HASH.i w))) ++ zeros 16 ++
    (List.range 6).flatMap s.reportUnit ++ (List.range 8).flatMap (fun k => s.reportBlock (k + 1)) ++ sigField sigLen sig

/-- ATTEST (R296, R522): the identity with its endorsement, or a report with its signature; while the steward hands over it
waits (R524). `sig` is the signature of a report. (DESIGN CHOICE, log 46; DESIGN CHOICE, log 48) -/
def execAttest (slot : Fin 64) (sig : List (BitVec 8)) (sigLen : BitVec 16) (s : State) :
    Host.Outcome State Fault Refusal :=
  let n := slot.val
  let sig := sig.map BitVec.toNat
  .next (s.recRun n 2 (fun e s =>
    if s.rd F.FW_STATUS_STATE = 5 ∧ s.fw.unit = 0 then s
    else
      let s := s.recTake n
      let w0 := wordBytes (nw (e.w0 % 8192 + e.w0 / 2 ^ 16 % 2 * 2 ^ 16))
      if bitOf e.w0 16 then
        s.bsend n 2 0 (w0 ++ identityKey ++ zeros 7 ++ endorsement)
      else (s.bsend n 2 0 (w0 ++ s.report e.data sigLen.toNat sig)).event 0 0x0060))

end Sys2Proof.Machine
end

