-- ==== Sys2Proof/Machine/Loader.lean ====
section
/-! DEFINITION. The loading of configuration blocks at their load points (R513, R514), and the HBM rows that the repair
block names (R153). -/

namespace Sys2Proof.Machine

/-- The steward at L0, which applies configuration blocks. -/
def stewardReq : Req := ⟨.steward, .L0⟩

/-- A register of a rail whose writes are commands, though a block loads its fields: RAIL_CMD and the compensators (R361). -/
def railLoaded (key : Nat) : Bool :=
  let p := key / 4096
  let off := key % 4096
  decide (0x50 ≤ p) && decide (p < 0x5C) && (off == 0x108 || (decide (0x138 ≤ off) && decide (off ≤ 0x150)))

/-- One REG entry: a read and a write at L0 of (register & ~MASK) | (VALUE & MASK); the start command and both compensators
of a rail are stored (R361). (DEDUCED, log 76) -/
def State.cfgEntry (s : State) (key : Nat) (mask value : Word) : State :=
  let w := (s.view none key &&& ~~~ mask) ||| (value &&& mask)
  if railLoaded key then
    s.setReg key (if key % 4096 = 0x108 then BitVec.ofNat 64 (w.toNat % 2 ^ 24) else compWord (key % 16 == 0) w)
  else (s.regPut stewardReq key w).1

/-- An HBM_ROW entry: the row is repaired once, and its stack counts it. (DESIGN CHOICE, log 66) -/
def State.rowRepair (s : State) (e0 : Nat) : State :=
  if s.cfg.repaired.contains e0 then s
  else ({ s with cfg := { s.cfg with repaired := s.cfg.repaired ++ [e0] } }).incSat
    (F.HBMC_PPR_HARD_USED.pg (hbmcPage (e0 / 2 ^ 52 % 8)))

/-- Entry `e` of a block, where `sel` takes its register. -/
def State.cfgApply (s : State) (l : List Word) (sel : Nat → Bool) (e : Nat) : State :=
  let e0 := cfgWord l (2 + 3 * e)
  if e0 / 2 ^ 60 = 1 then s.rowRepair e0
  else
    let k := regKey (e0 % 2 ^ 44)
    if sel k then s.cfgEntry k (l.getD (3 + 3 * e) 0) (l.getD (4 + 3 * e) 0) else s

/-- OCV_STATUS.ROM follows the active OCV table. -/
def State.ocvShow (s : State) : State := s.wr F.OCV_STATUS_ROM (b2n (decide (s.est.temps = [])))

/-- An entry of the PACK block writes a field of OCV_TEMP or OCV_ENTRY. -/
def ocvEntry (l : List Word) (e : Nat) : Bool :=
  let k := regKey (cfgWord l (2 + 3 * e) % 2 ^ 44)
  k / 4096 == 0x71 && (k % 4096 == 0x100 || decide (0x200 ≤ k % 4096)) && cfgWord l (3 + 3 * e) != 0

/-- The PACK block has been applied: a block that wrote the shadow OCV table commits it (R423). -/
def State.ocvLoaded (s : State) (l : List Word) : State :=
  (if (List.range (cfgEntries l)).any (ocvEntry l) then s.ocvCommit else s).ocvShow

/-- The factory OCV table in ROM applies (R423). -/
def State.ocvRom (s : State) : State := { s with est := { s.est with ocv := [], temps := [] } }.ocvShow

/-- A block fails its check, and its ROM default applies: DEFAULT, CFG_DEFAULT, CFG_ERR and event 0x0020 (R514).
(DESIGN CHOICE, log 66) -/
def State.cfgFail (s : State) (id reason entry : Nat) : State :=
  let s := if id = 4 then s.ocvRom else s
  let s := { s with cfg := { s.cfg with loaded := Sparse.set (fun _ => none) s.cfg.loaded id none } }
  let s := (s.setBit F.CFG_STATUS_DEFAULT id).err 0 1
  let s := ((s.wr F.CFG_ERR_ID id).wr F.CFG_ERR_REASON reason).wr F.CFG_ERR_ENTRY entry
  s.event 0 0x0020 id reason entry

/-- A block loads: its stored copy is checked whole, and the entries whose registers `sel` takes apply in order, or the ROM
default block does (R513, R514). -/
def State.cfgLoad (s : State) (id : Nat) (sel : Nat → Bool) : State :=
  let c := s.cfgStored id
  let r := cfgCheck id c
  let s := s.setBit F.CFG_STATUS_LOADED id
  if r.1 ≠ 0 then s.cfgFail id r.1 r.2
  else
    let l := c.getD []
    let s := { s with cfg := { s.cfg with loaded := Sparse.set (fun _ => none) s.cfg.loaded id (some l) } }
    let s := s.clrBit F.CFG_STATUS_DEFAULT id
    let s := (List.range (cfgEntries l)).foldl (fun s e => s.cfgApply l sel e) s
    if id = 4 then s.ocvLoaded l else s

/-- The part of a loaded block that waits for a later step applies; a block that failed has been told already.
(DESIGN CHOICE, log 67) -/
def State.cfgRest (s : State) (id : Nat) (sel : Nat → Bool) : State :=
  match Sparse.get (fun _ => none) s.cfg.loaded id with
  | none => s
  | some l => (List.range (cfgEntries l)).foldl (fun s e => s.cfgApply l sel e) s

/-- A register's page lies on a frond. -/
def onFrond (key : Nat) : Bool := (pageInfo (key / 4096)).any (fun i => decide (i.frond < 2))

/-- A register's page is of a kind. -/
def onKind (k : PageKind) (key : Nat) : Bool := (pageInfo (key / 4096)).any (fun i => i.kind == k)

/-- The loads of step 4: SYSTEM, POWER, RAILS, PACK, and FAULT on the pages of the PWC. -/
def State.loadPower (s : State) : State :=
  let s := [1, 2, 3, 4].foldl (fun s id => s.cfgLoad id (fun _ => true)) s
  s.cfgLoad 5 (fun k => !onFrond k)

/-- Every block's ROM default is what the registers hold at their Reset values (R511). -/
def State.loadRom (s : State) : State :=
  (List.range 8).foldl (fun s k => (s.setBit F.CFG_STATUS_LOADED (k + 1)).setBit F.CFG_STATUS_DEFAULT (k + 1)) s.ocvRom

/-- The cfg fields of frond pages that a chip reset returns to Reset are loaded again: those of the interrupt controllers;
ERR_ fields and LPORT_CFG are kept (R473, R513). -/
def State.loadChip (s : State) : State := s.cfgLoad 5 (fun k => onFrond k && decide (0x100 ≤ k % 4096))

end Sys2Proof.Machine
end

