-- ==== Sys2Proof/Machine/Relay.lean ====
section
/-! DEFINITION. Relayed records between modules (R269, R293), transactions that get no answer (R261), and the presence pin of
a port (R553). -/

namespace Sys2Proof.Machine

/-! ### A RELAY that arrives (R269, R293) -/

/-- A RELAY that is not accepted is dropped and counted (R269). -/
def State.relayDrop (s : State) : State := (s.incSat F.LINK_RELAY_COUNT_DROPPED).err 0x28 2

/-- A module accepts a RELAY (R269). -/
def State.relayOk (s : State) (t : Txn) (tagOk : Bool) (seq : Nat) : Bool :=
  s.on F.LINK_CTRL_RELAY_EN && s.on F.LINK_STEWARD_VALID && t.src.toNat == s.rd F.LINK_STEWARD_INDEX && tagOk &&
    s.link.relayKey != 0 && (match s.link.relaySeq with
      | none => true
      | some last => decide (last < seq))

/-- The record that a RELAY carries: TYPE, HKEY entry, W0, W1 and data. -/
structure Carried where
  typ : Nat
  key : Nat
  w0 : Nat
  w1 : Nat
  data : List Nat
  deriving DecidableEq, Repr

/-- (DESIGN CHOICE, log 47) -/
def carriedOf (d : List Nat) : Carried := ⟨byteAt d 0, byteAt d 1 % 16, leAt d 8 8, leAt d 16 8, d.drop 24⟩

/-- A carried record is malformed. (DESIGN CHOICE, log 47) -/
def Carried.bad (c : Carried) : Bool :=
  !(c.typ == 3 || c.typ == 4 || c.typ == 6) || w0Bad c.typ c.w0 || w1Bad c.typ c.w1 || leavesPage c.typ c.w0 c.w1
    || c.data.length + 16 != recSize c.typ c.w0

/-- The domain that a relayed record of a level is checked against. -/
def State.carriedDom (s : State) (c : Carried) (level : Nat) : Option Nat :=
  if level = 2 then some (s.rd (F.HKEY_CFG_DOMAIN.i c.key)) else none

/-- The record of a RELAY acts at the level and for the session in AUX. (DESIGN CHOICE, log 47) -/
def State.relayAct (s : State) (c : Carried) (aux : Nat) : State × RegAns :=
  let level := aux / 2 ^ 16 % 4
  if c.bad || level == 3 then (s, ⟨9, 0, 0, []⟩)
  else s.localRec ⟨.relay (fin 64 (aux % 64)), levelOf level⟩ (s.carriedDom c level) c.typ c.w0 c.w1 c.data

/-- A submission of a domain that an epoch fence holds (R231). -/
def State.carriedHeld (s : State) (c : Carried) (aux : Nat) : Bool :=
  c.typ == 6 && (match s.carriedDom c (aux / 2 ^ 16 % 4) with
    | some d => s.heldDom d
    | none => false)

/-- An accepted RELAY acts and is answered with RELAY_RESP. -/
def State.relayDo (s : State) (port : Nat) (t : Txn) : State :=
  let c := carriedOf (t.data.map BitVec.toNat)
  let r := s.relayAct c t.aux.toNat
  let w0 := nw (c.w0 % 8192 + r.2.status * 2 ^ 16 + r.2.reason * 2 ^ 20 + r.2.words.length * 2 ^ 24 + r.2.index * 2 ^ 32)
  r.1.respond port t 0x22 0 0 ((w0 :: r.2.words).flatMap wordBytes) 0

/-- RELAYs that an epoch fence held act once it is over. (DESIGN CHOICE, log 47) -/
def State.relayTick (s : State) : State :=
  let l := s.work.heldRelays
  if l.isEmpty || s.on F.PROT_EPOCH_STATUS_PENDING then s
  else l.foldl (fun s e => s.relayDo e.1 e.2) { s with work := { s.work with heldRelays := [] } }

/-- RELAY (R269, R293): `seq` is its relay sequence, `tagOk` whether its tag holds under the pod relay key.
(DESIGN CHOICE, log 5; DESIGN CHOICE, log 47) -/
def execRelay (port : Fin 24) (t : Txn) (tagOk : Bool) (seq : BitVec 64) (s : State) :
    Host.Outcome State Fault Refusal :=
  let c := carriedOf (t.data.map BitVec.toNat)
  let aux := t.aux.toNat
  .next (
    if t.dest.toNat != s.modIdx || !s.portUp port.val then s
    else if s.aged t then s.agedDrop (portFrond port.val)
    else if !s.relayOk t tagOk seq.toNat then s.relayDrop
    else
      let s := { s with link := { s.link with relaySeq := some seq.toNat } }.incSat F.LINK_RELAY_COUNT_RELAYED
      if s.carriedHeld c aux then { s with work := { s.work with heldRelays := s.work.heldRelays ++ [(port.val, t)] } }
      else s.relayDo port.val t)

/-! ### The answer at the steward (R293) -/

/-- A relayed record is answered to its host, if the session still waits for it. -/
def State.relayAnswer (s : State) (slot tag : Nat) (a : RegAns) : State :=
  let x := s.sess slot
  if x.open_ && x.tags.any (fun t => t.tag == tag) then
    ((s.setSess slot { x with tags := x.tags.filter (fun t => t.tag != tag) }).regResp slot tag a.status a.reason a.index
      a.words).seqCheck slot
  else s

/-- The answer in the data of a RELAY_RESP. -/
def answerOf (d : List Nat) : RegAns :=
  let w0 := leAt d 0 8
  ⟨w0 / 2 ^ 16 % 16, w0 / 2 ^ 20 % 16, w0 / 2 ^ 32 % 256, wordsOf (w0 / 2 ^ 24 % 256) (d.drop 8)⟩

/-- RELAY_RESP (R260, R293): a failing STATUS of the transaction is answered with ACCESS. (DESIGN CHOICE, log 47) -/
def execRelayResp (f : Frond) (t : Txn) (s : State) : Host.Outcome State Fault Refusal :=
  match s.trkMatch f t 0x21 with
  | none => .next (s.lateDrop f false t.trk.toNat)
  | some e =>
    let s := s.trkFree e
    let a := if t.status = 0 then answerOf (t.data.map BitVec.toNat) else ⟨2, 0, 0, []⟩
    match e.user with
    | .relay slot tag => .next (s.relayAnswer slot tag a)
    | _ => .next s

/-! ### No answer (R261, R293) -/

/-- The requester of a transaction that timed out learns of it: REMOTE, an access fault, FAIL, or TIMEOUT. -/
def State.trkFail (s : State) (e : Trk) : State :=
  match e.user with
  | .core _ => s.answer Res.err
  | .engine n => s.engEnd e.frond n 9 e.g
  | .item c num => s.addFault c 9 num
  | .ping => s.wr F.LINK_PING_FAIL 1
  | .relay slot tag => (s.err brynPage 0).relayAnswer slot tag ⟨7, 0, 0, []⟩
  | .signal => s

/-- A tracker entry times out: freed, counted, recorded with cause TIMEOUT, and its requester fails. -/
def State.trkTimeout (s : State) (e : Trk) : State :=
  let c := s.userCtx e.frond e.user
  let s := ((s.trkFree e).incSat (lf F.TRK_COUNTS_TIMEOUTS e.frond)).err (frondPg e.frond 0x1C0) 1
  (s.trkLast e.frond c.1 c.2 1 e.opc e.g).trkFail e

/-- TRACKER_TIMEOUT (R261, R271). -/
def execTrackerTimeout (f : Frond) (trk : BitVec 15) (s : State) : Host.Outcome State Fault Refusal :=
  match s.link.live.find? (fun e => e.frond == f && e.trk == trk.toNat) with
  | none => .next s
  | some e => .next (s.trkTimeout e)

/-- RELAY_TIMEOUT (R261, R293). -/
def execRelayTimeout (slot : Fin 64) (tag : BitVec 13) (s : State) : Host.Outcome State Fault Refusal :=
  match s.link.live.find? (fun e => e.user == .relay slot.val tag.toNat) with
  | none => .next s
  | some e => .next (s.trkTimeout e)

/-! ### Presence (R553) -/

/-- A port whose cable is gone is DOWN: what its queues hold is lost. (DESIGN CHOICE, log 38) -/
def State.portGone (s : State) (p : Nat) : State :=
  let u := s.port p
  if s.portState p = 0 ∨ 6 ≤ s.portState p then s
  else
    let s := s.incSat (pf F.LPORT_LOST_COUNT p) (u.unacked + u.queued)
    let s := s.setPort p { PortUnit.init with epoch := u.epoch }
    ((s.wr (pf F.LPORT_STATUS_STATE p) 0).wr (pf F.LPORT_STATUS_LANES_GOOD p) 0).wr (pf F.LPORT_STATUS_REJOIN_WAIT p) 0

/-- LPRSNT_CHANGE (R553). -/
def execLprsntChange (port : Fin 24) (present : Bool) (s : State) : Host.Outcome State Fault Refusal :=
  let p := port.val
  .next (
    if present then { s with link := { s.link with absent := clrBitN s.link.absent p } }
    else { s with link := { s.link with absent := setBitN s.link.absent p } }.portGone p)

end Sys2Proof.Machine
end

