-- ==== Sys2Proof/Machine/Supply.lean ====
section
/-! DEFINITION. Loss and return of supply: what the reset of all logic, the loss of power and STANDBY leave, the come-up of
the always-on domain, and the end of a stop (R25, R29, R325, R473, R507, R508, R559). -/

namespace Sys2Proof.Machine

/-! ### What is kept -/

/-- Fields copied from one state into another. -/
def State.copyFields (s : State) (old : State) (l : List Field) : State := l.foldl (fun s f => s.wr f (old.rd f)) s

/-- The sixteen words of a table of fused hashes. -/
def hashFields (f : Field) : List Field := (List.range 4).flatMap (fun k => (List.range 4).map (fun w => f.ij k w))

/-- Hard repairs of each stack. -/
def repairFields : List Field := (List.range 8).map (fun k => F.HBMC_PPR_HARD_USED.pg (hbmcPage k))

/-- What fuses hold. (DESIGN CHOICE, log 68) -/
def fuseFields : List Field := [F.SYS_SERIAL_SERIAL, F.HOSTP_MAC_MAC, F.FUSE_STATE_OWNER_SPOILED, F.FUSE_STATE_DEBUG_CLOSED,
  F.FUSE_STATE_OWNER_REQ, F.FUSE_STATE_ROLLBACK, F.FUSE_STATE_OWNER_REVOKED, F.FUSE_STATE_OWNER_VALID,
  F.FUSE_STATE_ROOT_REVOKED, F.DBG_CTRL_CLOSED] ++ hashFields F.ROOT_HASH_HASH ++ hashFields F.OWNER_HASH_HASH

/-- What flash holds, and what the pins of the pack show. (DESIGN CHOICE, log 68) -/
def keptFields : List Field := [F.SYS_UPTIME_POWER_CYCLES, F.SYS_UPTIME_OP_SECONDS, F.REC_STATUS_NEXT_SEQ,
  F.REC_WRITTEN_INDEX, F.REC_MIRRORED_INDEX, F.DUMP_STATUS_SEQ, F.DUMP_STATUS_FLASH_VALID, F.PACK_STATUS_PRSNT,
  F.PACK_STATUS_HVIL, F.PACK_STATUS_AUX_TAP] ++ repairFields

/-- The words of the last-fault record: of always-on SRAM, or of flash. -/
def State.lastFaultFrom (s : State) (l : List Word) : State :=
  (List.range 4).foldl (fun s i => s.setReg (lfKeys.getD i 0) (l.getD i 0)) s

/-! ### What is interrupted -/

/-- A flash write of a configuration block is cut short: the stored block fails CHECK (R515). (DESIGN CHOICE, log 66) -/
def State.cutCfg (s : State) : State :=
  match s.cfg.writing with
  | none => s
  | some (id, l) => s.cfgSetStored id (some (l.mapIdx (fun i w => if i = 1 then w ^^^ (BitVec.ofNat 64 (2 ^ 32)) else w)))

/-- A staging is cut short: the inactive slot is invalid (R523). -/
def State.cutFw (s : State) : State :=
  if s.rd F.FW_STATUS_STATE = 1 ∨ s.rd F.FW_STATUS_STATE = 2 then s.setSlotImage s.fw.unit (1 - s.fwActive s.fw.unit) []
  else s

/-- An ADD_OWNER is cut short: whether it had begun to blow its slot is a free value; if so the slot is SPOILED (R520).
(DESIGN CHOICE, log 65) -/
def State.cutFuse (s : State) : State :=
  let l := s.fuseBlock
  if s.fuse.running ∧ byteAt l 4 = 2 then
    let s' := if s.free % 2 = 1 then s.setBit F.FUSE_STATE_OWNER_SPOILED (byteAt l 5 % 4) else s
    s'.drawn
  else s

/-- A flush of the crash dump is cut short: its slot is invalid (R475). (DESIGN CHOICE, log 68) -/
def State.cutDump (s : State) : State :=
  if s.on F.DUMP_STATUS_FLUSHING then s.dumpSetSlot s.dumpOldest none else s

/-! ### All logic resets (R508, R559) -/

/-- All logic of the module resets; always-on SRAM keeps its contents while `sram` holds. Fuses, flash, the level of
WAKE_N (R560) and what the pins show stay. (DESIGN CHOICE, log 68) -/
def State.cold (s : State) (sram : Bool) : State :=
  let s := s.cutCfg.cutFw.cutFuse.cutDump
  let n : State := { State.reset with
    recorder := { Recorder.init with flash := s.recorder.flash }
    railSys := { RailSys.init with lfFlash := s.railSys.lfFlash, lfDirty := sram && s.railSys.lfDirty }
    dump := { DumpUnit.init with sram := if sram then s.dump.sram else none, slots := s.dump.slots }
    cfg := { CfgUnit.init with stored := s.cfg.stored, repaired := s.cfg.repaired }
    fw := { FwUnit.init with
      slots := s.fw.slots, prefer := s.fw.prefer, trial := s.fw.trial, count := s.fw.count }
    link := { LinkUnit.init with absent := s.link.absent }
    host := { HostUnit.init with present := s.host.present }
    chain := { ChainUnit.init with wakeN := s.chain.wakeN }
    power := { PowerUnit.init with hvilA := s.power.hvilA, hvilB := s.power.hvilB }
    outbox := s.outbox, draws := s.draws, pending := s.pending }
  (n.copyFields s (fuseFields ++ keptFields)).lastFaultFrom (if sram then lfKeys.map s.reg else s.railSys.lfFlash)

/-- RST_N_LOW (R559): the power stages shut down, the contactors open, no dump is captured, and the module is in STANDBY with
its logic in reset. -/
def execRstNLow (s : State) : Host.Outcome State Fault Refusal := .next (s.cold true)

/-- ALWAYS_ON_POWER_LOSS (R29): only flash and fuses keep what they hold. -/
def execAlwaysOnPowerLoss (s : State) : Host.Outcome State Fault Refusal := .next (s.cold false)

/-! ### Come-up (R438, R505, R508) -/

/-- The always-on SRAM is checked: a region whose check word fails is discarded. -/
def State.sramCheck (s : State) (dumpOk faultOk : Bool) : State :=
  let s := if dumpOk then s else { s with dump := { s.dump with sram := none } }
  let s := s.wr F.DUMP_STATUS_SRAM_VALID (b2n s.dump.sram.isSome)
  if faultOk then s else s.lastFaultFrom s.railSys.lfFlash

/-- The always-on domain comes up, and start-up begins at step 1. -/
def State.comeUp (s : State) (modId : Nat) (dumpOk faultOk : Bool) : State :=
  let s := s.cold true
  let s := { s with boot := { s.boot with up := true } }.wr F.LINK_ID_MOD_INDEX modId
  let s := ((s.inc F.SYS_UPTIME_POWER_CYCLES).sramCheck dumpOk faultOk).recComeUp.aliveSync
  (s.event 0x70 0x4004).wr F.SYS_BOOT_STEP 1

/-- ALWAYS_ON_COME_UP (R508): the supply has been valid for 5 ms with RST_N high. -/
def execAlwaysOnComeUp (modId : BitVec 6) (dumpOk faultOk : Bool) (s : State) : Host.Outcome State Fault Refusal :=
  .next (if s.boot.up then s else s.comeUp modId.toNat dumpOk faultOk)

/-! ### STANDBY (R25, R325, R507, R570) -/

/-- A page of a block that STANDBY leaves without power: those of the fronds, of work, links and the host port.
(DESIGN CHOICE, log 68) -/
def unpoweredPage (p : Nat) : Bool :=
  match pageInfo p with
  | none => false
  | some i => decide (i.frond < 2) || [PageKind.ctxt, .dom, .part, .subp, .linkm, .coll, .hostp, .bryn].contains i.kind

/-- The blocks outside the always-on domain lose power, and with it all they hold. (DESIGN CHOICE, log 68) -/
def State.unpower (s : State) : State :=
  let n : State := { s with
    regs := s.regs.filter (fun e => !unpoweredPage (e.1 / 4096))
    sels := s.sels.filter (fun e => !unpoweredPage (e.1 % 2 ^ 32 / 4096))
    latches := s.latches.filter (fun l => !unpoweredPage l.1)
    mem := [], poison := [], frondReset := false, tiles := [], hbm := []
    ring := RingUnit.init, work := WorkUnit.init, hang := HangUnit.init
    col := { s.col with inverted := [], placed := s.col.placed.filter (fun e => !unpoweredPage e.1) }
    link := { LinkUnit.init with absent := s.link.absent }
    sessions := [], host := { HostUnit.init with present := s.host.present }
    ficA := IntCtl.init, ficB := IntCtl.init }
  n.copyFields s ([F.LINK_ID_MOD_INDEX, F.HOSTP_MAC_MAC] ++ repairFields)

/-- The rails are down: every rail is OFF or in FAULT. -/
def State.railsDown (s : State) : Bool := allRails.all (fun r => s.railState r == 0 || s.railState r == 4)

/-- A converter stops; one in FAULT keeps showing it. -/
def State.convOff (s : State) (f : Field) : State := if s.rd f = 5 then s else s.wr f 0

/-- A stop ends in STANDBY: the converters stop, the contactors open, the units sleep, the pack is RELEASED, and the tray
controller is told (R325, R406, R477, R570); rest windows pass to LOOP_TIME when PTP goes (R430).
(DESIGN CHOICE, log 49; DESIGN CHOICE, log 67) -/
def State.stopEnd (s : State) : State :=
  let tai := s.restTai
  let s := if s.mode = 4 then s.rtRecord else s
  let s := (s.convOff F.FC_STATUS_STATE).convOff F.BC_STATUS_STATE
  let s := if s.packState = 0 then s.contactor 0 7 else s.contactorsOpen 7 7
  let s := { s.changeMode 0 true with railSys := { s.railSys with seq := 0 } }
  let s := { s with power := { s.power with stopPhase := 0 } }.wr F.PWR_STATUS_STOPPING 0
  let s := ((s.wr F.RAIL_SYS_STATUS_SEQ_BUSY 0).unpower.wr F.SYS_BOOT_STEP 0).ibi 3
  if s.restTai = tai then s else s.restRebase

/-- STOP_COMPLETE (R325). -/
def execStopComplete (s : State) : Host.Outcome State Fault Refusal :=
  .next (if s.power.stopPhase = 2 ∧ s.railsDown then s.stopEnd else s)

/-- STANDBY_BUS_RETURN (R25, R507, R509): start-up runs again from step 4, whose blocks it loads and whose 1 s it counts
from now. HALTED, FAILED and a requested power cycle are left only through a come-up. (DESIGN CHOICE, log 67) -/
def execStandbyBusReturn (s : State) : Host.Outcome State Fault Refusal :=
  let st := s.rd F.SYS_BOOT_STATE
  .next (
    if s.boot.up && s.mode == 0 && s.power.stopPhase == 0 && s.rd F.SYS_BOOT_STEP == 0 && decide (st ≤ 2)
        && !s.on F.MCOL_STATUS_PC_REQ then
      let s := { s with boot := { s.boot with retried := false } }.wr F.SYS_BOOT_RT_STATE 0
      ((s.wr F.SYS_BOOT_STEP 4).wr F.SYS_BOOT_STATE 1).loadPower
    else s)

end Sys2Proof.Machine
end

