-- ==== Sys2Proof/Machine/Startup.lean ====
section
/-! DEFINITION. The start-up sequence and its failures (R141, R153, R164, R357, R509-R511). -/

namespace Sys2Proof.Machine

/-! ### Failures (R510) -/

/-- A failure is recorded: FAIL_STEP, FAIL_CODE and event 0x0003. -/
def State.bootFail (s : State) (step code : Nat) : State :=
  ((s.wr F.SYS_BOOT_FAIL_STEP step).wr F.SYS_BOOT_FAIL_CODE code).event 0 0x0003 step code

/-- HALTED: FAULT_N is held low and the steward runs nothing further (R450, R510). -/
def State.bootHalt (s : State) (step code : Nat) : State :=
  let s := (s.bootFail step code).wr F.SYS_BOOT_STATE 4
  ((s.wr F.SYS_BOOT_STEP 0).wr F.MCOL_STATUS_FAULT_N_OUT 1).event 0x80 0xA003

/-- FAILED: an immediate stop, of the IB or of a rail by its cause. (DESIGN CHOICE, log 52; DESIGN CHOICE, log 67) -/
def State.bootFailed (s : State) (step code cause : Nat) : State :=
  let s := ((s.bootFail step code).wr F.SYS_BOOT_STATE 5).wr F.SYS_BOOT_STEP 0
  s.stopBegin cause true

/-- RECOVERY (R511): the ROM takes over with the ROM defaults of every block. -/
def State.bootRecovery (s : State) (code : Nat) : State :=
  let s := ((s.bootFail 3 code).wr F.SYS_BOOT_STATE 3).wr F.SYS_BOOT_STEP 0
  (s.event 0 0x0004).loadRom

/-! ### Training (R141, R144, R164) -/

/-- A stack trains: INIT at the rate reached; one that fails at every rate is fenced, and a trial of the training image
reverts. -/
def State.stackTrain (s : State) (k : Nat) (rate : Nat) : State :=
  if s.frondFenced (k / 4) then s
  else
    let g := fun (x : Field) => x.pg (hbmcPage k)
    if bitOf s.fw.dead 4 ∨ 3 ≤ rate then
      let s := (List.range 32).foldl (fun s c => s.pcFence (k / 4) (k % 4 * 32 + c)) s
      let s := ((s.err (hbmcPage k) 4).wr (g F.HBMC_STATUS_STATE) 5).wr (g F.HBMC_STATUS_RATE) 3
      if bitOf s.fw.trial 4 then s.fwRevert 4 else s
    else (s.wr (g F.HBMC_STATUS_STATE) 2).wr (g F.HBMC_STATUS_RATE) rate

/-- The stacks that have trained are READY. -/
def State.stacksReady (s : State) : State :=
  (List.range 8).foldl (fun s k => s.when (s.rd (F.HBMC_STATUS_STATE.pg (hbmcPage k)) == 2) (fun s =>
    s.wr (F.HBMC_STATUS_STATE.pg (hbmcPage k)) 3)) s

/-- The frond bridge trains: UP, or FAILED with BRIDGE_FAIL on both fronts. -/
def State.bridgeTrain (s : State) (ok : Bool) : State :=
  [Frond.A, Frond.B].foldl (fun s f =>
    let s := s.wr (hf F.BRIDGE_STATUS_STATE f.idx) (if ok then 1 else 2)
    let s := s.setHbmF f.idx { s.hbmF f.idx with bridgeFails := 0 }
    if ok then s else s.err (frondPg f 0x104) 3) s

/-- The stacks and the bridge train. -/
def State.memTrain (s : State) (res : Training) : State :=
  ((List.range 8).foldl (fun s k => s.stackTrain k ((res.rates.map BitVec.toNat).getD k 3)) s).bridgeTrain res.bridge

/-- The stacks of the unfenced fronds begin to train. -/
def State.memTrainBegin (s : State) : State :=
  let s := (List.range 8).foldl (fun s k => if s.frondFenced (k / 4) then s
    else s.wr (F.HBMC_STATUS_STATE.pg (hbmcPage k)) 1) s
  (s.wr (hf F.BRIDGE_STATUS_STATE 0) 0).wr (hf F.BRIDGE_STATUS_STATE 1) 0

/-- A full calibration of every tile begins (R83). -/
def State.calBegin (s : State) : State :=
  [Frond.A, Frond.B].foldl (fun s f =>
    if s.frondFenced f.idx then s
    else s.fullCalBegin f) s

/-- No full calibration runs. -/
def State.calDone (s : State) : Bool :=
  !s.on (acf F.ACAL_STATUS_FULL_CAL_BUSY .A) && !s.on (acf F.ACAL_STATUS_FULL_CAL_BUSY .B)

/-- Every port takes its enables, and those that may train do (R272). -/
def State.portsTrain (s : State) : State :=
  (List.range 24).foldl (fun s p =>
    let s := s.portEnables p
    if s.portState p = 0 ∧ s.portMay p then s.wr (pf F.LPORT_STATUS_STATE p) 1 else s) s

/-- No port trains. -/
def State.portsDone (s : State) : Bool := (List.range 24).all (fun p => s.portState p != 1)

/-- The fronds that fail self-test are fenced; in start-up each failure is recorded (R510). -/
def State.lbistFences (s : State) (bad : List Frond) (boot : Bool) : State :=
  bad.foldl (fun s f => if boot then (s.frondFence f).bootFail 6 9 else s.frondFence f) s

/-! ### The runtime (R509, R518) -/

/-- The control cores verify and boot the runtime. -/
def State.rtStart (s : State) : State :=
  let r := s.fwBoot 2
  if r.2 then r.1.runtimeBoot else (r.1.wr F.SYS_BOOT_RT_STATE 3).bootFail 11 0x0A

/-! ### Steps (R509) -/

/-- A GCS image on trial counts the start-up; its third reverts it, and the units take the previous slot again (R414, R525).
(DESIGN CHOICE, log 64) -/
def State.gcsTrial (s : State) : State :=
  let t := s.fwTrialBoot 5
  let u := t.fwRun 5 (t.fwPrefer 5)
  if t.fwPrefer 5 = s.fwPrefer 5 then u else u.gcsStart

/-- Step 3: the images of the steward, power cores, links and HBM training. -/
def State.bootImages (s : State) : State :=
  let a := s.gcsTrial.fwBoot 0
  if !a.2 then a.1.bootRecovery 3
  else
    let b := a.1.fwBoot 1
    if !b.2 then b.1.bootRecovery 4
    else
      let c := b.1.fwBoot 3
      let s := if c.2 then c.1 else (List.range 24).foldl State.portEnables (c.1.bootFail 3 5)
      let d := s.fwBoot 4
      let s := if d.2 then d.1 else d.1.bootFail 3 6
      ((s.wr F.SYS_BOOT_STEP 4).loadPower).wr F.SYS_BOOT_STATE 1

/-- Step 4 ends once the IB has reached its band, and a pack present begins its insertion. (DESIGN CHOICE, log 67) -/
def State.bootIb (s : State) (ok : Bool) : State :=
  if s.rd F.FC_STATUS_STATE ≠ 1 then s
  else if !ok then s.bootFailed 4 7 5
  else
    let s := { s with boot := { s.boot with retried := false } }.wr F.FC_STATUS_STATE 2
    let s := s.wr F.SYS_BOOT_STEP 5
    if s.on F.PACK_STATUS_PRSNT then s.insertBegin else s

/-- In RECOVERY the IB has risen: BUS_ONLY, the rails of stages 0 and 3, and the host port (R511). -/
def State.recoveryIb (s : State) (ok : Bool) : State :=
  if s.rd F.FC_STATUS_STATE ≠ 1 then s
  else if !ok then s.bootFailed 4 7 5
  else
    let s := (s.wr F.FC_STATUS_STATE 2).changeMode 1 true
    let s := (s.stageRails 0 ++ s.stageRails 3).foldl State.railStart s
    s.hostTrain.ptpEnable

/-- Step 5 ends with the last rail: BUS_ONLY, and the fronds leave reset at OP0. -/
def State.bootRails (s : State) : State :=
  if !s.on F.RAIL_SYS_STATUS_ALL_PGOOD then s
  else (((s.changeMode 1 true).wr F.SYS_BOOT_STEP 6).cfgRest 5 onFrond).arbBoth

/-- Step 8: HBM and the bridge train; then HBM is zeroed, with every stack that has trained in INIT, which ends the step, and
the ports train. (DESIGN CHOICE, log 67) -/
def State.bootMem (s : State) (res : Training) : State :=
  if s.rd (hf F.BRIDGE_STATUS_STATE 0) = 0 then s.memTrain res
  else
  let s := (s.stacksReady.memZero 0 0xA000000000).wr F.SYS_BOOT_STEP 9
  (s.cfgLoad 7 (onKind .lport)).portsTrain

/-- Step 11 ends: READY, and the runtime boots. -/
def State.bootReady (s : State) : State :=
  let s := (s.cfgRest 7 (onKind .linkm)).cfgLoad 8 (fun _ => true)
  let ms := s.now / 250000
  let s := ((s.wr F.SYS_BOOT_STEP 0).wr F.SYS_BOOT_STATE 2).wrSat F.SYS_BOOT_TIME_READY_MS ms
  ((s.event 0 0x0002 ms).ptpEnable).rtStart

/-- The step in progress ends and the next begins. -/
def State.bootStep (s : State) (res : Training) : State :=
  match s.rd F.SYS_BOOT_STEP with
  | 0 => if s.rd F.SYS_BOOT_STATE = 3 then s.recoveryIb res.ok else s
  | 1 => if res.ok then s.wr F.SYS_BOOT_STEP 2 else s.bootHalt 1 1
  | 2 =>
    if res.ok then
      ((List.range 4).foldl (fun s w => s.wr (F.SYS_ID_HASH_HASH.i w) ((digestWords (keyDigest identityKey)).getD w 0)) s).wr
        F.SYS_BOOT_STEP 3
    else s.bootHalt 2 2
  | 3 => s.bootImages
  | 4 => s.bootIb res.ok
  | 5 => s.bootRails
  | 6 => ((if s.on F.RST_CTRL_LBIST then s.lbistFences res.lbistBad true else s).wr F.SYS_BOOT_STEP 7).calBegin
  | 7 => if s.calDone then ((s.wr F.SYS_BOOT_STEP 8).cfgLoad 6 (fun _ => true)).memTrainBegin else s
  | 8 => s.bootMem res
  | 9 => if s.portsDone then (s.wr F.SYS_BOOT_STEP 10).hostTrain else s
  | 10 => s.wr F.SYS_BOOT_STEP 11
  | 11 => s.bootReady
  | _ => s

/-- STARTUP_STEP_COMPLETE (R509-R511). -/
def execStartupStepComplete (res : Training) (s : State) : Host.Outcome State Fault Refusal :=
  .next (if s.boot.up && s.power.stopPhase == 0 then s.bootStep res else s)

/-- STARTUP_BUS_WAIT_END (R333, R509, R511): with both HVIL loops closed LS0 and LS2 close, and the IB soft-starts. -/
def execStartupBusWaitEnd (s : State) : Host.Outcome State Fault Refusal :=
  let st := s.rd F.SYS_BOOT_STATE
  .next (
    if s.boot.up && s.power.stopPhase == 0 && s.mode == 0 && s.rd F.FC_STATUS_STATE == 0
        && s.power.hvilA && s.power.hvilB && ((st == 1 && s.rd F.SYS_BOOT_STEP == 4) || st == 3) then
      let s := ((s.lsClose 0).lsClose 2).wr F.FC_STATUS_STATE 1
      if st = 1 then s.wr F.SYS_BOOT_STATE 0 else s
    else s)

/-- RUNTIME_READY_TIMEOUT (R510): the boot of a handover ends under R525 instead. -/
def execRuntimeReadyTimeout (s : State) : Host.Outcome State Fault Refusal :=
  .next (
    if s.rd F.SYS_BOOT_RT_STATE == 1 && !(s.fw.unit == 2 && s.rd F.FW_STATUS_STATE == 5) then
      (s.wr F.SYS_BOOT_RT_STATE 3).bootFail 11 0x0A
    else s)

/-- RAIL_START_FAIL (R357, R510): the rails stop; step 5 is repeated once. -/
def execRailStartFail (rail : Fin 12) (s : State) : Host.Outcome State Fault Refusal :=
  let r := rail.val
  .next (
    if s.railSys.seq == 1 && s.railState r == 1 then
      let s := ((s.err (railPage r) 8).event (railPage r) 0x2030).railLastFault r 8 0
      let s := s.railsStop
      if s.boot.retried then s.bootFailed 5 8 7
      else { s with boot := { s.boot with retried := true } }.bootFail 5 8
    else s)

end Sys2Proof.Machine
end

