-- ==== Sys2Proof/Machine/ChipPhase.lean ====
section
/-! DEFINITION. The phases of a chip reset: what it returns to Reset, what it keeps, retraining and the rebuild of the HBM
map (R155, R455, R466, R473, R526, R546). -/

namespace Sys2Proof.Machine

/-! ### Registers (R473) -/

/-- Pages that a chip reset returns to Reset: the frond pages, CTXT, PART and SUBP. -/
def chipPage (p : Nat) : Bool :=
  match pageInfo p with
  | none => false
  | some i => decide (i.frond < 2) || [PageKind.ctxt, .part, .subp].contains i.kind

/-- Registers of such a page that are kept: ERR_ fields, error counts and logs, and the settings that the rule names. The
lock of a page that is no frond page stays (R546). (DESIGN CHOICE, log 58) -/
def chipKeeps (k : PageKind) (off : Nat) : Bool :=
  let within := fun lo hi => decide (lo ≤ off) && decide (off < hi)
  within 0x20 0x40 ||
  match k with
  | .tmap => within 0x200 0x600
  | .tile => within 0x210 0x228
  | .store => within 0x110 0x120
  | .hbmf => off == 0x100 || within 0x148 0x160
  | .hbmc => within 0x118 0x128
  | .ring => off == 0x100 || off == 0x140
  | .eng => within 0x110 0x130 || off == 0x148
  | .core => off == 0x108 || off == 0x118
  | .linkf => within 0x108 0x128
  | .lport => off == 0x100 || off == 0x118 || off == 0x130
  | .fcol => within 0x100 0x1000
  | .subp => off == 0x10 || off == 0x108
  | .ctxt => off == 0x10
  | .part => off == 0x10
  | _ => false

/-- A chip reset returns the register of this key to Reset. (DESIGN CHOICE, log 58) -/
def chipDrops (key : Nat) : Bool :=
  chipPage (key / 4096) && !(match pageInfo (key / 4096) with | some i => chipKeeps i.kind (key % 4096) | none => true)

/-- Fields of registers returned to Reset that keep their value: FENCE and the fenced states, counts of errors, the fences
that the map rebuild reads, and the retired pages in use. -/
def State.chipFields (s : State) : List Field :=
  let fr := [Frond.A, Frond.B]
  let fences := ((s.regs.map (fun e => e.1)).filter (fun k => k % 4096 == 0x10 && chipPage (k / 4096))).map
    (fun k => F.BLK_CTRL_FENCE.pg (k / 4096))
  let tiles := fr.flatMap (fun f => (List.range 132).flatMap (fun p =>
    (if s.tileState f p = 4 then [tf F.TILE_STATUS_STATE f p, tf F.TILE_STATUS_LOGICAL f p, tf F.TILE_STATUS_ARR_IN_SERVICE f p]
     else []) ++
    (if s.arraysFenced f p = 0 then []
     else [tf F.ARR_SLOT_SPARE f p, tf F.ARR_SLOT_ROT_STATE f p] ++ (List.range 4).map (fun k => tf (slotField k) f p)
       ++ (List.range 5).map (fun a => af F.ARR_STATUS_ARR_STATE f p a)) ++
    (List.range 5).map (fun a => af F.ARR_STATUS_CAL_FAILS f p a)))
  let engs := fr.flatMap (fun f => (List.range 44).flatMap (fun n =>
    ef F.ENG_STATUS_GEN f n :: if s.rd (ef F.ENG_STATUS_STATE f n) = 2 then [ef F.ENG_STATUS_STATE f n] else []))
  let cores := fr.flatMap (fun f => (List.range 8).flatMap (fun c =>
    F.CORE_STATUS_CE_COUNT.pg (corePage f c) ::
      if s.rd (F.CORE_STATUS_STATE.pg (corePage f c)) = 4 then [F.CORE_STATUS_STATE.pg (corePage f c)] else []))
  let ports := ((List.range 24).filter (fun p => s.portState p == 6)).map (fun p => pf F.LPORT_STATUS_STATE p)
  let mem := (List.range 8).flatMap (fun k =>
    [F.HBMC_STATUS_STATE.pg (hbmcPage k), F.HBMC_STATUS_FENCED.pg (hbmcPage k), F.HBMC_PPR_HARD_USED.pg (hbmcPage k)])
  let maps := [0, 1].flatMap (fun f => [hf F.BRIDGE_STATUS_RETRIES f, hf F.HBMF_STATUS_RET_USED f, hf F.HBMF_STATUS_FENCED_PC f,
    (hf F.HBMF_FENCE_PC f).i 0, (hf F.HBMF_FENCE_PC f).i 1])
  let rings := fr.map (fun f => F.RING_STATUS_FENCED.pg (frondPg f 0x120))
  fences ++ tiles ++ engs ++ cores ++ ports ++ mem ++ maps ++ rings
    ++ (List.range 64).map (fun p => F.PART_STATUS_GEN.i p) ++ [F.SUB_COUNT_REJECTED]

/-- The registers of a chip reset; generations of engines and partitions advance. -/
def State.chipRegs (s : State) : State :=
  let n : State := { s with
    regs := s.regs.filter (fun e => !chipDrops e.1)
    sels := s.sels.filter (fun e => !chipPage (e.1 % 2 ^ 32 / 4096)) }
  let n := n.copyFields s s.chipFields
  let n := [Frond.A, Frond.B].foldl (fun n f => (List.range 44).foldl (fun n k => n.inc (ef F.ENG_STATUS_GEN f k)) n) n
  (List.range 64).foldl (fun n p => n.inc (F.PART_STATUS_GEN.i p)) n

/-! ### Units (R465, R472-R474) -/

/-- Every context is FREE: its generation advances; its fault and its energy stay. (DESIGN CHOICE, log 58) -/
def WorkUnit.chip (w : WorkUnit) : WorkUnit :=
  let keep := fun (e : Nat × Ctx) =>
    let x : Ctx := { Ctx.init with gen := e.2.gen, fault := e.2.fault, energy := e.2.energy }
    if x = Ctx.init then none else some (e.1, x)
  { w with
    ctxs := w.ctxs.filterMap keep, genBase := w.genBase + 1,
    counters := (w.counters.map (fun e => (e.1, e.2 / 2 ^ 32 * 2 ^ 32))).filter (fun e => e.2 != 0),
    turn := [], building := [], passed := [], held := [], heldRelays := [] }

/-- A tile's memory of its calibrations and of its last domain stays. -/
def tileChip (u : TileUnit) : TileUnit := { TileUnit.init with calNo := u.calNo, calAt := u.calAt, lastDom := u.lastDom }

/-- Who waits for a link answer learns that none comes: sessions and LINK_PING. -/
def State.trkLost (s : State) (e : Trk) : State :=
  match e.user with
  | .relay _ _ => s.trkFail e
  | .ping => s.trkFail e
  | _ => s

/-- The fronds' trackers and write groups are freed. (DESIGN CHOICE, log 41) -/
def State.linksLost (s : State) : State :=
  let l := s.link.live
  let s := { s with link := { s.link with live := [], groups := [], waiting := [], stalled := [] } }.trkSync
  l.foldl (fun s e => s.trkLost e) s

/-- The interrupt lines of the collectors and of the links are seen again. -/
def State.linesAgain (s : State) : State :=
  let s := (List.range 27).foldl State.mfsLine s
  [Frond.A, Frond.B].foldl (fun s f =>
    let s := (List.range 15).foldl (fun s b => s.ffsLine f b) s
    s.irqRaw (.fic f) 24 (s.on (lf F.LINK_CORE_ERR_VALID f))) s

/-- Held accesses are aborted. (DESIGN CHOICE, log 58) -/
def State.heldAbort (s : State) : State :=
  let l := s.work.held
  let s := { s with work := { s.work with held := [] } }
  l.foldl (fun (s : State) _ => s.answer Res.err) s

/-- The units of the fronds enter reset. -/
def State.chipUnits (s : State) : State :=
  let s := s.heldAbort.linksLost.chipRegs
  let s := { s with
    work := s.work.chip
    tiles := (s.tiles.map (fun (e : Nat × TileUnit) => (e.1, tileChip e.2))).filter (fun e => decide (e.2 ≠ TileUnit.init))
    ring := { s.ring with engines := [] }
    ficA := IntCtl.init, ficB := IntCtl.init, hang := HangUnit.init
    col := { s.col with placed := s.col.placed.filter (fun e => !chipPage e.1) } }
  let s := s.memZero 0xD0000000000 0x2000000
  (s.wr F.DBG_CTRL_UNLOCK 0).linesAgain

/-- A fenced frond whose cause is cleared comes back under FROND_RETRY: its rails start again (R455).
(DESIGN CHOICE, log 57) -/
def State.frondReturn (s : State) (f : Frond) : State :=
  let lost := bitOf (s.rd (errStatus 0x80)) (1 + f.idx)
  if s.frondFenced f.idx && s.on F.RST_CTRL_FROND_RETRY && !lost && s.rd (errStatus (frondPg f 0x108)) == 0 then
    let s := s.wr (match f with | .A => F.MCOL_STATUS_FROND_A_FENCED | .B => F.MCOL_STATUS_FROND_B_FENCED) 0
    let s := s.wr (F.BLK_CTRL_FENCE.pg (frondPg f 0x108)) 0
    [f.idx, 2 + f.idx].foldl (fun s r => if s.railState r = 0 then s.railStart r else s) s
  else s

/-- Phase 1: stacks refresh themselves, units enter reset, ports leave UP. (DESIGN CHOICE, log 58) -/
def State.chipEnter (s : State) : State :=
  let s := [Frond.A, Frond.B].foldl (fun s f => s.frondReturn f) s
  let s := [Frond.A, Frond.B].foldl (fun s f => if s.frondFenced f.idx then s else (s.frondHalt f).stacksTo f 4) s
  let s := s.chipUnits
  (List.range 24).foldl State.portEnables s

/-! ### The map (R155) -/

/-- A frond's map is rebuilt around the fences then in force; entries whose target they touch take new targets.
(DESIGN CHOICE, log 58) -/
def State.mapRebuild (s : State) (f : Nat) : State :=
  let fenced := (List.range 128).filter (s.pcBit F.HBMF_FENCE_PC f)
  let s := [0, 1].foldl (fun s w =>
    (s.wr ((hf F.HBMF_MAP_PC f).i w) (s.rd ((hf F.HBMF_FENCE_PC f).i w))).wr ((hf F.HBMF_FENCE_PC f).i w) 0) s
  let s := (List.range 4).foldl (fun s k => s.wr (F.HBMC_STATUS_FENCED.pg (hbmcPage (4 * f + k))) 0) s
  let s := (s.wr (hf F.HBMF_STATUS_FENCED_PC f) 0).wr (hf F.HBMF_STATUS_VISIBLE_MB f) (319 * 1024 - 2560 * fenced.length)
  let h := s.hbmF f
  let touched := fun (e : Retired) =>
    (List.range 4).any (fun i => fenced.contains (granulePc (poolBase / 1024 + e.target * 4 + i)))
  let keep := (h.table.filter (fun e => !touched e)).map (·.target)
  let t := h.table.foldl (fun (acc : List Retired) e =>
    if touched e then
      match s.poolFind f e.page (keep ++ acc.map (·.target)) poolPages 0 with
      | some k => acc ++ [{ e with target := k }]
      | none => acc ++ [e]
    else acc ++ [e]) []
  s.setHbmF f { h with table := t, relocWritten := [], relocZeroed := [], bridgeFails := 0, credit := [], openFor := [] }

/-- HBM and the bridge have retrained with the image that is preferred, and both maps are rebuilt. (DESIGN CHOICE, log 58) -/
def State.chipMem (s : State) (res : Training) : State :=
  let s := if bitOf s.fw.trial 4 then s.fwRun 4 (s.fwPrefer 4) else s
  [0, 1].foldl (fun s f => if s.frondFenced f then s else s.mapRebuild f) (s.memTrain res).stacksReady

/-! ### The sequence (R466) -/

/-- The end of a chip reset. -/
def State.chipEnd (s : State) : State :=
  let s := { s with frondReset := false }.wr F.RST_STATUS_PHASE 0
  ((s.stepClose 4 0 false).event 0x82 0x9034).arbBoth

/-- A phase ends and the next begins: 0 the stop of dispatch, 1 reset, 2 self-test, 3 full calibration, 4 HBM and bridge,
5 ports, 6 the runtime. (DESIGN CHOICE, log 58) -/
def State.chipPhase (s : State) (res : Training) : State :=
  match s.rd F.RST_STATUS_PHASE with
  | 0 => s.chipEnter.wr F.RST_STATUS_PHASE 1
  | 1 =>
    if s.on F.RST_CTRL_LBIST then s.wr F.RST_STATUS_PHASE 2 else (s.wr F.RST_STATUS_PHASE 3).calBegin
  | 2 => ((s.lbistFences res.lbistBad false).wr F.RST_STATUS_PHASE 3).calBegin
  | 3 => if s.calDone then (s.wr F.RST_STATUS_PHASE 4).memTrainBegin else s
  | 4 => ((s.chipMem res).wr F.RST_STATUS_PHASE 5).portsTrain
  | 5 => if s.portsDone then (s.rtStart.loadChip).wr F.RST_STATUS_PHASE 6 else s
  | 6 => s.chipEnd
  | _ => s

/-- CHIP_RESET_PHASE_DONE (R466). -/
def execChipResetPhaseDone (res : Training) (s : State) : Host.Outcome State Fault Refusal :=
  .next (if s.rd F.RST_STATUS_STEP = 4 then s.chipPhase res else s)

end Sys2Proof.Machine
end

