-- ==== Sys2Proof/Machine/I3c.lean ====
section
/-! DEFINITION. The I3C target of the tray interface: common command codes (R557). -/

namespace Sys2Proof.Machine

/-- The module answers on I3C: out of reset, from the end of step 1 of start-up on. (PRESUMED, log 72) -/
def State.i3cUp (s : State) : Bool := s.boot.up && s.rd F.SYS_BOOT_STEP != 1

/-- The module has a dynamic address and answers at it. -/
def State.i3cOn (s : State) : Bool := s.i3cUp && s.tray.address.isSome

/-- The tray assigns an address; a module that has one keeps it. (PRESUMED, log 72) -/
def State.i3cAddress (s : State) (addr : Nat) : State :=
  if s.i3cUp && s.tray.address.isNone then { s with tray := { s.tray with address := some addr } } else s

/-- I3C_SETDASA (R557): the address assigned to the static address 0x2D. -/
def execI3cSetdasa (addr : BitVec 7) (s : State) : Host.Outcome State Fault Refusal := .next (s.i3cAddress addr.toNat)

/-- I3C_ENTDAA (R557). -/
def execI3cEntdaa (addr : BitVec 7) (s : State) : Host.Outcome State Fault Refusal := .next (s.i3cAddress addr.toNat)

/-- I3C_RSTDAA (R557). -/
def execI3cRstdaa (s : State) : Host.Outcome State Fault Refusal :=
  .next (if s.i3cUp then { s with tray := { s.tray with address := none } } else s)

/-- The enabled events after ENEC or DISEC. -/
def State.i3cEvents (s : State) (v : Nat) : State :=
  if s.i3cOn then { s with tray := { s.tray with events := v } } else s

/-- I3C_ENEC (R557). -/
def execI3cEnec (mask : BitVec 8) (s : State) : Host.Outcome State Fault Refusal :=
  .next (s.i3cEvents (s.tray.events ||| mask.toNat))

/-- I3C_DISEC (R557). -/
def execI3cDisec (mask : BitVec 8) (s : State) : Host.Outcome State Fault Refusal :=
  .next (s.i3cEvents (s.tray.events &&& (255 - mask.toNat)))

/-- An answer at the dynamic address. -/
def State.i3cAnswer (s : State) (l : List Nat) : State := if s.i3cOn then s.put (.answer true false l) else s

/-- The provisional ID, most significant byte first: MOD_ID in [5:0], low bits of SYS_SERIAL in [31:6]. -/
def State.i3cPid (s : State) : Nat :=
  Config.i3cOpen 0 % 2 ^ 16 * 2 ^ 32 + s.rd F.SYS_SERIAL_SERIAL % 2 ^ 26 * 2 ^ 6 + s.rd F.LINK_ID_MOD_INDEX % 64

/-- I3C_GETPID (R557). -/
def execI3cGetpid (s : State) : Host.Outcome State Fault Refusal := .next (s.i3cAnswer (leBytes 6 s.i3cPid).reverse)

/-- I3C_GETBCR (R557): IBI capable, with a mandatory byte. -/
def execI3cGetbcr (s : State) : Host.Outcome State Fault Refusal :=
  let v := Config.i3cOpen 1 % 256
  .next (s.i3cAnswer [v / 8 * 8 + 6 + v % 2])

/-- I3C_GETDCR (R557). -/
def execI3cGetdcr (s : State) : Host.Outcome State Fault Refusal := .next (s.i3cAnswer [Config.i3cOpen 2 % 256])

/-- I3C_GETSTATUS (R557): the word is what the spec leaves to the I3C standard, so it is open each time. (PRESUMED, log 72) -/
def execI3cGetstatus (s : State) : Host.Outcome State Fault Refusal :=
  .next (if s.i3cOn then (s.put (.answer true false [s.free / 256 % 256, s.free % 256])).drawn else s)

end Sys2Proof.Machine
end

