-- ==== Sys2Proof/Machine/PhaseFire.lean ====
section
/-! DEFINITION. The firing of event-table entries and their actions (R45-R50, R567, R568). -/

namespace Sys2Proof.Machine

/-- The controllers that an IRQ action's TARGET names (R46's table, R482). -/
def evtCtls (t : Nat) : List (Ctl × Nat) :=
  if t = 0 then [(.pic, 32)] else if t = 1 then [(.fic .A, 16)] else if t = 2 then [(.fic .B, 16)]
  else [(.fic .A, 16), (.fic .B, 16)]

/-- IRQ: EV_IRQ[line] sets, and the line is pulsed at each targeted controller. -/
def State.evtIrq (s : State) (t line : Nat) : State :=
  (evtCtls t).foldl (fun s c => s.irqPulse c.1 (c.2 + line)) (s.setBit F.PHASE_EVENTS_EV_IRQ line)

/-- The open windows of a kind with those of a mask opened or closed (R47). -/
def windowsTo (w mask : Nat) (opened : Bool) : Nat := if opened then w ||| mask else w &&& (mask ^^^ 0xFF)

/-- A calibration window opens; calibration that waited for it may start (R87, R89). -/
def State.evtCalOpen (s : State) (mask : Nat) : State :=
  let s := { s with phase := { s.phase with calOpen := windowsTo s.phase.calOpen mask true } }
  (s.when (bitOf mask 0) (fun s => s.fullCalPoke .A)).when (bitOf mask 1) (fun s => s.fullCalPoke .B)

/-- OP_PREF: the preferred point until the next segment start, at which the arbiter evaluates (R50). -/
def State.evtOpPref (s : State) (op : Nat) : State :=
  ({ s with phase := { s.phase with opPref := some op } }).arbBoth

/-- A SWEEP firing is passed to the chain master, which ignores it in FREE, in ACQUIRE and during an insertion; an entry
whose SAMPLE has been sent is served (R48, R394). -/
def State.sweepAsk (s : State) (q : Firing) : State :=
  if !s.locked || (s.chain.inserting && decide (2 ≤ s.rd F.PACK_STATUS_STATE))
      || (if q.ended then s.chain.sweptPrev else s.chain.swept).contains q.entry then s
  else { s with chain := { s.chain with sweepAsks := s.chain.sweepAsks + 1 } }

/-- The action of a firing (R46's table). (DESIGN CHOICE, log 26) -/
def State.evtAction (s : State) (q : Firing) : State :=
  let w := q.act
  let a := F.PHEV_ACT_ACTION.get w
  let t := F.PHEV_ACT_TARGET.get w
  let g := F.PHEV_ACT_ARG.get w
  if a = 0x01 then s.counterAdd t g
  else if a = 0x02 then { s with phase := { s.phase with refreshOpen := windowsTo s.phase.refreshOpen t true } }
  else if a = 0x03 then { s with phase := { s.phase with refreshOpen := windowsTo s.phase.refreshOpen t false } }
  else if a = 0x04 then s.evtCalOpen t
  else if a = 0x05 then { s with phase := { s.phase with calOpen := windowsTo s.phase.calOpen t false } }
  else if a = 0x06 then (s.when (bitOf t 0) (fun s => s.rotTriggerAll .A)).when (bitOf t 1) (fun s => s.rotTriggerAll .B)
  else if a = 0x07 then s.sweepAsk q
  else if a = 0x08 then s.evtOpPref g
  else if a = 0x09 then s.event 0xA0 0xB010 t
  else if a = 0x0A then s.evtIrq t g
  else if a = 0x0B then s.stepOutPulse 3
  else if a = 0x0C then { s with phase := { s.phase with testOpen := windowsTo s.phase.testOpen t true } }
  else if a = 0x0D then { s with phase := { s.phase with testOpen := windowsTo s.phase.testOpen t false } }
  else s

/-- PHASE_EVENT_FIRE (R45, R567): the firing that fell due first leaves the queue. One of an ended step sets no bit of
PHEV_FIRED. (DESIGN CHOICE, log 17) -/
def execPhaseEventFire (s : State) : Host.Outcome State Fault Refusal :=
  match s.phase.queue with
  | [] => .next s
  | q :: rest =>
    let s := { s with phase := { s.phase with queue := rest } }
    .next ((s.when (!q.ended) (fun s => s.setBit F.PHEV_FIRED_FIRED q.entry)).evtAction q)

end Sys2Proof.Machine
end

