-- ==== Sys2Proof/Machine/TileProg.lean ====
section
/-! DEFINITION. The tile sequencer: the op word, its checks, issue, the queues and what starts and retires in them
(R103-R115, R120-R132). -/

namespace Sys2Proof.Machine

/-! ### The op word (R107) -/

def opClass (w : Nat) : Nat := bitsAt w 23 21

def opCode (w : Nat) : Nat := bitsAt w 20 16

def opWcnt (w : Nat) : Nat := bitsAt w 15 12

def opScnt (w : Nat) : Nat := bitsAt w 11 8

/-- VEC's function. -/
def opFunc (w : Nat) : Nat := bitsAt w 79 74

/-- The queue of an op: 0 array evaluation, 1-4 array load by slot, 5 DMU multiply, 6 DMU store, 7 vector, 8 local
mover (R103). -/
def opQueue (w : Nat) : Nat :=
  match opClass w with
  | 0 => if opCode w = 0 then 1 + bitsAt w 59 58 else 0
  | 1 => if opCode w = 1 then 6 else 5
  | 2 => 7
  | _ => 8

/-- Depths of the queues. -/
def queueDepth (q : Nat) : Nat :=
  match q with
  | 0 => 16 | 1 => 4 | 2 => 4 | 3 => 4 | 4 => 4 | 5 => 8 | 6 => 8 | _ => 16

/-- The sequencer's S register; S0 reads 0. -/
def TileUnit.sreg (u : TileUnit) (n : Nat) : Nat := if n = 0 then 0 else Sparse.get (fun _ => 0) u.sregs n

/-- A write of an S register; one of S0 is discarded. -/
def TileUnit.setS (u : TileUnit) (n v : Nat) : TileUnit :=
  if n = 0 then u else { u with sregs := Sparse.set (fun _ => 0) u.sregs n (v % 2 ^ 64) }

def TileUnit.areg (u : TileUnit) (n : Nat) : Nat := Sparse.get (fun _ => 0) u.aregs n

/-- The effective address of an AOP, modulo 2^24 (R108, R109). -/
def TileUnit.aop (u : TileUnit) (x : Nat) : Nat := (u.areg (x / 4096) + 32 * (x % 4096)) % 2 ^ 24

def TileUnit.queue (u : TileUnit) (q : Nat) : List TileQ := Sparse.get (fun _ => []) u.queues q

def TileUnit.setQueue (u : TileUnit) (q : Nat) (l : List TileQ) : TileUnit :=
  { u with queues := Sparse.set (fun _ => []) u.queues q l }

/-- Nothing is queued and nothing runs. -/
def TileUnit.drained (u : TileUnit) : Bool := u.fly.isEmpty && u.queues.all (fun e => e.2.isEmpty)

/-- An op as it enters its queue: addresses and S registers as they stand at issue (R109). -/
def TileUnit.capture (u : TileUnit) (w pc tag num : Nat) : TileQ :=
  let r := match opClass w with
    | 1 => (bitsAt w 84 80, 0, 0)
    | 2 => (bitsAt w 60 56, bitsAt w 55 51, 0)
    | 3 => (bitsAt w 95 91, bitsAt w 95 91 + 1, bitsAt w 90 86)
    | _ => (0, 0, 0)
  ⟨w, u.aop (bitsAt w 127 112), u.aop (bitsAt w 111 96), u.aop (bitsAt w 95 80), u.sreg r.1, u.sreg r.2.1, u.sreg r.2.2,
    pc, tag, num⟩

/-! ### Operand fields -/

/-- Slots of an ARRAY op. -/
def opSlots (w : Nat) : List Nat := (List.range 4).filter (fun k => bitOf w (92 + k))

/-- FMT of an ARRAY op: BLK8. -/
def opBlk8 (w : Nat) : Bool := bitOf w 86

/-- Columns that an ARRAY op writes per slot: 64 for a BLK8 EVAL. -/
def opCols (w : Nat) : Nat := if opCode w = 1 ∧ opBlk8 w then 64 else 128

/-- N and ENT. -/
def opN (w : Nat) : Nat := bitsAt w 76 68

def opEnt (w : Nat) : Nat := bitsAt w 84 77

/-- Bytes of an output element: BF16 for OUTFMT 1. -/
def opOutBytes (w : Nat) : Nat := if bitOf w 85 then 2 else 4

/-- V: the output bytes of one vector over the named slots (R114). -/
def opV (w : Nat) : Nat := (opSlots w).length * opCols w * opOutBytes w

/-- Bytes of one input vector. -/
def opVecIn (w : Nat) : Nat := if opBlk8 w then 1056 else 544

/-- Bytes of an MM operand, 64 rows of K elements in a format. -/
def mmBytes (c k : Nat) : Nat := 64 * (k * elemBits c / 8) + (if isBlock c then 64 * (k / 32) else 0)

/-- ROWS and COLS of a VEC shape. -/
def vecCols (q : TileQ) : Nat := q.r0 % 2 ^ 24

def vecRows (q : TileQ) : Nat := q.r0 / 2 ^ 32 % 2 ^ 16

def vecIn (w : Nat) : Nat := bitsAt w 73 70

def vecOut (w : Nat) : Nat := bitsAt w 69 66

def vecBmode (w : Nat) : Nat := bitsAt w 62 61

/-- The function is a reduction. -/
def vecIsRed (w : Nat) : Bool := decide (0x18 ≤ opFunc w)

/-- The function takes SB. -/
def vecHasB (w : Nat) : Bool :=
  let f := opFunc w
  (decide (1 ≤ f) && decide (f ≤ 6)) || f == 9

/-- SB is read from a store. -/
def vecReadsB (w : Nat) : Bool := vecHasB w && vecBmode w != 3

/-- Bytes of SB by BMODE (R117). -/
def vecBBytes (q : TileQ) : Nat :=
  let c := vecIn q.word
  match vecBmode q.word with
  | 0 => arrayBytes c (vecRows q) (vecCols q)
  | 1 => arrayBytes c 1 (vecCols q)
  | _ => (vecRows q * elemBits c + 7) / 8 + (if isBlock c then vecRows q / 32 else 0)

/-- Bytes of DST: of a reduction one element per row, packed (R119). -/
def vecDstBytes (q : TileQ) : Nat :=
  if vecIsRed q.word then (vecRows q * elemBits (vecOut q.word) + 7) / 8
  else arrayBytes (vecOut q.word) (vecRows q) (vecCols q)

/-- LMOVE's shape (R120). -/
def lmBytesOf (q : TileQ) : Nat := q.r0 % 2 ^ 24

def lmRows (q : TileQ) : Nat := q.r0 / 2 ^ 24 % 2 ^ 16

def lmSrcStride (q : TileQ) : Nat := q.r1 % 2 ^ 24

def lmDstStride (q : TileQ) : Nat := q.r1 / 2 ^ 24 % 2 ^ 24

/-- The extent of strided rows. -/
def lmExtent (a stride rows bytes : Nat) : Nat × Nat := (a, (rows - 1) * stride + bytes)

/-- The extents that an op reads and those that it writes. -/
def opReads (q : TileQ) : List (Nat × Nat) :=
  let w := q.word
  match opClass w, opCode w with
  | 0, 0 => [(q.a0, 65664)]
  | 0, 1 => [(q.a0, opN w * opVecIn w)]
  | 1, 0 => [(q.a0, mmBytes (bitsAt w 92 89) q.r0), (q.a1, mmBytes (bitsAt w 88 85) q.r0)]
  | 2, _ => [(q.a1, arrayBytes (vecIn w) (vecRows q) (vecCols q))]
      ++ (if vecReadsB w then [(q.a2, vecBBytes q)] else []) ++ (if opFunc w = 4 then [(q.a0, vecDstBytes q)] else [])
  | 3, 0 => [lmExtent q.a1 (lmSrcStride q) (lmRows q) (lmBytesOf q)]
  | _, _ => []

/-- See `opReads`. -/
def opWrites (q : TileQ) : List (Nat × Nat) :=
  let w := q.word
  match opClass w, opCode w with
  | 0, 1 => if bitsAt w 91 90 = 2 then [(q.a1, opN w * opV w)] else []
  | 0, 3 => [(q.a1, opN w * opV w)]
  | 1, 1 => [(q.a0, 4096 * (elemBits (bitsAt w 92 89) / 8))]
  | 2, _ => [(q.a0, vecDstBytes q)]
  | 3, _ => [lmExtent q.a0 (lmDstStride q) (lmRows q) (lmBytesOf q)]
  | _, _ => []

/-! ### Checks at issue (R107-R132) -/

/-- A SEQ op uses B as an operand. -/
def seqHasB (op : Nat) : Bool := [3, 4, 5, 6, 7, 8, 9, 0xA, 0xB].contains op

/-- A field of SEQ that the op does not use is not 0 (R120). -/
def seqReserved (w : Nat) : Bool :=
  let op := opCode w
  let d := bitsAt w 127 123
  let a := bitsAt w 122 118
  let b := bitsAt w 117 113
  let i := bitOf w 112
  let f := bitsAt w 111 108
  let c := bitsAt w 107 104
  let l := bitsAt w 103 88
  let imm := bitsAt w 87 24
  let hasB := seqHasB op
  (!([2, 3, 0xC].contains op) && d != 0) || (!([3, 6, 0xA].contains op) && a != 0)
    || ((!hasB || i) && b != 0) || (!hasB && i)
    || (!([3, 4, 6, 7].contains op) && f != 0) || ((op == 4 || op == 7) && decide (1 < f)) || (op == 6 && decide (6 < f))
    || (!([4, 7, 8, 9].contains op) && c != 0)
    || (!([5, 6, 0xC].contains op) && l != 0) || (op == 0xC && decide (0x14 < l))
    || (op != 2 && (if hasB && i then decide (2 ^ 32 ≤ imm) else imm != 0))

/-- A reserved class, op, function or bit: ILLEGAL_OP. (DESIGN CHOICE, log 18) -/
def opIllegal (w : Nat) : Bool :=
  let op := opCode w
  bitsAt w 4 0 != 0 ||
  (match opClass w with
   | 0 => decide (3 < op) || bitsAt w 62 60 != 0 || bitsAt w 56 24 != 0
   | 1 => decide (2 < op) || bitsAt w 79 24 != 0
   | 2 => op != 0 || bitsAt w 50 24 != 0 || (decide (0x15 ≤ opFunc w) && decide (opFunc w ≤ 0x17)) || decide (0x1C < opFunc w)
   | 3 => decide (1 < op) || bitsAt w 85 24 != 0
   | 4 => decide (0xC < op) || seqReserved w
   | 5 => decide (1 < op) || bitsAt w 111 24 != 0 || (op == 0 && bitsAt w 127 112 != 0)
   | _ => true)

/-- The FP8 class (R116). -/
def fp8Class (c : Nat) : Bool := decide (4 ≤ c) && decide (c ≤ 10)

/-- Formats that an MM takes (R116). -/
def mmFmtOk (a b : Nat) : Bool := (a == b && (a == 2 || a == 3 || a == 11)) || (fp8Class a && fp8Class b)

/-- Functions on floating formats only (R118): division, root, transcendental and composite ones. -/
def vecFloatOnly (f : Nat) : Bool := (decide (9 ≤ f) && decide (f ≤ 0x11)) || f == 0x13 || f == 0x14

/-- Transcendental and composite functions, which FP64 does not take. -/
def vecBounded (f : Nat) : Bool := (decide (0xB ≤ f) && decide (f ≤ 0x11)) || f == 0x13 || f == 0x14

/-- Formats that a VEC op takes: BLK only into CVT, no block format out of a reduction (R118, R119, R127). -/
def vecFmtOk (w : Nat) : Bool :=
  let i := vecIn w
  let o := vecOut w
  let f := opFunc w
  decide (i < 15) && decide (o < 15) && !((i == 13 || i == 14) && f != 0) && !(vecIsRed w && isBlock o)
    && !(vecPrec i == 2 && vecFloatOnly f) && !(i == 1 && vecBounded f)

/-- The shape of a VEC op holds (R117, R127, R130). -/
def vecShapeOk (q : TileQ) : Bool :=
  let w := q.word
  vecCols q != 0 && vecRows q != 0 && q.r0 / 2 ^ 48 == 0 && q.r0 / 2 ^ 24 % 2 ^ 8 == 0
    && (!(isBlock (vecIn w) || (isBlock (vecOut w) && !vecIsRed w)) || vecCols q % 32 == 0)
    && !(isBlock (vecIn w) && vecReadsB w && vecBmode w == 2 && vecRows q % 32 != 0)

/-- The shape of an LMOVE holds (R120). -/
def lmShapeOk (q : TileQ) : Bool :=
  decide (bitsAt q.word 95 91 ≤ 30) && lmBytesOf q != 0 && lmBytesOf q % 32 == 0 && lmRows q != 0
    && (opCode q.word == 1 || lmSrcStride q % 32 == 0) && lmDstStride q % 32 == 0

/-- The projected kind of DACC n at issue: INT32 when the last MM queued on it is INT8. -/
def TileUnit.daccProj (u : TileUnit) (n : Nat) : Bool :=
  (u.queue 5).foldl (fun k q => if opCode q.word = 0 ∧ bitsAt q.word 95 94 = n then bitsAt q.word 92 89 == 11 else k)
    (bitOf u.daccInt n)

/-- A count, shape or K outside its limits: SHAPE_BAD. -/
def shapeBad (q : TileQ) : Bool :=
  let w := q.word
  match opClass w with
  | 0 =>
    (opCode w != 0 && (opSlots w).isEmpty) ||
      ((opCode w == 1 || opCode w == 3) && (opN w == 0 || decide (256 < opN w) || decide (256 < opEnt w + opN w)))
  | 1 => opCode w == 0 && (q.r0 % 32 != 0 || q.r0 == 0 || decide (65536 < q.r0))
  | 2 => !vecShapeOk q
  | 3 => !lmShapeOk q
  | _ => false

/-- A format that the op does not take: FMT_BAD. (DESIGN CHOICE, log 18) -/
def TileUnit.fmtBad (u : TileUnit) (q : TileQ) : Bool :=
  let w := q.word
  match opClass w with
  | 1 =>
    if opCode w = 0 then !mmFmtOk (bitsAt w 92 89) (bitsAt w 88 85)
    else if opCode w = 1 then
      (if u.daccProj (bitsAt w 95 94) then bitsAt w 92 89 != 12 else !([0, 2, 3].contains (bitsAt w 92 89)))
    else false
  | 2 => !vecFmtOk w
  | _ => false

/-- An extent lies wholly inside one store of the tile (R124). -/
def extentOk (e : Nat × Nat) : Bool :=
  decide (e.1 + e.2 ≤ 0x400000) || (decide (0x400000 ≤ e.1) && decide (e.1 + e.2 ≤ 0xE00000))

/-- Two extents share a byte. -/
def extMeet (a b : Nat × Nat) : Bool := decide (a.1 < b.1 + b.2) && decide (b.1 < a.1 + a.2)

/-- DST and a source overlap, other than exactly (R119). -/
def extPart (a b : Nat × Nat) : Bool := extMeet a b && a != b

/-- VEC operands overlap: DST and a source in part, or the two sources (R119). (DESIGN CHOICE, log 18) -/
def vecOverlap (q : TileQ) : Bool :=
  let d := (q.a0, vecDstBytes q)
  let a := (q.a1, arrayBytes (vecIn q.word) (vecRows q) (vecCols q))
  let b := (q.a2, vecBBytes q)
  extPart d a || (vecReadsB q.word && (extPart d b || extMeet a b))

/-- ACTIVE_BANK of a slot's array, and the bank that will be active once the queued SWAPs up to `num` have acted. -/
def State.bankNow (s : State) (f : Frond) (p k : Nat) : Nat := s.rd (af F.ARR_STATUS_ACTIVE_BANK f p (s.slotArr f p k))

/-- An op is a SWAP of slot `k`. -/
def isSwapOf (k : Nat) (q : TileQ) : Bool := opCode q.word == 2 && bitOf q.word (92 + k)

def State.bankProj (s : State) (f : Frond) (p k : Nat) : Nat :=
  (s.bankNow f p k + (((s.tile f p).queue 0).filter (isSwapOf k)).length) % 2

/-- The fault of an op found at issue, if any; of several the first in this order. (DESIGN CHOICE, log 18) -/
def State.opFault (s : State) (f : Frond) (p : Nat) (q : TileQ) : Option Nat :=
  let u := s.tile f p
  let w := q.word
  if opClass w = 0 ∧ opCode w = 1 ∧ bitsAt w 91 90 = 3 then some 6
  else if shapeBad q then some 8
  else if u.fmtBad q then some 7
  else if (opReads q ++ opWrites q).any (fun e => e.1 % 32 != 0) then some 3
  else if (opReads q ++ opWrites q).any (fun e => !extentOk e) then some 2
  else if opClass w = 0 ∧ opCode w = 0 ∧ bitsAt w 57 57 = s.bankProj f p (bitsAt w 59 58) then some 4
  else if opClass w = 2 ∧ vecOverlap q then some 0xD
  else none

/-! ### Issue (R103-R112, R120, R121) -/

/-- The op word at an offset of the tile store. -/
def State.opAt (s : State) (f : Frond) (p pc : Nat) : Nat := s.bytesAt (storeKey f.idx p pc) 16

def State.pc (s : State) (f : Frond) (p : Nat) : Nat := s.rd (tf F.TSEQ_STATUS_PC f p)

/-- Issue may take an op: RUN or STALL. -/
def State.issuing (s : State) (f : Frond) (p : Nat) : Bool := s.seqState f p == 1 || s.seqState f p == 6

/-- The op word at PC, when it is one that may be read. -/
def State.opHere (s : State) (f : Frond) (p : Nat) : Nat := s.opAt f p (s.pc f p)

/-- Loops that end or run again as the program reaches `pc` in order. -/
def loopNext : Nat → Nat → List TileLoop → Nat × List TileLoop
  | 0, pc, l => (pc, l)
  | fuel + 1, pc, l =>
    match l with
    | [] => (pc, [])
    | x :: t =>
      if x.stop = pc then
        (if 1 < x.left then (x.start, { x with left := x.left - 1 } :: t) else loopNext fuel pc t)
      else (pc, l)

/-- PC and the loop stack take new values. -/
def State.seqGo (s : State) (f : Frond) (p pc : Nat) (l : List TileLoop) : State :=
  let s := s.updTile f p (fun u => { u with loops := l, wtTaken := false })
  (s.wr (tf F.TSEQ_STATUS_PC f p) pc).wr (tf F.TSEQ_STATUS_LOOP_DEPTH f p) l.length

/-- The program goes on at `pc` in order. -/
def State.seqTo (s : State) (f : Frond) (p pc : Nat) (l : List TileLoop) : State :=
  let r := loopNext 5 pc l
  s.seqGo f p r.1 r.2

/-- An op has issued: counted, and the next op word follows. -/
def State.seqNext (s : State) (f : Frond) (p : Nat) : State :=
  let s := (s.inc (tf F.TSEQ_ISSUED_COUNT f p)).wr (tf F.TSEQ_STATUS_STATE f p) 1
  s.seqTo f p (s.pc f p + 16) (s.tile f p).loops

/-- The sequencer waits: STATE and TSEQ_WAIT. (DESIGN CHOICE, log 18) -/
def State.seqHold (s : State) (f : Frond) (p st value counter : Nat) (wt : Bool) : State :=
  let s := (s.wr (tf F.TSEQ_STATUS_STATE f p) st).wr (tf F.TSEQ_WAIT_VALUE f p) value
  (s.wr (tf F.TSEQ_WAIT_COUNTER f p) counter).wr (tf F.TSEQ_WAIT_BY_WT f p) (b2n wt)

/-- The wait is over. -/
def State.seqFree (s : State) (f : Frond) (p : Nat) : State := s.seqHold f p 1 0 0 false

/-- Operand "B" of a SEQ op: S[B], or the sign-extended immediate (R120). -/
def TileUnit.seqB (u : TileUnit) (w : Nat) : Nat :=
  if bitOf w 112 then intBits 64 (bitsInt 32 (bitsAt w 55 24)) else u.sreg (bitsAt w 117 113)

def TileUnit.seqA (u : TileUnit) (w : Nat) : Nat := u.sreg (bitsAt w 122 118)

/-- The ALU's sixteen functions on 64-bit values (R120). -/
def aluOf (f a b : Nat) : Nat :=
  match f with
  | 0 => (a + b) % 2 ^ 64
  | 1 => (a + 2 ^ 64 - b % 2 ^ 64) % 2 ^ 64
  | 2 => a * b % 2 ^ 64
  | 3 => a &&& b
  | 4 => a ||| b
  | 5 => a ^^^ b
  | 6 => a * 2 ^ (b % 64) % 2 ^ 64
  | 7 => a / 2 ^ (b % 64)
  | 8 => intBits 64 (bitsInt 64 a / 2 ^ (b % 64))
  | 9 => if bitsInt 64 a ≤ bitsInt 64 b then a else b
  | 10 => if bitsInt 64 a ≤ bitsInt 64 b then b else a
  | 11 => min a b
  | 12 => max a b
  | 13 => b2n (decide (bitsInt 64 a < bitsInt 64 b))
  | 14 => b2n (decide (a < b))
  | _ => b2n (a == b)

/-- BR's comparisons (R120). -/
def brTaken (f a b : Nat) : Bool :=
  match f with
  | 0 => true
  | 1 => a == b
  | 2 => a != b
  | 3 => decide (bitsInt 64 a < bitsInt 64 b)
  | 4 => decide (bitsInt 64 b ≤ bitsInt 64 a)
  | 5 => decide (a < b)
  | _ => decide (b ≤ a)

/-- The S register `d` takes a value and the program goes on. -/
def State.seqSet (s : State) (f : Frond) (p d v : Nat) : State := (s.updTile f p (fun u => u.setS d v)).seqNext f p

def State.seqLi (s : State) (f : Frond) (p w : Nat) : State := s.seqSet f p (bitsAt w 127 123) (bitsAt w 87 24)

def State.seqAlu (s : State) (f : Frond) (p w : Nat) : State :=
  let u := s.tile f p
  s.seqSet f p (bitsAt w 127 123) (aluOf (bitsAt w 111 108) (u.seqA w) (u.seqB w))

/-- An address register takes a value modulo 2^24. -/
def TileUnit.setA (u : TileUnit) (n v : Nat) : TileUnit :=
  { u with aregs := Sparse.set (fun _ => 0) u.aregs n (v % 2 ^ 24) }

def State.seqAmov (s : State) (f : Frond) (p w : Nat) : State :=
  let c := bitsAt w 107 104
  (s.updTile f p (fun u => u.setA c ((if bitOf w 108 then 0 else u.areg c) + u.seqB w))).seqNext f p

/-- The fault of a LOOP: no body, a body beyond the enclosing one, or a fifth level (R121). (DESIGN CHOICE, log 18) -/
def State.loopFault (s : State) (f : Frond) (p w : Nat) : Option Nat :=
  let l := bitsAt w 103 88
  let loops := (s.tile f p).loops
  let out := match loops with | [] => false | x :: _ => decide (x.stop < s.pc f p + 16 + 16 * l)
  if l = 0 then some 1 else if out || decide (4 ≤ loops.length) then some 9 else none

/-- LOOP (R120, R121): B = 0 skips the body. (DESIGN CHOICE, log 18) -/
def State.seqLoop (s : State) (f : Frond) (p w : Nat) : State :=
  let u := s.tile f p
  let pc := s.pc f p
  let n := u.seqB w % 2 ^ 32
  let stop := pc + 16 + 16 * bitsAt w 103 88
  match s.loopFault f p w with
  | some code => s.tileFault f p code pc w
  | none =>
  if n = 0 then (s.inc (tf F.TSEQ_ISSUED_COUNT f p)).seqTo f p stop u.loops
  else (s.inc (tf F.TSEQ_ISSUED_COUNT f p)).seqGo f p (pc + 16) (⟨n, pc + 16, stop⟩ :: u.loops)

/-- Loops that a branch to `pc` leaves end. -/
def loopsKeep (pc : Nat) : List TileLoop → List TileLoop
  | [] => []
  | x :: t => if x.start ≤ pc ∧ pc < x.stop then x :: t else loopsKeep pc t

/-- (DESIGN CHOICE, log 18) -/
def State.seqBr (s : State) (f : Frond) (p w : Nat) : State :=
  let u := s.tile f p
  if brTaken (bitsAt w 111 108) (u.seqA w) (u.seqB w) then
    let t := (((s.pc f p : Int) + 16 * bitsInt 16 (bitsAt w 103 88)) % 2 ^ 24).toNat
    (s.inc (tf F.TSEQ_ISSUED_COUNT f p)).seqGo f p t (loopsKeep t u.loops)
  else s.seqNext f p

/-- WAIT (R110, R120): issue holds until the counter reaches B; with F[0] B is subtracted. -/
def State.seqWait (s : State) (f : Frond) (p w : Nat) : State :=
  let b := (s.tile f p).seqB w % 2 ^ 32
  let c := bitsAt w 107 104
  if reached (s.rd (tcnt f p c)) b then
    let s := s.seqFree f p
    (if bitOf w 108 then s.tcAdd f p c (2 ^ 32 - b) else s).seqNext f p
  else s.seqHold f p 2 b c false

def State.seqCset (s : State) (f : Frond) (p w : Nat) : State :=
  (s.wr (tcnt f p (bitsAt w 107 104)) ((s.tile f p).seqB w)).seqNext f p

def State.seqCadd (s : State) (f : Frond) (p w : Nat) : State :=
  (s.tcAdd f p (bitsAt w 107 104) ((s.tile f p).seqB w)).seqNext f p

/-- The running context of a tile. -/
def State.runCtx (s : State) (f : Frond) (p : Nat) : Nat := s.rd (tf F.TSEQ_STATUS_CTX f p)

/-- The signal counter of SIGNAL lies in a window of the domain and is not cut off by a failed bridge (R122, R144). -/
def State.signalMay (s : State) (f : Frond) (p w : Nat) : Bool :=
  let n := (s.tile f p).seqA w % 2 ^ 17
  s.domMay (s.ctxDom (s.runCtx f p)) rightW (s.globalOf (0xE0000000000 + 8 * n)) 8 && s.counterNear (some f.idx) n

/-- SIGNAL (R120, R122): through the domain, or PROT, which a counter that a failed bridge cuts off gives too (R144); an epoch
fence of the domain holds it (R231). (DESIGN CHOICE, log 28) -/
def State.seqSignal (s : State) (f : Frond) (p w : Nat) : State :=
  let u := s.tile f p
  if s.heldDom (s.ctxDom (s.runCtx f p)) then s
  else if s.signalMay f p w then (s.counterAdd (u.seqA w % 2 ^ 17) (u.seqB w % 2 ^ 32)).seqNext f p
  else s.tileFault f p 0xB (s.pc f p) w

/-- PWAIT (R120, R122): what was noted at issue is the step and whether the angle was passed. (DEDUCED, log 25) -/
def State.seqPwait (s : State) (f : Frond) (p w : Nat) : State :=
  let a := (s.tile f p).seqB w % 2 ^ 32
  let k := s.copyOf f
  let s := s.updTile f p (fun u => { u with pwait := some (a, k.mark, decide (a ≤ angleOf k.acc)) })
  s.seqHold f p 3 a 0 false

/-- A PWAIT's angle is reached or passed for the first time since (R120, R122). (DEDUCED, log 25) -/
def State.pwaitMet (s : State) (f : Frond) (p : Nat) : Bool :=
  match (s.tile f p).pwait with
  | none => false
  | some (a, step, past) =>
    let k := s.copyOf f
    k.valid && decide (a ≤ angleOf k.acc) && (!past || k.mark != step)

/-- SREAD's sources (R120); the tile cycle count is a free value. (DEDUCED, log 25) -/
def State.seqSource (s : State) (f : Frond) (p l : Nat) : Nat :=
  if l < 16 then s.rd (tcnt f p l)
  else if l = 0x10 then angleOf (s.copyOf f).acc
  else if l = 0x11 then (s.copyOf f).step
  else if l = 0x12 then s.free % 2 ^ 64
  else if l = 0x13 then s.runCtx f p
  else s.logicalOf f p

/-- (DEDUCED, log 25) -/
def State.seqSread (s : State) (f : Frond) (p w : Nat) : State :=
  let l := bitsAt w 103 88
  let v := s.seqSource f p l
  (if l = 0x12 then s.drawn else s).seqSet f p (bitsAt w 127 123) v

/-- END (R112): issue ends. -/
def State.seqEnd (s : State) (f : Frond) (p : Nat) : State :=
  (s.inc (tf F.TSEQ_ISSUED_COUNT f p)).wr (tf F.TSEQ_STATUS_STATE f p) 4

/-- MARK STEP (R123): a LOCAL mark. -/
def State.markStep (s : State) (f : Frond) (p : Nat) : State := (s.markIn 1 s.now none none).seqNext f p

/-- The context that MARK TAG names lies outside the running context's domain (R123). -/
def State.tagBad (s : State) (f : Frond) (p w : Nat) : Bool :=
  let c := bitsAt w 127 112
  c != 0 && (!(s.ctx c).alloc || s.ctxDom c != s.ctxDom (s.runCtx f p))

/-- MARK TAG (R123): 0 restores the running context; a context outside its domain faults. -/
def State.markTag (s : State) (f : Frond) (p w : Nat) : State :=
  let c := bitsAt w 127 112
  if s.tagBad f p w then s.tileFault f p 0xC (s.pc f p) w
  else (s.wr (tf F.TSEQ_TAG_CTX f p) (if c = 0 then s.runCtx f p else c)).seqNext f p

/-- A SEQ or MARK op executes at issue. -/
def State.seqExec (s : State) (f : Frond) (p w : Nat) : State :=
  if opClass w = 5 then (if opCode w = 0 then s.markStep f p else s.markTag f p w)
  else
    match opCode w with
    | 0 => s.seqNext f p
    | 1 => s.seqEnd f p
    | 2 => s.seqLi f p w
    | 3 => s.seqAlu f p w
    | 4 => s.seqAmov f p w
    | 5 => s.seqLoop f p w
    | 6 => s.seqBr f p w
    | 7 => s.seqWait f p w
    | 8 => s.seqCset f p w
    | 9 => s.seqCadd f p w
    | 10 => s.seqSignal f p w
    | 11 => s.seqPwait f p w
    | _ => s.seqSread f p w

/-- A queued op enters its queue, or stalls issue while it is full (R103). -/
def State.opQueueUp (s : State) (f : Frond) (p : Nat) (q : TileQ) : State :=
  let k := opQueue q.word
  if queueDepth k ≤ ((s.tile f p).queue k).length then s.wr (tf F.TSEQ_STATUS_STATE f p) 6
  else (s.updTile f p (fun u => u.setQueue k (u.queue k ++ [q]))).seqNext f p

/-- The op words that the sequencer may take now: PC in range, the word clean, no hold; `g` acts on the word. -/
def State.withOp (s : State) (f : Frond) (p : Nat) (g : Nat → State → State) : State :=
  let pc := s.pc f p
  if !s.issuing f p || s.tileState f p == 4 then s
  else if 0x3FFFF0 < pc then s.tileFault f p 0xA pc 0
  else
    let w := s.opAt f p pc
    let s := s.storeSee f.idx p pc 16
    if s.poisoned (storeKey f.idx p (pc / 32 * 32)) then s.tileFault f p 0xE pc w
    else if opIllegal w then s.tileFault f p 1 pc w
    else if bitOf w 5 && !(s.tile f p).drained then s
    else g w s

/-- The SIG of an op that has completed (R107). -/
def State.sigOf (s : State) (f : Frond) (p w : Nat) : State := if bitOf w 7 then s.tcAdd f p (opScnt w) 1 else s

/-- A SEQ or MARK op completes as it executes: it neither holds issue nor faults. -/
def State.seqDone (s : State) (f : Frond) (p w : Nat) : Bool :=
  if opClass w = 5 then opCode w == 0 || !s.tagBad f p w
  else
    match opCode w with
    | 5 => (s.loopFault f p w).isNone
    | 7 => reached (s.rd (tcnt f p (bitsAt w 107 104))) ((s.tile f p).seqB w % 2 ^ 32)
    | 10 => !s.heldDom (s.ctxDom (s.runCtx f p)) && s.signalMay f p w
    | 11 => false
    | _ => true

/-- A SEQ or MARK op executes, and signals once it has completed (R107). -/
def State.seqRun (s : State) (f : Frond) (p w : Nat) : State :=
  if s.seqDone f p w then (s.seqExec f p w).sigOf f p w else s.seqExec f p w

/-- The sequencer issues the op at PC (R103); the WT of a SEQ or MARK op is taken once (R107). -/
def State.issueWord (s : State) (f : Frond) (p w : Nat) : State :=
  if 4 ≤ opClass w then
    if bitOf w 6 && !(s.tile f p).wtTaken then
      (if reached (s.rd (tcnt f p (opWcnt w))) 1 then
        (((s.seqFree f p).tcAdd f p (opWcnt w) (2 ^ 32 - 1)).updTile f p (fun u => { u with wtTaken := true })).seqRun f p w
       else s.seqHold f p 2 1 (opWcnt w) true)
    else s.seqRun f p w
  else
    let q := (s.tile f p).capture w (s.pc f p) (s.rd (tf F.TSEQ_TAG_CTX f p)) (s.rd (tf F.TSEQ_ISSUED_COUNT f p))
    match s.opFault f p q with
    | some code => s.tileFault f p code q.pc w
    | none => s.opQueueUp f p q

def State.issue (s : State) (f : Frond) (p : Nat) : State := s.withOp f p (fun w s => s.issueWord f p w)

/-- The sequencer issues the op at PC when it is a SEQ or MARK op of the given class and code (for ALU the function). -/
def State.issueIf (s : State) (f : Frond) (p cls code : Nat) (alu : Option Nat) : State :=
  let w := s.opHere f p
  if opClass w = cls ∧ opCode w = code ∧ (alu = none ∨ alu = some (bitsAt w 111 108)) then s.issue f p else s

/-! ### Start (R104-R106, R110) -/

/-- An earlier-issued op of a list. -/
def earlier (q : TileQ) (l : List TileQ) (g : TileQ → Bool) : Bool := l.any (fun x => decide (x.num < q.num) && g x)

/-- Ops in flight from a queue. -/
def TileUnit.flying (u : TileUnit) (k : Nat) : List TileQ := (u.fly.filter (fun x => x.queue == k)).map (·.op)

/-- Array ops of the frond wait while a full calibration runs (R89). (DESIGN CHOICE, log 26) -/
def State.arraysHeld (s : State) (f : Frond) : Bool := s.on (acf F.ACAL_STATUS_FULL_CAL_BUSY f)

/-- An ARRAY op of queue `k` names the slot that an in-place calibration holds (R89). -/
def State.slotHeld (s : State) (f : Frond) (p k w : Nat) : Bool :=
  match (s.tile f p).ipSlot with
  | none => false
  | some n => if k = 0 then (opSlots w).contains n else k == n + 1

/-- An EVAL in the queue that will use a bank of slot `k`, issued before a LOAD (R105). -/
def evalUses (k b num : Nat) : Nat → List TileQ → Bool
  | _, [] => false
  | now, x :: t =>
    if num ≤ x.num then false
    else if isSwapOf k x then evalUses k b num (1 - now) t
    else (opCode x.word == 1 && bitOf x.word (92 + k) && now == b) || evalUses k b num now t

/-- A LOAD may start: its bank is inactive and no earlier EVAL will still read it. -/
def State.loadReady (s : State) (f : Frond) (p : Nat) (q : TileQ) : Bool :=
  let k := bitsAt q.word 59 58
  let b := bitsAt q.word 57 57
  s.bankNow f p k != b && !evalUses k b q.num (s.bankNow f p k) ((s.tile f p).queue 0)

/-- A LOAD issued before op `q` into bank `b` of slot `k` is not complete. -/
def TileUnit.loadPending (u : TileUnit) (q : TileQ) (k b : Nat) : Bool :=
  earlier q (u.queue (1 + k) ++ u.flying (1 + k)) (fun x => bitsAt x.word 57 57 == b)

/-- A SWAP may act: no earlier load into an inactive bank is incomplete (R66). -/
def State.swapReady (s : State) (f : Frond) (p : Nat) (q : TileQ) : Bool :=
  (opSlots q.word).all (fun k => !(s.tile f p).loadPending q k (1 - s.bankNow f p k))

/-- R105 for the DMU's two queues. -/
def TileUnit.daccReady (u : TileUnit) (q : TileQ) : Bool :=
  let n := bitsAt q.word 95 94
  let same := fun (x : TileQ) => bitsAt x.word 95 94 == n
  if opCode q.word = 1 then !earlier q (u.queue 5 ++ u.flying 5) same else !earlier q (u.queue 6) same

/-- The queues of an op's unit. -/
def unitQueues (k : Nat) : List Nat :=
  if k ≤ 4 then [0, 1, 2, 3, 4] else if k ≤ 6 then [5, 6] else [k]

/-- An op that has started and not retired writes bytes that this op of the same unit reads (R104). -/
def TileUnit.hazard (u : TileUnit) (k : Nat) (q : TileQ) : Bool :=
  u.fly.any (fun x => (unitQueues k).contains x.queue &&
    (opWrites x.op).any (fun e => (opReads q).any (extMeet e)))

/-- The head of a queue, when it may start now: WT met, the orders of R104 and R105, arrays not held. -/
def State.startable (s : State) (f : Frond) (p k : Nat) : Option TileQ :=
  let u := s.tile f p
  match u.queue k with
  | [] => none
  | q :: _ =>
    let w := q.word
    if s.tileState f p == 4 || (bitOf w 6 && !reached (s.rd (tcnt f p (opWcnt w))) 1) || u.hazard k q then none
    else if k ≤ 4 && (s.arraysHeld f || s.slotHeld f p k w) then none
    else if 1 ≤ k && decide (k ≤ 4) && !s.loadReady f p q then none
    else if k == 0 && opCode w == 2 && !s.swapReady f p q then none
    else if (k == 5 || k == 6) && !u.daccReady q then none
    else some q

/-- The bytes from tile-local address `a`. -/
def State.tb (s : State) (f : Frond) (p a : Nat) : Nat := (s.byte (storeKey f.idx p a)).toNat

/-- A beat of an op's operands is poisoned. -/
def State.readsPoison (s : State) (f : Frond) (p : Nat) (q : TileQ) : Bool :=
  (opReads q).any (fun e => (List.range ((e.2 + 31) / 32)).any (fun i => s.poisoned (storeKey f.idx p (e.1 / 32 * 32 + 32 * i))))

/-- 32-byte beats of extents. -/
def beats (l : List (Nat × Nat)) : Nat := sumNat (l.map (fun e => (e.2 + 31) / 32))

/-- The head of queue `k` leaves it and starts: its WT is taken, its beats are charged; poison faults and stops the
queue. `g` gives the state after its reads, the bytes it will write, and its status word. -/
def State.opStart (s : State) (f : Frond) (p k : Nat)
    (g : TileQ → State → State × List (Nat × Nat) × Option (Nat × Nat)) : State :=
  match s.startable f p k with
  | none => s
  | some q =>
    let s := if bitOf q.word 6 then s.tcAdd f p (opWcnt q.word) (2 ^ 32 - 1) else s
    let s := (opReads q).foldl (fun s e => s.storeSee f.idx p e.1 e.2) s
    if s.readsPoison f p q then (s.updTile f p (fun u => u.setQueue k [])).tileFault f p 0xE q.pc q.word
    else
      let s := s.updTile f p (fun u => u.setQueue k ((u.queue k).drop 1))
      let s := s.activity f 4 (beats (opReads q) + beats (opWrites q)) (s.ctxTag q.tag) none
      let r := g q s
      r.1.updTile f p (fun u => { u with fly := u.fly ++ [⟨k, q, r.2.1, r.2.2⟩] })

/-- The head of queue `k` is an op of a class and code. -/
def State.headOp (s : State) (f : Frond) (p k cls code : Nat) : Bool :=
  match (s.tile f p).queue k with
  | [] => false
  | q :: _ => opClass q.word == cls && opCode q.word == code

/-- The head of the vector queue has a function. -/
def State.headVec (s : State) (f : Frond) (p func : Nat) : Bool :=
  match (s.tile f p).queue 7 with
  | [] => false
  | q :: _ => opFunc q.word == func

/-! ### Retire (R106, R112, R113) -/

/-- The oldest op in flight of a queue retires: writes, status, signal; a stopping sequencer with none left is IDLE. -/
def State.retire1 (s : State) (f : Frond) (p k : Nat) (x : TileFly) : State :=
  let s := s.updTile f p (fun u => { u with fly := u.fly.erase x })
  let s := if 1 ≤ k ∧ k ≤ 4 then s.loadRetire f p x else (s.flyWrite f p x.writes).flyClean f p x.writes
  let s := match x.stat with
    | none => s
    | some e => s.updTile f p (fun u => u.setS e.1 e.2)
  let s := s.sigOf f p x.op.word
  if (s.tile f p).stopping && (s.tile f p).fly.isEmpty then s.tileIdle f p else s

/-- The program's tile leaves its LAUNCH; once the last has left, LAUNCH_COMPLETE completes the item (R206). -/
def State.launchLeave (s : State) (c p : Nat) : State :=
  match (s.ctx c).outstanding.find? (fun o => o.tiles.contains p) with
  | none => s
  | some o => s.updCtx c (fun x => { x with
      outstanding := x.outstanding.map (fun y =>
        if y.num = o.num then { y with tiles := o.tiles.filter (· != p) } else y) })

end Sys2Proof.Machine
end

