-- ==== Sys2Proof/Machine/TileRun.lean ====
section
/-! DEFINITION. What each queued op does as it starts: its reads, its results and the bytes it will write when it retires
(R114-R120). -/

namespace Sys2Proof.Machine

/-! ### ARRAY -/

/-- A bank byte. -/
def TileUnit.bankByte (u : TileUnit) (a b o : Nat) : Nat := Sparse.get (fun _ => 0) u.bank (bankKey a b + o)

/-- The weight of row `r` and physical column `c` (R180). -/
def TileUnit.weight (u : TileUnit) (a b r c : Nat) : Int :=
  bitsInt 4 (u.bankByte a b (r * 64 + c / 2) / 16 ^ (c % 2) % 16)

def TileUnit.weights (u : TileUnit) (a b c : Nat) : List Int := (List.range 1024).map (fun r => u.weight a b r c)

/-- The scale of a physical column. -/
def TileUnit.colScale (u : TileUnit) (a b c : Nat) : Nat := u.bankByte a b (65536 + c)

/-- Accumulator entries; an unlisted one is cleared. -/
def accDefault : Nat → AccEntry := fun _ => AccEntry.zero

def accKey (slot ent col : Nat) : Nat := slot * 32768 + ent * 128 + col

/-- A signed error of a conversion from a free value. (DESIGN CHOICE, log 23) -/
def freeErr (n : Nat) : Int := bitsInt 11 (Config.freeNat n % 2 ^ 11)

/-- The range of an EVAL (R71). -/
def State.evalRange (s : State) (f : Frond) (p w : Nat) : Nat :=
  if bitOf w 89 then bitsAt w 88 87 else s.rd (tf F.TILE_CFG_RANGE_DEF f p)

/-- The conversion of physical column `c` of array `a` with the free error number `n`. -/
def TileUnit.convOf (u : TileUnit) (good : Bool) (range a c n : Nat) : Conv :=
  let k := Sparse.get (fun _ => 0) u.calNo a
  ⟨rangeUnits range, colGain k (range * 128 + c), colOffset k (range * 128 + c), good, freeErr n⟩

/-- The contribution to column `c` of a slot, and whether it was clipped; `good` while R80 limits the conversions. -/
def TileUnit.evalCol (u : TileUnit) (blk8 good : Bool) (range a b c n : Nat) (ds : List Drive) (top : Nat) : AccEntry × Bool :=
  if blk8 then
    blk8Part ds (u.weights a b (2 * c)) (u.weights a b (2 * c + 1)) top (u.colScale a b (2 * c))
      (fun i => u.convOf good range a (2 * c + i % 2) (n + i))
  else blk4Part ds (u.weights a b c) top (u.colScale a b c) (u.convOf good range a c n)

/-- What an EVAL gathers: the accumulator file, SAT and ACC_OVF by slot, whether a NaN entry was written, the outputs in
order, and the number of the next free value. -/
structure EvalRes where
  acc : Sparse AccEntry
  sat : Nat
  ovf : Nat
  nan : Bool
  out : List Nat
  draw : Nat
  deriving DecidableEq, Repr

/-- One column of one evaluation: SET, ACC or FINAL (R74); `bad` writes NaN at FINAL. -/
def evalUpdate (mode slot key : Nat) (bf bad : Bool) (step : Nat) (part : AccEntry × Bool) (r : EvalRes) : EvalRes :=
  let old := Sparse.get accDefault r.acc key
  let new := if mode = 0 then (part.1, false) else accAdd old part.1
  let r := { r with sat := if part.2 then setBitN r.sat slot else r.sat,
                    ovf := if new.2 then setBitN r.ovf slot else r.ovf, draw := r.draw + step }
  if mode = 2 then
    let e := if bad then ⟨true, 0, 0⟩ else new.1
    { r with acc := Sparse.set accDefault r.acc key AccEntry.zero, out := r.out ++ [accOut e bf], nan := r.nan || e.nan }
  else { r with acc := Sparse.set accDefault r.acc key new.1, nan := r.nan || new.1.nan }

/-- The elements and block scales of input vector `i` at `a`. -/
def State.evalInput (s : State) (f : Frond) (p : Nat) (blk8 : Bool) (a : Nat) : List Int × List Nat :=
  if blk8 then
    ((List.range 1024).map (fun j => bitsInt 8 (s.tb f p (a + j))), (List.range 32).map (fun j => s.tb f p (a + 1024 + j)))
  else
    ((List.range 1024).map (fun j => bitsInt 4 (s.tb f p (a + j / 2) / 16 ^ (j % 2) % 16)),
      (List.range 32).map (fun j => s.tb f p (a + 512 + j)))

/-- One input vector on one slot. -/
def State.evalSlot (s : State) (f : Frond) (p w ent : Nat) (ds : List Drive) (top : Nat) (bad : Bool) (r : EvalRes)
    (slot : Nat) : EvalRes :=
  let u := s.tile f p
  let a := s.slotArr f p slot
  let b := s.bankNow f p slot
  let blk8 := opBlk8 w
  let good := s.calFresh f p a
  let step := if blk8 then 4 else 1
  (List.range (opCols w)).foldl (fun r c =>
    evalUpdate (bitsAt w 91 90) slot (accKey slot ent c) (bitOf w 85) (bad && r.out.isEmpty) step
      (u.evalCol blk8 good (s.evalRange f p w) a b c r.draw ds top) r) r

/-- Every vector of an EVAL in order, and the elements that lost a bit. (DESIGN CHOICE, log 22) -/
def State.evalAll (s : State) (f : Frond) (p : Nat) (q : TileQ) (bad : Bool) : EvalRes × Nat :=
  let w := q.word
  (List.range (opN w)).foldl (fun (acc : EvalRes × Nat) i =>
    let v := s.evalInput f p (opBlk8 w) (q.a0 + i * opVecIn w)
    let d := drives v.1 v.2
    ((opSlots w).foldl (s.evalSlot f p w (opEnt w + i) d.1 (eMax v.2) bad) acc.1, acc.2 + d.2))
    (⟨(s.tile f p).acc, 0, 0, false, [], s.draws⟩, 0)

/-- ARR_SAT and the counters take an EVAL's results. -/
def State.evalMarks (s : State) (f : Frond) (p : Nat) (w : Nat) (r : EvalRes) (lost : Nat) : State :=
  let n := opN w * (opSlots w).length
  let s := s.wr (tf F.ARR_SAT_SAT f p) (s.rd (tf F.ARR_SAT_SAT f p) ||| r.sat)
  let s := s.wr (tf F.ARR_SAT_ACC_OVF f p) (s.rd (tf F.ARR_SAT_ACC_OVF f p) ||| r.ovf)
  let s := if lost = 0 then s else s.wr (tf F.ARR_SAT_ALIGN_LOSS f p) 1
  let s := s.inc (tf F.TILE_EVAL_COUNT_COUNT f p) n
  s.inc (tf F.TILE_ALIGN_COUNT_COUNT f p) lost

/-- EVAL (R114, R115): an injected accumulator parity error writes its first entry as NaN at FINAL (R102). -/
def State.runEval (s : State) (f : Frond) (p : Nat) (q : TileQ) : State × List (Nat × Nat) × Option (Nat × Nat) :=
  let w := q.word
  let bad := bitsAt w 91 90 == 2 && bitOf (s.rd (tf F.ERR_INJECT_INJECT f p)) 3
  let r := s.evalAll f p q bad
  let s := { s with draws := r.1.draw }
  let s := s.updTile f p (fun u => { u with acc := r.1.acc })
  let s := if bad then s.err (tilePage f p) 3 else s
  let s := s.evalMarks f p w r.1 r.2
  let s := s.activity f 0 (opN w * (opSlots w).length * (if opBlk8 w then 2 else 1)) (s.ctxTag q.tag) none
  let status := b2n r.1.nan * 512 + b2n (r.2 != 0) * 256 + r.1.ovf * 16 + r.1.sat
  let st := bitsAt w 67 63
  (s, bytesFrom q.a1 (packElems (8 * opOutBytes w) r.1.out), if st = 0 then none else some (st, status))

/-- DRAIN (R115). -/
def State.runDrain (s : State) (f : Frond) (p : Nat) (q : TileQ) : State × List (Nat × Nat) × Option (Nat × Nat) :=
  let w := q.word
  let keys := (List.range (opN w)).flatMap (fun i => (opSlots w).flatMap (fun k =>
    (List.range 128).map (fun c => accKey k (opEnt w + i) c)))
  let acc := (s.tile f p).acc
  let out := keys.map (fun k => accOut (Sparse.get accDefault acc k) (bitOf w 85))
  (s.updTile f p (fun u => { u with acc := keys.foldl (fun m k => Sparse.erase m k) u.acc }),
    bytesFrom q.a1 (packElems (8 * opOutBytes w) out), none)

/-- LOAD (R65): the bank image, by offset. -/
def State.runLoad (s : State) (f : Frond) (p : Nat) (q : TileQ) : State × List (Nat × Nat) × Option (Nat × Nat) :=
  (s, (List.range 65664).map (fun i => (i, s.tb f p (q.a0 + i))), none)

/-- SWAP toggles ACTIVE_BANK of the slots' arrays and of a spare that mirrors one (R66, R84). (DEDUCED, log 24) -/
def State.swapSlot (s : State) (f : Frond) (p k : Nat) : State :=
  let t := fun (s : State) a =>
    s.wr (af F.ARR_STATUS_ACTIVE_BANK f p a) (1 - s.rd (af F.ARR_STATUS_ACTIVE_BANK f p a))
  let m := s.mirrors f p k
  let s := t s (s.slotArr f p k)
  if m then t s (s.spareArr f p) else s

/-- An EVAL at the head finds a bank invalid (R67, R115). (DEDUCED, log 24) -/
def State.evalInvalid (s : State) (f : Frond) (p : Nat) (q : TileQ) : Bool :=
  (opSlots q.word).any (fun k => !bitOf (s.tile f p).bankValid (s.slotArr f p k * 2 + s.bankNow f p k))

/-! ### DMU -/

/-- DMU_FLAGS takes exception flags, INT_SAT and NAN_SCALE. -/
def State.dmuFlags (s : State) (f : Frond) (p fl : Nat) (intSat nanScale : Bool) : State :=
  let s := s.when (fl &&& flNV != 0) (fun s => s.wr (tf F.DMU_FLAGS_NV f p) 1)
  let s := s.when (fl &&& flOF != 0) (fun s => s.wr (tf F.DMU_FLAGS_OF f p) 1)
  let s := s.when (fl &&& flUF != 0) (fun s => s.wr (tf F.DMU_FLAGS_UF f p) 1)
  let s := s.when (fl &&& flNX != 0) (fun s => s.wr (tf F.DMU_FLAGS_NX f p) 1)
  let s := s.when intSat (fun s => s.wr (tf F.DMU_FLAGS_INT_SAT f p) 1)
  s.when nanScale (fun s => s.wr (tf F.DMU_FLAGS_NAN_SCALE f p) 1)

/-- Row `r` of an MM operand at `a`: its elements without scale, and the exponents of its block scales. -/
def State.mmRow (s : State) (f : Frond) (p c k a r : Nat) : List FV × List (Option Int) :=
  let rb := k * elemBits c / 8
  let vs := (List.range k).map (fun j => elemVal c (elemAt (elemBits c) (fun i => s.tb f p (a + r * rb + i)) j))
  let sc := (List.range (k / 32)).map (fun b =>
    if isBlock c then
      let x := s.tb f p (a + 64 * rb + r * (k / 32) + b)
      if x = 255 then none else some ((x : Int) - 127)
    else some 0)
  (vs, sc)

/-- Values of an INT8 row. -/
def intsOf (l : List FV) : List Int := l.map (fun v => match v with | .fin n m _ => sInt n m | _ => 0)

/-- One entry of an MM: the pattern, its flags, INT_SAT, NAN_SCALE. The order of accumulation is a free value (R94). -/
def mmEntry (fa fb order : Nat) (start : Nat) (a b : List FV × List (Option Int)) : Nat × Nat × Bool × Bool :=
  if fa = 11 then
    let r := mmInt order (bitsInt 32 start) (intsOf a.1) (intsOf b.1)
    (intBits 32 r.1, 0, r.2, false)
  else if isBlock fa || isBlock fb then
    let r := mmBlock order (fp32.decode start) a.1 b.1 a.2 b.2
    ((fp32.encode 0 false r.1).1, r.2, false, (a.2 ++ b.2).contains none)
  else
    let r := mmPlain order (fp32.decode start) a.1 b.1
    ((fp32.encode 0 false r.1).1, r.2, false, false)

/-- MM (R116): C is 0 for SET; an accumulator of the other kind gives free entries. (DESIGN CHOICE, log 22) -/
def State.runMm (s : State) (f : Frond) (p : Nat) (q : TileQ) : State × List (Nat × Nat) × Option (Nat × Nat) :=
  let w := q.word
  let n := bitsAt w 95 94
  let fa := bitsAt w 92 89
  let fb := bitsAt w 88 85
  let k := q.r0
  let u := s.tile f p
  let acc := bitOf w 93
  let mixed := acc && bitOf u.daccInt n != (fa == 11)
  let as := (List.range 64).map (s.mmRow f p fa k q.a0)
  let bs := (List.range 64).map (s.mmRow f p fb k q.a1)
  let res := as.zipIdx.flatMap (fun a => bs.zipIdx.map (fun b =>
    let i := a.2 * 64 + b.2
    let free := Config.freeNat (s.draws + i)
    let start := if acc then Sparse.get (fun _ => 0) u.dacc (n * 4096 + i) else 0
    let r := mmEntry fa fb free start a.1 b.1
    (i, if mixed then (free % 2 ^ 32, r.2) else r)))
  let dacc := res.foldl (fun m e => Sparse.set (fun _ => 0) m (n * 4096 + e.1) e.2.1) u.dacc
  let kind := if fa = 11 then setBitN u.daccInt n else clrBitN u.daccInt n
  let s := { s with draws := s.draws + 4096 }
  let s := s.updTile f p (fun u => { u with dacc := dacc, daccInt := kind })
  let s := s.dmuFlags f p (res.foldl (fun a e => a ||| e.2.2.1) 0) (res.any (fun e => e.2.2.2.1)) (res.any (fun e => e.2.2.2.2))
  let s := if fa = 2 ∨ fa = 3 then s.activity f 1 k (s.ctxTag q.tag) none else s.activity f 2 (k / 2) (s.ctxTag q.tag) none
  (s, [], none)

/-- STORE (R116). -/
def State.runStore (s : State) (f : Frond) (p : Nat) (q : TileQ) : State × List (Nat × Nat) × Option (Nat × Nat) :=
  let w := q.word
  let n := bitsAt w 95 94
  let c := bitsAt w 92 89
  let u := s.tile f p
  let res := (List.range 4096).map (fun i =>
    let x := Sparse.get (fun _ => 0) u.dacc (n * 4096 + i)
    if c = 12 then (x, 0) else convElem c (bitsAt w 87 86) (bitOf w 85) (fp32.decode x))
  let s := s.dmuFlags f p (res.foldl (fun a e => a ||| e.2) 0) false false
  let s := if bitOf w 88 then s.updTile f p (fun u => { u with
    dacc := u.dacc.filter (fun e => e.1 / 4096 != n) }) else s
  (s, bytesFrom q.a0 (packElems (elemBits c) (res.map (·.1))), none)

/-- ZERO (R116). (DESIGN CHOICE, log 22) -/
def State.runZero (s : State) (f : Frond) (p : Nat) (q : TileQ) : State × List (Nat × Nat) × Option (Nat × Nat) :=
  (s.updTile f p (fun u => { u with dacc := u.dacc.filter (fun e => e.1 / 4096 != bitsAt q.word 95 94) }), [], none)

/-! ### VEC -/

/-- VEC_FLAGS takes exception flags. -/
def State.vecFlags (s : State) (f : Frond) (p fl : Nat) : State :=
  let s := s.when (fl &&& flNV != 0) (fun s => s.wr (tf F.VEC_FLAGS_NV f p) 1)
  let s := s.when (fl &&& flDZ != 0) (fun s => s.wr (tf F.VEC_FLAGS_DZ f p) 1)
  let s := s.when (fl &&& flOF != 0) (fun s => s.wr (tf F.VEC_FLAGS_OF f p) 1)
  let s := s.when (fl &&& flUF != 0) (fun s => s.wr (tf F.VEC_FLAGS_UF f p) 1)
  s.when (fl &&& flNX != 0) (fun s => s.wr (tf F.VEC_FLAGS_NX f p) 1)

/-- Element i, j of SB (R117). -/
def State.vecB (s : State) (f : Frond) (p : Nat) (q : TileQ) (i j : Nat) : FV :=
  let c := vecIn q.word
  match vecBmode q.word with
  | 0 => arrayElem c (vecRows q) (vecCols q) (s.tb f p) q.a2 i j
  | 1 => arrayElem c 1 (vecCols q) (s.tb f p) q.a2 0 j
  | 2 =>
    let b := elemAt (elemBits c) (fun k => s.tb f p (q.a2 + k)) i
    if isBlock c then blockVal c b (s.tb f p (q.a2 + vecRows q * elemBits c / 8 + i / 32)) else elemVal c b
  | _ => (vecScalar (vecPrec c) q.r1).1

/-- Busy cycles of a VEC op (R118). -/
def vecBusy (q : TileQ) : Nat :=
  let c := vecIn q.word
  let fn := opFunc q.word
  let rate := if vecFloatOnly fn then (if c = 1 then 4 else 16) else vecLanes c
  (vecRows q * vecCols q + rate - 1) / rate

/-- An elementwise op's results by row, with flags. (DEDUCED, log 19) -/
def State.vecMap (s : State) (f : Frond) (p : Nat) (q : TileQ) : List (List FV) × Nat :=
  let w := q.word
  let fn := opFunc w
  let rows := vecRows q
  let cols := vecCols q
  let res := (List.range rows).map (fun i => (List.range cols).map (fun j =>
    let a := arrayElem (vecIn w) rows cols (s.tb f p) q.a1 i j
    let b := if vecHasB w then s.vecB f p q i j else .fin false 0 0
    let d := if fn = 4 then arrayElem (vecOut w) rows cols (s.tb f p) q.a0 i j else .fin false 0 0
    vecElem (Config.freeNat (s.draws + i * cols + j)) (vecPrec (vecIn w)) (bitsAt w 65 64) fn a b d))
  let fl0 := if vecHasB w && vecBmode w == 3 then (vecScalar (vecPrec (vecIn w)) q.r1).2 else 0
  (res.map (fun r => r.map (·.1)), (res.flatMap id).foldl (fun a e => a ||| e.2) fl0)

/-- A reduction's results, one a row. -/
def State.vecRed (s : State) (f : Frond) (p : Nat) (q : TileQ) : List FV × Nat :=
  let w := q.word
  let res := (List.range (vecRows q)).map (fun i =>
    vecReduce (vecPrec (vecIn w)) (bitsAt w 65 64) (opFunc w) (vecLanes (vecIn w))
      ((List.range (vecCols q)).map (fun j => arrayElem (vecIn w) (vecRows q) (vecCols q) (s.tb f p) q.a1 i j)))
  (res.map (·.1), res.foldl (fun a e => a ||| e.2) 0)

/-- A VEC op (R117-R119). -/
def State.runVec (s : State) (f : Frond) (p : Nat) (q : TileQ) : State × List (Nat × Nat) × Option (Nat × Nat) :=
  let w := q.word
  let rnd := bitsAt w 65 64
  let sat := bitOf w 63
  let o := vecOut w
  let out := if vecIsRed w then
      let r := s.vecRed f p q
      let es := r.1.map (convElem o rnd sat)
      (bytesFrom q.a0 (packElems (elemBits o) (es.map (·.1))), es.foldl (fun a e => a ||| e.2) r.2)
    else
      let r := s.vecMap f p q
      let b := arrayBytesOf o rnd sat (vecRows q) (vecCols q) q.a0 r.1
      (b.1, b.2 ||| r.2)
  let s := if vecBounded (opFunc w) then { s with draws := s.draws + vecRows q * vecCols q } else s
  let s := (s.vecFlags f p out.2).activity f 3 (vecBusy q) (s.ctxTag q.tag) none
  (s, out.1, none)

/-! ### LMOVE -/

/-- COPY and FILL (R120). -/
def State.runCopy (s : State) (f : Frond) (p : Nat) (q : TileQ) : State × List (Nat × Nat) × Option (Nat × Nat) :=
  (s, (List.range (lmRows q)).flatMap (fun i => (List.range (lmBytesOf q)).map (fun j =>
    (q.a0 + i * lmDstStride q + j, s.tb f p (q.a1 + i * lmSrcStride q + j)))), none)

/-- See `runCopy`. -/
def State.runFill (s : State) (q : TileQ) : State × List (Nat × Nat) × Option (Nat × Nat) :=
  (s, (List.range (lmRows q)).flatMap (fun i => (List.range (lmBytesOf q)).map (fun j =>
    (q.a0 + i * lmDstStride q + j, q.r2 / 2 ^ (8 * (j % 8)) % 256))), none)

/-! ### The starts that the commands name -/

/-- The vector unit starts the op at its head when it is the named function. -/
def State.vecStart (s : State) (f : Frond) (p func : Nat) : State :=
  if s.headVec f p func then s.opStart f p 7 (fun q s => s.runVec f p q) else s

/-- An EVAL at the head starts, or faults on an invalid bank. -/
def State.evalStart (s : State) (f : Frond) (p : Nat) : State :=
  if !s.headOp f p 0 0 1 then s
  else
    match s.startable f p 0 with
    | none => s
    | some q =>
      if s.evalInvalid f p q then
        (s.updTile f p (fun u => u.setQueue 0 ((u.queue 0).drop 1))).tileFault f p 5 q.pc q.word
      else s.opStart f p 0 (fun q s => s.runEval f p q)

/-- A SWAP at the head acts, and retires with its signal (R66, R114). (DEDUCED, log 24) -/
def State.swapStart (s : State) (f : Frond) (p : Nat) : State :=
  if !s.headOp f p 0 0 2 then s
  else
    match s.startable f p 0 with
    | none => s
    | some q =>
      let s := if bitOf q.word 6 then s.tcAdd f p (opWcnt q.word) (2 ^ 32 - 1) else s
      let s := s.updTile f p (fun u => u.setQueue 0 ((u.queue 0).drop 1))
      let s := (opSlots q.word).foldl (fun s k => s.swapSlot f p k) s
      s.sigOf f p q.word

/-- An op of a class and code at the head of queue `k` starts. -/
def State.startIf (s : State) (f : Frond) (p k cls code : Nat)
    (g : TileQ → State → State × List (Nat × Nat) × Option (Nat × Nat)) : State :=
  if s.headOp f p k cls code then s.opStart f p k g else s

/-- TILE_OP_RETIRE (R106): the oldest started op of the queue retires. -/
def State.opRetire (s : State) (f : Frond) (p k : Nat) : State :=
  match (s.tile f p).fly.find? (fun x => x.queue == k) with
  | none => s
  | some x => if s.tileState f p == 4 then s else s.retire1 f p k x

end Sys2Proof.Machine
end

