-- ==== Sys2Proof/Machine/TilePrograms.lean ====
section
/-! DEFINITION. Tile programs: the meaning of each command (R103-R125). -/

namespace Sys2Proof.Machine

/-- TILE_OP_ISSUE (R103). -/
def execTileOpIssue (f : Frond) (t : Fin 132) (s : State) : Host.Outcome State Fault Refusal :=
  .next (s.issue f t.val)

/-- TILE_OP_RETIRE (R106). -/
def execTileOpRetire (f : Frond) (t : Fin 132) (q : Fin 9) (s : State) : Host.Outcome State Fault Refusal :=
  .next (s.opRetire f t.val q.val)

/-- ARRAY_LOAD (R65, R114): the load at the head of a slot's queue starts. -/
def execArrayLoad (f : Frond) (t : Fin 132) (slot : Fin 4) (s : State) : Host.Outcome State Fault Refusal :=
  .next (s.startIf f t.val (1 + slot.val) 0 0 (fun q s => s.runLoad f t.val q))

/-- ARRAY_EVAL (R114). -/
def execArrayEval (f : Frond) (t : Fin 132) (s : State) : Host.Outcome State Fault Refusal :=
  .next (s.evalStart f t.val)

/-- ARRAY_SWAP (R66). -/
def execArraySwap (f : Frond) (t : Fin 132) (s : State) : Host.Outcome State Fault Refusal :=
  .next (s.swapStart f t.val)

/-- ARRAY_DRAIN (R115). -/
def execArrayDrain (f : Frond) (t : Fin 132) (s : State) : Host.Outcome State Fault Refusal :=
  .next (s.startIf f t.val 0 0 3 (fun q s => s.runDrain f t.val q))

/-- DMU_MM (R116). -/
def execDmuMm (f : Frond) (t : Fin 132) (s : State) : Host.Outcome State Fault Refusal :=
  .next (s.startIf f t.val 5 1 0 (fun q s => s.runMm f t.val q))

/-- DMU_STORE (R116). -/
def execDmuStore (f : Frond) (t : Fin 132) (s : State) : Host.Outcome State Fault Refusal :=
  .next (s.startIf f t.val 6 1 1 (fun q s => s.runStore f t.val q))

/-- DMU_ZERO (R116). -/
def execDmuZero (f : Frond) (t : Fin 132) (s : State) : Host.Outcome State Fault Refusal :=
  .next (s.startIf f t.val 5 1 2 (fun q s => s.runZero f t.val q))

/-- VEC_CVT (R118). -/
def execVecCvt (f : Frond) (t : Fin 132) (s : State) : Host.Outcome State Fault Refusal :=
  .next (s.vecStart f t.val 0x00)

/-- VEC_ADD (R118). -/
def execVecAdd (f : Frond) (t : Fin 132) (s : State) : Host.Outcome State Fault Refusal :=
  .next (s.vecStart f t.val 0x01)

/-- VEC_SUB (R118). -/
def execVecSub (f : Frond) (t : Fin 132) (s : State) : Host.Outcome State Fault Refusal :=
  .next (s.vecStart f t.val 0x02)

/-- VEC_MUL (R118). -/
def execVecMul (f : Frond) (t : Fin 132) (s : State) : Host.Outcome State Fault Refusal :=
  .next (s.vecStart f t.val 0x03)

/-- VEC_FMA (R118). -/
def execVecFma (f : Frond) (t : Fin 132) (s : State) : Host.Outcome State Fault Refusal :=
  .next (s.vecStart f t.val 0x04)

/-- VEC_MIN (R118). -/
def execVecMin (f : Frond) (t : Fin 132) (s : State) : Host.Outcome State Fault Refusal :=
  .next (s.vecStart f t.val 0x05)

/-- VEC_MAX (R118). -/
def execVecMax (f : Frond) (t : Fin 132) (s : State) : Host.Outcome State Fault Refusal :=
  .next (s.vecStart f t.val 0x06)

/-- VEC_ABS (R118). -/
def execVecAbs (f : Frond) (t : Fin 132) (s : State) : Host.Outcome State Fault Refusal :=
  .next (s.vecStart f t.val 0x07)

/-- VEC_NEG (R118). -/
def execVecNeg (f : Frond) (t : Fin 132) (s : State) : Host.Outcome State Fault Refusal :=
  .next (s.vecStart f t.val 0x08)

/-- VEC_DIV (R118). -/
def execVecDiv (f : Frond) (t : Fin 132) (s : State) : Host.Outcome State Fault Refusal :=
  .next (s.vecStart f t.val 0x09)

/-- VEC_SQRT (R118). -/
def execVecSqrt (f : Frond) (t : Fin 132) (s : State) : Host.Outcome State Fault Refusal :=
  .next (s.vecStart f t.val 0x0A)

/-- VEC_EXP (R95, R118). -/
def execVecExp (f : Frond) (t : Fin 132) (s : State) : Host.Outcome State Fault Refusal :=
  .next (s.vecStart f t.val 0x0B)

/-- VEC_LOG (R95, R118). -/
def execVecLog (f : Frond) (t : Fin 132) (s : State) : Host.Outcome State Fault Refusal :=
  .next (s.vecStart f t.val 0x0C)

/-- VEC_RSQRT (R95, R118). -/
def execVecRsqrt (f : Frond) (t : Fin 132) (s : State) : Host.Outcome State Fault Refusal :=
  .next (s.vecStart f t.val 0x0D)

/-- VEC_SIN (R95, R118). -/
def execVecSin (f : Frond) (t : Fin 132) (s : State) : Host.Outcome State Fault Refusal :=
  .next (s.vecStart f t.val 0x0E)

/-- VEC_COS (R95, R118). -/
def execVecCos (f : Frond) (t : Fin 132) (s : State) : Host.Outcome State Fault Refusal :=
  .next (s.vecStart f t.val 0x0F)

/-- VEC_TANH (R95, R118). -/
def execVecTanh (f : Frond) (t : Fin 132) (s : State) : Host.Outcome State Fault Refusal :=
  .next (s.vecStart f t.val 0x10)

/-- VEC_SIGMOID (R95, R118). -/
def execVecSigmoid (f : Frond) (t : Fin 132) (s : State) : Host.Outcome State Fault Refusal :=
  .next (s.vecStart f t.val 0x11)

/-- VEC_RELU (R118). -/
def execVecRelu (f : Frond) (t : Fin 132) (s : State) : Host.Outcome State Fault Refusal :=
  .next (s.vecStart f t.val 0x12)

/-- VEC_GELU_T (R118). -/
def execVecGeluT (f : Frond) (t : Fin 132) (s : State) : Host.Outcome State Fault Refusal :=
  .next (s.vecStart f t.val 0x13)

/-- VEC_SILU (R118). -/
def execVecSilu (f : Frond) (t : Fin 132) (s : State) : Host.Outcome State Fault Refusal :=
  .next (s.vecStart f t.val 0x14)

/-- VEC_RSUM (R119). -/
def execVecRsum (f : Frond) (t : Fin 132) (s : State) : Host.Outcome State Fault Refusal :=
  .next (s.vecStart f t.val 0x18)

/-- VEC_RMAX (R119). -/
def execVecRmax (f : Frond) (t : Fin 132) (s : State) : Host.Outcome State Fault Refusal :=
  .next (s.vecStart f t.val 0x19)

/-- VEC_RMIN (R119). -/
def execVecRmin (f : Frond) (t : Fin 132) (s : State) : Host.Outcome State Fault Refusal :=
  .next (s.vecStart f t.val 0x1A)

/-- VEC_RAMAX (R119). -/
def execVecRamax (f : Frond) (t : Fin 132) (s : State) : Host.Outcome State Fault Refusal :=
  .next (s.vecStart f t.val 0x1B)

/-- VEC_RSUMSQ (R119). -/
def execVecRsumsq (f : Frond) (t : Fin 132) (s : State) : Host.Outcome State Fault Refusal :=
  .next (s.vecStart f t.val 0x1C)

/-- LMOVE_COPY (R120). -/
def execLmoveCopy (f : Frond) (t : Fin 132) (s : State) : Host.Outcome State Fault Refusal :=
  .next (s.startIf f t.val 8 3 0 (fun q s => s.runCopy f t.val q))

/-- LMOVE_FILL (R120). -/
def execLmoveFill (f : Frond) (t : Fin 132) (s : State) : Host.Outcome State Fault Refusal :=
  .next (s.startIf f t.val 8 3 1 (fun q s => s.runFill q))

/-- SEQ_NOP (R120). -/
def execSeqNop (f : Frond) (t : Fin 132) (s : State) : Host.Outcome State Fault Refusal :=
  .next (s.issueIf f t.val 4 0 none)

/-- SEQ_END (R112). -/
def execSeqEnd (f : Frond) (t : Fin 132) (s : State) : Host.Outcome State Fault Refusal :=
  .next (s.issueIf f t.val 4 1 none)

/-- SEQ_LI (R120). -/
def execSeqLi (f : Frond) (t : Fin 132) (s : State) : Host.Outcome State Fault Refusal :=
  .next (s.issueIf f t.val 4 2 none)

/-- SEQ_ALU_ADD (R120). -/
def execSeqAluAdd (f : Frond) (t : Fin 132) (s : State) : Host.Outcome State Fault Refusal :=
  .next (s.issueIf f t.val 4 3 (some 0))

/-- SEQ_ALU_SUB (R120). -/
def execSeqAluSub (f : Frond) (t : Fin 132) (s : State) : Host.Outcome State Fault Refusal :=
  .next (s.issueIf f t.val 4 3 (some 1))

/-- SEQ_ALU_MUL (R120). -/
def execSeqAluMul (f : Frond) (t : Fin 132) (s : State) : Host.Outcome State Fault Refusal :=
  .next (s.issueIf f t.val 4 3 (some 2))

/-- SEQ_ALU_AND (R120). -/
def execSeqAluAnd (f : Frond) (t : Fin 132) (s : State) : Host.Outcome State Fault Refusal :=
  .next (s.issueIf f t.val 4 3 (some 3))

/-- SEQ_ALU_OR (R120). -/
def execSeqAluOr (f : Frond) (t : Fin 132) (s : State) : Host.Outcome State Fault Refusal :=
  .next (s.issueIf f t.val 4 3 (some 4))

/-- SEQ_ALU_XOR (R120). -/
def execSeqAluXor (f : Frond) (t : Fin 132) (s : State) : Host.Outcome State Fault Refusal :=
  .next (s.issueIf f t.val 4 3 (some 5))

/-- SEQ_ALU_SHL (R120). -/
def execSeqAluShl (f : Frond) (t : Fin 132) (s : State) : Host.Outcome State Fault Refusal :=
  .next (s.issueIf f t.val 4 3 (some 6))

/-- SEQ_ALU_SHR (R120). -/
def execSeqAluShr (f : Frond) (t : Fin 132) (s : State) : Host.Outcome State Fault Refusal :=
  .next (s.issueIf f t.val 4 3 (some 7))

/-- SEQ_ALU_SAR (R120). -/
def execSeqAluSar (f : Frond) (t : Fin 132) (s : State) : Host.Outcome State Fault Refusal :=
  .next (s.issueIf f t.val 4 3 (some 8))

/-- SEQ_ALU_MIN (R120). -/
def execSeqAluMin (f : Frond) (t : Fin 132) (s : State) : Host.Outcome State Fault Refusal :=
  .next (s.issueIf f t.val 4 3 (some 9))

/-- SEQ_ALU_MAX (R120). -/
def execSeqAluMax (f : Frond) (t : Fin 132) (s : State) : Host.Outcome State Fault Refusal :=
  .next (s.issueIf f t.val 4 3 (some 10))

/-- SEQ_ALU_MINU (R120). -/
def execSeqAluMinu (f : Frond) (t : Fin 132) (s : State) : Host.Outcome State Fault Refusal :=
  .next (s.issueIf f t.val 4 3 (some 11))

/-- SEQ_ALU_MAXU (R120). -/
def execSeqAluMaxu (f : Frond) (t : Fin 132) (s : State) : Host.Outcome State Fault Refusal :=
  .next (s.issueIf f t.val 4 3 (some 12))

/-- SEQ_ALU_SLT (R120). -/
def execSeqAluSlt (f : Frond) (t : Fin 132) (s : State) : Host.Outcome State Fault Refusal :=
  .next (s.issueIf f t.val 4 3 (some 13))

/-- SEQ_ALU_SLTU (R120). -/
def execSeqAluSltu (f : Frond) (t : Fin 132) (s : State) : Host.Outcome State Fault Refusal :=
  .next (s.issueIf f t.val 4 3 (some 14))

/-- SEQ_ALU_EQ (R120). -/
def execSeqAluEq (f : Frond) (t : Fin 132) (s : State) : Host.Outcome State Fault Refusal :=
  .next (s.issueIf f t.val 4 3 (some 15))

/-- SEQ_AMOV (R120). -/
def execSeqAmov (f : Frond) (t : Fin 132) (s : State) : Host.Outcome State Fault Refusal :=
  .next (s.issueIf f t.val 4 4 none)

/-- SEQ_LOOP (R121). -/
def execSeqLoop (f : Frond) (t : Fin 132) (s : State) : Host.Outcome State Fault Refusal :=
  .next (s.issueIf f t.val 4 5 none)

/-- SEQ_BR (R121). -/
def execSeqBr (f : Frond) (t : Fin 132) (s : State) : Host.Outcome State Fault Refusal :=
  .next (s.issueIf f t.val 4 6 none)

/-- SEQ_WAIT (R110). -/
def execSeqWait (f : Frond) (t : Fin 132) (s : State) : Host.Outcome State Fault Refusal :=
  .next (s.issueIf f t.val 4 7 none)

/-- SEQ_CSET (R120). -/
def execSeqCset (f : Frond) (t : Fin 132) (s : State) : Host.Outcome State Fault Refusal :=
  .next (s.issueIf f t.val 4 8 none)

/-- SEQ_CADD (R120). -/
def execSeqCadd (f : Frond) (t : Fin 132) (s : State) : Host.Outcome State Fault Refusal :=
  .next (s.issueIf f t.val 4 9 none)

/-- SEQ_SIGNAL (R122). -/
def execSeqSignal (f : Frond) (t : Fin 132) (s : State) : Host.Outcome State Fault Refusal :=
  .next (s.issueIf f t.val 4 10 none)

/-- SEQ_PWAIT (R122). -/
def execSeqPwait (f : Frond) (t : Fin 132) (s : State) : Host.Outcome State Fault Refusal :=
  .next (s.issueIf f t.val 4 11 none)

/-- SEQ_SREAD (R120). -/
def execSeqSread (f : Frond) (t : Fin 132) (s : State) : Host.Outcome State Fault Refusal :=
  .next (s.issueIf f t.val 4 12 none)

/-- MARK_STEP (R123). -/
def execMarkStep (f : Frond) (t : Fin 132) (s : State) : Host.Outcome State Fault Refusal :=
  .next (s.issueIf f t.val 5 0 none)

/-- MARK_TAG (R123). -/
def execMarkTag (f : Frond) (t : Fin 132) (s : State) : Host.Outcome State Fault Refusal :=
  .next (s.issueIf f t.val 5 1 none)

/-- TILE_COUNTER_WAIT_MET (R110): the op that holds issue is tried again once its counter meets the threshold; a WT queue
head is released by its counter alone, and its unit starts it. -/
def execTileCounterWaitMet (f : Frond) (t : Fin 132) (s : State) : Host.Outcome State Fault Refusal :=
  let p := t.val
  .next (if s.seqState f p = 2 && reached (s.rd (tcnt f p (s.rd (tf F.TSEQ_WAIT_COUNTER f p)))) (s.rd (tf F.TSEQ_WAIT_VALUE f p))
    then (s.wr (tf F.TSEQ_STATUS_STATE f p) 1).issue f p else s)

/-- TILE_PHASE_WAIT_MET (R122). -/
def execTilePhaseWaitMet (f : Frond) (t : Fin 132) (s : State) : Host.Outcome State Fault Refusal :=
  let p := t.val
  .next (if s.seqState f p = 3 && s.pwaitMet f p then
      (((s.updTile f p (fun u => { u with pwait := none })).seqFree f p).seqNext f p).sigOf f p (s.opHere f p)
    else s)

/-- PROGRAM_END (R112): after END nothing is queued or runs; the tile returns to IDLE, and the LAUNCH completes with its
last tile. -/
def execProgramEnd (f : Frond) (t : Fin 132) (s : State) : Host.Outcome State Fault Refusal :=
  let p := t.val
  .next (if s.seqState f p = 4 && !(s.tile f p).stopping && (s.tile f p).drained then
      (s.tileIdle f p).launchLeave (s.runCtx f p) p
    else s)

end Sys2Proof.Machine
end

