-- ==== Sys2Proof/Machine/Dispatch.lean ====
section
/-! DEFINITION. The meaning of each command: one arm per constructor of `Instr`, in the opcode table's order. -/

namespace Sys2Proof.Machine

/-- The effect of a command on everything but the queue of waiting commands. (DESIGN CHOICE, log 1; DESIGN CHOICE, log 4) -/
def exec (i : Instr) (s : State) : Host.Outcome State Fault Refusal :=
  match i with
  | .alwaysOnComeUp modId dumpOk faultOk => Sys2Proof.Machine.execAlwaysOnComeUp modId dumpOk faultOk s
  | .startupStepComplete res => Sys2Proof.Machine.execStartupStepComplete res s
  | .startupBusWaitEnd => Sys2Proof.Machine.execStartupBusWaitEnd s
  | .runtimeReadyTimeout => Sys2Proof.Machine.execRuntimeReadyTimeout s
  | .fwRtReady r => Sys2Proof.Machine.execFwRtReady r s
  | .enterBuffered => Sys2Proof.Machine.execEnterBuffered s
  | .busOutOfRange ibEnergyHolds => Sys2Proof.Machine.execBusOutOfRange ibEnergyHolds s
  | .busReturn => Sys2Proof.Machine.execBusReturn s
  | .hvilLoopOpen b => Sys2Proof.Machine.execHvilLoopOpen b s
  | .hvilLoopClose b => Sys2Proof.Machine.execHvilLoopClose b s
  | .rstNLow => Sys2Proof.Machine.execRstNLow s
  | .autonomousWrap => Sys2Proof.Machine.execAutonomousWrap s
  | .energyReconcile => Sys2Proof.Machine.execEnergyReconcile s
  | .expectedMarkMiss => Sys2Proof.Machine.execExpectedMarkMiss s
  | .activeSourceLapse => Sys2Proof.Machine.execActiveSourceLapse s
  | .stepInEdge rising => Sys2Proof.Machine.execStepInEdge rising s
  | .phaseCtrlCommit r => Sys2Proof.Machine.execPhaseCtrlCommit r s
  | .phaseCtrlReacquire r => Sys2Proof.Machine.execPhaseCtrlReacquire r s
  | .phaseCtrlForceFree r => Sys2Proof.Machine.execPhaseCtrlForceFree r s
  | .phaseCtrlProfClear r => Sys2Proof.Machine.execPhaseCtrlProfClear r s
  | .phaseStepSetWrite r value => Sys2Proof.Machine.execPhaseStepSetWrite r value s
  | .phaseEventFire => Sys2Proof.Machine.execPhaseEventFire s
  | .segmentStart => Sys2Proof.Machine.execSegmentStart s
  | .phaseBroadcast goodA goodB => Sys2Proof.Machine.execPhaseBroadcast goodA goodB s
  | .frondCopyInvalid f => Sys2Proof.Machine.execFrondCopyInvalid f s
  | .stepOutPulseEnd => Sys2Proof.Machine.execStepOutPulseEnd s
  | .arrayTempSample f t a temp inRange => Sys2Proof.Machine.execArrayTempSample f t a temp inRange s
  | .acalIntervalExpire f => Sys2Proof.Machine.execAcalIntervalExpire f s
  | .spareRotation f t => Sys2Proof.Machine.execSpareRotation f t s
  | .spareCopyDone f t parity => Sys2Proof.Machine.execSpareCopyDone f t parity s
  | .spareCalDone f t res => Sys2Proof.Machine.execSpareCalDone f t res s
  | .rotTimeout f t => Sys2Proof.Machine.execRotTimeout f t s
  | .inPlaceCalibration f t slot res => Sys2Proof.Machine.execInPlaceCalibration f t slot res s
  | .acalFullCalReq r f => Sys2Proof.Machine.execAcalFullCalReq r f s
  | .fullCalibrationDone f bad => Sys2Proof.Machine.execFullCalibrationDone f bad s
  | .acalBistReq r f => Sys2Proof.Machine.execAcalBistReq r f s
  | .arrayBistDone f t a ok => Sys2Proof.Machine.execArrayBistDone f t a ok s
  | .tileRecalDone f t bad => Sys2Proof.Machine.execTileRecalDone f t bad s
  | .tmapEntryWrite r f t value => Sys2Proof.Machine.execTmapEntryWrite r f t value s
  | .tileOpIssue f t => Sys2Proof.Machine.execTileOpIssue f t s
  | .tileOpRetire f t q => Sys2Proof.Machine.execTileOpRetire f t q s
  | .arrayLoad f t slot => Sys2Proof.Machine.execArrayLoad f t slot s
  | .arrayEval f t => Sys2Proof.Machine.execArrayEval f t s
  | .arraySwap f t => Sys2Proof.Machine.execArraySwap f t s
  | .arrayDrain f t => Sys2Proof.Machine.execArrayDrain f t s
  | .dmuMm f t => Sys2Proof.Machine.execDmuMm f t s
  | .dmuStore f t => Sys2Proof.Machine.execDmuStore f t s
  | .dmuZero f t => Sys2Proof.Machine.execDmuZero f t s
  | .vecCvt f t => Sys2Proof.Machine.execVecCvt f t s
  | .vecAdd f t => Sys2Proof.Machine.execVecAdd f t s
  | .vecSub f t => Sys2Proof.Machine.execVecSub f t s
  | .vecMul f t => Sys2Proof.Machine.execVecMul f t s
  | .vecFma f t => Sys2Proof.Machine.execVecFma f t s
  | .vecMin f t => Sys2Proof.Machine.execVecMin f t s
  | .vecMax f t => Sys2Proof.Machine.execVecMax f t s
  | .vecAbs f t => Sys2Proof.Machine.execVecAbs f t s
  | .vecNeg f t => Sys2Proof.Machine.execVecNeg f t s
  | .vecDiv f t => Sys2Proof.Machine.execVecDiv f t s
  | .vecSqrt f t => Sys2Proof.Machine.execVecSqrt f t s
  | .vecExp f t => Sys2Proof.Machine.execVecExp f t s
  | .vecLog f t => Sys2Proof.Machine.execVecLog f t s
  | .vecRsqrt f t => Sys2Proof.Machine.execVecRsqrt f t s
  | .vecSin f t => Sys2Proof.Machine.execVecSin f t s
  | .vecCos f t => Sys2Proof.Machine.execVecCos f t s
  | .vecTanh f t => Sys2Proof.Machine.execVecTanh f t s
  | .vecSigmoid f t => Sys2Proof.Machine.execVecSigmoid f t s
  | .vecRelu f t => Sys2Proof.Machine.execVecRelu f t s
  | .vecGeluT f t => Sys2Proof.Machine.execVecGeluT f t s
  | .vecSilu f t => Sys2Proof.Machine.execVecSilu f t s
  | .vecRsum f t => Sys2Proof.Machine.execVecRsum f t s
  | .vecRmax f t => Sys2Proof.Machine.execVecRmax f t s
  | .vecRmin f t => Sys2Proof.Machine.execVecRmin f t s
  | .vecRamax f t => Sys2Proof.Machine.execVecRamax f t s
  | .vecRsumsq f t => Sys2Proof.Machine.execVecRsumsq f t s
  | .lmoveCopy f t => Sys2Proof.Machine.execLmoveCopy f t s
  | .lmoveFill f t => Sys2Proof.Machine.execLmoveFill f t s
  | .seqNop f t => Sys2Proof.Machine.execSeqNop f t s
  | .seqEnd f t => Sys2Proof.Machine.execSeqEnd f t s
  | .programEnd f t => Sys2Proof.Machine.execProgramEnd f t s
  | .seqLi f t => Sys2Proof.Machine.execSeqLi f t s
  | .seqAluAdd f t => Sys2Proof.Machine.execSeqAluAdd f t s
  | .seqAluSub f t => Sys2Proof.Machine.execSeqAluSub f t s
  | .seqAluMul f t => Sys2Proof.Machine.execSeqAluMul f t s
  | .seqAluAnd f t => Sys2Proof.Machine.execSeqAluAnd f t s
  | .seqAluOr f t => Sys2Proof.Machine.execSeqAluOr f t s
  | .seqAluXor f t => Sys2Proof.Machine.execSeqAluXor f t s
  | .seqAluShl f t => Sys2Proof.Machine.execSeqAluShl f t s
  | .seqAluShr f t => Sys2Proof.Machine.execSeqAluShr f t s
  | .seqAluSar f t => Sys2Proof.Machine.execSeqAluSar f t s
  | .seqAluMin f t => Sys2Proof.Machine.execSeqAluMin f t s
  | .seqAluMax f t => Sys2Proof.Machine.execSeqAluMax f t s
  | .seqAluMinu f t => Sys2Proof.Machine.execSeqAluMinu f t s
  | .seqAluMaxu f t => Sys2Proof.Machine.execSeqAluMaxu f t s
  | .seqAluSlt f t => Sys2Proof.Machine.execSeqAluSlt f t s
  | .seqAluSltu f t => Sys2Proof.Machine.execSeqAluSltu f t s
  | .seqAluEq f t => Sys2Proof.Machine.execSeqAluEq f t s
  | .seqAmov f t => Sys2Proof.Machine.execSeqAmov f t s
  | .seqLoop f t => Sys2Proof.Machine.execSeqLoop f t s
  | .seqBr f t => Sys2Proof.Machine.execSeqBr f t s
  | .seqWait f t => Sys2Proof.Machine.execSeqWait f t s
  | .tileCounterWaitMet f t => Sys2Proof.Machine.execTileCounterWaitMet f t s
  | .seqCset f t => Sys2Proof.Machine.execSeqCset f t s
  | .seqCadd f t => Sys2Proof.Machine.execSeqCadd f t s
  | .seqSignal f t => Sys2Proof.Machine.execSeqSignal f t s
  | .seqPwait f t => Sys2Proof.Machine.execSeqPwait f t s
  | .tilePhaseWaitMet f t => Sys2Proof.Machine.execTilePhaseWaitMet f t s
  | .seqSread f t => Sys2Proof.Machine.execSeqSread f t s
  | .markStep f t => Sys2Proof.Machine.execMarkStep f t s
  | .markTag f t => Sys2Proof.Machine.execMarkTag f t s
  | .tileCounterWindowWrite who f t n data => Sys2Proof.Machine.execTileCounterWindowWrite who f t n data s
  | .tileWindowAccess who f t off op e => Sys2Proof.Machine.execTileWindowAccess who f t off op e s
  | .storeScrub f t off e late => Sys2Proof.Machine.execStoreScrub f t off e late s
  | .hbmReadRequest who addr e => Sys2Proof.Machine.execHbmReadRequest who addr e s
  | .hbmWriteRequest who addr data poison e => Sys2Proof.Machine.execHbmWriteRequest who addr data poison e s
  | .nmuReduceWrite who addr fmt red data => Sys2Proof.Machine.execNmuReduceWrite who addr fmt red data s
  | .hbmScrubBlock addr e passEnd => Sys2Proof.Machine.execHbmScrubBlock addr e passEnd s
  | .pageRetireDone f found => Sys2Proof.Machine.execPageRetireDone f found s
  | .hbmfRetAddWrite r f value => Sys2Proof.Machine.execHbmfRetAddWrite r f value s
  | .hbmfFenceWrite r f hi value => Sys2Proof.Machine.execHbmfFenceWrite r f hi value s
  | .refreshInterval stack pc tempC => Sys2Proof.Machine.execRefreshInterval stack pc tempC s
  | .bridgeFlitRetry f good => Sys2Proof.Machine.execBridgeFlitRetry f good s
  | .hbmTestRelease r f => Sys2Proof.Machine.execHbmTestRelease r f s
  | .hbmTestStart r f => Sys2Proof.Machine.execHbmTestStart r f s
  | .hbmTestRun f => Sys2Proof.Machine.execHbmTestRun f s
  | .hbmTestDone f fails soft => Sys2Proof.Machine.execHbmTestDone f fails soft s
  | .hbmTestReturn r f => Sys2Proof.Machine.execHbmTestReturn r f s
  | .moveCopy f n => Sys2Proof.Machine.execMoveCopy f n s
  | .moveTranspose f n => Sys2Proof.Machine.execMoveTranspose f n s
  | .movePack f n => Sys2Proof.Machine.execMovePack f n s
  | .moveFill f n => Sys2Proof.Machine.execMoveFill f n s
  | .codecConvert f n => Sys2Proof.Machine.execCodecConvert f n s
  | .codecPack f n => Sys2Proof.Machine.execCodecPack f n s
  | .compress f n => Sys2Proof.Machine.execCompress f n s
  | .decompress f n => Sys2Proof.Machine.execDecompress f n s
  | .gather f n => Sys2Proof.Machine.execGather f n s
  | .scatter f n => Sys2Proof.Machine.execScatter f n s
  | .scatterAdd f n => Sys2Proof.Machine.execScatterAdd f n s
  | .sort f n => Sys2Proof.Machine.execSort f n s
  | .topk f n => Sys2Proof.Machine.execTopk f n s
  | .hist f n => Sys2Proof.Machine.execHist f n s
  | .stencilApply f n => Sys2Proof.Machine.execStencilApply f n s
  | .gemm f n => Sys2Proof.Machine.execGemm f n s
  | .generate f n => Sys2Proof.Machine.execGenerate f n s
  | .encrypt f n => Sys2Proof.Machine.execEncrypt f n s
  | .decrypt f n => Sys2Proof.Machine.execDecrypt f n s
  | .descriptorComplete f n => Sys2Proof.Machine.execDescriptorComplete f n s
  | .engWatchdogExpire f n => Sys2Proof.Machine.execEngWatchdogExpire f n s
  | .cryptoKeyCommit r f => Sys2Proof.Machine.execCryptoKeyCommit r f s
  | .cryptoKeyClear r f => Sys2Proof.Machine.execCryptoKeyClear r f s
  | .coreReset r f c => Sys2Proof.Machine.execCoreReset r f c s
  | .coreLoadPoison f c addr poison dirty => Sys2Proof.Machine.execCoreLoadPoison f c addr poison dirty s
  | .coreRemoteAccess f core addr op => Sys2Proof.Machine.execCoreRemoteAccess f core addr op s
  | .ctxAlloc r => Sys2Proof.Machine.execCtxAlloc r s
  | .ctxFree r => Sys2Proof.Machine.execCtxFree r s
  | .ctxStop r => Sys2Proof.Machine.execCtxStop r s
  | .ctxStart r => Sys2Proof.Machine.execCtxStart r s
  | .ctxReset r => Sys2Proof.Machine.execCtxReset r s
  | .ctxCfgWrite r value => Sys2Proof.Machine.execCtxCfgWrite r value s
  | .dispatchDecision f => Sys2Proof.Machine.execDispatchDecision f s
  | .engineItem c => Sys2Proof.Machine.execEngineItem c s
  | .launch c => Sys2Proof.Machine.execLaunch c s
  | .launchStart c => Sys2Proof.Machine.execLaunchStart c s
  | .launchComplete c => Sys2Proof.Machine.execLaunchComplete c s
  | .wait c => Sys2Proof.Machine.execWait c s
  | .waitItemMet c => Sys2Proof.Machine.execWaitItemMet c s
  | .waitTimeout c => Sys2Proof.Machine.execWaitTimeout c s
  | .signalItemAdd c => Sys2Proof.Machine.execSignalItemAdd c s
  | .signalItemAddAfter c => Sys2Proof.Machine.execSignalItemAddAfter c s
  | .signalItemRegister c => Sys2Proof.Machine.execSignalItemRegister c s
  | .signalItemUnregister c => Sys2Proof.Machine.execSignalItemUnregister c s
  | .fenceContext c => Sys2Proof.Machine.execFenceContext c s
  | .fenceEpoch c => Sys2Proof.Machine.execFenceEpoch c s
  | .markItem c => Sys2Proof.Machine.execMarkItem c s
  | .phaseWait c => Sys2Proof.Machine.execPhaseWait c s
  | .itemConditionMet c => Sys2Proof.Machine.execItemConditionMet c s
  | .submissionWindowWrite who off data => Sys2Proof.Machine.execSubmissionWindowWrite who off data s
  | .signalCounterAdd who n data => Sys2Proof.Machine.execSignalCounterAdd who n data s
  | .signalCounterSet who n data => Sys2Proof.Machine.execSignalCounterSet who n data s
  | .signalCounterExternal who n data => Sys2Proof.Machine.execSignalCounterExternal who n data s
  | .partBuild r p => Sys2Proof.Machine.execPartBuild r p s
  | .partBuildComplete p ready => Sys2Proof.Machine.execPartBuildComplete p ready s
  | .partRebuild r p => Sys2Proof.Machine.execPartRebuild r p s
  | .partFree r p => Sys2Proof.Machine.execPartFree r p s
  | .partCfgWrite r p eng value => Sys2Proof.Machine.execPartCfgWrite r p eng value s
  | .protEpochAdvance r => Sys2Proof.Machine.execProtEpochAdvance r s
  | .epochFenceComplete => Sys2Proof.Machine.execEpochFenceComplete s
  | .flitReceive port flit => Sys2Proof.Machine.execFlitReceive port flit s
  | .nakReceive port seq => Sys2Proof.Machine.execNakReceive port seq s
  | .peerTrainingStart port => Sys2Proof.Machine.execPeerTrainingStart port s
  | .portTrainingDone port lanes peerMod peerPort keysMatch => Sys2Proof.Machine.execPortTrainingDone port lanes peerMod peerPort keysMatch s
  | .portTrainingRetry port => Sys2Proof.Machine.execPortTrainingRetry port s
  | .rejoinWaitEnd port => Sys2Proof.Machine.execRejoinWaitEnd port s
  | .lportCmdRetrain r port => Sys2Proof.Machine.execLportCmdRetrain r port s
  | .lportCmdTest r port => Sys2Proof.Machine.execLportCmdTest r port s
  | .portTestStart port => Sys2Proof.Machine.execPortTestStart port s
  | .portTestDone port errors pass => Sys2Proof.Machine.execPortTestDone port errors pass s
  | .routerForward port t => Sys2Proof.Machine.execRouterForward port t s
  | .read port t => Sys2Proof.Machine.execRead port t s
  | .write port t => Sys2Proof.Machine.execWrite port t s
  | .atomic port t => Sys2Proof.Machine.execAtomic port t s
  | .reduceWrite port t => Sys2Proof.Machine.execReduceWrite port t s
  | .readResp f t => Sys2Proof.Machine.execReadResp f t s
  | .atomicResp f t => Sys2Proof.Machine.execAtomicResp f t s
  | .wdone f t => Sys2Proof.Machine.execWdone f t s
  | .linkMarkReceive src step offset => Sys2Proof.Machine.execLinkMarkReceive src step offset s
  | .relay port t tagOk seq => Sys2Proof.Machine.execRelay port t tagOk seq s
  | .relayResp f t => Sys2Proof.Machine.execRelayResp f t s
  | .ping port t => Sys2Proof.Machine.execPing port t s
  | .pingResp f t => Sys2Proof.Machine.execPingResp f t s
  | .trackerTimeout f trk => Sys2Proof.Machine.execTrackerTimeout f trk s
  | .writeGroupTimeout f group => Sys2Proof.Machine.execWriteGroupTimeout f group s
  | .collArm r slot => Sys2Proof.Machine.execCollArm r slot s
  | .collAbort r slot => Sys2Proof.Machine.execCollAbort r slot s
  | .collSlotStart slot => Sys2Proof.Machine.execCollSlotStart slot s
  | .collSeg port seg => Sys2Proof.Machine.execCollSeg port seg s
  | .collCredit slot down n => Sys2Proof.Machine.execCollCredit slot down n s
  | .collSlotDone slot => Sys2Proof.Machine.execCollSlotDone slot s
  | .collSlotTimeout slot => Sys2Proof.Machine.execCollSlotTimeout slot s
  | .linkPingStart r target => Sys2Proof.Machine.execLinkPingStart r target s
  | .linkRelayKeyCommit r => Sys2Proof.Machine.execLinkRelayKeyCommit r s
  | .hostPrsntChange present => Sys2Proof.Machine.execHostPrsntChange present s
  | .lprsntChange port present => Sys2Proof.Machine.execLprsntChange port present s
  | .hostLinkTrainingDone mode lanes => Sys2Proof.Machine.execHostLinkTrainingDone mode lanes s
  | .hostLinkDrop => Sys2Proof.Machine.execHostLinkDrop s
  | .ethFrameReceive len prio fcsOk vid etype ip6 uncorr => Sys2Proof.Machine.execEthFrameReceive len prio fcsOk vid etype ip6 uncorr s
  | .pfcPauseReceive prio on => Sys2Proof.Machine.execPfcPauseReceive prio on s
  | .icmpv6Request echo target data => Sys2Proof.Machine.execIcmpv6Request echo target data s
  | .ptpEventMessage egress sync domain offset slew => Sys2Proof.Machine.execPtpEventMessage egress sync domain offset slew s
  | .ptpSyncTimeout => Sys2Proof.Machine.execPtpSyncTimeout s
  | .brynirFrameReceive fr => Sys2Proof.Machine.execBrynirFrameReceive fr s
  | .init q => Sys2Proof.Machine.execInit q s
  | .confirm session payload => Sys2Proof.Machine.execConfirm session payload s
  | .handshakeTimeout => Sys2Proof.Machine.execHandshakeTimeout s
  | .sessionAck fr => Sys2Proof.Machine.execSessionAck fr s
  | .sessionClose slot => Sys2Proof.Machine.execSessionClose slot s
  | .ackDelayExpire slot => Sys2Proof.Machine.execAckDelayExpire slot s
  | .retransmitTimeout slot seq => Sys2Proof.Machine.execRetransmitTimeout slot seq s
  | .sessionIdleTimeout slot => Sys2Proof.Machine.execSessionIdleTimeout slot s
  | .hsessCmdClose r => Sys2Proof.Machine.execHsessCmdClose r s
  | .attest slot sig sigLen => Sys2Proof.Machine.execAttest slot sig sigLen s
  | .regRead slot => Sys2Proof.Machine.execRegRead slot s
  | .regWrite slot => Sys2Proof.Machine.execRegWrite slot s
  | .submit slot => Sys2Proof.Machine.execSubmit slot s
  | .dataWrite slot => Sys2Proof.Machine.execDataWrite slot s
  | .dataRead slot => Sys2Proof.Machine.execDataRead slot s
  | .markFrame slot => Sys2Proof.Machine.execMarkFrame slot s
  | .relayTimeout slot tag => Sys2Proof.Machine.execRelayTimeout slot tag s
  | .drawSetpointUpdate m => Sys2Proof.Machine.execDrawSetpointUpdate m s
  | .fallbackEntry => Sys2Proof.Machine.execFallbackEntry s
  | .fallbackExit => Sys2Proof.Machine.execFallbackExit s
  | .exportStop => Sys2Proof.Machine.execExportStop s
  | .exportResume => Sys2Proof.Machine.execExportResume s
  | .feedForwardUpdate fcOut ibMv => Sys2Proof.Machine.execFeedForwardUpdate fcOut ibMv s
  | .ffRampEnd => Sys2Proof.Machine.execFfRampEnd s
  | .fcFault k => Sys2Proof.Machine.execFcFault k s
  | .bcFault k => Sys2Proof.Machine.execBcFault k s
  | .bcPhaseFence p => Sys2Proof.Machine.execBcPhaseFence p s
  | .ibOutOfRange => Sys2Proof.Machine.execIbOutOfRange s
  | .pwrCtrlStop r => Sys2Proof.Machine.execPwrCtrlStop r s
  | .stopDrainEnd => Sys2Proof.Machine.execStopDrainEnd s
  | .stopComplete => Sys2Proof.Machine.execStopComplete s
  | .pwrCtrlWrite r value => Sys2Proof.Machine.execPwrCtrlWrite r value s
  | .grEnable r timebase => Sys2Proof.Machine.execGrEnable r timebase s
  | .grCancel r => Sys2Proof.Machine.execGrCancel r s
  | .grEntryWrite r t value => Sys2Proof.Machine.execGrEntryWrite r t value s
  | .gridResponseEntry => Sys2Proof.Machine.execGridResponseEntry s
  | .grEntryInForce n => Sys2Proof.Machine.execGrEntryInForce n s
  | .grScheduleEnd => Sys2Proof.Machine.execGrScheduleEnd s
  | .loopSlotPeriod slot sample => Sys2Proof.Machine.execLoopSlotPeriod slot sample s
  | .lsModeWrite r slot mode => Sys2Proof.Machine.execLsModeWrite r slot mode s
  | .lsCoefWrite r slot which value => Sys2Proof.Machine.execLsCoefWrite r slot which value s
  | .lsCascWrite r slot value => Sys2Proof.Machine.execLsCascWrite r slot value s
  | .railCmdWrite r rail slew target => Sys2Proof.Machine.execRailCmdWrite r rail slew target s
  | .railPwmPeriod rail vSense current temp => Sys2Proof.Machine.execRailPwmPeriod rail vSense current temp s
  | .railCompWrite r rail comp1 kdf value => Sys2Proof.Machine.execRailCompWrite r rail comp1 kdf value s
  | .railSwap r rail => Sys2Proof.Machine.execRailSwap r rail s
  | .phaseBalance rail currents temps => Sys2Proof.Machine.execPhaseBalance rail currents temps s
  | .shedComplete rail => Sys2Proof.Machine.execShedComplete rail s
  | .shedInhibitEnd rail => Sys2Proof.Machine.execShedInhibitEnd rail s
  | .guardPreadd rail => Sys2Proof.Machine.execGuardPreadd rail s
  | .brakeEnd rail => Sys2Proof.Machine.execBrakeEnd rail s
  | .brakeRearm rail => Sys2Proof.Machine.execBrakeRearm rail s
  | .senseLost rail => Sys2Proof.Machine.execSenseLost rail s
  | .railSenseRetry r rail => Sys2Proof.Machine.execRailSenseRetry r rail s
  | .senseRetryResult rail good => Sys2Proof.Machine.execSenseRetryResult rail good s
  | .railOv rail => Sys2Proof.Machine.execRailOv rail s
  | .railUv rail => Sys2Proof.Machine.execRailUv rail s
  | .railOc rail => Sys2Proof.Machine.execRailOc rail s
  | .phasePeakLimit rail phase consecutive => Sys2Proof.Machine.execPhasePeakLimit rail phase consecutive s
  | .phaseOtFence rail phase => Sys2Proof.Machine.execPhaseOtFence rail phase s
  | .railPhFenceWrite r rail phase fence => Sys2Proof.Machine.execRailPhFenceWrite r rail phase fence s
  | .senseCheckStart rail phase => Sys2Proof.Machine.execSenseCheckStart rail phase s
  | .senseCheckResult rail rise => Sys2Proof.Machine.execSenseCheckResult rail rise s
  | .railStartStage stage => Sys2Proof.Machine.execRailStartStage stage s
  | .pgoodSet rail => Sys2Proof.Machine.execPgoodSet rail s
  | .railStartFail rail => Sys2Proof.Machine.execRailStartFail rail s
  | .railStopStage stage => Sys2Proof.Machine.execRailStopStage stage s
  | .lastFaultFlashWrite => Sys2Proof.Machine.execLastFaultFlashWrite s
  | .railLfClear r => Sys2Proof.Machine.execRailLfClear r s
  | .railPeakClr r => Sys2Proof.Machine.execRailPeakClr r s
  | .arbiterEvaluation => Sys2Proof.Machine.execArbiterEvaluation s
  | .raiseTimeout f => Sys2Proof.Machine.execRaiseTimeout f s
  | .fastHoldEnd f => Sys2Proof.Machine.execFastHoldEnd f s
  | .railFastThrottle rail avg => Sys2Proof.Machine.execRailFastThrottle rail avg s
  | .moduleFastLimit load => Sys2Proof.Machine.execModuleFastLimit load s
  | .fastThrottleRelease src => Sys2Proof.Machine.execFastThrottleRelease src s
  | .budgetAllocation elapsedUs => Sys2Proof.Machine.execBudgetAllocation elapsedUs s
  | .tempMaxThrottle f hbm tempC => Sys2Proof.Machine.execTempMaxThrottle f hbm tempC s
  | .attrFitReq r => Sys2Proof.Machine.execAttrFitReq r s
  | .sweepSampleSend src => Sys2Proof.Machine.execSweepSampleSend src s
  | .sweepReadSend => Sys2Proof.Machine.execSweepReadSend s
  | .sweepReadReturn blocks stackMv => Sys2Proof.Machine.execSweepReadReturn blocks stackMv s
  | .chainFrameResend crc gaveUp => Sys2Proof.Machine.execChainFrameResend crc gaveUp s
  | .chainAlert position readsFit => Sys2Proof.Machine.execChainAlert position readsFit s
  | .monitoringTimeout => Sys2Proof.Machine.execMonitoringTimeout s
  | .carrierReturn units serials => Sys2Proof.Machine.execCarrierReturn units serials s
  | .enum units returned stackMv serials => Sys2Proof.Machine.execEnum units returned stackMv serials s
  | .enumRetry => Sys2Proof.Machine.execEnumRetry s
  | .balanceGroupChange => Sys2Proof.Machine.execBalanceGroupChange s
  | .owReq r => Sys2Proof.Machine.execOwReq r s
  | .openWireTest => Sys2Proof.Machine.execOpenWireTest s
  | .openWireResult flagged => Sys2Proof.Machine.execOpenWireResult flagged s
  | .wake unit cause => Sys2Proof.Machine.execWake unit cause s
  | .packCmdWakeClr r => Sys2Proof.Machine.execPackCmdWakeClr r s
  | .prechargeDone reversed => Sys2Proof.Machine.execPrechargeDone reversed s
  | .prechargePathOpen => Sys2Proof.Machine.execPrechargePathOpen s
  | .prechargeTimeout => Sys2Proof.Machine.execPrechargeTimeout s
  | .contactorOpen => Sys2Proof.Machine.execContactorOpen s
  | .weldCheck stackMv => Sys2Proof.Machine.execWeldCheck stackMv s
  | .packHvilOpen => Sys2Proof.Machine.execPackHvilOpen s
  | .prsntNRise => Sys2Proof.Machine.execPrsntNRise s
  | .prsntNFall => Sys2Proof.Machine.execPrsntNFall s
  | .insertionDebounceEnd => Sys2Proof.Machine.execInsertionDebounceEnd s
  | .packCmdRelease r => Sys2Proof.Machine.execPackCmdRelease r s
  | .packCmdAccept r => Sys2Proof.Machine.execPackCmdAccept r s
  | .packCmdClrLimit r => Sys2Proof.Machine.execPackCmdClrLimit r s
  | .chainFwStart r => Sys2Proof.Machine.execChainFwStart r s
  | .gcsFwSwitch roomUs => Sys2Proof.Machine.execGcsFwSwitch roomUs s
  | .gcsFwRestartDone ok version => Sys2Proof.Machine.execGcsFwRestartDone ok version s
  | .chargeIntegrate bcUa tapUa => Sys2Proof.Machine.execChargeIntegrate bcUa tapUa s
  | .uncertaintyGrowth => Sys2Proof.Machine.execUncertaintyGrowth s
  | .packFiguresUpdate => Sys2Proof.Machine.execPackFiguresUpdate s
  | .restRecognised => Sys2Proof.Machine.execRestRecognised s
  | .ocvCommit r => Sys2Proof.Machine.execOcvCommit r s
  | .restWindowDue => Sys2Proof.Machine.execRestWindowDue s
  | .restWindowTimeout => Sys2Proof.Machine.execRestWindowTimeout s
  | .estCmdAbortRest r => Sys2Proof.Machine.execEstCmdAbortRest r s
  | .estCmdRestNow r => Sys2Proof.Machine.execEstCmdRestNow r s
  | .estCmdCapture r => Sys2Proof.Machine.execEstCmdCapture r s
  | .estCmdRestore r => Sys2Proof.Machine.execEstCmdRestore r s
  | .estCtrlWrite r policy => Sys2Proof.Machine.execEstCtrlWrite r policy s
  | .collectorLatch => Sys2Proof.Machine.execCollectorLatch s
  | .fcolSelfCheckLost f => Sys2Proof.Machine.execFcolSelfCheckLost f s
  | .frondTempFence f => Sys2Proof.Machine.execFrondTempFence f s
  | .mfsWrite r value => Sys2Proof.Machine.execMfsWrite r value s
  | .ffsWrite r f value => Sys2Proof.Machine.execFfsWrite r f value s
  | .errMaskWrite r page value => Sys2Proof.Machine.execErrMaskWrite r page value s
  | .errInjectWrite r page value => Sys2Proof.Machine.execErrInjectWrite r page value s
  | .mcolPinAssert r => Sys2Proof.Machine.execMcolPinAssert r s
  | .mcolPinRelease r => Sys2Proof.Machine.execMcolPinRelease r s
  | .faultNPulseEnd => Sys2Proof.Machine.execFaultNPulseEnd s
  | .aliveToggle => Sys2Proof.Machine.execAliveToggle s
  | .collectorSelfCheck ok => Sys2Proof.Machine.execCollectorSelfCheck ok s
  | .hangScan => Sys2Proof.Machine.execHangScan s
  | .contextResetComplete ctx => Sys2Proof.Machine.execContextResetComplete ctx s
  | .contextResetTileTimeout ctx => Sys2Proof.Machine.execContextResetTileTimeout ctx s
  | .rstCmdEngine r target => Sys2Proof.Machine.execRstCmdEngine r target s
  | .engineResetComplete f n => Sys2Proof.Machine.execEngineResetComplete f n s
  | .engineResetTimeout f n => Sys2Proof.Machine.execEngineResetTimeout f n s
  | .rstCmdPartition r target => Sys2Proof.Machine.execRstCmdPartition r target s
  | .partitionResetComplete p => Sys2Proof.Machine.execPartitionResetComplete p s
  | .rstCmdChip r => Sys2Proof.Machine.execRstCmdChip r s
  | .chipResetPhaseDone res => Sys2Proof.Machine.execChipResetPhaseDone res s
  | .rstCmdPowerCycle r => Sys2Proof.Machine.execRstCmdPowerCycle r s
  | .recoveryStepOverrun step target => Sys2Proof.Machine.execRecoveryStepOverrun step target s
  | .powerCycleIbi => Sys2Proof.Machine.execPowerCycleIbi s
  | .trayStop => Sys2Proof.Machine.execTrayStop s
  | .trayChipReset => Sys2Proof.Machine.execTrayChipReset s
  | .trayPcAck => Sys2Proof.Machine.execTrayPcAck s
  | .trayFaultRelease => Sys2Proof.Machine.execTrayFaultRelease s
  | .trayReadStatus => Sys2Proof.Machine.execTrayReadStatus s
  | .trayReadMfs => Sys2Proof.Machine.execTrayReadMfs s
  | .i3cSetdasa addr => Sys2Proof.Machine.execI3cSetdasa addr s
  | .i3cEntdaa addr => Sys2Proof.Machine.execI3cEntdaa addr s
  | .i3cRstdaa => Sys2Proof.Machine.execI3cRstdaa s
  | .i3cEnec mask => Sys2Proof.Machine.execI3cEnec mask s
  | .i3cDisec mask => Sys2Proof.Machine.execI3cDisec mask s
  | .i3cGetpid => Sys2Proof.Machine.execI3cGetpid s
  | .i3cGetbcr => Sys2Proof.Machine.execI3cGetbcr s
  | .i3cGetdcr => Sys2Proof.Machine.execI3cGetdcr s
  | .i3cGetstatus => Sys2Proof.Machine.execI3cGetstatus s
  | .dumpCapture r => Sys2Proof.Machine.execDumpCapture r s
  | .dumpCaptureDone => Sys2Proof.Machine.execDumpCaptureDone s
  | .dumpFlashWriteDone ok => Sys2Proof.Machine.execDumpFlashWriteDone ok s
  | .dumpFlush r => Sys2Proof.Machine.execDumpFlush r s
  | .dumpErase r => Sys2Proof.Machine.execDumpErase r s
  | .dumpDataRead r => Sys2Proof.Machine.execDumpDataRead r s
  | .irqLineChange c src level => Sys2Proof.Machine.execIrqLineChange c src level s
  | .ficPendSet r c word bits => Sys2Proof.Machine.execFicPendSet r c word bits s
  | .ficPendClr r c word bits => Sys2Proof.Machine.execFicPendClr r c word bits s
  | .irqClaim c target => Sys2Proof.Machine.execIrqClaim c target s
  | .ficEoi r c target id => Sys2Proof.Machine.execFicEoi r c target id s
  | .modGroupRelease c group => Sys2Proof.Machine.execModGroupRelease c group s
  | .wfiRelease c target => Sys2Proof.Machine.execWfiRelease c target s
  | .mirrorBlockWrite ok => Sys2Proof.Machine.execMirrorBlockWrite ok s
  | .recFreeze r alsoUnfreeze => Sys2Proof.Machine.execRecFreeze r alsoUnfreeze s
  | .recUnfreeze r => Sys2Proof.Machine.execRecUnfreeze r s
  | .freezeTimeout => Sys2Proof.Machine.execFreezeTimeout s
  | .recRdSelWrite r flash index => Sys2Proof.Machine.execRecRdSelWrite r flash index s
  | .recRdLoadDone r => Sys2Proof.Machine.execRecRdLoadDone r s
  | .recClrNonceReq r => Sys2Proof.Machine.execRecClrNonceReq r s
  | .recClrPtrReset r => Sys2Proof.Machine.execRecClrPtrReset r s
  | .recAuthDataWrite r word => Sys2Proof.Machine.execRecAuthDataWrite r word s
  | .recClrVerify r => Sys2Proof.Machine.execRecClrVerify r s
  | .recClrResult => Sys2Proof.Machine.execRecClrResult s
  | .recClearEraseDone => Sys2Proof.Machine.execRecClearEraseDone s
  | .nonceExpire fuse => Sys2Proof.Machine.execNonceExpire fuse s
  | .cfgPtrReset r => Sys2Proof.Machine.execCfgPtrReset r s
  | .cfgCommit r => Sys2Proof.Machine.execCfgCommit r s
  | .cfgFlashWriteDone ok => Sys2Proof.Machine.execCfgFlashWriteDone ok s
  | .cfgRead r => Sys2Proof.Machine.execCfgRead r s
  | .cfgErase r => Sys2Proof.Machine.execCfgErase r s
  | .cfgDataAccess r write => Sys2Proof.Machine.execCfgDataAccess r write s
  | .fwLoad r => Sys2Proof.Machine.execFwLoad r s
  | .fwOpen r => Sys2Proof.Machine.execFwOpen r s
  | .fwAppend r => Sys2Proof.Machine.execFwAppend r s
  | .fwClose r => Sys2Proof.Machine.execFwClose r s
  | .fwStagingDone written => Sys2Proof.Machine.execFwStagingDone written s
  | .fwActivate r => Sys2Proof.Machine.execFwActivate r s
  | .fwSafePoint => Sys2Proof.Machine.execFwSafePoint s
  | .fwReadyTimeout => Sys2Proof.Machine.execFwReadyTimeout s
  | .fwConfirm r => Sys2Proof.Machine.execFwConfirm r s
  | .fwAbort r => Sys2Proof.Machine.execFwAbort r s
  | .fuseNonceReq r => Sys2Proof.Machine.execFuseNonceReq r s
  | .fusePtrReset r => Sys2Proof.Machine.execFusePtrReset r s
  | .fuseAuthDataWrite r word => Sys2Proof.Machine.execFuseAuthDataWrite r word s
  | .fuseExecute r => Sys2Proof.Machine.execFuseExecute r s
  | .fuseOpDone good => Sys2Proof.Machine.execFuseOpDone good s
  | .dbgUnlockWrite r value => Sys2Proof.Machine.execDbgUnlockWrite r value s
  | .registerWrite r addr bytes value => Sys2Proof.Machine.execRegisterWrite r addr bytes value s
  | .accessClassWrite r page value => Sys2Proof.Machine.execAccessClassWrite r page value s
  | .blkCtrlEnable r page on => Sys2Proof.Machine.execBlkCtrlEnable r page on s
  | .blkCtrlFenceSet r page => Sys2Proof.Machine.execBlkCtrlFenceSet r page s
  | .blkCtrlFenceClear r page => Sys2Proof.Machine.execBlkCtrlFenceClear r page s
  | .blkCtrlResetReq r page => Sys2Proof.Machine.execBlkCtrlResetReq r page s
  | .blkCtrlCfgLock r page => Sys2Proof.Machine.execBlkCtrlCfgLock r page s
  | .packHvilClose => Sys2Proof.Machine.execPackHvilClose s
  | .alwaysOnPowerLoss => Sys2Proof.Machine.execAlwaysOnPowerLoss s
  | .standbyBusReturn => Sys2Proof.Machine.execStandbyBusReturn s
  | .escapeVcTimeout n => Sys2Proof.Machine.execEscapeVcTimeout n s
  | .phaseInvalidTimeout ctx => Sys2Proof.Machine.execPhaseInvalidTimeout ctx s
  | .balSetTimeout unit => Sys2Proof.Machine.execBalSetTimeout unit s
  | .sweepSampleInstant bcMa => Sys2Proof.Machine.execSweepSampleInstant bcMa s
  | .sleepCheck unit minMv maxMv minC maxC unitFault => Sys2Proof.Machine.execSleepCheck unit minMv maxMv minC maxC unitFault s

end Sys2Proof.Machine
end

