-- ==== Sys2Proof/Machine/Tick.lean ====
section
/-! DEFINITION. One tick of the 250 MHz clock of the always-on domain, which the block makes while no command waits:
the counters of time and phase, the entries whose angle is reached, what is averaged over time, and armed injections
(R32, R33, R45, R51, R55, R319, R378, R379, R452). -/

namespace Sys2Proof.Machine

/-! ### Phase and time -/

/-- The accumulator after a tick: it stays below its end until AUTONOMOUS_WRAP. (DESIGN CHOICE, log 2) -/
def State.accNext (s : State) : Nat := min (2 ^ 64 - 1) (s.phase.acc + s.phaseInc)

/-- A frond's copy after a tick: it advances at the rate of the last good broadcast (R55, R56). -/
def FrondCopy.advance (c : FrondCopy) : FrondCopy :=
  if c.acc + c.inc < 2 ^ 64 then { c with acc := c.acc + c.inc }
  else { c with acc := c.acc + c.inc - 2 ^ 64, step := (c.step + 1) % 2 ^ 32 }

/-- The IB load power of this tick joins its bin (R51). -/
def State.binAdd (s : State) (m : BinSums) : BinSums :=
  let k := s.angle / 2 ^ 24
  let e := Sparse.get (fun _ => (0, 0)) m k
  Sparse.set (fun _ => (0, 0)) m k (e.1 + (s.rdS F.PWR_MEAS_IB_LOAD).toNat, e.2 + 1)

/-- The increment has changed since it was noted, or the step has just begun: it is noted (R566). -/
def State.traceNext (s : State) : List (Nat × Nat × Nat) :=
  match s.phase.trace with
  | [] => [(s.now, s.phase.acc, s.phaseInc)]
  | e :: t => if e.2.2 = s.phaseInc then e :: t else (s.now, s.phase.acc, s.phaseInc) :: e :: t

/-- The phase unit makes a tick. (DESIGN CHOICE, log 2) -/
def State.phaseTick (s : State) : State :=
  let ph := s.phase
  let ph := { ph with time := (ph.time + 1) % 2 ^ 64, acc := s.accNext, meas := s.binAdd ph.meas, trace := s.traceNext,
                      copyA := ph.copyA.advance, copyB := ph.copyB.advance }
  { s with phase := ph }.evtCollect

/-- The energies of the step and of the attribution interval: 0.25 W over 4 ns is 1 nJ (R319, R379). (DESIGN CHOICE, log 2) -/
def State.energyTick (s : State) : State :=
  let x := s.rdS F.PWR_MEAS_IB_LOAD
  { s with power := { s.power with eStep := s.power.eStep + x, eInt := s.power.eInt + x } }

/-- Every microsecond the tiles of each BUILT partition count as TILE_STATIC, charged to the partition's domain (R378). -/
def State.staticTick (s : State) : State :=
  if s.now % 250 ≠ 0 then s
  else (List.range 64).foldl (fun s p =>
    if s.partState p = 2 then s.activity (s.partFrond p) 11 (s.partTiles p).length none (some (s.partDomain p)) else s) s

/-- PTP_TIME counts nanoseconds, OP_SECONDS seconds of operation. (DESIGN CHOICE, log 2) -/
def State.clockTick (s : State) : State :=
  let s := s.inc F.PTP_TIME_TAI_NS 4
  if s.now % 250000000 = 0 then s.inc F.SYS_UPTIME_OP_SECONDS else s

/-! ### Injected errors (R452) -/

/-- Bits whose checker works at an access, a frame or an operation of its own, not at every tick. (DESIGN CHOICE, log 56) -/
def injWaits (k : PageKind) (b : Nat) : Bool :=
  match k with
  | .tile => b == 0 || b == 3
  | .store => true
  | .hbmc => b ≤ 1
  | .lport => b ≤ 1
  | .phase => b ≤ 2
  | .chain => b == 1
  | .fic => b == 1
  | .pic => b == 1
  | _ => false

/-- A checker that works at every tick meets its armed injection: the bit, and what the unit then does with the flit, the
line or the descriptor. (DESIGN CHOICE, log 56) -/
def State.injDo (s : State) (p b : Nat) : State :=
  match pageInfo p with
  | none => s
  | some i =>
    if injWaits i.kind b then s
    else
      let f := Frond.at i.frond
      let s := s.err p b
      match i.kind, b with
      | .hbmc, 3 => (s.incSat (F.HBMC_ERR_COUNT_CE.pg p)).event p 0x6001
      | .hbmf, 2 => s.incSat (F.BRIDGE_STATUS_RETRIES.pg p)
      | .core, 0 => s.incSat (F.CORE_STATUS_CE_COUNT.pg p)
      | .eng, 1 => s.engEnd f i.inst 0x0B 0
      | _, _ => s

/-- Armed injections of a page. -/
def State.injPage (s : State) (p : Nat) : State :=
  (bitsOf (s.rd (F.ERR_INJECT_INJECT.pg p))).foldl (fun s b => s.injDo p b) s

/-- The pages with an armed injection. -/
def State.injPages (s : State) : List Nat :=
  (s.regs.filter (fun e => e.1 % 4096 == 0x30)).map (fun e => e.1 / 4096)

/-- (DESIGN CHOICE, log 56) -/
def State.injTick (s : State) : State := s.injPages.foldl State.injPage s

/-! ### Tiles -/

/-- What a tile in service begins of its own: an IDLE spare its rotation cycle, a tile without a spare an in-place
calibration (R84, R89). (DESIGN CHOICE, log 26) -/
def State.tileTick (s : State) (f : Frond) (p : Nat) : State :=
  if s.tileState f p != 2 then s
  else if s.rot f p = 0 && s.rotOn f p then s.rotBegin f p
  else if s.rot f p = 6 then s.ipBegin f p
  else s

/-- (DESIGN CHOICE, log 26) -/
def State.frondTick (s : State) (f : Frond) : State := (List.range 132).foldl (fun s p => s.tileTick f p) (s.fullCalPoke f)

/-! ### Requests that wait at their source -/

/-- A request that waits for a tracker entry or a write group leaves when it finds one, issued then (R255, R259).
(DESIGN CHOICE, log 41) -/
def State.stallRetry (s : State) (e : Stalled) : State :=
  let t := { e.txn with issue := BitVec.ofNat 16 s.issueUs }
  if e.posted then
    let r := s.post e.frond e.user t e.g
    if r.2 then r.1
    else
      match e.user with
      | .core n => r.1.coreErr e.frond n 2 e.g
      | .item c num => r.1.addFault c 9 num
      | _ => r.1
  else s.ask e.frond e.user t e.g

/-- Stalled requests try again, oldest first. -/
def State.stallTick (s : State) : State :=
  let l := s.link.stalled
  if l.isEmpty then s else l.foldl State.stallRetry { s with link := { s.link with stalled := [] } }

/-! ### The tick -/

/-- Sessions whose sequence numbers are spent fail (R283). -/
def State.sessTick (s : State) : State := (s.sessions.map (·.1)).foldl State.seqCheck s

/-- One tick of an always-on domain that is up. (DESIGN CHOICE, log 2) -/
def State.tick (s : State) : State :=
  if s.boot.up then s.waitTrack.phaseTick.energyTick.staticTick.clockTick.injTick.sessTick.stallTick.relayTick.frondTick .A |>.frondTick .B else s

end Sys2Proof.Machine
end

