-- ==== Sys2Proof/Machine/Step.lean ====
section
/-! DEFINITION. One step of the block: the command at the front of the queue, or a tick while none waits. -/

namespace Sys2Proof.Machine

/-- A step: the command at the front of the queue takes effect on the state with the queue's rest; on an empty queue the
clock makes a tick. (DESIGN CHOICE, log 1; DESIGN CHOICE, log 2; DESIGN CHOICE, log 3; DESIGN CHOICE, log 4) -/
def step (s : State) : Host.Outcome State Fault Refusal :=
  match s.pending with
  | [] => .next s.tick
  | c :: rest => exec c { s with pending := rest }

/-- The state with the command that a table word spells at the front of the queue: no row of the table has bits, so no word
spells one. (DESIGN CHOICE, log 3) -/
def State.withFetchWord (s : State) (nbits w : Nat) : State :=
  match decodeTableWord nbits w with
  | some c => { s with pending := c :: s.pending }
  | none => s

end Sys2Proof.Machine
end

