-- ==== Sys2Proof/Safety.lean ====
section
/-! DEFINITION. What counts as a safe run: that a step goes on, what a command does and leaves alone, and the canonical form
of the tables in a state. -/

namespace Sys2Proof.Machine

/-- The step goes on: no fault, no refusal. -/
def State.runs (s : State) : Prop := ∃ t, step s = .next t

/-- The command answers a next state, of which `p` holds. -/
def Does (c : Instr) (s : State) (p : State → Prop) : Prop := ∃ t, exec c s = .next t ∧ p t

/-- Memory and the register file are in canonical form: keys rise strictly, and no entry equals what its key reads as when it
is not listed. -/
abbrev State.canonical (s : State) : Prop := Memory.wf s.mem = true ∧ Sparse.wf resetOf s.regs = true

/-- A requester may write the page of a field: the page is there, its unit is reachable and its class admits the level. -/
abbrev State.mayWrite (s : State) (r : Req) (f : Field) : Prop := s.pageFault r f.page true = none

/-- Nothing but registers differs. -/
def State.onlyRegs (s t : State) : Prop := t = { s with regs := t.regs }

/-- Every byte of memory reads as before. -/
def State.sameMemory (s t : State) : Prop := ∀ a, t.byte a = s.byte a

/-- Every register reads as before but those of the keys that `p` names. -/
def State.regsBut (s t : State) (p : Nat → Prop) : Prop := ∀ k, ¬ p k → t.reg k = s.reg k

/-- The registers that recording an event may write: the interrupt controllers' STATS, PEND_SET and MOD registers, the
recorder's STATUS, WRITTEN and LOST, and the count of frames that the host port sends. -/
def eventKey (k : Nat) : Bool :=
  ((k / 4096 == 0x86 || k / 4096 == 0x10A || k / 4096 == 0x30A) && (k % 4096 == 0x108
      || (decide (0x400 ≤ k % 4096) && decide (k % 4096 < 0x480)) || (decide (0x600 ≤ k % 4096) && decide (k % 4096 < 0x700))))
    || (k / 4096 == 0x88 && (k % 4096 == 0x108 || k % 4096 == 0x110 || k % 4096 == 0x120)) || k == 0xA8148

/-- `t` differs from `s` at most by what recording events may change (those registers, the recorder, the interrupt
controllers, the sessions, the host port's queues and what is put out) and by the registers that `p` names. -/
def State.logsBut (s t : State) (p : Nat → Prop) : Prop :=
  s.regsBut t (fun k => eventKey k = true ∨ p k) ∧
    t = { s with regs := t.regs, recorder := t.recorder, ficA := t.ficA, ficB := t.ficB, pic := t.pic, host := t.host,
                 sessions := t.sessions, outbox := t.outbox }

/-- The sequencer of tile `p` may take the op word `w` at its PC: it runs, the tile is not fenced, the PC is in range, the word is
clean, legal and neither a barrier nor waiting on a counter. -/
abbrev State.takesOp (s : State) (f : Frond) (p w : Nat) : Prop :=
  s.opHere f p = w ∧ s.issuing f p = true ∧ s.tileState f p ≠ 4 ∧ s.pc f p ≤ 0x3FFFF0 ∧ s.col.inverted = [] ∧
    s.poisoned (storeKey f.idx p (s.pc f p / 32 * 32)) = false ∧ opIllegal w = false ∧ bitOf w 5 = false ∧ bitOf w 6 = false

/-- The op at the head of queue `k` of tile `p` may start, waits on no counter and reads clean bytes. -/
abbrev State.startsOp (s : State) (f : Frond) (p k : Nat) (q : TileQ) : Prop :=
  s.startable f p k = some q ∧ bitOf q.word 6 = false ∧ s.col.inverted = [] ∧ s.readsPoison f p q = false

/-- The op `q` of queue `k` has left its queue and is in flight with the bytes it will write; no byte of memory changed yet. -/
def State.opInFlight (s t : State) (f : Frond) (p k : Nat) (q : TileQ) (writes : List (Nat × Nat))
    (stat : Option (Nat × Nat)) : Prop :=
  (t.tile f p).fly = (s.tile f p).fly ++ [⟨k, q, writes, stat⟩] ∧
    (t.tile f p).queue k = ((s.tile f p).queue k).drop 1 ∧ t.mem = s.mem

/-- The head item of context `c` is one for the dispatcher of its frond: not taken yet, or waiting for room in an engine queue. -/
abbrev State.toDispatch (s : State) (c : Nat) : Prop := s.blockKind c = 0 ∨ s.blockKind c = 7

/-- The item `w` is at the head of context `c`, which runs it now: its words are clean, no epoch fence holds it, and where it is one
for the dispatcher of its frond the dispatcher's choice falls on it. -/
abbrev State.atHead (s : State) (c : Nat) (w : List Nat) : Prop :=
  s.headLive c = true ∧ s.headPeek c = w ∧ s.headRead c = (s, some w) ∧ s.itemHeld c w = false ∧
    (s.toDispatch c → s.pick (s.partFrond (s.ctx c).part) = some c)

/-- What a step that took the head of context `c` of `s` and left `t` leaves: the dispatcher's turn has been taken as well, where the
item was one for the dispatcher. -/
def State.taken (s t : State) (c : Nat) : State :=
  if s.toDispatch c then t.turnTake (s.partFrond (s.ctx c).part) (s.ctx c).prio c else t

/-- The record `e` of type `typ` is in front on session `n` and may run: it is well formed, no fence or live tag holds it, and the
session has credit. -/
abbrev State.recReady (s : State) (n typ : Nat) (e : HRec) : Prop :=
  s.frontRec n typ = some e ∧ e.bad = false ∧ (s.sess n).fenced e.w0 = false ∧ (s.sess n).tagLive (e.w0 % 8192) = false ∧
    s.credit n ≠ 0

/-- `t` is `s` after a freeze in force ended with a cause: the held records appended in order, then event 0xF002 with their number,
the number dropped and the cause, and what the mirror lost by it recorded. -/
def State.unfrozen (s t : State) (cause : Nat) : Prop := ∃ u,
  u = (s.recorder.held.foldl State.recPush
    (({ s with recorder := { s.recorder with held := [], dropped := 0 } }).wr F.REC_CTRL_FREEZE 0)).wr F.REC_STATUS_HELD 0 ∧
  t = (u.recOffer (sourceOf 0x88) 0 0xF002 s.recorder.held.length s.recorder.dropped cause 0).mirrorLost
    (s.rd F.REC_LOST_MIRROR)

/-- A program op has issued: the sequencer runs on at the next word, outside a loop, and the op is counted. -/
def State.wentOn (s t : State) (f : Frond) (p : Nat) : Prop :=
  t.rd (tf F.TSEQ_ISSUED_COUNT f p) = (s.rd (tf F.TSEQ_ISSUED_COUNT f p) + 1) % 2 ^ 64 ∧
    ((s.tile f p).loops = [] → t.pc f p = s.pc f p + 16 ∧ t.seqState f p = 1)

end Sys2Proof.Machine
end

