-- ==== Sys2Proof/Certificates/Slice0/Obligations.lean ====
section
/-! DEFINITION. The statements for the provers, family by family of the opcode table. `Does c s p` says that the command runs
to a next state of which `p` holds; `mayWrite` that the page admits the requester (R539). -/

open Sys2Proof Sys2Proof.Machine

/-- For every command and state, a step with the command at the front of the queue is that command's effect on the state with
the queue's rest. The queue (log 1) and the second clause (log 2), that with nothing waiting the step is one tick of the clock, are
the model's choice. -/
def Obligations.StepRunsTheFrontCommand : Prop :=
  (∀ (c : Instr) (rest : List Instr) (s : State), s.pending = c :: rest → step s = exec c { s with pending := rest }) ∧
  (∀ s : State, s.pending = [] → step s = .next s.tick)

/-- For every command, with any operands, and every state there is a next state: the block never stops. -/
def Obligations.EveryCommandRuns : Prop := ∀ (c : Instr) (s : State), ∃ t, exec c s = .next t

/-- After reset the tick counter is 0 and no command waits; phase is FREE, no port is up, the power mode is STANDBY, RELEASE_US is
10, INJ_SAFE is 1 and K_E8 is 1,000 as their pages give; memory and the register table list nothing and are in canonical form. -/
def Obligations.ResetStateIsAsThePagesGive : Prop :=
  State.reset.now = 0 ∧ State.reset.pending = [] ∧ State.reset.lock = 0 ∧ State.reset.mode = 0 ∧
  (∀ p < 24, State.reset.portUp p = false) ∧ State.reset.rd F.CAP_FAST_RELEASE_US = 10 ∧
  State.reset.rd F.MCOL_CTRL_INJ_SAFE = 1 ∧ State.reset.rd F.EST_CAP_K_E8 = 1000 ∧ State.reset.mem = [] ∧
  State.reset.canonical

/-- From any state in which the keys of memory and of the register table rise strictly and no entry equals what its key reads as
unlisted (a byte 0, a register its Reset value), a step leads to a state of which this holds again: equal contents stay equal data,
whatever command runs. -/
def Obligations.StepKeepsCanonical : Prop := ∀ s t : State, s.canonical → step s = .next t → t.canonical

/-- An autonomous wrap begins the next step with the accumulator at 0 and the number of a pending STEP_SET, or the next one. An
expected mark that does not come in LOCKED, in a step a wrap began, past the window, counts MISS with event 0xB002 and gives HOLDOVER
with HOLD_STEPS 1; otherwise none is missed. A lapse of the active source re-selects it. A filtered edge of STEP_IN of the chosen sense is a mark of source PIN, and an edge of the other
sense is none. COMMIT sets COMMIT_PEND, REACQUIRE is held, FORCE_FREE in another state gives FREE, PROF_CLEAR clears the profile,
and STEP_SET waits for the next step start.
Where a clause rests on a corner that the spec leaves open, it states the choice of the model: logs 16 and 17.
Completion is stated here of: autonomousWrap, expectedMarkMiss, activeSourceLapse, stepInEdge, phaseCtrlCommit,
phaseCtrlReacquire, phaseCtrlForceFree, phaseCtrlProfClear, phaseStepSetWrite. -/
def Obligations.StepStartsMarksAndControls : Prop :=
  (∀ s : State, Does .autonomousWrap s (fun t => t.phase.acc = 0 ∧ t.phase.byMark = false ∧
    (s.phase.pendStep = none → t.phase.step = (s.phase.step + 1) % 2 ^ 32) ∧
    (∀ n, s.phase.pendStep = some n → t.phase.step = n % 2 ^ 32 ∧ t.phase.pendStep = none))) ∧
  (∀ s : State, s.lock = 2 → s.phase.byMark = false → s.rd F.PHASE_WINDOW_WIN < s.angle →
    Does .expectedMarkMiss s (fun t => t.lock = 3 ∧ t.rd F.PHASE_STATUS_HOLD_STEPS = 1 ∧
      t = ((((s.incSat F.PHASE_COUNTS_MISS).phaseEvent F.PHASE_EVENTS_MISS).event 0xA0 0xB002).setLock 3).wr
        F.PHASE_STATUS_HOLD_STEPS 1)) ∧
  (∀ s : State, s.lock ≠ 2 ∨ s.phase.byMark = true ∨ s.angle ≤ s.rd F.PHASE_WINDOW_WIN →
    exec .expectedMarkMiss s = .next s) ∧
  (∀ s : State, Does .activeSourceLapse s (fun t => t.rd F.PHASE_STATUS_ACTIVE_SRC = s.srcPick)) ∧
  (∀ (rising : Bool) (s : State),
    (s.rd F.PHASE_STEP_IO_IN_EDGE = b2n (!rising) →
      exec (.stepInEdge rising) s = .next (s.markIn 4 (s.now - s.rd F.PHASE_STEP_IO_IN_FILTER) none none)) ∧
    (s.rd F.PHASE_STEP_IO_IN_EDGE = b2n rising → exec (.stepInEdge rising) s = .next s)) ∧
  (∀ (r : Req) (s : State), s.mayWrite r F.PHASE_CTRL_COMMIT →
    Does (.phaseCtrlCommit r) s (fun t => t.rd F.PHASE_CTRL_COMMIT = 1 ∧ t.rd F.PHASE_STATUS_COMMIT_PEND = 1 ∧ s.onlyRegs t ∧
      s.regsBut t (fun k => k = F.PHASE_CTRL_COMMIT.key ∨ k = F.PHASE_STATUS_COMMIT_PEND.key)) ∧
    Does (.phaseCtrlReacquire r) s (fun t => t.rd F.PHASE_CTRL_REACQUIRE = 1 ∧ s.onlyRegs t ∧
      s.regsBut t (fun k => k = F.PHASE_CTRL_REACQUIRE.key)) ∧
    Does (.phaseCtrlForceFree r) s (fun t => t.lock = 0 ∧ t.phase.run = []) ∧
    Does (.phaseCtrlProfClear r) s (fun t => t.rd F.PROF_STATUS_PROF_STEPS = 0 ∧ t.rd F.PROF_STATUS_PROF_PERIOD = 0 ∧
      (∀ i < 64, t.reg (F.PROF_BIN_BIN0.i i).key = 0) ∧ t.rd F.PHASE_STATUS_PROF_VALID = 0)) ∧
  (∀ (r : Req) (value : BitVec 32) (s : State), s.mayWrite r F.PHASE_STEP_SET_STEP →
    exec (.phaseStepSetWrite r value) s = .next { s with phase := { s.phase with pendStep := some value.toNat } })

/-- A firing leaves the queue that it headed, sets its bit of PHEV_FIRED unless its step has ended, and takes its action; with none
due nothing happens. A segment start ends the preference of an OP_PREF action, and the arbiter evaluates. A broadcast whose check is
good gives each frond a valid copy of the accumulator, the step number and the lock state; a frond whose check fails, by itself or by
injection, keeps its copy and sets ERR_STATUS bit 1 or 2 of PHASE. A copy that becomes invalid sets ERR_STATUS bit 3 of the frond's
collector. The STEP_OUT pulse ends.
Where a clause rests on a corner that the spec leaves open, it states the choice of the model: logs 16 and 17.
Completion is stated here of: phaseEventFire, segmentStart, phaseBroadcast, frondCopyInvalid, stepOutPulseEnd. -/
def Obligations.EventTableFiresAndCopiesFollow : Prop :=
  (∀ (q : Firing) (rest : List Firing) (s : State), s.phase.queue = q :: rest → q.ended = false →
    exec .phaseEventFire s = .next
      ((({ s with phase := { s.phase with queue := rest } }).setBit F.PHEV_FIRED_FIRED q.entry).evtAction q)) ∧
  (∀ (q : Firing) (rest : List Firing) (s : State), s.phase.queue = q :: rest → q.ended = true →
    exec .phaseEventFire s = .next (({ s with phase := { s.phase with queue := rest } }).evtAction q)) ∧
  (∀ s : State, s.phase.queue = [] → exec .phaseEventFire s = .next s) ∧
  (∀ s : State, exec .segmentStart s = .next ({ s with phase := { s.phase with opPref := none } }).arbBoth) ∧
  (∀ (goodA goodB : Bool) (s : State),
    s.copyNow.valid = true ∧ s.copyNow.acc = s.phase.acc ∧ s.copyNow.step = s.phase.step ∧ s.copyNow.lock = s.lock ∧
    Does (.phaseBroadcast goodA goodB) s (fun t =>
      t.phase = { s.phase with copyA := t.phase.copyA, copyB := t.phase.copyB } ∧
      t.phase.copyA = (if goodA && !s.armed 0xA0 1 then s.copyNow else s.phase.copyA) ∧
      t.phase.copyB = (if goodB && !s.armed 0xA0 2 then s.copyNow else s.phase.copyB) ∧
      (goodA = false ∨ s.armed 0xA0 1 = true → bitOf (t.rd (errStatus 0xA0)) 1 = true) ∧
      (goodB = false ∨ s.armed 0xA0 2 = true → bitOf (t.rd (errStatus 0xA0)) 2 = true)) ∧
    (goodA = true → goodB = true → s.armed 0xA0 1 = false → s.armed 0xA0 2 = false → exec (.phaseBroadcast goodA goodB) s =
      .next { s with phase := { s.phase with copyA := s.copyNow, copyB := s.copyNow } })) ∧
  (∀ (f : Frond) (s : State), Does (.frondCopyInvalid f) s (fun t =>
    (t.copyOf f).valid = false ∧ t.copyOf f.other = s.copyOf f.other ∧
    bitOf (t.rd (errStatus (frondPg f 0x108))) 3 = true)) ∧
  (∀ s : State, exec .stepOutPulseEnd s = .next { s with phase := { s.phase with stepOut := false } })

/-- A reading in range is shown as TEMP; one within the threshold of a recent calibration does no more, one beyond it makes the
array STALE, and any reading one whose calibration is older than 600 s; a reading out of range sets ERR_STATUS bit 4 and ends the
array's trigger. An interval gives every ready tile that
rotates its trigger, and a READY spare with a trigger takes the target's slot. A copy ends in CAL with the target's active bank,
or restarts with ERR_STATUS bit 0 at a parity error, injected or not. A calibration that passes makes the spare READY with CAL_TEMP and PASS, the first that fails makes it
FAIL with ERR_STATUS bit 1. A tile without a spare calibrates in place. A full calibration starts in an open window, which
puts every tile but a fenced one in CAL, and ends; requested elsewhere it waits. The self-test is begun for the frond, now, before the
next COPY or on each slot, and a passing spare is IDLE again, a passing slot's test followed by the next. A trigger held too long sets
ERR_STATUS bit 5.
Where a clause rests on a corner that the spec leaves open, it states the choice of the model: logs 23 and 26.
Completion is stated here of: arrayTempSample, acalIntervalExpire, spareRotation, spareCopyDone, spareCalDone, rotTimeout,
inPlaceCalibration, acalFullCalReq, fullCalibrationDone, acalBistReq, arrayBistDone. -/
def Obligations.ArraysCalibrateAndRotate : Prop :=
  (∀ (f : Frond) (t : Fin 132) (a : Fin 5) (temp : BitVec 16) (s u : State),
    u = s.wr (af F.ARR_STATUS_TEMP f t.val a.val) temp.toNat →
    (u.drifted f t.val a.val = false → s.now - Sparse.get (fun _ => 0) (s.tile f t.val).calAt a.val ≤ 600 * 250000000 →
      exec (.arrayTempSample f t a temp true) s = .next u) ∧
    (u.drifted f t.val a.val = true → Does (.arrayTempSample f t a temp true) s (fun v =>
      v.rd (af F.ARR_STATUS_STALE f t.val a.val) = 1 ∧ v.rd (af F.ARR_STATUS_TEMP f t.val a.val) = temp.toNat)) ∧
    (∀ inRange : Bool, s.calOld f t.val a.val = true → Does (.arrayTempSample f t a temp inRange) s (fun v =>
      v.rd (af F.ARR_STATUS_STALE f t.val a.val) = 1)) ∧
    Does (.arrayTempSample f t a temp false) s (fun v => bitOf (v.tile f t.val).sensorBad a.val = true ∧
      bitOf (v.rd (errStatus (tilePage f t.val))) 4 = true)) ∧
  (∀ (f : Frond) (s : State),
    (s.rd (acf F.ACAL_CTRL_PHASE_ONLY f) = 1 → exec (.acalIntervalExpire f) s = .next s) ∧
    (s.rd (acf F.ACAL_CTRL_PHASE_ONLY f) = 0 → Does (.acalIntervalExpire f) s (fun v => ∀ p < 132,
      s.rot f p ≠ 6 → s.tileState f p = 2 → s.rotOn f p = true → (v.tile f p).trigger = true))) ∧
  (∀ (f : Frond) (t : Fin 132) (s : State), s.rot f t.val = 3 → (s.tile f t.val).trigger = true →
    s.rd (tf F.ARR_SLOT_TARGET f t.val) < 4 → Does (.spareRotation f t) s (fun v =>
      v.slotArr f t.val (s.rd (tf F.ARR_SLOT_TARGET f t.val)) = s.spareArr f t.val ∧
      v.spareArr f t.val = s.slotArr f t.val (s.rd (tf F.ARR_SLOT_TARGET f t.val)) ∧ (v.tile f t.val).trigger = false ∧
      v.rot f t.val = (if (s.tile f t.val).bist then 5 else 0) ∧ v.mem = s.mem)) ∧
  (∀ (f : Frond) (t : Fin 132) (s : State), s.rot f t.val = 1 →
    (s.armed (tilePage f t.val) 0 = false → Does (.spareCopyDone f t false) s (fun v => v.rot f t.val = 2 ∧
      v.rd (af F.ARR_STATUS_ACTIVE_BANK f t.val (s.spareArr f t.val)) = s.rd (af F.ARR_STATUS_ACTIVE_BANK f t.val
        (s.slotArr f t.val (s.rd (tf F.ARR_SLOT_TARGET f t.val)))))) ∧
    (∀ parity : Bool, parity = true ∨ s.armed (tilePage f t.val) 0 = true → Does (.spareCopyDone f t parity) s (fun v =>
      v.rot f t.val = 1 ∧ bitOf (v.rd (errStatus (tilePage f t.val))) 0 = true))) ∧
  (∀ (f : Frond) (t : Fin 132) (res : CalResult) (s : State), s.rot f t.val = 2 → s.rd (acf F.ACAL_CTRL_CAL_GATE f) = 0 →
    (s.tile f t.val).verifyOnly = false → s.spareArr f t.val < 5 →
    (s.calPass f res = true → Does (.spareCalDone f t res) s (fun v => v.rot f t.val = 3 ∧
      v.rd (af F.ARR_CAL_RES_PASS f t.val (s.spareArr f t.val)) = 1 ∧
      v.rd (af F.ARR_STATUS_CAL_TEMP f t.val (s.spareArr f t.val)) = s.rd (af F.ARR_STATUS_TEMP f t.val (s.spareArr f t.val)) ∧
      Sparse.get (fun _ => 0) (v.tile f t.val).calFails (s.spareArr f t.val) = 0)) ∧
    (s.calPass f res = false → Sparse.get (fun _ => 0) (s.tile f t.val).calFails (s.spareArr f t.val) = 0 →
      Does (.spareCalDone f t res) s (fun v => v.rot f t.val = 4 ∧
        v.rd (af F.ARR_CAL_RES_PASS f t.val (s.spareArr f t.val)) = 0 ∧
        bitOf (v.rd (errStatus (tilePage f t.val))) 1 = true))) ∧
  (∀ (f : Frond) (t : Fin 132) (slot : Fin 4) (res : CalResult) (s : State), s.rot f t.val = 6 →
    ((s.tile f t.val).ipSlot = some slot.val ∨ ((s.tile f t.val).ipSlot = none ∧
      s.rd (af F.ARR_STATUS_TEMP_TRIG f t.val (s.slotArr f t.val slot.val)) = 1 ∧ s.calGateOpen f = true)) →
    s.calPass f res = true → s.slotArr f t.val slot.val < 5 → Does (.inPlaceCalibration f t slot res) s (fun v =>
      (v.tile f t.val).ipSlot = none ∧ v.rd (af F.ARR_STATUS_ARR_STATE f t.val (s.slotArr f t.val slot.val)) = 0 ∧
      v.rd (af F.ARR_CAL_RES_PASS f t.val (s.slotArr f t.val slot.val)) = 1 ∧
      v.rd (af F.ARR_STATUS_TEMP_TRIG f t.val (s.slotArr f t.val slot.val)) = 0)) ∧
  (∀ (r : Req) (f : Frond) (s : State), s.mayWrite r (acf F.ACAL_CTRL_FULL_CAL_REQ f) → s.calGateOpen f = true →
    s.rd (acf F.ACAL_STATUS_FULL_CAL_BUSY f) = 0 →
    Does (.acalFullCalReq r f) s (fun v => v.rd (acf F.ACAL_CTRL_FULL_CAL_REQ f) = 1 ∧
      v.rd (acf F.ACAL_STATUS_FULL_CAL_BUSY f) = 1 ∧ (∀ p < 132, s.tileState f p ≠ 4 → v.tileState f p = 1) ∧
      v.mem = s.mem)) ∧
  (∀ (r : Req) (f : Frond) (s : State), s.mayWrite r (acf F.ACAL_CTRL_FULL_CAL_REQ f) →
    s.calGateOpen f = false ∨ s.rd (acf F.ACAL_STATUS_FULL_CAL_BUSY f) = 1 →
    exec (.acalFullCalReq r f) s = .next (s.wr (acf F.ACAL_CTRL_FULL_CAL_REQ f) 1)) ∧
  (∀ (f : Frond) (bad : List (Fin 132 × Fin 5)) (s : State),
    (s.rd (acf F.ACAL_STATUS_FULL_CAL_BUSY f) = 1 → Does (.fullCalibrationDone f bad) s (fun v =>
      v.rd (acf F.ACAL_STATUS_FULL_CAL_BUSY f) = 0 ∧ v.rd (acf F.ACAL_CTRL_FULL_CAL_REQ f) = 0)) ∧
    (s.rd (acf F.ACAL_STATUS_FULL_CAL_BUSY f) = 0 → exec (.fullCalibrationDone f bad) s = .next s)) ∧
  (∀ (r : Req) (f : Frond) (s : State), s.mayWrite r (acf F.ACAL_CTRL_BIST_REQ f) →
    Does (.acalBistReq r f) s (fun v => v.rd (acf F.ACAL_CTRL_BIST_REQ f) = 1 ∧ v.rd (acf F.ACAL_STATUS_BIST_BUSY f) = 1 ∧
      ∀ p < 132, s.tileState f p ≠ 4 → (s.rot f p = 0 ∨ s.rot f p = 4 → v.rot f p = 5) ∧
        (s.rot f p = 6 → (v.tile f p).bistSlots = [0, 1, 2, 3]) ∧
        (s.rot f p ≠ 0 → s.rot f p ≠ 4 → s.rot f p ≠ 6 → (v.tile f p).bist = true ∧ v.rot f p = s.rot f p))) ∧
  (∀ (f : Frond) (t : Fin 132) (a : Fin 5) (s : State), s.rot f t.val = 5 → s.spareArr f t.val = a.val →
    Does (.arrayBistDone f t a true) s (fun v => v.rot f t.val = 0 ∧ s.onlyRegs v)) ∧
  (∀ (f : Frond) (t : Fin 132) (a : Fin 5) (k : Nat) (rest : List Nat) (s : State), s.rot f t.val ≠ 5 →
    (s.tile f t.val).bistSlots = k :: rest → s.slotArr f t.val k = a.val →
    (bitOf s.phase.testOpen 0 = true ∨ s.rd (acf F.ACAL_CTRL_SELFTEST_FORCE f) = 1 →
      Does (.arrayBistDone f t a true) s (fun v => (v.tile f t.val).bistSlots = rest)) ∧
    (bitOf s.phase.testOpen 0 = false → s.rd (acf F.ACAL_CTRL_SELFTEST_FORCE f) = 0 →
      ∀ ok : Bool, exec (.arrayBistDone f t a ok) s = .next s)) ∧
  (∀ (f : Frond) (t : Fin 132) (s : State), (s.tile f t.val).trigger = true →
    (s.rot f t.val ≠ 3 → exec (.rotTimeout f t) s = .next (s.err (tilePage f t.val) 5)) ∧
    (s.rot f t.val = 3 → exec (.rotTimeout f t) s = .next s)) ∧
  (∀ (f : Frond) (t : Fin 132) (s : State), (s.tile f t.val).trigger = false → exec (.rotTimeout f t) s = .next s)

/-- A write of a map entry at L0 is ignored with ERR_STATUS bit 0 while the logical tile is in a built partition, with bit 1 when
it names a tile that does not exist, is fenced or is mapped to another logical tile; a good one is taken: with VALID the physical tile
shows the logical number and is CAL while a full calibration runs, READY otherwise, and a tile that the entry held until then, and
holds no more, shows none and is SPARE, or CAL. An unfenced tile that has been calibrated, with fewer than two fenced arrays and no build waiting, becomes SPARE or READY.
Where a clause rests on a corner that the spec leaves open, it states the choice of the model: logs 23 and 26.
Completion is stated here of: tileRecalDone, tmapEntryWrite. -/
def Obligations.TileMapAndReturnOfTiles : Prop :=
  (∀ (r : Req) (f : Frond) (t : Fin 128) (value w : BitVec 64) (s : State), s.mayWrite r (mapField F.TMAP_ENTRY_VALID f t.val) →
    r.level = .L0 → w = (s.mergeWord true (mapField F.TMAP_ENTRY_VALID f t.val).key value).1 →
    ((s.partOfTile f t.val).isSome = true → exec (.tmapEntryWrite r f t value) s = .next (s.err (frondPg f 0x100) 0)) ∧
    (s.partOfTile f t.val = none → (131 < F.TMAP_ENTRY_PHYS.get w ∨ s.tileState f (F.TMAP_ENTRY_PHYS.get w) = 4 ∨
        ∃ x < 128, x ≠ t.val ∧ s.physOf f x = some (F.TMAP_ENTRY_PHYS.get w)) →
      exec (.tmapEntryWrite r f t value) s = .next (s.err (frondPg f 0x100) 1)) ∧
    (s.partOfTile f t.val = none → F.TMAP_ENTRY_PHYS.get w ≤ 131 → s.tileState f (F.TMAP_ENTRY_PHYS.get w) ≠ 4 →
      (∀ x < 128, x ≠ t.val → s.physOf f x ≠ some (F.TMAP_ENTRY_PHYS.get w)) →
      Does (.tmapEntryWrite r f t value) s (fun v => v.reg (mapField F.TMAP_ENTRY_VALID f t.val).key = w ∧
        (F.TMAP_ENTRY_VALID.get w = 1 → v.logicalOf f (F.TMAP_ENTRY_PHYS.get w) = t.val ∧
          v.tileState f (F.TMAP_ENTRY_PHYS.get w) = (if s.rd (acf F.ACAL_STATUS_FULL_CAL_BUSY f) = 1 then 1 else 2)) ∧
        (∀ old ≤ 131, s.physOf f t.val = some old → F.TMAP_ENTRY_VALID.get w = 0 ∨ F.TMAP_ENTRY_PHYS.get w ≠ old →
          v.logicalOf f old = 0xFF ∧ (s.tileState f old ≠ 4 →
            v.tileState f old = (if s.rd (acf F.ACAL_STATUS_FULL_CAL_BUSY f) = 1 then 1 else 3))) ∧ s.onlyRegs v))) ∧
  (∀ (f : Frond) (t : Fin 132) (bad : List (Fin 5)) (s : State),
    ((s.tile f t.val).recal = false → exec (.tileRecalDone f t bad) s = .next s) ∧
    ((s.tile f t.val).recal = true → s.work.building = [] → s.arraysFenced f t.val < 2 →
      Does (.tileRecalDone f t []) s (fun v => (v.tile f t.val).recal = false ∧
        (v.tileState f t.val = 2 ∨ v.tileState f t.val = 3))))

/-- A queued op that its checks pass enters its queue with its captured addresses and registers and the program goes on; a full
queue holds issue as STALL; a reserved word faults with ILLEGAL_OP, a failed check with its code. A retiring op of the store,
vector or mover queues makes its writes and leaves the others alone; an empty queue retires nothing. Issue held by a counter goes
on when the counter meets its threshold, and else stays; a sequencer op with WT waits for its counter and takes one from it. A PWAIT
that is met goes on, and else stays. A program after END with nothing left returns to IDLE.
Where a clause rests on a corner that the spec leaves open, it states the choice of the model: logs 18, 19, 20, 21, 22, 23, 24 and 25.
Completion is stated here of: tileOpIssue, tileOpRetire, programEnd, tileCounterWaitMet, tilePhaseWaitMet. -/
def Obligations.ProgramsIssueRetireAndEnd : Prop :=
  (∀ (f : Frond) (t : Fin 132) (w : Nat) (q : TileQ) (s : State), s.takesOp f t.val w → opClass w < 4 →
    q = (s.tile f t.val).capture w (s.pc f t.val) (s.rd (tf F.TSEQ_TAG_CTX f t.val)) (s.rd (tf F.TSEQ_ISSUED_COUNT f t.val)) →
    (∀ code, s.opFault f t.val q = some code → exec (.tileOpIssue f t) s = .next (s.tileFault f t.val code q.pc w)) ∧
    (s.opFault f t.val q = none → queueDepth (opQueue w) ≤ ((s.tile f t.val).queue (opQueue w)).length →
      exec (.tileOpIssue f t) s = .next (s.wr (tf F.TSEQ_STATUS_STATE f t.val) 6)) ∧
    (s.opFault f t.val q = none → ((s.tile f t.val).queue (opQueue w)).length < queueDepth (opQueue w) →
      Does (.tileOpIssue f t) s (fun v => s.wentOn v f t.val ∧
        (v.tile f t.val).queue (opQueue w) = (s.tile f t.val).queue (opQueue w) ++ [q] ∧
        (v.tile f t.val).fly = (s.tile f t.val).fly ∧ v = { s with regs := v.regs, tiles := v.tiles }))) ∧
  (∀ (f : Frond) (t : Fin 132) (s : State), s.issuing f t.val = true → s.tileState f t.val ≠ 4 →
    (0x3FFFF0 < s.pc f t.val → exec (.tileOpIssue f t) s = .next (s.tileFault f t.val 0xA (s.pc f t.val) 0)) ∧
    (s.pc f t.val ≤ 0x3FFFF0 → s.col.inverted = [] → s.poisoned (storeKey f.idx t.val (s.pc f t.val / 32 * 32)) = false →
      opIllegal (s.opHere f t.val) = true →
      exec (.tileOpIssue f t) s = .next (s.tileFault f t.val 1 (s.pc f t.val) (s.opHere f t.val)))) ∧
  (∀ (f : Frond) (t : Fin 132) (q : Fin 9) (s : State),
    ((s.tile f t.val).fly.find? (fun x => x.queue == q.val) = none → exec (.tileOpRetire f t q) s = .next s) ∧
    (∀ x, (s.tile f t.val).fly.find? (fun y => y.queue == q.val) = some x → s.tileState f t.val ≠ 4 → 5 ≤ q.val →
      Does (.tileOpRetire f t q) s (fun v => (v.tile f t.val).fly = (s.tile f t.val).fly.erase x ∧
        (x.writes = [] → v.mem = s.mem) ∧
        (∀ a, (∀ e ∈ x.writes, storeKey f.idx t.val e.1 ≠ a) → v.byte a = s.byte a) ∧
        (∀ a b, x.writes = [(a, b)] → v.byte (storeKey f.idx t.val a) = BitVec.ofNat 8 b)))) ∧
  (∀ (f : Frond) (t : Fin 132) (s : State), s.seqState f t.val = 2 →
    (reached (s.rd (tcnt f t.val (s.rd (tf F.TSEQ_WAIT_COUNTER f t.val)))) (s.rd (tf F.TSEQ_WAIT_VALUE f t.val)) = false →
      exec (.tileCounterWaitMet f t) s = .next s) ∧
    (reached (s.rd (tcnt f t.val (s.rd (tf F.TSEQ_WAIT_COUNTER f t.val)))) (s.rd (tf F.TSEQ_WAIT_VALUE f t.val)) = true →
      exec (.tileCounterWaitMet f t) s = exec (.tileOpIssue f t) (s.wr (tf F.TSEQ_STATUS_STATE f t.val) 1) ∧
      ∀ u w, u = s.wr (tf F.TSEQ_STATUS_STATE f t.val) 1 → u.takesOp f t.val w → opClass w = 4 → opCode w = 7 →
        bitOf w 108 = false → reached (u.rd (tcnt f t.val (bitsAt w 107 104))) ((u.tile f t.val).seqB w % 2 ^ 32) = true →
        Does (.tileCounterWaitMet f t) s (fun v => u.wentOn v f t.val))) ∧
  (∀ (f : Frond) (t : Fin 132) (w : Nat) (s : State), s.issuing f t.val = true → s.opHere f t.val = w → s.tileState f t.val ≠ 4 →
    s.pc f t.val ≤ 0x3FFFF0 → s.col.inverted = [] → s.poisoned (storeKey f.idx t.val (s.pc f t.val / 32 * 32)) = false →
    opIllegal w = false → 4 ≤ opClass w → bitOf w 5 = false → bitOf w 6 = true → (s.tile f t.val).wtTaken = false →
    (reached (s.rd (tcnt f t.val (opWcnt w))) 1 = false → Does (.tileOpIssue f t) s (fun v => v.seqState f t.val = 2 ∧
      v.rd (tf F.TSEQ_WAIT_COUNTER f t.val) = opWcnt w ∧ v.rd (tf F.TSEQ_WAIT_VALUE f t.val) = 1 ∧
      v.rd (tf F.TSEQ_WAIT_BY_WT f t.val) = 1 ∧ s.onlyRegs v)) ∧
    (reached (s.rd (tcnt f t.val (opWcnt w))) 1 = true → opClass w = 4 → opCode w = 0 → bitOf w 7 = false →
      Does (.tileOpIssue f t) s (fun v =>
        s.wentOn v f t.val ∧ v.rd (tcnt f t.val (opWcnt w)) = (s.rd (tcnt f t.val (opWcnt w)) + (2 ^ 32 - 1)) % 2 ^ 32))) ∧
  (∀ (f : Frond) (t : Fin 132) (s : State), s.seqState f t.val ≠ 2 → exec (.tileCounterWaitMet f t) s = .next s) ∧
  (∀ (f : Frond) (t : Fin 132) (s : State), (s.seqState f t.val = 3 → s.pwaitMet f t.val = false) →
    exec (.tilePhaseWaitMet f t) s = .next s) ∧
  (∀ (f : Frond) (t : Fin 132) (s : State), s.seqState f t.val = 3 → s.pwaitMet f t.val = true →
    s.pc f t.val ≤ 0x3FFFF0 →
    Does (.tilePhaseWaitMet f t) s (fun v => s.wentOn v f t.val ∧ (v.tile f t.val).pwait = none)) ∧
  (∀ (f : Frond) (t : Fin 132) (s : State), s.seqState f t.val = 4 → (s.tile f t.val).stopping = false →
    ((s.tile f t.val).drained = false → exec (.programEnd f t) s = .next s) ∧
    ((s.tile f t.val).drained = true → exec (.programEnd f t) s =
      .next ((s.tileIdle f t.val).launchLeave (s.runCtx f t.val) t.val) ∧ (s.tileIdle f t.val).seqState f t.val = 0))

/-- A LOAD takes the bank image at its address; an EVAL on a valid bank takes the accumulators that its vectors give, and one on
an invalid bank faults with BANK_INVALID; a SWAP leaves its queue; a DRAIN outputs the entries and clears them. MM puts its 4,096
entries into its accumulator, STORE converts them to bytes, and clears them where it says so, ZERO clears them. A queue whose head is another op or may not start
yet keeps it; a head with WT takes one from its counter as it starts; a head that reads poison empties its queue and faults with
code 0xE. COPY moves its rows, FILL repeats its eight bytes.
None of them changes memory before it retires.
Where a clause rests on a corner that the spec leaves open, it states the choice of the model: logs 18, 19, 20, 21, 22, 23, 24 and 25.
Completion is stated here of: arrayLoad, arrayEval, arraySwap, arrayDrain, dmuMm, dmuStore, dmuZero, lmoveCopy, lmoveFill. -/
def Obligations.ArrayDmuAndMoverOpsStart : Prop :=
  (∀ (f : Frond) (t : Fin 132) (slot : Fin 4) (q : TileQ) (s : State), s.startsOp f t.val (1 + slot.val) q →
    opClass q.word = 0 → opCode q.word = 0 → Does (.arrayLoad f t slot) s (fun v =>
      s.opInFlight v f t.val (1 + slot.val) q ((List.range 65664).map (fun i => (i, s.tb f t.val (q.a0 + i)))) none)) ∧
  (∀ (f : Frond) (t : Fin 132) (q : TileQ) (s : State), s.startsOp f t.val 0 q → opClass q.word = 0 →
    (opCode q.word = 1 → s.evalInvalid f t.val q = true → exec (.arrayEval f t) s =
      .next ((s.updTile f t.val (fun u => u.setQueue 0 ((u.queue 0).drop 1))).tileFault f t.val 5 q.pc q.word)) ∧
    (∀ r, opCode q.word = 1 → s.evalInvalid f t.val q = false →
      s.evalAll f t.val q (bitsAt q.word 91 90 == 2 && bitOf (s.rd (tf F.ERR_INJECT_INJECT f t.val)) 3) = r →
      Does (.arrayEval f t) s (fun v => (v.tile f t.val).acc = r.1.acc ∧ v.draws = r.1.draw ∧
        s.opInFlight v f t.val 0 q (bytesFrom q.a1 (packElems (8 * opOutBytes q.word) r.1.out))
          (if bitsAt q.word 67 63 = 0 then none else some (bitsAt q.word 67 63,
            b2n r.1.nan * 512 + b2n (r.2 != 0) * 256 + r.1.ovf * 16 + r.1.sat)))) ∧
    (opCode q.word = 2 → Does (.arraySwap f t) s (fun v =>
      (v.tile f t.val).queue 0 = ((s.tile f t.val).queue 0).drop 1 ∧ v.mem = s.mem ∧
      (∀ k, opSlots q.word = [k] → bitOf q.word 7 = false → s.rot f t.val = 0 → s.slotArr f t.val k < 5 →
        v.bankNow f t.val k = 1 - s.bankNow f t.val k))) ∧
    (opCode q.word = 3 → Does (.arrayDrain f t) s (fun v =>
      (∀ i < opN q.word, ∀ k ∈ opSlots q.word, ∀ c < 128,
        Sparse.get accDefault (v.tile f t.val).acc (accKey k (opEnt q.word + i) c) = AccEntry.zero) ∧
      s.opInFlight v f t.val 0 q (bytesFrom q.a1 (packElems (8 * opOutBytes q.word)
        ((List.range (opN q.word)).flatMap (fun i => (opSlots q.word).flatMap (fun k => (List.range 128).map (fun c =>
          accOut (Sparse.get accDefault (s.tile f t.val).acc (accKey k (opEnt q.word + i) c)) (bitOf q.word 85))))))) none))) ∧
  (∀ (f : Frond) (t : Fin 132) (q : TileQ) (s : State), opClass q.word = 1 →
    (opCode q.word = 0 → s.startsOp f t.val 5 q → Does (.dmuMm f t) s (fun v => s.opInFlight v f t.val 5 q [] none ∧
      v.draws = s.draws + 4096 ∧
      bitOf (v.tile f t.val).daccInt (bitsAt q.word 95 94) = (bitsAt q.word 92 89 == 11) ∧
      ∀ i < 64, ∀ j < 64,
        Sparse.get (fun _ => 0) (v.tile f t.val).dacc (bitsAt q.word 95 94 * 4096 + (i * 64 + j)) =
          if bitOf q.word 93 = true ∧ bitOf (s.tile f t.val).daccInt (bitsAt q.word 95 94) ≠ (bitsAt q.word 92 89 == 11) then
            Config.freeNat (s.draws + (i * 64 + j)) % 2 ^ 32
          else (mmEntry (bitsAt q.word 92 89) (bitsAt q.word 88 85) (Config.freeNat (s.draws + (i * 64 + j)))
            (if bitOf q.word 93 then
              Sparse.get (fun _ => 0) (s.tile f t.val).dacc (bitsAt q.word 95 94 * 4096 + (i * 64 + j)) else 0)
            (s.mmRow f t.val (bitsAt q.word 92 89) q.r0 q.a0 i) (s.mmRow f t.val (bitsAt q.word 88 85) q.r0 q.a1 j)).1)) ∧
    (opCode q.word = 1 → s.startsOp f t.val 6 q → Does (.dmuStore f t) s (fun v =>
      s.opInFlight v f t.val 6 q (bytesFrom q.a0 (packElems (elemBits (bitsAt q.word 92 89)) ((List.range 4096).map (fun i =>
        if bitsAt q.word 92 89 = 12 then Sparse.get (fun _ => 0) (s.tile f t.val).dacc (bitsAt q.word 95 94 * 4096 + i)
        else (convElem (bitsAt q.word 92 89) (bitsAt q.word 87 86) (bitOf q.word 85)
          (fp32.decode (Sparse.get (fun _ => 0) (s.tile f t.val).dacc (bitsAt q.word 95 94 * 4096 + i)))).1)))) none ∧
      (bitOf q.word 88 = true → ∀ i < 4096,
        Sparse.get (fun _ => 0) (v.tile f t.val).dacc (bitsAt q.word 95 94 * 4096 + i) = 0))) ∧
    (opCode q.word = 2 → s.startsOp f t.val 5 q → Does (.dmuZero f t) s (fun v => s.opInFlight v f t.val 5 q [] none ∧
      ∀ i < 4096, Sparse.get (fun _ => 0) (v.tile f t.val).dacc (bitsAt q.word 95 94 * 4096 + i) = 0))) ∧
  (∀ (f : Frond) (t : Fin 132) (q : TileQ) (k cls code : Nat) (c : Instr) (s : State),
    (c, k, cls, code) ∈ [(.arrayLoad f t 0, 1, 0, 0), (.arrayLoad f t 1, 2, 0, 0), (.arrayLoad f t 2, 3, 0, 0),
      (.arrayLoad f t 3, 4, 0, 0), (.arrayDrain f t, 0, 0, 3), (.dmuMm f t, 5, 1, 0), (.dmuStore f t, 6, 1, 1),
      (.dmuZero f t, 5, 1, 2), (.lmoveCopy f t, 8, 3, 0), (.lmoveFill f t, 8, 3, 1)] →
    (s.headOp f t.val k cls code = false → exec c s = .next s) ∧ (s.startable f t.val k = none → exec c s = .next s) ∧
    (s.startable f t.val k = some q → opClass q.word = cls → opCode q.word = code → s.col.inverted = [] →
      ((bitOf q.word 6 = true → reached (s.rd (tcnt f t.val (opWcnt q.word))) 1 = true) ∧
      (s.readsPoison f t.val q = true → exec c s = .next (((if bitOf q.word 6 then
        s.tcAdd f t.val (opWcnt q.word) (2 ^ 32 - 1) else s).updTile f t.val (fun u => u.setQueue k [])).tileFault
          f t.val 0xE q.pc q.word)) ∧
      (s.readsPoison f t.val q = false → Does c s (fun v => (v.tile f t.val).queue k = ((s.tile f t.val).queue k).drop 1 ∧
        v.rd (tcnt f t.val (opWcnt q.word)) =
          (s.rd (tcnt f t.val (opWcnt q.word)) + (if bitOf q.word 6 then 2 ^ 32 - 1 else 0)) % 2 ^ 32 ∧ v.mem = s.mem))))) ∧
  (∀ (f : Frond) (t : Fin 132) (q : TileQ) (s : State), s.startsOp f t.val 8 q → opClass q.word = 3 →
    (opCode q.word = 0 → Does (.lmoveCopy f t) s (fun v => s.opInFlight v f t.val 8 q
      ((List.range (lmRows q)).flatMap (fun i => (List.range (lmBytesOf q)).map (fun j =>
        (q.a0 + i * lmDstStride q + j, s.tb f t.val (q.a1 + i * lmSrcStride q + j))))) none)) ∧
    (opCode q.word = 1 → Does (.lmoveFill f t) s (fun v => s.opInFlight v f t.val 8 q
      ((List.range (lmRows q)).flatMap (fun i => (List.range (lmBytesOf q)).map (fun j =>
        (q.a0 + i * lmDstStride q + j, q.r2 / 2 ^ (8 * (j % 8)) % 256)))) none)))

/-- An elementwise vector op whose function is at the head of the vector queue will write at DST the array of its function's
results, element by element, converted to OUT; a reduction one element a row. Memory does not change before it retires, and the
free values drawn are those of the bounded functions alone.
Where a clause rests on a corner that the spec leaves open, it states the choice of the model: logs 18, 19, 20, 21, 22, 23, 24 and 25.
Completion is stated here of: vecCvt, vecAdd, vecSub, vecMul, vecFma, vecMin, vecMax, vecAbs, vecNeg, vecDiv, vecSqrt,
vecExp, vecLog, vecRsqrt, vecSin, vecCos, vecTanh, vecSigmoid, vecRelu, vecGeluT, vecSilu, vecRsum, vecRmax, vecRmin,
vecRamax, vecRsumsq. -/
def Obligations.VectorOpsStart : Prop :=
  (∀ (f : Frond) (t : Fin 132) (q : TileQ) (c : Instr) (func : Nat) (s : State), s.startsOp f t.val 7 q → opFunc q.word = func →
    (c, func) ∈ [(.vecCvt f t, 0x00), (.vecAdd f t, 0x01), (.vecSub f t, 0x02), (.vecMul f t, 0x03), (.vecFma f t, 0x04),
      (.vecMin f t, 0x05), (.vecMax f t, 0x06), (.vecAbs f t, 0x07), (.vecNeg f t, 0x08), (.vecDiv f t, 0x09),
      (.vecSqrt f t, 0x0A), (.vecExp f t, 0x0B), (.vecLog f t, 0x0C), (.vecRsqrt f t, 0x0D), (.vecSin f t, 0x0E),
      (.vecCos f t, 0x0F), (.vecTanh f t, 0x10), (.vecSigmoid f t, 0x11), (.vecRelu f t, 0x12), (.vecGeluT f t, 0x13),
      (.vecSilu f t, 0x14)] →
    Does c s (fun v => s.opInFlight v f t.val 7 q
      (arrayBytesOf (vecOut q.word) (bitsAt q.word 65 64) (bitOf q.word 63) (vecRows q) (vecCols q) q.a0
        ((List.range (vecRows q)).map (fun i => (List.range (vecCols q)).map (fun j =>
          (vecElem (Config.freeNat (s.draws + i * vecCols q + j)) (vecPrec (vecIn q.word)) (bitsAt q.word 65 64) func
            (arrayElem (vecIn q.word) (vecRows q) (vecCols q) (s.tb f t.val) q.a1 i j)
            (if vecHasB q.word then s.vecB f t.val q i j else .fin false 0 0)
            (if func = 4 then arrayElem (vecOut q.word) (vecRows q) (vecCols q) (s.tb f t.val) q.a0 i j
              else .fin false 0 0)).1)))).1 none ∧
      v.draws = s.draws + (if vecBounded func then vecRows q * vecCols q else 0))) ∧
  (∀ (f : Frond) (t : Fin 132) (q : TileQ) (c : Instr) (func : Nat) (s : State), s.startsOp f t.val 7 q → opFunc q.word = func →
    (c, func) ∈ [(.vecRsum f t, 0x18), (.vecRmax f t, 0x19), (.vecRmin f t, 0x1A), (.vecRamax f t, 0x1B),
      (.vecRsumsq f t, 0x1C)] →
    Does c s (fun v => s.opInFlight v f t.val 7 q
      (bytesFrom q.a0 (packElems (elemBits (vecOut q.word)) ((List.range (vecRows q)).map (fun i =>
        (convElem (vecOut q.word) (bitsAt q.word 65 64) (bitOf q.word 63)
          (vecReduce (vecPrec (vecIn q.word)) (bitsAt q.word 65 64) func (vecLanes (vecIn q.word))
            ((List.range (vecCols q)).map (fun j =>
              arrayElem (vecIn q.word) (vecRows q) (vecCols q) (s.tb f t.val) q.a1 i j))).1).1)))) none ∧
      v.draws = s.draws))

/-- Each ALU op puts the named function of its two 64-bit operands into its destination: sum, difference, product, the bitwise
functions, shifts by the low six bits, signed and unsigned minimum and maximum, and comparisons that give 1 or 0. With S0 as
the destination nothing is written. Only the tile's registers, PC and count change, and with SIG the counter that SIG names.
Where a clause rests on a corner that the spec leaves open, it states the choice of the model: logs 18, 19, 20, 21, 22, 23, 24 and 25.
Completion is stated here of: seqAluAdd, seqAluSub, seqAluMul, seqAluAnd, seqAluOr, seqAluXor, seqAluShl, seqAluShr,
seqAluSar, seqAluMin, seqAluMax, seqAluMinu, seqAluMaxu, seqAluSlt, seqAluSltu, seqAluEq. -/
def Obligations.SequencerAluFunctions : Prop :=
  ∀ (f : Frond) (t : Fin 132) (w n d : Nat) (a b v : BitVec 64) (c : Instr) (s : State), s.takesOp f t.val w → opClass w = 4 →
    opCode w = 3 → bitsAt w 111 108 = n → bitsAt w 127 123 = d → (s.tile f t.val).seqA w = a.toNat →
    (s.tile f t.val).seqB w = b.toNat →
    (c, n, v) ∈ [(.seqAluAdd f t, 0, a + b), (.seqAluSub f t, 1, a - b), (.seqAluMul f t, 2, a * b), (.seqAluAnd f t, 3, a &&& b),
      (.seqAluOr f t, 4, a ||| b), (.seqAluXor f t, 5, a ^^^ b), (.seqAluShl f t, 6, a <<< (b.toNat % 64)),
      (.seqAluShr f t, 7, a >>> (b.toNat % 64)), (.seqAluSar f t, 8, a.sshiftRight (b.toNat % 64)),
      (.seqAluMin f t, 9, if a.toInt ≤ b.toInt then a else b), (.seqAluMax f t, 10, if a.toInt ≤ b.toInt then b else a),
      (.seqAluMinu f t, 11, if a.toNat ≤ b.toNat then a else b), (.seqAluMaxu f t, 12, if a.toNat ≤ b.toNat then b else a),
      (.seqAluSlt f t, 13, if a.toInt < b.toInt then 1 else 0), (.seqAluSltu f t, 14, if a.toNat < b.toNat then 1 else 0),
      (.seqAluEq f t, 15, if a = b then 1 else 0)] →
    Does c s (fun x => s.wentOn x f t.val ∧ (d ≠ 0 → (x.tile f t.val).sreg d = v.toNat) ∧ (x.tile f t.val).sreg 0 = 0 ∧
      (∀ k, k ≠ d → (x.tile f t.val).sreg k = (s.tile f t.val).sreg k) ∧
      (∀ k, (x.tile f t.val).areg k = (s.tile f t.val).areg k) ∧
      s.regsBut x (fun k => k = (tf F.TSEQ_STATUS_PC f t.val).key ∨ k = (tf F.TSEQ_ISSUED_COUNT f t.val).key ∨
        bitOf w 7 = true ∧ k = (tcnt f t.val (opScnt w)).key) ∧
      x = { s with regs := x.regs, tiles := x.tiles })

/-- NOP only goes on; END ends issue. LI and SREAD set an S register, AMOV an address register modulo 2^24. LOOP opens a level, a
count of 0 skips the body, a body of 0 words faults with ILLEGAL_OP; a taken BR goes to its target. WAIT on a counter that has
reached its value goes on, else it holds issue. CSET and CADD set and raise a counter. SIGNAL raises a signal counter that the
domain may write, and faults with PROT else, also where a failed bridge cuts the counter off. With SIG an op that completes
raises the counter that SIG names. PWAIT holds issue. MARK STEP is a local mark; MARK TAG with 0 restores the running
context.
Where a clause rests on a corner that the spec leaves open, it states the choice of the model: logs 18, 19, 20, 21, 22, 23, 24 and 25.
Completion is stated here of: seqNop, seqEnd, seqLi, seqAmov, seqLoop, seqBr, seqWait, seqCset, seqCadd, seqSignal,
seqPwait, seqSread, markStep, markTag. -/
def Obligations.SequencerOpsGoOn : Prop :=
  ∀ (f : Frond) (t : Fin 132) (w : Nat) (s : State), s.takesOp f t.val w →
    (opClass w = 4 → opCode w = 0 → Does (.seqNop f t) s (fun v => s.wentOn v f t.val ∧ s.sameMemory v)) ∧
    (opClass w = 4 → opCode w = 1 → Does (.seqEnd f t) s (fun v => v.seqState f t.val = 4 ∧ v.pc f t.val = s.pc f t.val ∧
      s.onlyRegs v)) ∧
    (opClass w = 4 → opCode w = 2 → Does (.seqLi f t) s (fun v => s.wentOn v f t.val ∧
      (bitsAt w 127 123 ≠ 0 → (v.tile f t.val).sreg (bitsAt w 127 123) = bitsAt w 87 24))) ∧
    (opClass w = 4 → opCode w = 4 → Does (.seqAmov f t) s (fun v => s.wentOn v f t.val ∧
      (v.tile f t.val).areg (bitsAt w 107 104) = (if bitOf w 108 then (s.tile f t.val).seqB w
        else (s.tile f t.val).areg (bitsAt w 107 104) + (s.tile f t.val).seqB w) % 2 ^ 24)) ∧
    (opClass w = 4 → opCode w = 5 →
      (bitsAt w 103 88 = 0 → exec (.seqLoop f t) s = .next (s.tileFault f t.val 1 (s.pc f t.val) w)) ∧
      (bitsAt w 103 88 ≠ 0 → (s.tile f t.val).loops = [] → (s.tile f t.val).seqB w % 2 ^ 32 ≠ 0 →
        Does (.seqLoop f t) s (fun v => v.pc f t.val = s.pc f t.val + 16 ∧ (v.tile f t.val).loops =
          [⟨(s.tile f t.val).seqB w % 2 ^ 32, s.pc f t.val + 16, s.pc f t.val + 16 + 16 * bitsAt w 103 88⟩])) ∧
      (bitsAt w 103 88 ≠ 0 → (s.tile f t.val).loops = [] → (s.tile f t.val).seqB w % 2 ^ 32 = 0 →
        Does (.seqLoop f t) s (fun v => v.pc f t.val = s.pc f t.val + 16 + 16 * bitsAt w 103 88 ∧
          (v.tile f t.val).loops = []))) ∧
    (opClass w = 4 → opCode w = 6 → (s.tile f t.val).loops = [] →
      (brTaken (bitsAt w 111 108) ((s.tile f t.val).seqA w) ((s.tile f t.val).seqB w) = true →
        Does (.seqBr f t) s (fun v => (v.pc f t.val : Int) = ((s.pc f t.val : Int) + 16 * bitsInt 16 (bitsAt w 103 88)) % 2 ^ 24)) ∧
      (brTaken (bitsAt w 111 108) ((s.tile f t.val).seqA w) ((s.tile f t.val).seqB w) = false →
        Does (.seqBr f t) s (fun v => s.wentOn v f t.val))) ∧
    (opClass w = 4 → opCode w = 7 →
      (reached (s.rd (tcnt f t.val (bitsAt w 107 104))) ((s.tile f t.val).seqB w % 2 ^ 32) = false →
        Does (.seqWait f t) s (fun v => v.seqState f t.val = 2 ∧ v.pc f t.val = s.pc f t.val ∧
          v.rd (tf F.TSEQ_WAIT_VALUE f t.val) = (s.tile f t.val).seqB w % 2 ^ 32 ∧
          v.rd (tf F.TSEQ_WAIT_COUNTER f t.val) = bitsAt w 107 104 ∧ s.onlyRegs v)) ∧
      (reached (s.rd (tcnt f t.val (bitsAt w 107 104))) ((s.tile f t.val).seqB w % 2 ^ 32) = true → bitOf w 108 = false →
        Does (.seqWait f t) s (fun v => s.wentOn v f t.val))) ∧
    (opClass w = 4 → opCode w = 8 → Does (.seqCset f t) s (fun v => s.wentOn v f t.val ∧
      v.rd (tcnt f t.val (bitsAt w 107 104)) =
        ((s.tile f t.val).seqB w + b2n (bitOf w 7 && opScnt w == bitsAt w 107 104)) % 2 ^ 32)) ∧
    (opClass w = 4 → opCode w = 9 → Does (.seqCadd f t) s (fun v => s.wentOn v f t.val ∧
      v.rd (tcnt f t.val (bitsAt w 107 104)) = (s.rd (tcnt f t.val (bitsAt w 107 104)) + (s.tile f t.val).seqB w +
        b2n (bitOf w 7 && opScnt w == bitsAt w 107 104)) % 2 ^ 32)) ∧
    (opClass w = 4 → opCode w = 10 → s.heldDom (s.ctxDom (s.runCtx f t.val)) = false →
      (s.domMay (s.ctxDom (s.runCtx f t.val)) rightW (s.globalOf (0xE0000000000 + 8 * ((s.tile f t.val).seqA w % 2 ^ 17))) 8
          = true → s.counterNear (some f.idx) ((s.tile f t.val).seqA w % 2 ^ 17) = true →
        exec (.seqSignal f t) s = .next (((s.counterAdd ((s.tile f t.val).seqA w % 2 ^ 17)
            ((s.tile f t.val).seqB w % 2 ^ 32)).seqNext f t.val).sigOf f t.val w)) ∧
      (s.domMay (s.ctxDom (s.runCtx f t.val)) rightW (s.globalOf (0xE0000000000 + 8 * ((s.tile f t.val).seqA w % 2 ^ 17))) 8
          = false ∨ s.counterNear (some f.idx) ((s.tile f t.val).seqA w % 2 ^ 17) = false → exec (.seqSignal f t) s = .next (s.tileFault f t.val 0xB (s.pc f t.val) w))) ∧
    (opClass w = 4 → opCode w = 11 → Does (.seqPwait f t) s (fun v => v.seqState f t.val = 3 ∧
      v.rd (tf F.TSEQ_WAIT_VALUE f t.val) = (s.tile f t.val).seqB w % 2 ^ 32 ∧ v.pc f t.val = s.pc f t.val)) ∧
    (opClass w = 4 → opCode w = 12 → bitsAt w 127 123 ≠ 0 → bitsAt w 103 88 < 16 → Does (.seqSread f t) s (fun v =>
      s.wentOn v f t.val ∧ (v.tile f t.val).sreg (bitsAt w 127 123) = s.rd (tcnt f t.val (bitsAt w 103 88)))) ∧
    (opClass w = 5 → opCode w = 0 → exec (.markStep f t) s = 
      .next (((s.markIn 1 s.now none none).seqNext f t.val).sigOf f t.val w)) ∧
    (opClass w = 5 → opCode w = 1 → bitsAt w 127 112 = 0 → Does (.markTag f t) s (fun v => s.wentOn v f t.val ∧
      v.rd (tf F.TSEQ_TAG_CTX f t.val) = s.runCtx f t.val ∧ s.sameMemory v))

/-- A write within one HBM block that its requester may make, to a place that is there and whose pseudo-channel is not fenced,
stores its bytes at its address and nothing else of memory; it is answered. A reduction stores the reduced elements, operation 0
is the plain write, a format it lacks is an error. A clean read answers the block. A write within one beat of a tile's window goes
to the physical tile that the map names; a write of a tile counter's window adds its low half. A requester without the right gets
an error and memory stays.
Where a clause rests on a corner that the spec leaves open, it states the choice of the model: logs 7, 27 and 28.
Completion is stated here of: tileCounterWindowWrite, tileWindowAccess, hbmReadRequest, hbmWriteRequest, nmuReduceWrite,
write. -/
def Obligations.AccessesChangeTheirBytes : Prop :=
  (∀ (who : Accessor) (addr : BitVec 44) (data : List (BitVec 8)) (poison : Bool) (e : Ecc) (f o : Nat) (s : State),
    s.accHeld who = false → s.mayAccess who rightW addr.toNat data.length = true → 0 < data.length →
    addr.toNat % 64 + data.length ≤ 64 → s.placeOf (accFrond who) addr.toNat = .hbm f o →
    s.pcBit F.HBMF_FENCE_PC f (s.pcOf f o) = false → s.col.inverted = [] →
    Does (.hbmWriteRequest who addr data poison e) s (fun t =>
      (∀ i < data.length, t.byte (addr.toNat + i) = data.getD i 0) ∧
      (∀ a, a < addr.toNat ∨ addr.toNat + data.length ≤ a → t.byte a = s.byte a) ∧
      (e = .clean → t.outbox = .answer true false [] :: s.outbox ∧ t.tiles = s.tiles ∧ t.work = s.work))) ∧
  (∀ (who : Accessor) (addr : BitVec 44) (data : List (BitVec 8)) (poison : Bool) (e : Ecc) (s : State),
    s.accHeld who = false → s.mayAccess who rightW addr.toNat data.length = false →
    Does (.hbmWriteRequest who addr data poison e) s (fun t => t.mem = s.mem)) ∧
  (∀ (who : Accessor) (addr : BitVec 44) (fmt red : BitVec 2) (data : List (BitVec 8)) (f o w : Nat) (s : State),
    w = (if fmt.toNat = 1 then 2 else 4) →
    exec (.nmuReduceWrite who addr fmt 0 data) s = exec (.hbmWriteRequest who addr data false .clean) s ∧
    (red ≠ 0 → fmt.toNat = 3 → exec (.nmuReduceWrite who addr fmt red data) s = .next (s.answer Res.err)) ∧
    (red ≠ 0 → fmt.toNat ≠ 3 → data.length % w = 0 → addr.toNat % w = 0 → s.accHeld who = false →
      s.mayAccess who rightW addr.toNat data.length = true → 0 < data.length → addr.toNat % 64 + data.length ≤ 64 →
      s.placeOf (accFrond who) addr.toNat = .hbm f o → s.pcBit F.HBMF_FENCE_PC f (s.pcOf f o) = false → s.col.inverted = [] →
      Does (.nmuReduceWrite who addr fmt red data) s (fun t =>
        (∀ i < data.length, t.byte (addr.toNat + i) = BitVec.ofNat 8 ((fromWords w ((List.zipWith (reduceElem fmt.toNat red.toNat)
          (toWords w data.length (s.rdKeys addr.toNat data.length))
          (toWords w data.length (data.map BitVec.toNat))).map (·.1))).getD i 0)) ∧
        (∀ a, a < addr.toNat ∨ addr.toNat + data.length ≤ a → t.byte a = s.byte a)))) ∧
  (∀ (who : Accessor) (addr : BitVec 44) (f o : Nat) (s : State), s.accHeld who = false →
    s.mayAccess who rightR (addr.toNat / 64 * 64) 64 = true → s.placeOf (accFrond who) (addr.toNat / 64 * 64) = .hbm f o →
    s.pcBit F.HBMF_FENCE_PC f (s.pcOf f o) = false → s.blockPoison f o = false → s.col.inverted = [] →
    Does (.hbmReadRequest who addr .clean) s (fun t => t.mem = s.mem ∧
      t.outbox = .answer true false (s.rdKeys (addr.toNat / 64 * 64) 64) :: s.outbox)) ∧
  (∀ (who : Accessor) (f : Frond) (t : Fin 128) (off : BitVec 24) (data : List (BitVec 8)) (poison : Bool) (p : Nat) (s : State),
    s.accHeld who = false → s.mayAccess who rightW (windowAddr f t.val off.toNat) data.length = true → 0 < data.length →
    off.toNat % 32 + data.length ≤ 32 → s.col.inverted = [] → s.placeOf (accFrond who) (windowAddr f t.val off.toNat) = .store f.idx p off.toNat →
    Does (.tileWindowAccess who f t off (.write data poison) .clean) s (fun v =>
      (∀ i < data.length, v.byte (storeKey f.idx p off.toNat + i) = data.getD i 0) ∧
      (∀ a, a < storeKey f.idx p off.toNat ∨ storeKey f.idx p off.toNat + data.length ≤ a → v.byte a = s.byte a) ∧
      v.outbox = .answer true false [] :: s.outbox ∧ v.tiles = s.tiles)) ∧
  (∀ (who : Accessor) (f : Frond) (t : Fin 128) (n : Fin 16) (data : BitVec 64) (p : Nat) (s : State),
    s.accHeld who = false → s.mayAccess who rightW (windowAddr f t.val (0xE00000 + 8 * n.val)) 8 = true → p < 132 →
    s.placeOf (accFrond who) (windowAddr f t.val (0xE00000 + 8 * n.val)) = .tcnt f.idx p (8 * n.val) →
    Does (.tileCounterWindowWrite who f t n data) s (fun v =>
      v.rd (tcnt f p n.val) = (s.rd (tcnt f p n.val) + data.toNat % 2 ^ 32) % 2 ^ 32 ∧ v.mem = s.mem))

/-- Scrubbing a store word with an uncorrectable error poisons its beat and sets ERR_STATUS bit 1; a clean one is counted as activity and changes
nothing else, and one of a fenced tile changes nothing. Where scrub runs, an uncorrectable HBM block becomes zero, a region under a running test is skipped, and a pass that ends is counted. A page copy that ends makes its entry current; a retirement beyond the visible memory sets
ERR_STATUS bit 0. A fence write fences the pseudo-channels named. Outside a window refresh is postponed up to POSTPONE_MAX, inside one it is pulled in, and the stack's temperature
is shown. A good
retry of the bridge restarts the count of failures, the sixteenth failure in a row ends the bridge on both fronts. The test's
region is released, waits or runs, ends with the count of failing pages, and comes back zeroed.
Where a clause rests on a corner that the spec leaves open, it states the choice of the model: logs 7, 27 and 28.
Completion is stated here of: storeScrub, hbmScrubBlock, pageRetireDone, hbmfRetAddWrite, hbmfFenceWrite, refreshInterval,
bridgeFlitRetry, hbmTestRelease, hbmTestStart, hbmTestRun, hbmTestDone, hbmTestReturn. -/
def Obligations.MemoryUpkeepRuns : Prop :=
  (∀ (f : Frond) (t : Fin 132) (off : BitVec 24) (s : State), s.col.inverted = [] →
    (s.tileState f t.val = 4 ∨ 0xE00000 ≤ off.toNat → ∀ e, exec (.storeScrub f t off e false) s = .next s) ∧
    (s.tileState f t.val ≠ 4 → off.toNat < 0xE00000 →
      exec (.storeScrub f t off .clean false) s = .next (s.activity f 4 1 none none)) ∧
    (s.tileState f t.val ≠ 4 → off.toNat < 0xE00000 → Does (.storeScrub f t off .bad false) s (fun v =>
      v.poisoned (storeKey f.idx t.val (off.toNat / 32 * 32)) = true ∧ v.mem = s.mem ∧
      bitOf (v.rd (errStatus (frondPg f 0x102))) 1 = true))) ∧
  (∀ (addr : BitVec 44) (s : State), addr.toNat < 0xA000000000 → s.scrubRuns (addr.toNat / 0x5000000000)
      (s.pcOf (addr.toNat / 0x5000000000) (addr.toNat / 64 * 64 % 0x5000000000)) = true →
    s.pcBit F.HBMF_FENCE_PC (addr.toNat / 0x5000000000)
      (s.pcOf (addr.toNat / 0x5000000000) (addr.toNat / 64 * 64 % 0x5000000000)) = false →
    s.inTest (addr.toNat / 0x5000000000) (addr.toNat / 64 * 64 % 0x5000000000) = false →
    Does (.hbmScrubBlock addr .bad false) s (fun v => (∀ i < 64, v.byte (addr.toNat / 64 * 64 + i) = 0) ∧
      (∀ a, a < addr.toNat / 64 * 64 ∨ addr.toNat / 64 * 64 + 64 ≤ a → v.byte a = s.byte a))) ∧
  (∀ (addr : BitVec 44) (e : Ecc) (passEnd : Bool) (f o : Nat) (s : State), hbmSplit (addr.toNat / 64 * 64) = (f, o) →
    (2 ≤ f ∨ s.scrubRuns f (s.pcOf f o) = false → exec (.hbmScrubBlock addr e passEnd) s = .next s) ∧
    (f < 2 → s.scrubRuns f (s.pcOf f o) = true → passEnd = false → s.inTest f o = true →
      s.rd (hf F.HBMF_TEST_STATUS_STATE f) = 3 →
      exec (.hbmScrubBlock addr e passEnd) s = .next (s.activity (Frond.at f) 8 1 none none)) ∧
    (f < 2 → s.scrubRuns f (s.pcOf f o) = true → passEnd = true → s.col.inverted = [] → e = .clean →
      s.pcBit F.HBMF_FENCE_PC f (s.pcOf f o) = false →
      exec (.hbmScrubBlock addr e passEnd) s =
        .next ((s.inc (hf F.HBMF_SCRUB_PASSES f)).activity (Frond.at f) 8 1 none none))) ∧
  (∀ (f : Frond) (s : State),
    ((∀ e ∈ (s.hbmF f.idx).table, e.current = true) → ∀ found, exec (.pageRetireDone f found) s = .next s) ∧
    (∀ x, (s.hbmF f.idx).table.find? (fun e => !e.current) = some x → ∀ found, Does (.pageRetireDone f found) s (fun v =>
      (v.hbmF f.idx).table = (s.hbmF f.idx).table.map (fun e => if e.page = x.page then { e with current := true } else e) ∧
      v.mem = s.mem))) ∧
  (∀ (r : Req) (f : Frond) (value : BitVec 64) (s : State), s.mayWrite r (hf F.HBMF_RET_ADD_PAGE f.idx) → r.level = .L0 →
    (s.visible f.idx ≤ value.toNat / 2 ^ 32 % 2 ^ 27 * 4096 →
      exec (.hbmfRetAddWrite r f value) s = .next (s.err (frondPg f 0x104) 0)) ∧
    (value.toNat / 2 ^ 32 % 2 ^ 27 * 4096 < s.visible f.idx →
      exec (.hbmfRetAddWrite r f value) s = .next (s.retire f.idx (value.toNat / 2 ^ 32 % 2 ^ 27) 2))) ∧
  (∀ (r : Req) (f : Frond) (hi : Bool) (value : BitVec 64) (s : State),
    s.mayWrite r ((hf F.HBMF_FENCE_PC f.idx).i (b2n hi)) → r.level = .L0 → Does (.hbmfFenceWrite r f hi value) s (fun v =>
      (∀ b < 64, bitOf value.toNat b = true → v.pcBit F.HBMF_FENCE_PC f.idx (b2n hi * 64 + b) = true) ∧ v.mem = s.mem)) ∧
  (∀ (stack : Fin 8) (pc : Fin 32) (tempC : BitVec 8) (s : State), bitOf s.phase.refreshOpen stack.val = false →
    Does (.refreshInterval stack pc tempC) s (fun v => v.rd (F.HBMC_STATUS_TEMP.pg (hbmcPage stack.val)) = tempC.toNat ∧
      Sparse.get (fun _ => (0 : Int)) (v.hbmF (stack.val / 4)).credit (stack.val % 4 * 32 + pc.val) =
        min (Sparse.get (fun _ => (0 : Int)) (s.hbmF (stack.val / 4)).credit (stack.val % 4 * 32 + pc.val) + 1)
          (s.rd (F.HBMC_REF_CTRL_POSTPONE_MAX.pg (hbmcPage stack.val))) ∧ v.mem = s.mem)) ∧
  (∀ (stack : Fin 8) (pc : Fin 32) (tempC : BitVec 8) (k : Nat) (c : Int) (s : State), bitOf s.phase.refreshOpen stack.val = true →
    s.rd (F.HBMC_REF_CTRL_WINDOW_EN.pg (hbmcPage stack.val)) = 1 → k = stack.val % 4 * 32 + pc.val →
    c = Sparse.get (fun _ => (0 : Int)) (s.hbmF (stack.val / 4)).credit k + 1 →
    Does (.refreshInterval stack pc tempC) s (fun v => v.rd (F.HBMC_STATUS_TEMP.pg (hbmcPage stack.val)) = tempC.toNat ∧
      Sparse.get (fun _ => (0 : Int)) (v.hbmF (stack.val / 4)).credit k =
        (if Sparse.get (fun _ => 0) (s.hbmF (stack.val / 4)).openFor k < 16 then
          min c (-(s.rd (F.HBMC_REF_CTRL_PULLIN_MAX.pg (hbmcPage stack.val)) : Int)) else c - 1) ∧
      Sparse.get (fun _ => 0) (v.hbmF (stack.val / 4)).openFor k =
        Sparse.get (fun _ => 0) (s.hbmF (stack.val / 4)).openFor k + 1 ∧ v.mem = s.mem)) ∧
  (∀ (f : Frond) (s : State),
    (s.bridgeDown = true → ∀ good, exec (.bridgeFlitRetry f good) s = .next s) ∧
    (s.bridgeDown = false → Does (.bridgeFlitRetry f true) s (fun v => (v.hbmF f.idx).bridgeFails = 0 ∧
      v.bridgeDown = false ∧ bitOf (v.rd (errStatus (frondPg f 0x104))) 2 = true)) ∧
    (s.bridgeDown = false → (s.hbmF f.idx).bridgeFails = 15 → Does (.bridgeFlitRetry f false) s (fun v =>
      v.rd (hf F.BRIDGE_STATUS_STATE 0) = 2 ∧ v.rd (hf F.BRIDGE_STATUS_STATE 1) = 2 ∧
      bitOf (v.rd (errStatus (frondPg f 0x104))) 3 = true))) ∧
  (∀ (r : Req) (f : Frond) (s : State), s.mayWrite r (hf F.HBMF_TEST_CTRL_RELEASE f.idx) → r.level = .L0 →
    (s.rd (hf F.HBMF_TEST_CTRL_RELEASE f.idx) = 0 → Does (.hbmTestRelease r f) s (fun v =>
      v.rd (hf F.HBMF_TEST_CTRL_RELEASE f.idx) = 1 ∧ v.rd (hf F.HBMF_TEST_STATUS_STATE f.idx) = 1 ∧ s.onlyRegs v)) ∧
    (s.rd (hf F.HBMF_TEST_CTRL_RELEASE f.idx) = 1 → s.rd (hf F.HBMF_TEST_CTRL_PATTERN f.idx) ≠ 3 →
      s.rd (hf F.HBMF_TEST_STATUS_STATE f.idx) = 1 → Does (.hbmTestStart r f) s (fun v =>
        v.rd (hf F.HBMF_TEST_CTRL_START f.idx) = 1 ∧ v.rd (hf F.HBMF_TEST_STATUS_FAIL_PAGES f.idx) = 0 ∧
        v.rd (hf F.HBMF_TEST_STATUS_STATE f.idx) = (if s.hbmTestOpen f.idx then 3 else 2))) ∧
    (s.rd (hf F.HBMF_TEST_CTRL_RELEASE f.idx) = 1 → s.rd (hf F.HBMF_TEST_STATUS_STATE f.idx) = 2 →
      exec (.hbmTestReturn r f) s = .next s) ∧
    (s.rd (hf F.HBMF_TEST_CTRL_RELEASE f.idx) = 1 → s.rd (hf F.HBMF_TEST_STATUS_STATE f.idx) = 4 →
      Does (.hbmTestReturn r f) s (fun v => v.rd (hf F.HBMF_TEST_CTRL_RELEASE f.idx) = 0 ∧
        v.rd (hf F.HBMF_TEST_STATUS_STATE f.idx) = 0 ∧
        ∀ a, a < 0x5000000000 → s.inTest f.idx a = true → v.byte (hbmKey f.idx a) = 0))) ∧
  (∀ (f : Frond) (s : State), s.rd (hf F.HBMF_TEST_STATUS_STATE f.idx) = 2 →
    (s.hbmTestOpen f.idx = true → exec (.hbmTestRun f) s = .next (s.wr (hf F.HBMF_TEST_STATUS_STATE f.idx) 3)) ∧
    (s.hbmTestOpen f.idx = false → exec (.hbmTestRun f) s = .next s)) ∧
  (∀ (f : Frond) (fails : List (BitVec 27)) (soft : List (Fin 4)) (s : State),
    (s.rd (hf F.HBMF_TEST_STATUS_STATE f.idx) ≠ 3 ∨ s.hbmTestOpen f.idx = false →
      exec (.hbmTestDone f fails soft) s = .next s) ∧
    (s.rd (hf F.HBMF_TEST_STATUS_STATE f.idx) = 3 → s.hbmTestOpen f.idx = true →
      Does (.hbmTestDone f fails soft) s (fun v => v.rd (hf F.HBMF_TEST_STATUS_STATE f.idx) = 4 ∧
        v.rd (hf F.HBMF_TEST_CTRL_START f.idx) = 0 ∧ v.rd (hf F.HBMF_TEST_STATUS_FAIL_PAGES f.idx) =
          ((fails.map BitVec.toNat).filter (fun p => s.inTest f.idx (p * 4096))).length
            % 2 ^ F.HBMF_TEST_STATUS_FAIL_PAGES.width ∧ v.mem = s.mem))) ∧
  (∀ (f : Frond) (s : State), s.rd (hf F.HBMF_TEST_STATUS_STATE f.idx) = 3 → s.hbmTestOpen f.idx = true →
    Does (.hbmTestDone f [] []) s (fun v => v.rd (hf F.HBMF_TEST_STATUS_STATE f.idx) = 4 ∧
      v.rd (hf F.HBMF_TEST_CTRL_START f.idx) = 0 ∧ v.rd (hf F.HBMF_TEST_STATUS_FAIL_PAGES f.idx) = 0 ∧ s.onlyRegs v))

/-- For every engine op: a running descriptor of that op with a good header makes the reads and writes of its op, and when none of
them fails the engine holds its completion code, 1 where an output depends on poison; a failing one ends the descriptor with its
code and address. While a remote response or a write group is lacking the state stays but for the READs that it asks for, which
leave. One whose header or op is reserved ends with DESC_BAD, having touched nothing. With no such descriptor nothing
happens.
Where a clause rests on a corner that the spec leaves open, it states the choice of the model: logs 29, 30, 31 and 32.
Completion is stated here of: moveCopy, moveTranspose, movePack, moveFill, codecConvert, codecPack, compress, decompress,
gather, scatter, scatterAdd, sort, topk, hist, stencilApply, gemm, generate, encrypt, decrypt. -/
def Obligations.DescriptorsRunOrFail : Prop :=
  ∀ (f : Frond) (n : Fin 44) (type op : Nat) (g : Desc → EngRun → EngRun) (c : Instr) (s : State),
    (c, type, op, g) ∈ [
      (.moveCopy f n, 1, 0, fun d r => r.copy d), (.moveTranspose f n, 1, 1, fun d r => r.transpose d),
      (.movePack f n, 1, 2, fun d r => r.pack d), (.moveFill f n, 1, 3, fun d r => r.fill d),
      (.codecConvert f n, 2, 0, fun d r => (r.convertRows d).1), (.codecPack f n, 2, 1, fun d r => (r.codecPack d).1),
      (.compress f n, 2, 2, fun d r => r.compress d), (.decompress f n, 2, 3, fun d r => r.decompress d),
      (.gather f n, 3, 0, fun d r => r.gs d), (.scatter f n, 3, 1, fun d r => r.gs d),
      (.scatterAdd f n, 3, 2, fun d r => r.gs d), (.sort f n, 4, 0, fun d r => r.sort d),
      (.topk f n, 4, 1, fun d r => r.topk d), (.hist f n, 4, 2, fun d r => r.hist d),
      (.stencilApply f n, 5, 0, fun d r => (r.stencil d).1), (.gemm f n, 6, 0, fun d r => (r.gemm d).1),
      (.generate f n, 7, 0, fun d r => r.generate d), (.encrypt f n, 8, 0, fun d r => r.encrypt d),
      (.decrypt f n, 8, 1, fun d r => r.decrypt d)] →
    (s.engReady f n.val type op = none → exec c s = .next s) ∧
    (∀ (d : Desc) (r : EngRun), s.engReady f n.val type op = some d → headerGood d = true → d.op = op →
      r = g d ⟨s, f, n.val, d.ctx, s.ctxDom d.ctx, none, false, 0, (s.eng f n.val).reads, [], false⟩ →
      (r.wait = false → r.fail = none → Does c s (fun t => (t.eng f n.val).done = some (b2n r.poison) ∧
        (t.eng f n.val).running = (r.s.eng f n.val).running ∧ t.mem = r.s.mem ∧ t.poison = r.s.poison)) ∧
      (∀ e, r.wait = false → r.fail = some e → Does c s (fun t => t.mem = r.s.mem) ∧ ∃ u : State, u.mem = r.s.mem ∧
        u.poison = r.s.poison ∧ u.eng f n.val = r.s.eng f n.val ∧
        (type ≠ 5 → type ≠ 6 → exec c s = .next (u.engEnd f n.val e.1 e.2))) ∧
      (r.wait = true → Does c s (fun t => t.mem = s.mem) ∧
        (type ≠ 5 → type ≠ 6 → exec c s = .next (s.engAsk f n.val r.asks)))) ∧
    (∀ d : Desc, s.engReady f n.val type op = some d → headerGood d = false ∨ d.op ≠ op →
      exec c s = .next (((s.engBytes f n.val 0 true (s.ctxTag d.ctx)).trkFreeOf f (.engine n.val)).engEnd f n.val 3 0))

/-- A descriptor whose writes are made completes unless a fence of its domain or its own remote writes hold it. A descriptor that runs
too long sets ERR_STATUS bit 2 and ends with code 0x0A. COMMIT at L0 stores the key of the selected slot, marks it valid and clears
the key words; CLEAR removes it. A reset of a core that is not fenced empties its interrupt stack and starts it, halts it or keeps
it in reset as its controls say. A load of poison is kept with its address and answered by an access fault; another bad line sets ERR_STATUS bit 1 as well, and a
dirty one of this module's memory is written back poisoned.
Where a clause rests on a corner that the spec leaves open, it states the choice of the model: logs 29, 30, 31 and 32.
Completion is stated here of: descriptorComplete, engWatchdogExpire, cryptoKeyCommit, cryptoKeyClear, coreReset,
coreLoadPoison. -/
def Obligations.EnginesCompleteKeysAndCoresAct : Prop :=
  (∀ (f : Frond) (n : Fin 44) (s : State),
    ((s.eng f n.val).running = none → exec (.descriptorComplete f n) s = .next s ∧ exec (.engWatchdogExpire f n) s = .next s) ∧
    (∀ d code, (s.eng f n.val).running = some d → (s.eng f n.val).done = some code →
      s.heldDom (s.ctxDom d.ctx) = false → s.groupCount f (.engine n.val) = 0 →
      exec (.descriptorComplete f n) s = .next (s.descComplete f n.val d code)) ∧
    (∀ d code, (s.eng f n.val).running = some d → (s.eng f n.val).done = some code →
      s.heldDom (s.ctxDom d.ctx) = true → exec (.descriptorComplete f n) s = .next s) ∧
    (∀ d, (s.eng f n.val).running = some d → exec (.engWatchdogExpire f n) s =
      .next (((s.err (engPage f n.val) 2).engEnd f n.val 0xA 0).engRetry f))) ∧
  (∀ (r : Req) (f : Frond) (slot : Nat) (s : State), s.mayWrite r (rgf F.CRYPTO_KEY_CMD_COMMIT f) → r.level = .L0 →
    s.rd (rgf F.CRYPTO_KEY_SEL_SLOT f) = slot → slot < 32 →
    Does (.cryptoKeyCommit r f) s (fun t => t.cryptoKey f slot = some (
        s.rd ((rgf F.CRYPTO_KEY_W_KEY f).i 0) + 2 ^ 64 * (s.rd ((rgf F.CRYPTO_KEY_W_KEY f).i 1)
          + 2 ^ 64 * (s.rd ((rgf F.CRYPTO_KEY_W_KEY f).i 2) + 2 ^ 64 * s.rd ((rgf F.CRYPTO_KEY_W_KEY f).i 3))),
        s.rd (rgf F.CRYPTO_KEY_SEL_DOMAIN f)) ∧
      bitOf (t.rd (rgf F.CRYPTO_KEY_VALID_VALID f)) slot = true ∧ (∀ w < 4, t.rd ((rgf F.CRYPTO_KEY_W_KEY f).i w) = 0) ∧
      ∀ k < 32, k ≠ slot → t.cryptoKey f k = s.cryptoKey f k) ∧
    Does (.cryptoKeyClear r f) s (fun t => t.cryptoKey f slot = none ∧
      bitOf (t.rd (rgf F.CRYPTO_KEY_VALID_VALID f)) slot = false ∧ ∀ k < 32, k ≠ slot → t.cryptoKey f k = s.cryptoKey f k)) ∧
  (∀ (r : Req) (f : Frond) (c : Fin 8) (s : State), s.mayWrite r (F.CORE_CTRL_RESET.pg (corePage f c.val)) →
    (s.rd (F.CORE_STATUS_STATE.pg (corePage f c.val)) = 4 → exec (.coreReset r f c) s = .next s) ∧
    (s.rd (F.CORE_STATUS_STATE.pg (corePage f c.val)) ≠ 4 → (∀ e ∈ s.irqStack (.fic f) c.val, e.1 < 1024) → Does (.coreReset r f c) s (fun t =>
      t.irqStack (.fic f) c.val = [] ∧ t.rd (F.CORE_STATUS_STATE.pg (corePage f c.val)) =
        (if s.rd (F.BLK_CTRL_ENABLE.pg (corePage f c.val)) = 0 then 0
          else if s.rd (F.CORE_CTRL_HALT.pg (corePage f c.val)) = 1 then 3 else 1)))) ∧
  (∀ (f : Frond) (c : Fin 8) (addr : BitVec 50) (s u : State),
    (∀ dirty, Does (.coreLoadPoison f c addr true dirty) s (fun t => t.rd (F.CORE_ERR_VALID.pg (corePage f c.val)) = 1 ∧
      t.rd (F.CORE_ERR_POISON.pg (corePage f c.val)) = 1 ∧ t.rd (F.CORE_ERR_ADDR.pg (corePage f c.val)) = addr.toNat ∧
      t.outbox = .answer false false [] :: s.outbox ∧ t = { s with regs := t.regs, outbox := t.outbox })) ∧
    (u = (((((s.wr (F.CORE_ERR_VALID.pg (corePage f c.val)) 1).wr (F.CORE_ERR_POISON.pg (corePage f c.val)) 0).wr
        (F.CORE_ERR_ADDR.pg (corePage f c.val)) addr.toNat).answer Res.err).err (corePage f c.val) 1) →
      exec (.coreLoadPoison f c addr false false) s = .next u ∧ bitOf (u.rd (errStatus (corePage f c.val))) 1 = true ∧
      (addr.toNat / 2 ^ 44 = u.modIdx → exec (.coreLoadPoison f c addr false true) s = .next (u.lineLost f addr.toNat)) ∧
      (addr.toNat / 2 ^ 44 ≠ u.modIdx → exec (.coreLoadPoison f c addr false true) s = .next u)))

/-- At the selected context: ALLOC of a FREE one with a valid ring in a built partition allocates it with the next generation and an
empty ring, FREE of an idle one frees it with the next generation, STOP and START set and clear its stop; each is rejected with
ERR_STATUS bit 2 otherwise. A write of CTX_CFG stores PRIO and WEIGHT, and PART where the state lets it move. With no context
ready the scheduler does nothing. An aligned 64-bit write to the counter regions adds to a counter, sets it, or sets its EXTERNAL
bit; a host's add or set sets EXTERNAL too. A write to the submission window that is not one aligned slot is refused with
ERR_STATUS bit 0, and memory stays; one of a whole slot that its context accepts is appended: TAIL advances.
Where a clause rests on a corner that the spec leaves open, it states the choice of the model: logs 33, 34, 35 and 36.
Completion is stated here of: ctxAlloc, ctxFree, ctxStop, ctxStart, ctxCfgWrite, dispatchDecision, submissionWindowWrite,
signalCounterAdd, signalCounterSet, signalCounterExternal. -/
def Obligations.ContextCommandsAndCounters : Prop :=
  (∀ (r : Req) (c : Nat) (s : State), s.mayWrite r F.CTX_CMD_CMD → c = s.selCtx r →
    (c ≠ 0 → (s.ctx c).alloc = false → s.ringValid c = true → s.partState (s.ctx c).part = 2 →
      Does (.ctxAlloc r) s (fun t => (t.ctx c).alloc = true ∧ (t.ctx c).gen = ((s.ctx c).gen + 1) % 256 ∧
        (t.ctx c).head = 0 ∧ (t.ctx c).tail = 0 ∧ (t.ctx c).outstanding = [] ∧ (t.ctx c).part = (s.ctx c).part ∧
        (∀ d, d ≠ c → t.ctx d = s.ctx d) ∧ t = { s with work := t.work })) ∧
    (c = 0 ∨ (s.ctx c).alloc = true ∨ s.ringValid c = false ∨ s.partState (s.ctx c).part ≠ 2 →
      exec (.ctxAlloc r) s = .next (s.err 0x20 2)) ∧
    (s.ctxState c = 1 ∨ s.ctxState c = 6 → (s.ctx c).outstanding = [] → Does (.ctxFree r) s (fun t =>
      (t.ctx c).alloc = false ∧ (t.ctx c).gen = ((s.ctx c).gen + 1) % 256 ∧ t = { s with work := t.work })) ∧
    ((s.ctxState c ≠ 1 ∧ s.ctxState c ≠ 6) ∨ (s.ctx c).outstanding ≠ [] → exec (.ctxFree r) s = .next (s.err 0x20 2)) ∧
    (s.ctxState c ≠ 0 → s.ctxState c ≠ 7 → Does (.ctxStop r) s (fun t => (t.ctx c).stopped = true ∧
      (t.ctx c).head = (s.ctx c).head ∧ t = { s with work := t.work })) ∧
    (s.ctxState c = 0 ∨ s.ctxState c = 7 → exec (.ctxStop r) s = .next (s.err 0x20 2)) ∧
    (s.ctxState c = 6 → Does (.ctxStart r) s (fun t => (t.ctx c).stopped = false ∧ t = { s with work := t.work })) ∧
    (s.ctxState c ≠ 6 → exec (.ctxStart r) s = .next (s.err 0x20 2))) ∧
  (∀ (r : Req) (value : BitVec 64) (c : Nat) (s : State), s.mayWrite r F.CTX_CFG_PART → c = s.selCtx r →
    (s.partMovable c = true → Does (.ctxCfgWrite r value) s (fun t => (t.ctx c).part = F.CTX_CFG_PART.get value ∧
      (t.ctx c).prio = F.CTX_CFG_PRIO.get value ∧ (t.ctx c).weight = F.CTX_CFG_WEIGHT.get value ∧ t = { s with work := t.work })) ∧
    (s.partMovable c = false → F.CTX_CFG_PART.get value ≠ (s.ctx c).part → Does (.ctxCfgWrite r value) s (fun t =>
      (t.ctx c).part = (s.ctx c).part ∧ (t.ctx c).prio = F.CTX_CFG_PRIO.get value ∧ bitOf (t.rd (errStatus 0x20)) 2 = true))) ∧
  (∀ (f : Frond) (s : State), (∀ l < 8, s.levelReady f l = []) → exec (.dispatchDecision f) s = .next s) ∧
  (∀ (f : Frond) (c l : Nat) (s : State), (∀ k < 8, l < k → s.levelReady f k = []) → l < 8 → s.levelReady f l ≠ [] →
    s.levelPick f l = some c → exec (.dispatchDecision f) s = .next ((s.itemTry c).turnTake f l c)) ∧
  (∀ (who : Accessor) (n : Fin 131072) (data : BitVec 64) (s : State), s.accHeld who = false →
    s.counterNear (accFrond who) n.val = true →
    (s.mayAccess who rightW (0xE0000000000 + 8 * n.val) 8 = true → Does (.signalCounterAdd who n data) s (fun t =>
      t.counter n.val = (s.counter n.val + data.toNat) % 2 ^ 32 ∧
      t.counterExt n.val = (s.counterExt n.val || accSource who == 4) ∧
      (∀ k, k ≠ n.val → t.counterWord k = s.counterWord k) ∧ t.mem = s.mem)) ∧
    (s.mayAccess who rightW (0xE0000000000 + 0x100000 + 8 * n.val) 8 = true → Does (.signalCounterSet who n data) s (fun t =>
      t.counter n.val = data.toNat % 2 ^ 32 ∧ t.counterExt n.val = (s.counterExt n.val || accSource who == 4) ∧
      t.mem = s.mem)) ∧
    (s.mayAccess who rightW (0xE0000000000 + 2 * 0x100000 + 8 * n.val) 8 = true → Does (.signalCounterExternal who n data) s
      (fun t => t.counter n.val = s.counter n.val ∧ t.counterExt n.val = decide (data.toNat % 2 = 1) ∧ t.mem = s.mem))) ∧
  (∀ (who : Accessor) (off : BitVec 32) (data : List (BitVec 8)) (s : State), s.accHeld who = false → off.toNat < 0x400000 →
    (off.toNat % 64 ≠ 0 ∨ data.length ≠ 64) → Does (.submissionWindowWrite who off data) s (fun t => t.mem = s.mem ∧
      bitOf (t.rd (errStatus 0x23)) 0 = true ∧ t.rd F.SUB_LAST_REJECT_REASON = 1 ∧
      t.rd F.SUB_LAST_REJECT_CTX = off.toNat / 64)) ∧
  (∀ (who : Accessor) (off : BitVec 32) (data : List (BitVec 8)) (c : Nat) (s : State), s.accHeld who = false →
    c = off.toNat / 64 → off.toNat < 0x400000 → off.toNat % 64 = 0 → data.length = 64 →
    s.mayAccess who rightW (0xE1000000000 + off.toNat) 64 = true → s.subRefusal c 1 = none →
    Does (.submissionWindowWrite who off data) s (fun t => (t.ctx c).tail = ((s.ctx c).tail + 1) % 2 ^ 17 ∧
      (t.ctx c).head = (s.ctx c).head ∧ (∀ d, d ≠ c → t.ctx d = s.ctx d) ∧ t.outbox = .answer true false [] :: s.outbox))

/-- A LAUNCH that passes its checks starts its program on every named tile when all are free, with ENTRY as the PC, S1 to S4 from the
item, and the item outstanding; else it waits for the tiles. A WAIT that is met leaves the head, with DEC subtracting VALUE
unless another comes first, else it blocks it with WAIT_KIND 1.
A SIGNAL ADD through the domain raises its counter and leaves; ADD_AFTER waits for the earlier items. REGISTER records the counter
as produced, UNREGISTER takes it out. A FENCE leaves when everything before it is complete, an epoch fence when no epoch is
pending. A MARK leaves and is a local mark. A PHASE_WAIT leaves when its phase is met. An engine item goes to its engine's queue
or waits for room. A WAIT with a timeout faults with code 5 when it expires. An item that had not been taken, or waited for room in an engine queue, is
taken when the dispatcher's choice falls on its context, whose turn this counts as.
Where a clause rests on a corner that the spec leaves open, it states the choice of the model: logs 33, 34, 35 and 36.
Completion is stated here of: engineItem, launch, launchStart, wait, waitItemMet, waitTimeout, signalItemAdd,
signalItemAddAfter, signalItemRegister, signalItemUnregister, fenceContext, fenceEpoch, markItem, phaseWait,
itemConditionMet. -/
def Obligations.ItemsAtTheHead : Prop :=
  ∀ (c : BitVec 16) (w : List Nat) (s : State), s.atHead c.toNat w →
    (itemKind w = 0x80 → wd w 0 / 2 ^ 56 = 0 → signalGood (wd w 1) = true → s.launchFault c.toNat w = none →
      ∀ i, (i, s.blockKind c.toNat) ∈ [(Instr.launch c, 0), (Instr.launchStart c, 6)] →
      (s.launchReady c.toNat w = true → Does i s (fun t =>
        (t.ctx c.toNat).head = ((s.ctx c.toNat).head + 1) % 2 ^ 17 ∧
        (t.ctx c.toNat).outstanding = (s.ctx c.toNat).outstanding ++
          [⟨(s.ctx c.toNat).head, w, (launchTiles w).filterMap (s.physOf (s.partFrond (s.ctx c.toNat).part))⟩] ∧
        ∀ p ∈ (launchTiles w).filterMap (s.physOf (s.partFrond (s.ctx c.toNat).part)),
          t.seqState (s.partFrond (s.ctx c.toNat).part) p = 1 ∧
          t.pc (s.partFrond (s.ctx c.toNat).part) p = wd w 0 / 256 % 2 ^ 24 ∧
          t.runCtx (s.partFrond (s.ctx c.toNat).part) p = c.toNat ∧
          ∀ n < 4, (t.tile (s.partFrond (s.ctx c.toNat).part) p).sreg (n + 1) = wd w (4 + n))) ∧
      (s.launchReady c.toNat w = false → exec i s = .next (s.taken (s.headBlock c.toNat 6 false) c.toNat))) ∧
    (itemKind w = 0x81 → headerBad w 1 = false → wd w 1 = 0 → wd w 2 < 2 ^ 17 → restZero w 4 = true →
      s.domMay (s.ctxDom c.toNat) rightR (s.globalOf (0xE0000000000 + 8 * wd w 2)) 8 = true →
      (s.blockKind c.toNat = 0 → s.waitMet w = false →
        exec (.wait c) s = .next (s.taken (s.headBlock c.toNat 1 false) c.toNat)) ∧
      (∀ i, (i, s.blockKind c.toNat) ∈ [(Instr.wait c, 0), (Instr.waitItemMet c, 1)] → s.waitMet w = true →
        (bitOf (wd w 0) 56 = false → exec i s = .next (s.taken (s.headLeave c.toNat none w) c.toNat)) ∧
        (bitOf (wd w 0) 56 = true → s.waitBehind c.toNat = false → exec i s = .next (s.taken ((s.counterSet (wd w 2)
          (s.counter (wd w 2) + 2 ^ 32 - wd w 3 % 2 ^ 32)).headLeave c.toNat none w) c.toNat))) ∧
      (s.blockKind c.toNat = 1 → wd w 3 / 2 ^ 32 ≠ 0 → exec (.waitTimeout c) s = .next (s.itemFault c.toNat 5))) ∧
    (itemKind w = 0x82 → headerBad w 3 = false → signalGood (wd w 1) = true → restZero w 2 = true → wd w 1 / 2 ^ 30 % 4 = 1 →
      s.signalRemote (wd w 1) = false → s.domMay (s.ctxDom c.toNat) rightW (s.signalAddr (wd w 1)) 8 = true →
      s.counterNear (some (s.partFrond (s.ctx c.toNat).part).idx) (wd w 1 % 2 ^ 17) = true →
      (wd w 0 / 2 ^ 56 % 4 = 0 → Does (.signalItemAdd c) s (fun t =>
        t.counter (wd w 1 % 2 ^ 17) = (s.counter (wd w 1 % 2 ^ 17) + wd w 1 / 2 ^ 32) % 2 ^ 32 ∧
        (t.ctx c.toNat).head = ((s.ctx c.toNat).head + 1) % 2 ^ 17)) ∧
      (wd w 0 / 2 ^ 56 % 4 = 1 → (s.ctx c.toNat).outstanding = [] → Does (.signalItemAddAfter c) s (fun t =>
        t.counter (wd w 1 % 2 ^ 17) = (s.counter (wd w 1 % 2 ^ 17) + wd w 1 / 2 ^ 32) % 2 ^ 32 ∧
        (t.ctx c.toNat).head = ((s.ctx c.toNat).head + 1) % 2 ^ 17)) ∧
      (wd w 0 / 2 ^ 56 % 4 = 1 → (s.ctx c.toNat).outstanding ≠ [] →
        exec (.signalItemAddAfter c) s = .next (s.taken (s.headBlock c.toNat 1 false) c.toNat)) ∧
      (wd w 0 / 2 ^ 56 % 4 = 2 → (s.ctx c.toNat).freeSlots ≠ [] → Does (.signalItemRegister c) s (fun t =>
        (∃ e ∈ (t.ctx c.toNat).prods, e.2 = prodWord (wd w 1 % 2 ^ 17)) ∧
        (t.ctx c.toNat).head = ((s.ctx c.toNat).head + 1) % 2 ^ 17)) ∧
      (wd w 0 / 2 ^ 56 % 4 = 3 → Does (.signalItemUnregister c) s (fun t =>
        (∀ e ∈ (t.ctx c.toNat).prods, e.2 ≠ prodWord (wd w 1 % 2 ^ 17)) ∧
        (t.ctx c.toNat).head = ((s.ctx c.toNat).head + 1) % 2 ^ 17))) ∧
    (itemKind w = 0x83 → headerBad w 1 = false → restZero w 1 = true →
      (wd w 0 / 2 ^ 56 % 4 = 0 → (s.ctx c.toNat).outstanding = [] →
        exec (.fenceContext c) s = .next (s.taken (s.headLeave c.toNat none w) c.toNat) ∧
        (s.blockKind c.toNat ≠ 0 →
          exec (.itemConditionMet c) s = .next (s.taken (s.headLeave c.toNat none w) c.toNat))) ∧
      (wd w 0 / 2 ^ 56 % 4 = 0 → (s.ctx c.toNat).outstanding ≠ [] →
        exec (.fenceContext c) s = .next (s.taken (s.headBlock c.toNat 4 false) c.toNat)) ∧
      (wd w 0 / 2 ^ 56 % 4 = 1 → s.rd F.PROT_EPOCH_STATUS_PENDING = 0 →
        exec (.fenceEpoch c) s = .next (s.taken (s.headLeave c.toNat none w) c.toNat))) ∧
    (itemKind w = 0x84 → headerBad w 1 = false → restZero w 1 = true → bitOf (wd w 0) 56 = false →
      exec (.markItem c) s = .next (s.taken ((s.headLeave c.toNat none w).markIn 1 s.now none none) c.toNat)) ∧
    (itemKind w = 0x85 → headerBad w 1 = false → wd w 1 = 0 → wd w 3 % 2 ^ 32 = 0 → restZero w 4 = true →
      s.phaseMet (s.partFrond (s.ctx c.toNat).part) (bitOf (wd w 0) 56) (wd w 2 / 2 ^ 32) (wd w 2 % 2 ^ 32) (s.ctx c.toNat).wait
        = true → exec (.phaseWait c) s = .next (s.taken (s.headLeave c.toNat none w) c.toNat)) ∧
    (∀ n, 1 ≤ itemKind w → itemKind w ≤ 8 → s.engPick (s.ctx c.toNat).part (wd w 0) = some n →
      ((s.eng (s.partFrond (s.ctx c.toNat).part) n).queue.length < 4 → exec (.engineItem c) s = .next
        (s.taken ((s.headLeave c.toNat (some []) w).engPush (s.partFrond (s.ctx c.toNat).part) n
          ⟨w, c.toNat, (s.ctx c.toNat).gen, (s.ctx c.toNat).head⟩) c.toNat)) ∧
      (4 ≤ (s.eng (s.partFrond (s.ctx c.toNat).part) n).queue.length →
        exec (.engineItem c) s = .next (s.taken (s.headBlock c.toNat 7 false) c.toNat)))

/-- A launch whose tiles have all ended, with no signal target, leaves the outstanding items. A partition outside FREE is not built
(ERR_STATUS bit 0), one whose definition fails shows the code, and one with every tile mapped and ready and nothing to wait for is
BUILT with the next GEN. REBUILD of a partition that is not built fails with code 8; FREE of a built one without contexts releases
its engines. A build that waits goes through its steps again when what it
awaits has come; one that waits too long for a spare fails with code 7. The definition of a FREE partition is written. ADVANCE at L0 makes
every staged setting active with the next epoch, which is then pending; its fence's end clears it, once no old access is out.
Where a clause rests on a corner that the spec leaves open, it states the choice of the model: logs 33, 34, 35 and 36.
Completion is stated here of: launchComplete, partBuild, partBuildComplete, partRebuild, partFree, partCfgWrite,
protEpochAdvance, epochFenceComplete. -/
def Obligations.PartitionsAndEpochs : Prop :=
  (∀ (c : BitVec 16) (o : Outstanding) (s : State),
    ((s.ctx c.toNat).launchEnded = none → exec (.launchComplete c) s = .next s) ∧
    ((s.ctx c.toNat).launchEnded = some o → s.heldDom (s.ctxDom c.toNat) = true →
      exec (.launchComplete c) s = .next s) ∧
    ((s.ctx c.toNat).launchEnded = some o → s.heldDom (s.ctxDom c.toNat) = false → wd o.words 1 / 2 ^ 30 % 4 = 0 →
      exec (.launchComplete c) s = .next (s.itemDone c.toNat o.num))) ∧
  (∀ (r : Req) (p : Fin 64) (s : State), s.mayWrite r (F.PART_CMD_CMD.i p.val) →
    (s.partState p.val ≠ 0 → exec (.partBuild r p) s = .next (s.err 0x22 0)) ∧
    (∀ code, s.partState p.val = 0 → s.partCheck p.val = some code → Does (.partBuild r p) s (fun t =>
      t.partState p.val = 0 ∧ t.rd (F.PART_STATUS_FAIL.i p.val) = code ∧ bitOf (t.rd (errStatus 0x22)) 0 = true ∧
      t.mem = s.mem)) ∧
    (s.partState p.val = 0 → s.partCheck p.val = none →
      (∀ l ∈ s.partTiles p.val, ∃ x < 132, s.physOf (s.partFrond p.val) l = some x ∧
        s.tileState (s.partFrond p.val) x = 2 ∧ (s.tile (s.partFrond p.val) x).recal = false) →
      s.heldDom (s.partDomain p.val) = false → (∀ c ∈ s.partCtxs p.val, (s.ctx c).resetting = false) →
      Does (.partBuild r p) s (fun t => t.partState p.val = 2 ∧ t.rd (F.PART_STATUS_FAIL.i p.val) = 0 ∧
        t.rd (F.PART_STATUS_GEN.i p.val) = (s.rd (F.PART_STATUS_GEN.i p.val) + 1) % 2 ^ F.PART_STATUS_GEN.width)) ∧
    (s.partState p.val ≠ 2 → exec (.partRebuild r p) s = .next (s.partFail p.val 8 (s.partState p.val))) ∧
    (s.partState p.val = 2 → s.rebuildOk p.val = true → exec (.partRebuild r p) s =
      .next ((s.wr (F.PART_STATUS_STATE.i p.val) 3).partSteps p.val 2)) ∧
    (s.partState p.val = 2 → s.partCtxs p.val = [] → Does (.partFree r p) s (fun t => t.partState p.val = 0 ∧
      (∀ n ∈ s.partEngs p.val, t.rd (ef F.ENG_STATUS_PART_VALID (s.partFrond p.val) n) = 0) ∧ s.onlyRegs t)) ∧
    (s.partCtxs p.val ≠ [] → exec (.partFree r p) s = .next (s.partFail p.val 8 (s.partState p.val)))) ∧
  (∀ (p : Fin 64) (s : State),
    (∀ ready, Sparse.get (fun _ => 0) s.work.building p.val = 0 → exec (.partBuildComplete p ready) s = .next s) ∧
    (Sparse.get (fun _ => 0) s.work.building p.val ≠ 0 → s.partRecal p.val = true → exec (.partBuildComplete p false) s =
      .next (s.partFail p.val 7 (if s.partState p.val = 1 then 0 else 2))) ∧
    (Sparse.get (fun _ => 0) s.work.building p.val ≠ 0 → s.partRecal p.val = false →
      exec (.partBuildComplete p false) s = .next s) ∧
    (Sparse.get (fun _ => 0) s.work.building p.val ≠ 0 → exec (.partBuildComplete p true) s =
      .next (((s.partPhys p.val).foldl (fun s t => s.spareReady (s.partFrond p.val) t) s).partAgain p.val))) ∧
  (∀ (r : Req) (p : Fin 64) (value : BitVec 64) (s : State), s.mayWrite r (F.PART_CFG_DOMAIN.i p.val) → r.level = .L0 →
    (s.partState p.val = 0 → exec (.partCfgWrite r p false value) s = .next (s.setReg (F.PART_CFG_DOMAIN.i p.val).key
      (s.mergeWord true (F.PART_CFG_DOMAIN.i p.val).key value).1)) ∧
    (s.partState p.val ≠ 0 → exec (.partCfgWrite r p false value) s = .next (s.err 0x22 0))) ∧
  (∀ (r : Req) (p : Fin 64) (value : BitVec 64) (s : State), s.mayWrite r (F.PART_ENG_MASK.i p.val) → r.level = .L0 →
    (s.partState p.val = 0 → exec (.partCfgWrite r p true value) s = .next (s.setReg (F.PART_ENG_MASK.i p.val).key
      (s.mergeWord true (F.PART_ENG_MASK.i p.val).key value).1)) ∧
    (s.partState p.val ≠ 0 → exec (.partCfgWrite r p true value) s = .next (s.err 0x22 0))) ∧
  (∀ (r : Req) (s : State), s.mayWrite r F.PROT_EPOCH_CTRL_ADVANCE → r.level = .L0 →
    (s.rd F.PROT_EPOCH_STATUS_PENDING = 1 → exec (.protEpochAdvance r) s = .next s) ∧
    (s.rd F.PROT_EPOCH_STATUS_PENDING = 0 → Does (.protEpochAdvance r) s (fun t => t.rd F.PROT_EPOCH_STATUS_PENDING = 1 ∧
      t.rd F.PROT_EPOCH_STATUS_EPOCH = (s.rd F.PROT_EPOCH_STATUS_EPOCH + 1) % 2 ^ F.PROT_EPOCH_STATUS_EPOCH.width ∧
      t.work.changed = s.changedDoms ∧ (∀ d ∈ s.changedDoms, (t.dom d).active = (s.dom d).staged) ∧ t.mem = s.mem))) ∧
  (∀ s : State,
    (s.rd F.PROT_EPOCH_STATUS_PENDING = 0 → exec .epochFenceComplete s = .next s) ∧
    (s.oldAccess = true → exec .epochFenceComplete s = .next s) ∧
    (s.rd F.PROT_EPOCH_STATUS_PENDING = 1 → s.oldAccess = false → s.work.held = [] → s.work.building = [] → Does .epochFenceComplete s (fun t =>
      t.rd F.PROT_EPOCH_STATUS_PENDING = 0 ∧ t.work.changed = [] ∧ t.work.doms = s.work.doms ∧ t.mem = s.mem)))

/-- On a port that is up a DATA flit with the expected SEQ is accepted, and the next one is expected; a gap asks for the expected
one once; a flit of a reserved type is discarded; a codeword beyond correction sets ERR_STATUS bit 0. A NAK for nothing outstanding changes nothing, the sixteenth replay of
one flit retrains. Training that finds all four lanes brings the port UP_X4 with its neighbour, waiting to rejoin; without a lane it
is DOWN. A port that may train tries again; a trigger retrains it. A test at L0 takes the port out of routing and fences it when it
fails. A transaction for another module leaves by its route unless it has aged, one that waited too long by the ESC bundle; a request of an
unknown opcode for this module is answered OPC_BAD. A cable that goes takes the port DOWN.
Where a clause rests on a corner that the spec leaves open, it states the choice of the model: logs 37, 38, 39, 40 and 41.
Completion is stated here of: flitReceive, nakReceive, peerTrainingStart, portTrainingDone, portTrainingRetry,
rejoinWaitEnd, lportCmdRetrain, lportCmdTest, portTestStart, portTestDone, routerForward, lprsntChange, escapeVcTimeout. -/
def Obligations.PortsReceiveTrainAndForward : Prop :=
  (∀ (port : Fin 24) (flit : Flit) (s : State),
    (s.portUp port.val = false → exec (.flitReceive port flit) s = .next s) ∧
    (s.portUp port.val = true → s.armed (portPage port.val) 0 = false → s.armed (portPage port.val) 1 = false →
      flit.fecOk = true → flitCrcOk flit = true → (s.port port.val).tagBad flit = false → flitType flit = 1 →
      (s.port port.val).unacked = 0 →
      (flitSeq flit = (s.port port.val).rxSeq → Does (.flitReceive port flit) s (fun t =>
        (t.port port.val).rxSeq = (flitSeq flit + 1) % 4096 ∧ (t.port port.val).naked = false ∧
        (t.port port.val).rxCount = ((s.port port.val).rxCount + 1) % 2 ^ 64 ∧
        t.rd (pf F.LPORT_RX_FLITS_COUNT port.val) = (s.rd (pf F.LPORT_RX_FLITS_COUNT port.val) + 1) % 2 ^ 64 ∧
        t.outbox = s.outbox)) ∧
      (flitSeq flit ≠ (s.port port.val).rxSeq → 2048 < ((s.port port.val).rxSeq + 4096 - flitSeq flit) % 4096 →
        (s.port port.val).naked = false → Does (.flitReceive port flit) s (fun t =>
          (t.port port.val).naked = true ∧ (t.port port.val).rxSeq = (s.port port.val).rxSeq ∧
          t.outbox = .flit port.val (flitBytes 3 0 0 (s.port port.val).ack (leBytes 2 (s.port port.val).rxSeq)) :: s.outbox))) ∧
    (s.portUp port.val = true → s.armed (portPage port.val) 0 = false → s.armed (portPage port.val) 1 = false →
      flit.fecOk = true → flitCrcOk flit = true → (s.port port.val).tagBad flit = false → 5 ≤ flitType flit →
      exec (.flitReceive port flit) s = .next (s.incSat (pf F.LPORT_ERR_COUNT_CORR_SYMBOLS port.val) flit.symbols.toNat)) ∧
    (s.portUp port.val = true → flit.fecOk = false → Does (.flitReceive port flit) s (fun t =>
      bitOf (t.rd (errStatus (portPage port.val))) 0 = true))) ∧
  (∀ (port : Fin 24) (seq : BitVec 12) (s : State), s.portUp port.val = true →
    ((s.port port.val).unacked = 0 → exec (.nakReceive port seq) s = .next s) ∧
    (0 < (s.port port.val).unacked → (s.port port.val).unacked ≤ (s.port port.val).txSeq →
      (s.port port.val).txSeq < 4096 → (s.port port.val).txSeq - (s.port port.val).unacked = seq.toNat →
      (s.port port.val).nakSeq = seq.toNat → (s.port port.val).replays = 15 → Does (.nakReceive port seq) s (fun t =>
        t.portState port.val = 4 ∧ (t.port port.val).unacked = 0))) ∧
  (∀ (port : Fin 24) (s : State),
    (s.portState port.val ≤ 3 → s.portMay port.val = true → Does (.peerTrainingStart port) s (fun t =>
      t.portState port.val = 4 ∧ (t.port port.val).queued = 0)) ∧
    (s.portState port.val = 6 → exec (.peerTrainingStart port) s = .next s) ∧
    (s.portState port.val = 0 → s.portMay port.val = true → Does (.portTrainingRetry port) s (fun t => t.portState port.val = 1 ∧
      s.onlyRegs t)) ∧
    exec (.rejoinWaitEnd port) s = .next (s.wr (pf F.LPORT_STATUS_REJOIN_WAIT port.val) 0)) ∧
  (∀ (port : Fin 24) (peerMod : BitVec 6) (peerPort : BitVec 5) (s : State), s.portState port.val = 1 →
    s.rd (pf F.LPORT_CFG_CRYPT port.val) = 0 ∨ s.portKey port.val ≠ 0 →
    Does (.portTrainingDone port 15 peerMod peerPort true) s (fun t => t.portState port.val = 2 ∧
      t.rd (pf F.LPORT_STATUS_LANES_GOOD port.val) = 15 ∧ t.rd (pf F.LPORT_STATUS_PEER_MOD port.val) = peerMod.toNat ∧
      t.rd (pf F.LPORT_STATUS_PEER_PORT port.val) = peerPort.toNat ∧ t.rd (pf F.LPORT_STATUS_REJOIN_WAIT port.val) = 1 ∧
      (t.port port.val).rxSeq = 0) ∧
    Does (.portTrainingDone port 0 peerMod peerPort true) s (fun t => t.portState port.val = 0)) ∧
  (∀ (r : Req) (port : Fin 24) (s : State), s.mayWrite r (pf F.LPORT_CMD_CMD port.val) →
    exec (.lportCmdRetrain r port) s = .next (s.portTrigger port.val) ∧
    (r.level = .L0 → s.portUp port.val = true → Does (.lportCmdTest r port) s (fun t => (t.port port.val).test = true))) ∧
  (∀ (port : Fin 24) (s : State),
    ((s.port port.val).test = false → exec (.portTestStart port) s = .next s) ∧
    ((s.port port.val).test = true → s.portUp port.val = true → s.testGate port.val = true →
      Does (.portTestStart port) s (fun t => t.portState port.val = 5 ∧ (t.port port.val).test = false ∧
        (t.port port.val).queued = 0 ∧ .portTest port.val ∈ t.outbox)) ∧
    (∀ errors, s.portState port.val = 5 → Does (.portTestDone port errors false) s (fun t => t.portState port.val = 6 ∧
      t.rd (pf F.LPORT_TEST_ERRORS port.val) = errors.toNat ∧ t.rd (pf F.LPORT_TEST_RESULT port.val) = 2)) ∧
    (∀ errors, s.portState port.val = 5 → Does (.portTestDone port errors true) s (fun t => t.portState port.val = 4 ∧
      t.rd (pf F.LPORT_TEST_RESULT port.val) = 1))) ∧
  (∀ (port : Fin 24) (t : Txn) (s : State), s.portUp port.val = true →
    (s.aged t = true → exec (.routerForward port t) s = .next (s.agedDrop (portFrond port.val))) ∧
    (t.dest.toNat = s.modIdx → s.aged t = false →
      (opcKnown t.opc.toNat = true → exec (.routerForward port t) s = .next s) ∧
      (opcKnown t.opc.toNat = false → t.opc.toNat < 0x10 →
        exec (.routerForward port t) s = .next (s.respond port.val t 0x10 4 0 [] 0)) ∧
      (opcKnown t.opc.toNat = false → 0x10 ≤ t.opc.toNat → exec (.routerForward port t) s = .next s)) ∧
    (∀ p vc, t.dest.toNat ≠ s.modIdx → s.aged t = false → s.hop (portFrond port.val) t false = .port p vc →
      exec (.routerForward port t) s = .next (s.portSend p vc t none)) ∧
    (t.dest.toNat ≠ s.modIdx → s.aged t = false → s.hop (portFrond port.val) t false = .none →
      exec (.routerForward port t) s = .next (s.noRoute (portFrond port.val) t))) ∧
  (∀ (n : BitVec 16) (s : State),
    (s.link.waiting.length ≤ n.toNat → exec (.escapeVcTimeout n) s = .next s) ∧
    (∀ e p vc, s.link.waiting[n.toNat]? = some e → s.aged (s.ageBy e.2.1 e.2.2) = false →
      s.hop e.1 (s.ageBy e.2.1 e.2.2) true = .port p vc → exec (.escapeVcTimeout n) s =
        .next (({ s with link := { s.link with waiting := s.link.waiting.eraseIdx n.toNat } }).portSend p vc
          (s.ageBy e.2.1 e.2.2) none))) ∧
  (∀ (port : Fin 24) (s : State),
    exec (.lprsntChange port true) s = .next { s with link := { s.link with absent := clrBitN s.link.absent port.val } } ∧
    (s.portState port.val = 2 → Does (.lprsntChange port false) s (fun t => t.portState port.val = 0 ∧
      bitOf t.link.absent port.val = true ∧ (t.port port.val).queued = 0)))

/-- A core's access that leaves its page, or a reservation, is an access fault; a load here is a local access, one elsewhere takes
a tracker entry. A request from a
module without admission is answered ADMIT with ERR_STATUS bit 1 and changes no memory. An admitted WRITE within one HBM block
stores its bytes and no others; an ATOMIC stores the operation's value; a REDUCE_WRITE combines one element, and of a reserved
format is OPC_BAD. A READ
answers and changes nothing. A response that names no live entry is dropped and counted; one that does frees it and answers its core, or brings its engine's read data and poison; a write group without an
answer is freed and recorded.
A ping that is answered shows DONE; one that starts names its target. COMMIT at L0 loads the relay key and clears its words.
Where a clause rests on a corner that the spec leaves open, it states the choice of the model: logs 37, 38, 39, 40 and 41.
Completion is stated here of: coreRemoteAccess, read, write, atomic, reduceWrite, readResp, atomicResp, wdone,
linkMarkReceive, relayResp, ping, pingResp, writeGroupTimeout, linkPingStart, linkRelayKeyCommit. -/
def Obligations.RemoteRequestsAndResponses : Prop :=
  (∀ (f : Frond) (core : Fin 8) (addr : BitVec 50) (s : State),
    exec (.coreRemoteAccess f core addr .reserve) s = .next (s.answer Res.err) ∧
    (∀ n : BitVec 7, inPage addr.toNat n.toNat = false →
      exec (.coreRemoteAccess f core addr (.load n)) s = .next (s.answer Res.err)) ∧
    (∀ n : BitVec 7, inPage addr.toNat n.toNat = true → addr.toNat / 2 ^ 44 = s.modIdx →
      exec (.coreRemoteAccess f core addr (.load n)) s =
        .next (s.access (readOf (.core f core) (addr.toNat % 2 ^ 44) n.toNat .clean))) ∧
    (∀ (n : BitVec 7) (p vc : Nat), inPage addr.toNat n.toNat = true → addr.toNat / 2 ^ 44 ≠ s.modIdx → s.link.live = [] →
      s.hop f { s.txnOf f 0x01 addr.toNat with
        len := n.setWidth 13, trk := 0, gen := BitVec.ofNat 12 (Sparse.get genDefault s.link.gens (f.idx * 32768)) } false
          = .port p vc →
      Does (.coreRemoteAccess f core addr (.load n)) s (fun t => t.mem = s.mem ∧
        t.link.live.map (fun e => (e.frond, e.trk, e.user, e.opc, e.g)) = [(f, 0, .core core.val, 1, addr.toNat)]))) ∧
  (∀ (port : Fin 24) (t : Txn) (i : Instr) (resp : Nat) (s : State), t.dest.toNat = s.modIdx → s.portUp port.val = true →
    s.aged t = false → s.admits t.src.toNat t.addr.toNat = false →
    (i, resp) ∈ [(.read port t, 0x10), (.write port t, 0x12), (.atomic port t, 0x11), (.reduceWrite port t, 0x12)] →
    exec i s = .next ((s.err 0x28 1).respond port.val t resp 1 0 [] 0) ∧ Does i s (fun u => u.mem = s.mem)) ∧
  (∀ (port : Fin 24) (t : Txn) (f o : Nat) (s : State), t.dest.toNat = s.modIdx → s.portUp port.val = true →
    s.aged t = false → s.admits t.src.toNat t.addr.toNat = true → s.placeOf (portFrm port.val) t.addr.toNat = .hbm f o →
    s.pcBit F.HBMF_FENCE_PC f (s.pcOf f o) = false → s.col.inverted = [] →
    (0 < t.data.length → t.addr.toNat % 64 + t.data.length ≤ 64 → Does (.write port t) s (fun u =>
      (∀ i < t.data.length, u.byte (t.addr.toNat + i) = t.data.getD i 0) ∧
      ∀ a, a < t.addr.toNat ∨ t.addr.toNat + t.data.length ≤ a → u.byte a = s.byte a)) ∧
    (∀ n, t.len.toNat = n → n = 4 ∨ n = 8 → t.addr.toNat % n = 0 → t.aop.toNat ≤ 9 → Does (.atomic port t) s (fun u =>
      u.rdKeys t.addr.toNat n = leBytes n (aopValue t.aop.toNat n (ofBytes (s.rdKeys t.addr.toNat n)) t.h3.toNat
        (ofBytes (t.data.map BitVec.toNat))) ∧
      ∀ a, a < t.addr.toNat ∨ t.addr.toNat + n ≤ a → u.byte a = s.byte a)) ∧
    (0 < t.data.length → inPage t.addr.toNat t.data.length = true → t.afmt = 3 →
      exec (.reduceWrite port t) s = .next (s.respond port.val t 0x12 4 0 [] 0)) ∧
    (t.data.length = 4 → t.addr.toNat % 4 = 0 → t.afmt = 0 → t.aop.toNat ≤ 2 → Does (.reduceWrite port t) s (fun u =>
      u.rdKeys t.addr.toNat 4 = leBytes 4 (reduceElem 0 (t.aop.toNat + 1) (ofBytes (s.rdKeys t.addr.toNat 4))
        (ofBytes (t.data.map BitVec.toNat))).1 ∧
      ∀ a, a < t.addr.toNat ∨ t.addr.toNat + 4 ≤ a → u.byte a = s.byte a)) ∧
    (∀ n, t.len.toNat = n → 0 < n → t.addr.toNat % 64 + n ≤ 64 → s.blockPoison f o = false → ∃ u : State, u.mem = s.mem ∧
      exec (.read port t) s = .next (u.respond port.val t 0x10 0 0 (s.rdKeys t.addr.toNat n) 0))) ∧
  (∀ (f : Frond) (t : Txn) (i : Instr) (opc : Nat) (s : State),
    (i, opc) ∈ [(.readResp f t, 0x01), (.atomicResp f t, 0x03), (.relayResp f t, 0x21), (.pingResp f t, 0x23)] →
    s.trkMatch f t opc = none → exec i s = .next (s.lateDrop f false t.trk.toNat)) ∧
  (∀ (f : Frond) (group : Bool) (k : Nat) (s : State), Sparse.get (fun _ => 0) s.link.owners (ownerKey f group k) = 0 →
    s.lateDrop f group k = s.incSat (lf F.TRK_COUNTS_LATE_DROP f)) ∧
  (∀ (f : Frond) (t : Txn) (e : Trk) (s : State), t.status = 0 →
    (s.trkMatch f t 0x01 = some e → (∀ n, e.user ≠ .engine n) → exec (.readResp f t) s =
      .next ((s.trkFree e).answer ⟨true, t.h3 != 0, t.data.map BitVec.toNat⟩) ∧ e ∉ (s.trkFree e).link.live) ∧
    (∀ n x, s.trkMatch f t 0x01 = some e → e.user = .engine n → (s.eng f n).reads = [x] → x.trk = some e.trk →
      Does (.readResp f t) s (fun u => (u.eng f n).reads =
        [{ x with trk := none, data := t.data.map BitVec.toNat, poison := t.h3.toNat }] ∧ e ∉ u.link.live)) ∧
    (s.trkMatch f t 0x03 = some e → exec (.atomicResp f t) s =
      .next ((s.trkFree e).answer ⟨true, t.h3 != 0, t.data.map BitVec.toNat⟩)) ∧
    (∀ slot tag, s.trkMatch f t 0x21 = some e → e.user = .relay slot tag → exec (.relayResp f t) s =
      .next ((s.trkFree e).relayAnswer slot tag (answerOf (t.data.map BitVec.toNat)))) ∧
    (s.trkMatch f t 0x23 = some e → Does (.pingResp f t) s (fun u => u.rd F.LINK_PING_DONE = 1 ∧ e ∉ u.link.live))) ∧
  (∀ (f : Frond) (t : Txn) (s : State), s.link.groups = [] →
    exec (.wdone f t) s = .next (s.lateDrop f true (t.trk.toNat % 256)) ∧
    ∀ group, exec (.writeGroupTimeout f group) s = .next s) ∧
  (∀ (f : Frond) (group : BitVec 8) (n : Nat) (w : WGroup) (s : State), w.user = .core n →
    s.link.groups.find? (fun w => w.frond == f && w.num == group.toNat && decide (0 < w.count)) = some w →
    Does (.writeGroupTimeout f group) s (fun t => t.mem = s.mem ∧ (∀ g ∈ t.link.groups, ¬ (g.frond = f ∧ g.user = .core n)) ∧
      bitOf (t.rd (errStatus (frondPg f 0x1C0))) 1 = true ∧ t.rd (lf F.LINK_CORE_ERR_CAUSE f) = 1)) ∧
  (∀ (f : Frond) (t : Txn) (n : Nat) (w : WGroup) (s : State), t.status = 0 → w.user = .core n → w.count = 1 →
    s.link.groups.find? (fun w => w.frond == f && w.num == t.trk.toNat % 256 && w.gen == t.gen.toNat && decide (0 < w.count))
      = some w → exec (.wdone f t) s =
        .next ((s.groupPut { w with count := 0, since := s.now }).groupFree f (.core n))) ∧
  (∀ (src : BitVec 6) (step offset : BitVec 32) (s : State),
    (s.rd (F.LINK_ADMIT_ALLOW.i src.toNat) = 0 → exec (.linkMarkReceive src step offset) s = .next s) ∧
    (s.rd (F.LINK_ADMIT_ALLOW.i src.toNat) = 1 → exec (.linkMarkReceive src step offset) s =
      .next (s.markIn 2 (s.now - offset.toNat / 4) (some src.toNat) (some step.toNat)))) ∧
  (∀ (port : Fin 24) (t : Txn) (s : State), t.dest.toNat = s.modIdx → s.portUp port.val = true → s.aged t = false →
    exec (.ping port t) s = .next (s.respond port.val t 0x24 0 0 [] 0)) ∧
  (∀ (r : Req) (target : BitVec 6) (s : State), s.mayWrite r F.LINK_PING_START → Does (.linkPingStart r target) s (fun t =>
    t.rd F.LINK_PING_TARGET = target.toNat ∧ t.rd F.LINK_PING_DONE = 0)) ∧
  (∀ (r : Req) (s : State), s.mayWrite r F.LINK_RELAY_KEY_CMD_COMMIT → r.level = .L0 → Does (.linkRelayKeyCommit r) s (fun t =>
    t.link.relayKey ≠ 0 ∧ t.link.relaySeq = none ∧ (∀ w < 4, t.rd (F.LINK_RELAY_KEY_KEY.i w) = 0) ∧
    t.rd F.LINK_RELAY_KEY_CMD_VALID = 1 ∧ t = { s with regs := t.regs, link := t.link }))

/-- A RELAY that is not accepted is dropped and counted with ERR_STATUS bit 2; an accepted one is counted and its sequence kept, and waits
while an epoch fence holds its domain. A tracker entry that gets no answer is freed and
counted; a relay that gets none likewise; where there is none nothing happens. ARM of a slot that may run arms it behind those armed
before; a slot with a reserved OP is left alone. ABORT of an armed slot fails it with cause 5. The first armed slot whose trigger is
met starts, none while four run. A segment for no slot is dropped, one that differs from its slot fails it with cause 3, one that comes before the
slot runs is kept. Credits
are added. A slot with every step complete is DONE; one that runs too long fails with cause 1.
Where a clause rests on a corner that the spec leaves open, it states the choice of the model: logs 37, 38, 39, 40 and 41.
Completion is stated here of: relay, trackerTimeout, collArm, collAbort, collSlotStart, collSeg, collCredit, collSlotDone,
collSlotTimeout, relayTimeout. -/
def Obligations.RelaysTimeoutsAndCollectives : Prop :=
  (∀ (port : Fin 24) (t : Txn) (tagOk : Bool) (seq : BitVec 64) (s : State), t.dest.toNat = s.modIdx →
    s.portUp port.val = true → s.aged t = false → s.relayOk t tagOk seq.toNat = false →
    exec (.relay port t tagOk seq) s = .next ((s.incSat F.LINK_RELAY_COUNT_DROPPED).err 0x28 2)) ∧
  (∀ (port : Fin 24) (t : Txn) (seq : BitVec 64) (s : State), t.dest.toNat ≠ s.modIdx →
    exec (.relay port t true seq) s = .next s) ∧
  (∀ (port : Fin 24) (t : Txn) (tagOk : Bool) (seq : BitVec 64) (s : State), t.dest.toNat = s.modIdx →
    s.portUp port.val = true → s.aged t = false → s.relayOk t tagOk seq.toNat = true →
    s.carriedHeld (carriedOf (t.data.map BitVec.toNat)) t.aux.toNat = true →
    Does (.relay port t tagOk seq) s (fun u => u.link.relaySeq = some seq.toNat ∧
      u.work.heldRelays = s.work.heldRelays ++ [(port.val, t)] ∧ u.mem = s.mem ∧ u.outbox = s.outbox)) ∧
  (∀ (port : Fin 24) (t : Txn) (tagOk : Bool) (seq : BitVec 64) (s : State), t.dest.toNat = s.modIdx →
    s.portUp port.val = true → s.aged t = false → s.relayOk t tagOk seq.toNat = true →
    (carriedOf (t.data.map BitVec.toNat)).bad = true →
    s.carriedHeld (carriedOf (t.data.map BitVec.toNat)) t.aux.toNat = false →
    Does (.relay port t tagOk seq) s (fun u => u.link.relaySeq = some seq.toNat ∧ u.mem = s.mem ∧
      u.rd F.LINK_RELAY_COUNT_RELAYED = satAdd F.LINK_RELAY_COUNT_RELAYED.width (s.rd F.LINK_RELAY_COUNT_RELAYED) 1)) ∧
  (∀ (f : Frond) (trk : BitVec 15) (s : State),
    ((∀ e ∈ s.link.live, ¬ (e.frond = f ∧ e.trk = trk.toNat)) → exec (.trackerTimeout f trk) s = .next s) ∧
    (∀ e n, s.link.live.find? (fun e => e.frond == f && e.trk == trk.toNat) = some e → e.user = .core n →
      Does (.trackerTimeout f trk) s (fun t => e ∉ t.link.live ∧ bitOf (t.rd (errStatus (frondPg f 0x1C0))) 1 = true ∧
        t.rd (lf F.TRK_LAST_CAUSE f) = 1 ∧ t.mem = s.mem))) ∧
  (∀ (slot : Fin 64) (tag : BitVec 13) (s : State),
    ((∀ e ∈ s.link.live, e.user ≠ .relay slot.val tag.toNat) → exec (.relayTimeout slot tag) s = .next s) ∧
    (∀ e, s.link.live.find? (fun e => e.user == .relay slot.val tag.toNat) = some e →
      exec (.relayTimeout slot tag) s = .next (s.trkTimeout e))) ∧
  (∀ (r : Req) (slot : Fin 16) (s : State), s.mayWrite r (cf F.COLL_CTRL_ARM slot.val) →
    (s.armIgnored slot.val = true → exec (.collArm r slot) s = .next s) ∧
    (s.armIgnored slot.val = false → s.collMay slot.val = true → Does (.collArm r slot) s (fun t =>
      t.collState slot.val = 1 ∧ t.link.armed = s.link.armed ++ [slot.val] ∧ t.rd (cf F.COLL_CTRL_ERR slot.val) = 0 ∧
      t.mem = s.mem)) ∧
    (s.collState slot.val = 1 → s.rd (cf F.COLL_CTRL_SIG_ON_ERR slot.val) = 0 → Does (.collAbort r slot) s (fun t =>
      t.collState slot.val = 4 ∧ t.rd (cf F.COLL_CTRL_ERR slot.val) = 5 ∧ slot.val ∉ t.link.armed)) ∧
    (s.collState slot.val = 3 → exec (.collAbort r slot) s = .next s)) ∧
  (∀ (slot : Fin 16) (s : State),
    (4 ≤ s.collRunning → exec (.collSlotStart slot) s = .next s) ∧
    (s.link.armed.find? (fun m => s.collReady m) ≠ some slot.val → exec (.collSlotStart slot) s = .next s) ∧
    (s.link.armed = [slot.val] → s.collReady slot.val = true → s.collRunning < 4 → 2 ≤ s.collP slot.val →
      s.collPos slot.val = 0 → s.rd (cf F.COLL_COUNT_N slot.val) = 1 → s.rd (cf F.COLL_CTRL_DIRS slot.val) = 0 →
      s.rd (cf F.COLL_CTRL_OP slot.val) ≤ 1 → (s.collSlot slot.val).inbox = [] → (s.collSlot slot.val).sendq = [] →
      Does (.collSlotStart slot) s (fun t => t.collState slot.val = 2 ∧ t.link.armed = [] ∧ t.mem = s.mem))) ∧
  (∀ (port : Fin 24) (seg : Seg) (s : State), s.portUp port.val = true →
    (s.collFind seg.coll.toNat = none → exec (.collSeg port seg) s = .next s) ∧
    (∀ n, s.collFind seg.coll.toNat = some n → s.ageLimit ≤ seg.age.toNat →
      exec (.collSeg port seg) s = .next (s.agedDrop (portFrond port.val))) ∧
    (∀ n, s.collFind seg.coll.toNat = some n → seg.age.toNat < s.ageLimit → s.segSame n seg = false →
      exec (.collSeg port seg) s = .next (s.collBreak n 3)) ∧
    (∀ n, s.collFind seg.coll.toNat = some n → seg.age.toNat < s.ageLimit → s.segSame n seg = true → seg.src.toNat = s.collPrev n seg.down →
      (s.collRuns n).contains seg.down = true → seg.step ≠ 0 → seg.step.toNat ≤ s.collSteps n → seg.data.length ≤ 16384 →
      s.collState n = 1 → Does (.collSeg port seg) s (fun t => (t.collSlot n).inbox = (s.collSlot n).inbox ++ [seg] ∧
        (t.collSlot n).heard = s.now ∧ t = { s with link := t.link }))) ∧
  (∀ (slot : Fin 16) (down : Bool) (n : BitVec 8) (s : State),
    (s.collState slot.val = 0 → exec (.collCredit slot down n) s = .next s) ∧
    (s.collState slot.val = 1 → Does (.collCredit slot down n) s (fun t =>
      Sparse.get (fun _ => 0) (t.collSlot slot.val).credits (b2n down) =
        Sparse.get (fun _ => 0) (s.collSlot slot.val).credits (b2n down) + n.toNat ∧ t = { s with link := t.link }))) ∧
  (∀ (slot : Fin 16) (s : State), s.collState slot.val = 2 →
    (s.rd (cf F.COLL_PROG_STEP slot.val) = s.collSteps slot.val → (s.collSlot slot.val).sendq = [] →
      exec (.collSlotDone slot) s = .next ((s.collLeave slot.val 3).collSignal slot.val) ∧
      (s.collLeave slot.val 3).collState slot.val = 3) ∧
    exec (.collSlotTimeout slot) s = .next (s.collBreak slot.val 1))

/-- A cable brings a port that is on from DOWN to training; one that goes takes an up link DOWN with ERR_STATUS bit 0, as a drop does,
which trains again. Training done in a mode the port allows brings the link up in that mode and with those lanes. A frame with a
bad FCS is counted; a good one of a served type within the MTU is counted and waits in the buffer, an IPv6 frame only where what it
carries is served. A pause of a priority is kept. A PTP event message of either direction takes its timestamp. An ICMPv6 request for the configured address is answered. A Sync in LISTENING gives UNCALIBRATED,
the sixteenth in a row below 100 ns LOCKED; the loss of Syncs gives HOLDOVER with ERR_STATUS bit 2.
Where a clause rests on a corner that the spec leaves open, it states the choice of the model: logs 42, 43, 44, 45, 46, 47 and 48.
Completion is stated here of: hostPrsntChange, hostLinkTrainingDone, hostLinkDrop, ethFrameReceive, pfcPauseReceive,
icmpv6Request, ptpEventMessage, ptpSyncTimeout. -/
def Obligations.HostPortLinkFlowAndTime : Prop :=
  (∀ s : State,
    (s.hostOn = true → s.rd F.HOSTP_STATUS_STATE = 0 → Does (.hostPrsntChange true) s (fun t =>
      t.rd F.HOSTP_STATUS_STATE = 1 ∧ t.host.present = true)) ∧
    (s.rd F.HOSTP_STATUS_STATE = 2 → Does (.hostPrsntChange false) s (fun t => t.rd F.HOSTP_STATUS_STATE = 0 ∧
      t.rd F.HOSTP_STATUS_LANES_GOOD = 0 ∧ bitOf (t.rd (errStatus 0xA8)) 0 = true ∧ t.mem = s.mem)) ∧
    (s.rd F.HOSTP_STATUS_STATE = 2 → Does .hostLinkDrop s (fun t =>
      t.rd F.HOSTP_STATUS_STATE = (if s.host.present && s.hostOn then 1 else 0) ∧ t.rd F.HOSTP_STATUS_MODE = 3 ∧
      bitOf (t.rd (errStatus 0xA8)) 0 = true)) ∧
    (s.rd F.HOSTP_STATUS_STATE ≠ 2 → exec .hostLinkDrop s = .next s)) ∧
  (∀ (mode : BitVec 2) (lanes : BitVec 8) (s : State),
    (s.rd F.HOSTP_STATUS_STATE = 1 → s.hostModeMax ≤ mode.toNat → mode ≠ 3 → Does (.hostLinkTrainingDone mode lanes) s (fun t =>
      t.rd F.HOSTP_STATUS_STATE = 2 ∧ t.rd F.HOSTP_STATUS_MODE = mode.toNat ∧
      t.rd F.HOSTP_STATUS_LANES_GOOD = lanes.toNat)) ∧
    (s.rd F.HOSTP_STATUS_STATE ≠ 1 → exec (.hostLinkTrainingDone mode lanes) s = .next s)) ∧
  (∀ (len : BitVec 16) (prio : Fin 8) (etype uncorr : BitVec 16) (ip6 : Ip6) (s : State), s.rd F.HOSTP_STATUS_STATE = 2 →
    exec (.ethFrameReceive len prio false none etype ip6 uncorr) s =
      .next ((s.incSat F.HOSTP_ERR_COUNT_FEC_UNCORR uncorr.toNat).incSat F.HOSTP_ERR_COUNT_FCS) ∧
    (len.toNat ≤ s.rd F.HOSTP_CFG_MTU → s.etypeServed etype.toNat = true → etype ≠ 0x8808 →
      (etype = 0x86DD → s.ip6 ≠ 0 ∧ s.ip6Served ip6 = true) → s.rxBytes + len.toNat ≤ 4194304 →
      Does (.ethFrameReceive len prio true none etype ip6 uncorr) s (fun t =>
        t.host.rxq = s.host.rxq ++ [(prio.val, len.toNat)] ∧ t.mem = s.mem ∧
        t.rd F.HOSTP_RX_FRAMES_COUNT = (s.rd F.HOSTP_RX_FRAMES_COUNT + 1) % 2 ^ 64)) ∧
    (len.toNat ≤ s.rd F.HOSTP_CFG_MTU → etype = 0x86DD → s.ip6Served ip6 = false → s.rxBytes + len.toNat ≤ 4194304 →
      Does (.ethFrameReceive len prio true none etype ip6 uncorr) s (fun t => t.host = s.host))) ∧
  (∀ (prio : Fin 8) (on : Bool) (s : State), s.rd F.HOSTP_STATUS_STATE = 2 →
    Does (.pfcPauseReceive prio on) s (fun t => bitOf t.host.paused prio.val = on ∧ t.mem = s.mem)) ∧
  (∀ (echo : Bool) (target : BitVec 128) (data : List (BitVec 8)) (s : State),
    (target.toNat ≠ s.ip6 → exec (.icmpv6Request echo target data) s = .next s.rxTake) ∧
    (s.hostServes = true → s.rd F.HOSTP_STATUS_STATE = 2 → target.toNat = s.ip6 → s.ip6 ≠ 0 →
      exec (.icmpv6Request echo target data) s =
        .next (s.rxTake.hostOut (s.rxTake.rd F.HOSTP_CFG_PCP_CTRL) (.icmp echo (data.map BitVec.toNat))))) ∧
  (∀ (domain : BitVec 8) (offset : BitVec 32) (slew : BitVec 16) (s : State),
    (s.rd F.HOSTP_STATUS_STATE = 2 →
      Does (.ptpEventMessage true false domain offset slew) s (fun t => t.host.ptpOut = s.rd F.PTP_TIME_TAI_NS) ∧
      Does (.ptpEventMessage false false domain offset slew) s (fun t => t.host.ptpIn = s.rd F.PTP_TIME_TAI_NS)) ∧
    (s.hostServes = true → s.rd F.HOSTP_STATUS_STATE = 2 → s.on F.PTP_CFG_EN = true → domain.toNat = s.rd F.PTP_CFG_DOMAIN →
      (s.rd F.PTP_STATUS_STATE = 1 → 100 ≤ offset.toInt.natAbs → Does (.ptpEventMessage false true domain offset slew) s (fun t =>
        t.rd F.PTP_STATUS_STATE = 2 ∧ t.host.ptpGood = 0)) ∧
      (s.rd F.PTP_STATUS_STATE = 2 → s.host.ptpGood = 15 → offset.toInt.natAbs < 100 →
        Does (.ptpEventMessage false true domain offset slew) s (fun t => t.rd F.PTP_STATUS_STATE = 3)))) ∧
  (∀ s : State, s.rd F.PTP_STATUS_STATE = 3 → Does .ptpSyncTimeout s (fun t => t.rd F.PTP_STATUS_STATE = 4 ∧
    bitOf (t.rd (errStatus 0xA8)) 2 = true))

/-- An INIT that is admitted into a free slot, with no handshake running, starts one with that slot, its next generation and its
level; a refused one is answered REFUSE. The shared secret is that of an encapsulation to the key in the INIT. A CONFIRM of the
right format whose signature of T2 verifies under the host's key opens the session with keys derived from the secret, any other
ends the handshake without it; without a handshake it changes nothing. A timeout ends the handshake, and its slot is FREE. A frame
that the header rules drop counts in AUTH_FAIL. An authentic frame that is next in SEQ is received: its records wait in turn. An
ACK removes what it acknowledges. A delayed ACK is sent when due; a frame without ACK is sent again or, after the retries, fails
the session. A CLOSE in its turn and an idle timeout close the session, HSESS_CMD CLOSE shows FAILED.
Where a clause rests on a corner that the spec leaves open, it states the choice of the model: logs 42, 43, 44, 45, 46, 47 and 48.
Completion is stated here of: brynirFrameReceive, init, confirm, handshakeTimeout, sessionAck, sessionClose,
ackDelayExpire, retransmitTimeout, sessionIdleTimeout, hsessCmdClose. -/
def Obligations.SessionsOpenAckAndClose : Prop :=
  (∀ (q : InitReq) (s : State), s.rd F.HOSTP_STATUS_STATE = 2 → s.transportOn q.udp q.port.toNat = true →
    (∀ reason, s.rxTake.initRefused q = some reason → exec (.init q) s = .next (s.rxTake.refuse q.mac.toNat q.udp q.ip.toNat reason)) ∧
    (∀ n k dom, s.rxTake.initRefused q = none → s.host.shake = none → s.freeSlot = some n →
      s.admission (q.payload.map BitVec.toNat) = .inr (k, dom) → Does (.init q) s (fun t => ∃ h, t.host.shake = some h ∧
        h.slot = n ∧ h.gen = ((s.sess n).gen + 1) % 256 ∧ h.level = levelOf (byteAt (q.payload.map BitVec.toNat) 0 % 4) ∧
        h.domain = dom ∧ h.key = k ∧ h.mac = q.mac.toNat ∧
        h.hostKey = imgBytes (q.payload.map BitVec.toNat) 40 1793 ∧ t.draws = s.draws + 64 ∧
        h.secret = (kemEncaps (hostKem (q.payload.map BitVec.toNat)) (s.randomBytes 32)).2))) ∧
  (∀ (session : BitVec 16) (payload : List (BitVec 8)) (s : State),
    (s.host.shake = none → exec (.confirm session payload) s = .next s) ∧
    (∀ k p, s.host.shake = some k → session.toNat = k.gen * 256 + k.slot → s.host.queue = [] → p = payload.map BitVec.toNat →
      (confirmFormatOk p = true → k.confirmed p = true →
        Does (.confirm session payload) s (fun t => (t.sess k.slot).open_ = true ∧ (t.sess k.slot).state = 2 ∧
          (t.sess k.slot).level = k.level ∧ (t.sess k.slot).domain = k.domain ∧
          (t.sess k.slot).keys = shake256 72 (k.secret ++ k.t2) ∧ t.host.shake = none)) ∧
      (confirmFormatOk p && k.confirmed p = false →
        Does (.confirm session payload) s (fun t => t.host.shake = none ∧ (∀ n, n ≠ k.slot → t.sess n = s.sess n) ∧
          ((s.sess k.slot).open_ = false → t.sess k.slot = { s.sess k.slot with state := 0 }))))) ∧
  (∀ s : State, (s.host.shake = none → exec .handshakeTimeout s = .next s) ∧
    (∀ k, s.host.shake = some k → s.host.queue = [] → Does .handshakeTimeout s (fun t => t.host.shake = none ∧
      (∀ n, n ≠ k.slot → t.sess n = s.sess n) ∧
      ((s.sess k.slot).open_ = false → t.sess k.slot = { s.sess k.slot with state := 0 }) ∧
      t = { s with host := t.host, sessions := t.sessions }))) ∧
  (∀ (fr : BFrame) (l : List Nat) (h : BHead) (s : State), l = rawOf fr → h = headOf l → s.rd F.HOSTP_STATUS_STATE = 2 →
    s.transportOn fr.udp fr.port.toNat = true →
    (frameBad l = true → exec (.brynirFrameReceive fr) s = .next (s.rxTake.authFail.rxSettle
      ((s.host.rxq.take 1).map (fun e => (h.session % 256, h.seq, e))))) ∧
    (∀ n, frameBad l = false → s.sessOf h.session = some n → (s.sess n).tagOk l = true → (s.sess n).txcOld h.txc = false →
      (h.typ ≠ 1 → h.unseq = false → h.seq = (s.sess n).rxAck → (s.sess n).rxHeld = [] → (s.sess n).unacked = [] →
        (s.sess n).sendq = [] → (s.sess n).ackDue < 15 → (s.sess n).txSeq < 0xFFFFFF00 → h.seq + 1 < 0xFFFFFF00 →
        Does (.brynirFrameReceive fr) s (fun t => (t.sess n).rxAck = h.seq + 1 ∧
          (t.sess n).recs = (s.sess n).recs ++ frameRecs h.typ s.now (!h.retx) ((s.sess n).opened l) ∧
          (t.sess n).ackDue = (s.sess n).ackDue + 1)) ∧
      (h.typ = 1 → h.sub = 5 → h.ack ≤ (s.sess n).txSeq → h.sack = 0 → (s.sess n).sendq = [] →
        Does (.sessionAck fr) s (fun t => (t.sess n).unacked =
          (s.sess n).unacked.filter (fun e => decide (h.ack ≤ e.seq)) ∧ (t.sess n).heard = s.now)))) ∧
  (∀ (slot : Fin 64) (s : State),
    ((s.sess slot.val).open_ = true → 0 < (s.sess slot.val).ackDue → Does (.ackDelayExpire slot) s (fun t =>
      (t.sess slot.val).ackDue = 0 ∧ (t.sess slot.val).txc = (s.sess slot.val).txc + 1)) ∧
    ((s.sess slot.val).ackDue = 0 → exec (.ackDelayExpire slot) s = .next s) ∧
    (∀ (seq : BitVec 32) e, (s.sess slot.val).unacked.find? (fun e => e.seq == seq.toNat) = some e →
      (e.tries < s.retries → exec (.retransmitTimeout slot seq) s = .next (s.retransmit slot.val e false)) ∧
      (s.retries ≤ e.tries → (s.sess slot.val).open_ = true → Does (.retransmitTimeout slot seq) s (fun t =>
        (t.sess slot.val).open_ = false ∧ (t.sess slot.val).state = 4))) ∧
    ((s.sess slot.val).open_ = true → Does (.sessionIdleTimeout slot) s (fun t => (t.sess slot.val).open_ = false ∧
      (t.sess slot.val).state = 0)) ∧
    ((s.sess slot.val).open_ = false → exec (.sessionIdleTimeout slot) s = .next s) ∧
    (s.frontRec slot.val 1 = none → exec (.sessionClose slot) s = .next s) ∧
    (∀ e, s.frontRec slot.val 1 = some e → Does (.sessionClose slot) s (fun t => (t.sess slot.val).open_ = false ∧
      (t.sess slot.val).state = 0))) ∧
  (∀ (r : Req) (s : State), s.mayWrite r F.HSESS_CMD_CMD → (s.sess (s.selSess r)).open_ = true →
    Does (.hsessCmdClose r) s (fun t => (t.sess (s.selSess r)).open_ = false ∧ (t.sess (s.selSess r)).state = 4))

/-- Without a record of its type in front a command changes nothing; a malformed record is answered BAD. A register or SUBMIT record
that stays in its page and is for this module acts at the session's level and is answered. A data record that may not act is
answered with its STATUS; a DATA_WRITE within one HBM block stores its bytes and no others, a DATA_READ there answers them and
changes none; a DATA_WRITE to the submission window that is no aligned slot, or that the domain does not permit, is a rejection of the
port. An ATTEST is answered with the identity or with the report over its nonce, signed.
Where a clause rests on a corner that the spec leaves open, it states the choice of the model: logs 42, 43, 44, 45, 46, 47 and 48.
Completion is stated here of: attest, regRead, regWrite, submit, dataWrite, dataRead. -/
def Obligations.SessionRecordsRun : Prop :=
  (∀ (slot : Fin 64) (sig : List (BitVec 8)) (sigLen : BitVec 16) (i : Instr) (typ : Nat) (s : State),
    (i, typ) ∈ [(.attest slot sig sigLen, 2), (.regRead slot, 3), (.regWrite slot, 4), (.submit slot, 6),
      (.dataWrite slot, 7), (.dataRead slot, 8)] →
    (s.frontRec slot.val typ = none → exec i s = .next s) ∧
    (∀ e, s.frontRec slot.val typ = some e → e.bad = true →
      exec i s = .next (((s.recTake slot.val).answerRec slot.val typ (e.w0 % 8192) 9).seqCheck slot.val))) ∧
  (∀ (slot : Fin 64) (i : Instr) (typ : Nat) (e : HRec) (s : State),
    (i, typ) ∈ [(.regRead slot, 3), (.regWrite slot, 4), (.submit slot, 6)] → s.recReady slot.val typ e →
    leavesPage typ e.w0 e.w1 = false → s.relayed e.w0 = false → (typ ≠ 6 → (s.sess slot.val).tags = []) →
    (typ = 6 → s.accHeld (.host slot) = false) →
    exec i s = .next ((((s.recTake slot.val).localRec ⟨.host slot, (s.sess slot.val).level⟩ (s.sess slot.val).checkedBy typ e.w0 e.w1
        e.data).1.regAnswer slot.val (e.w0 % 8192)
      ((s.recTake slot.val).localRec ⟨.host slot, (s.sess slot.val).level⟩ (s.sess slot.val).checkedBy typ e.w0 e.w1
        e.data).2).seqCheck slot.val)) ∧
  (∀ (slot : Fin 64) (e : HRec) (st : Nat) (s : State), st ≠ 0 →
    (s.recReady slot.val 7 e → s.dataStatus slot.val rightW e.w1 e.data.length = st →
      s.dataReject e.w1 e.data.length st = none → exec (.dataWrite slot) s =
      .next (((s.recTake slot.val).dataResp slot.val (e.w0 % 8192) st none).seqCheck slot.val)) ∧
    (s.recReady slot.val 8 e → s.respFits slot.val (e.w0 / 2 ^ 16 % 2 ^ 14 + 1) = true →
      s.dataStatus slot.val rightR e.w1 (e.w0 / 2 ^ 16 % 2 ^ 14 + 1) = st → exec (.dataRead slot) s =
      .next (((s.recTake slot.val).dataResp slot.val (e.w0 % 8192) st none).seqCheck slot.val))) ∧
  (∀ (slot : Fin 64) (e : HRec) (a n f o : Nat) (s : State), a = e.w1 % 2 ^ 44 → s.accHeld (.host slot) = false →
    s.placeOf none a = .hbm f o → s.pcBit F.HBMF_FENCE_PC f (s.pcOf f o) = false → s.col.inverted = [] → 0 < n → a % 64 + n ≤ 64 →
    (s.recReady slot.val 7 e → e.data.length = n → e.w0 / 2 ^ 30 % 4 = 0 → s.dataStatus slot.val rightW e.w1 n = 0 →
      Does (.dataWrite slot) s (fun t => (∀ i < n, t.byte (a + i) = BitVec.ofNat 8 (e.data.getD i 0)) ∧
        ∀ b, b < a ∨ a + n ≤ b → t.byte b = s.byte b)) ∧
    (s.recReady slot.val 8 e → e.w0 / 2 ^ 16 % 2 ^ 14 + 1 = n → s.respFits slot.val n = true →
      s.dataStatus slot.val rightR e.w1 n = 0 →
      s.blockPoison f o = false → ∃ u : State, u.mem = s.mem ∧ exec (.dataRead slot) s =
        .next ((u.dataResp slot.val (e.w0 % 8192) 0 (some (0, s.rdKeys a n))).seqCheck slot.val))) ∧
  (∀ (slot : Fin 64) (e : HRec) (why st : Nat) (s : State), s.recReady slot.val 7 e →
    s.dataStatus slot.val rightW e.w1 e.data.length = st → s.dataReject e.w1 e.data.length st = some why →
    exec (.dataWrite slot) s = .next ((((s.recTake slot.val).subReject ((e.w1 % 2 ^ 44 - 0xE1000000000) / 64) 4 why).dataResp
      slot.val (e.w0 % 8192) (if why = 1 then 2 else 1) none).seqCheck slot.val)) ∧
  (∀ (slot : Fin 64) (sig : List (BitVec 8)) (sigLen : BitVec 16) (e : HRec) (s : State), s.recReady slot.val 2 e →
    ¬ (s.rd F.FW_STATUS_STATE = 5 ∧ s.fw.unit = 0) →
    (bitOf e.w0 16 = true → exec (.attest slot sig sigLen) s =
      .next (((s.recTake slot.val).bsend slot.val 2 0 (wordBytes (nw (e.w0 % 8192 + e.w0 / 2 ^ 16 % 2 * 2 ^ 16)) ++
        identityKey ++ zeros 7 ++ endorsement)).seqCheck slot.val)) ∧
    (bitOf e.w0 16 = false → exec (.attest slot sig sigLen) s =
      .next ((((s.recTake slot.val).bsend slot.val 2 0 (wordBytes (nw (e.w0 % 8192 + e.w0 / 2 ^ 16 % 2 * 2 ^ 16)) ++
        (s.recTake slot.val).report e.data sigLen.toNat (sig.map BitVec.toNat))).event 0 0x0060).seqCheck slot.val)))

/-- A MARK whose turn has come on an open session leaves the session's records. Of a session at L0 or L1, in order and without
RETX, it is a HOST mark of the step in W0 [31:0] at its ingress timestamp, judged by the phase unit; any other is counted in
PHASE_COUNTS.DUP and has no other effect. No frame answers it: a MARK that is dropped puts nothing out.
Completion is stated here of: markFrame. -/
def Obligations.MarkFramesReachThePhaseUnit : Prop :=
  ∀ (slot : Fin 64) (e : HRec) (s : State), s.frontRec slot.val 0x0B = some e →
    ((s.sess slot.val).level ≠ .L2 → e.inOrder = true → e.bad = false →
      exec (.markFrame slot) s = .next ((s.recTake slot.val).markIn 3 e.at_ none (some (e.w0 % 2 ^ 32)))) ∧
    ((s.sess slot.val).level = .L2 ∨ e.inOrder = false ∨ e.bad = true →
      exec (.markFrame slot) s = .next ((s.recTake slot.val).incSat F.PHASE_COUNTS_DUP))

/-- In BUS_ONLY with every condition of the draw modes and no stop, the load average and P_set start from the measured bus draw and
BUFFERED is entered, and from it a rest window or a schedule that waits; without one of these nothing happens. A bus out of range,
or an HVIL loop that opens, brings draw control to RIDE_THROUGH, which notes the time, and BUS_ONLY to an immediate stop with cause 8;
in BUS_ONLY with no energy left in the IB the rails that are not in FAULT fall too; in another mode the loop is noted and nothing
else. A loop that closes is noted. The bus that
returns in RIDE_THROUGH with both loops closed and no stop brings back GRID_RESPONSE when a schedule has started, else BUFFERED,
with P_set from 0 and the record of the ride-through, and from there BUS_ONLY when that was called for; else it changes nothing.
PWR_CTRL.STOP at L0 begins an orderly stop with cause 3; the drain's end flushes recorder and dump and stops the rails. An IB out of
range where a converter regulates it shuts both converters down, sets ERR_STATUS bit 3 and stops at once with cause 5.
Where a clause rests on a corner that the spec leaves open, it states the choice of the model: logs 49, 50, 51 and 71.
Completion is stated here of: enterBuffered, busOutOfRange, busReturn, hvilLoopOpen, hvilLoopClose, ibOutOfRange,
pwrCtrlStop, stopDrainEnd. -/
def Obligations.BusLossReturnAndStops : Prop :=
  (∀ s : State,
    (s.mode = 1 → s.mayBuffer = true → s.power.stopPhase = 0 → exec .enterBuffered s = .next
      (((((s.avgSet (s.rdS F.PWR_MEAS_BUS_P)).psetLoad (s.rdS F.PWR_MEAS_BUS_P)).changeMode 2 false).restFirst).grEnter) ∧
      ((s.avgSet (s.rdS F.PWR_MEAS_BUS_P)).psetLoad (s.rdS F.PWR_MEAS_BUS_P)).power.pset =
        s.rdS F.PWR_MEAS_BUS_P * 1000) ∧
    (s.mode ≠ 1 ∨ s.mayBuffer = false ∨ s.power.stopPhase ≠ 0 → exec .enterBuffered s = .next s)) ∧
  (∀ (holds : Bool) (s : State),
    (s.drawMode = true → Does (.busOutOfRange holds) s (fun t => t = s.rideThrough ∧ t.mode = 4 ∧ t.power.rtSince = s.now)) ∧
    (s.mode = 1 → exec (.busOutOfRange true) s = .next (s.stopBegin 8 true)) ∧
    (s.mode = 1 → exec (.busOutOfRange false) s = .next (allRails.foldl
      (fun s r => if s.railState r = 4 then s else s.railOff r 0) (s.stopBegin 8 true))) ∧
    (s.drawMode = false → s.mode ≠ 1 → exec (.busOutOfRange holds) s = .next s)) ∧
  (∀ (b : Bool) (s u : State),
    u = { s with power := if b then { s.power with hvilB := false } else { s.power with hvilA := false } } →
    (s.drawMode = true → Does (.hvilLoopOpen b) s (fun t => t = u.rideThrough ∧ t.mode = 4 ∧ t.power.rtSince = s.now)) ∧
    (s.mode = 1 → exec (.hvilLoopOpen b) s = .next (u.stopBegin 8 true)) ∧
    (s.drawMode = false → s.mode ≠ 1 → exec (.hvilLoopOpen b) s = .next u)) ∧
  (∀ s : State,
    exec (.hvilLoopClose false) s = .next { s with power := { s.power with hvilA := true } } ∧
    exec (.hvilLoopClose true) s = .next { s with power := { s.power with hvilB := true } }) ∧
  (∀ s u : State,
    (s.mode = 4 → s.power.hvilA = true → s.power.hvilB = true → s.power.stopPhase = 0 →
      u = (if s.on F.GR_CTRL_EN && s.grStarted then ((s.psetLoad 0).grEntry (s.psetLoad 0).grEntryNow).changeMode 3 true
        else (s.psetLoad 0).changeMode 2 true).rtRecord →
      exec .busReturn s = .next (if u.busOnlyDue then u.goBusOnly false else u) ∧
      u.mode = (if s.on F.GR_CTRL_EN && s.grStarted then 3 else 2)) ∧
    (s.mode ≠ 4 ∨ s.power.hvilA = false ∨ s.power.hvilB = false ∨ s.power.stopPhase ≠ 0 → exec .busReturn s = .next s)) ∧
  (∀ (r : Req) (s : State), s.mayWrite r F.PWR_CTRL_STOP → r.level = .L0 →
    exec (.pwrCtrlStop r) s = .next (s.stopBegin 3 false)) ∧
  (∀ s : State,
    (s.power.stopPhase = 1 → exec .stopDrainEnd s = .next s.recFlush.dumpFlush.stopRails) ∧
    (s.power.stopPhase ≠ 1 → exec .stopDrainEnd s = .next s)) ∧
  (∀ s : State,
    (s.mode ≠ 0 ∨ s.rd F.FC_STATUS_STATE = 2 → exec .ibOutOfRange s = .next
      ((((s.wr F.FC_STATUS_STATE 0).wr F.BC_STATUS_STATE 0).err 0x40 3).stopBegin 5 true)) ∧
    (s.mode = 0 → s.rd F.FC_STATUS_STATE ≠ 2 → exec .ibOutOfRange s = .next s))

/-- In draw control a period's update moves P_set by at most SLEW toward P_tgt and reaches it when it lies within the slew; outside
draw control P_set stays; in STANDBY only the measurements change. Fallback is entered in draw control without a substate, and
left after ten passing tests. An export in draw control stops with P_set 0 and is held until EXPORT_RESUME. A converter fault
sets the FC or BC to FAULT with its error bit: of the FC an orderly stop follows in draw control, out of its substate, an immediate one
in BUS_ONLY; of the BC draw control passes to BUS_ONLY, RIDE_THROUGH to an immediate stop with cause 6, and elsewhere nothing more
follows. A healthy BC phase that is fenced leaves PHASES_OK, and the BC_CFG limits are derated.
Where a clause rests on a corner that the spec leaves open, it states the choice of the model: logs 49, 50, 51 and 71.
Completion is stated here of: drawSetpointUpdate, fallbackEntry, fallbackExit, exportStop, exportResume, fcFault, bcFault,
bcPhaseFence. -/
def Obligations.DrawSetPointMovesWithinTheSlew : Prop :=
  (∀ (m : PowerSample) (s : State) (tgt : Int), s.mode ≠ 0 →
    tgt = ((((s.measure m).avgStep m).grDevStep (busDraw m)).fbTest.trimHold).ptgtNow →
    Does (.drawSetpointUpdate m) s (fun t =>
      (s.drawMode = false → t.power.pset = s.power.pset) ∧
      (s.drawMode = true → (t.power.pset - s.power.pset).natAbs ≤ s.rd F.PWR_LIMITS_SLEW * 4 ∧
        ((tgt * 1000 - s.power.pset).natAbs ≤ s.rd F.PWR_LIMITS_SLEW * 4 → t.power.pset = tgt * 1000)))) ∧
  (∀ (m : PowerSample) (s : State), s.mode = 0 → exec (.drawSetpointUpdate m) s = .next (s.measure m)) ∧
  (∀ s : State, s.drawMode = true → s.subState = false → exec .fallbackEntry s = .next
    (((({ (s.setSub F.PWR_STATUS_FALLBACK 1 true).pwrEvent F.PWR_EVENTS_FALLBACK with
        power := { ((s.setSub F.PWR_STATUS_FALLBACK 1 true).pwrEvent F.PWR_EVENTS_FALLBACK).power with fbPass := 0 } }).err
          0x40 0).event 0x40 0x1002))) ∧
  (∀ s : State, s.rd F.PWR_STATUS_FALLBACK = 1 → 10 ≤ s.power.fbPass → exec .fallbackExit s = .next
    (((s.psetLoad (s.rdS F.PWR_MEAS_BUS_P)).setSub F.PWR_STATUS_FALLBACK 0 false).event 0x40 0x1003)) ∧
  (∀ s : State, s.drawMode = true → s.rd F.PWR_STATUS_EXPORT = 1 →
    Does .exportStop s (fun t => t.power.pset = 0 ∧ t.power.exportHeld = true ∧ t.rd F.PWR_STATUS_EXPORT = 0 ∧
      t.rd F.PWR_PSET_PSET = 0)) ∧
  (∀ s : State, exec .exportResume s = .next { s with power := { s.power with exportHeld := false } }) ∧
  (∀ (k : ConvFault) (s : State), s.drawMode = false → s.mode ≠ 1 →
    Does (.fcFault k) s (fun t => t.rd F.FC_STATUS_STATE = 5 ∧
      bitOf (t.rd (errStatus 0x41)) (match k with | .oc => 1 | .ot => 2 | .switch => 3) = true)) ∧
  (∀ (k : ConvFault) (s : State), s.drawMode = false → s.mode = 1 →
    exec (.fcFault k) s = .next (((s.err 0x41 (match k with | .oc => 1 | .ot => 2 | .switch => 3)).wr F.FC_STATUS_STATE
      5).stopBegin 2 true)) ∧
  (∀ (k : ConvFault) (s u : State), s.drawMode = true →
    u = (s.leaveSub.err 0x41 (match k with | .oc => 1 | .ot => 2 | .switch => 3)).wr F.FC_STATUS_STATE 5 →
    u.drawMode = true → exec (.fcFault k) s = .next (u.stopBegin 2 false)) ∧
  (∀ (k : ConvFault) (s u : State),
    u = (s.err 0x42 (match k with | .oc => 0 | .ot => 2 | .switch => 3)).wr F.BC_STATUS_STATE 5 →
    u.rd F.BC_STATUS_STATE = 5 ∧ bitOf (u.rd (errStatus 0x42)) (match k with | .oc => 0 | .ot => 2 | .switch => 3) = true ∧
    (s.drawMode = false → s.mode ≠ 4 → exec (.bcFault k) s = .next u) ∧
    (s.mode = 4 → exec (.bcFault k) s = .next (u.stopBegin 6 true)) ∧
    (s.drawMode = true → exec (.bcFault k) s = .next (u.changeMode 1 true))) ∧
  (∀ (p : Fin 12) (s : State), bitOf (s.rd F.BC_STATUS_PHASES_OK) p.val = true →
    Does (.bcPhaseFence p) s (fun t => bitOf (t.rd F.BC_STATUS_PHASES_OK) p.val = false ∧
      bitOf (t.rd (errStatus 0x42)) 1 = true ∧
      t.rd F.BC_CFG_P_DIS_MAX ≤ 4800 * (s.clrBit F.BC_STATUS_PHASES_OK p.val).bcPhases / 12 ∧
      t.rd F.BC_CFG_P_CHG_MAX ≤ 2400 * (s.clrBit F.BC_STATUS_PHASES_OK p.val).bcPhases / 12 ∧
      t.rd F.BC_CFG_I_DIS_MAX ≤ 3500 * (s.clrBit F.BC_STATUS_PHASES_OK p.val).bcPhases / 12 ∧
      t.rd F.BC_CFG_I_CHG_MAX ≤ 1800 * (s.clrBit F.BC_STATUS_PHASES_OK p.val).bcPhases / 12))

/-- The feed-forward current is the power of the profile, or the one held, less the FC's output, scaled by k, over the IB voltage, rounded to
even; with a voltage of 0 and k above 0 it is a free value. A ramp in ends ON with k at GAIN, a ramp out ends OFF with k 0 and nothing
held. A write of PWR_CTRL at L0 without STOP stores the merged word, and with REVERSE_EN = 0 P_MIN is 0, with SOC_EN = 0 TRIM is 0;
FORCE_BUS_ONLY takes draw control to BUS_ONLY.
Where a clause rests on a corner that the spec leaves open, it states the choice of the model: logs 49, 50, 51 and 71.
Completion is stated here of: feedForwardUpdate, ffRampEnd, pwrCtrlWrite. -/
def Obligations.FeedForwardAndPowerControl : Prop :=
  (∀ (fcOut : Int) (ibMv prof sc : Nat) (s u : State), u = s.scaleStep.gainRamp → ibMv ≠ 0 ∨ u.power.ffK = 0 →
    (prof, sc) = u.power.ffHeld.getD (u.profOut, u.power.ffScale) →
    exec (.feedForwardUpdate fcOut ibMv) s = .next (u.wrS F.PWR_FF_IREF_FF (rneDiv (u.power.ffK *
      (((sc * prof : Nat) - (if u.mode = 4 then 0 else fcOut) * 65536) * 250) * 1000)
      (2 ^ 63 * 65536 * max 1 ibMv)))) ∧
  (∀ (fcOut : Int) (s : State), (s.scaleStep.gainRamp).power.ffK ≠ 0 →
    Does (.feedForwardUpdate fcOut 0) s (fun t =>
      t.rd F.PWR_FF_IREF_FF = Config.freeNat s.draws % 2 ^ F.PWR_FF_IREF_FF.width ∧ t.draws = s.draws + 1)) ∧
  (∀ s : State, s.rd F.PWR_STATUS_FF_STATE = 1 →
    Does .ffRampEnd s (fun t => t.rd F.PWR_STATUS_FF_STATE = 2 ∧ t.power.ffK = s.ffGain)) ∧
  (∀ s : State, s.rd F.PWR_STATUS_FF_STATE = 3 →
    Does .ffRampEnd s (fun t => t.rd F.PWR_STATUS_FF_STATE = 0 ∧ t.power.ffK = 0 ∧ t.power.ffHeld = none)) ∧
  (∀ (r : Req) (value : BitVec 64) (s : State), s.mayWrite r F.PWR_CTRL_STOP → r.level = .L0 →
    s.drawMode = false ∨ F.PWR_CTRL_FORCE_BUS_ONLY.get (s.mergeWord true F.PWR_CTRL_STOP.key value).1 = 0 →
    F.PWR_CTRL_STOP.get value = 0 → F.PWR_CTRL_REVERSE_EN.get value = 0 → F.PWR_CTRL_SOC_EN.get value = 0 →
    Does (.pwrCtrlWrite r value) s (fun t => t.rd F.PWR_LIMITS_P_MIN = 0 ∧ t.rd F.PWR_SRC_TRIM = 0 ∧
      t.reg F.PWR_CTRL_STOP.key = (s.mergeWord true F.PWR_CTRL_STOP.key value).1)) ∧
  (∀ (r : Req) (value : BitVec 64) (s : State), s.mayWrite r F.PWR_CTRL_STOP → r.level = .L0 → s.drawMode = true →
    F.PWR_CTRL_FORCE_BUS_ONLY.get (s.mergeWord true F.PWR_CTRL_STOP.key value).1 = 1 → F.PWR_CTRL_STOP.get value = 0 →
    Does (.pwrCtrlWrite r value) s (fun t => t.mode = 1))

/-- ENABLE of a well-formed schedule with none in force sets EN and zeroes DEV_J; of an ill-formed one sets BAD and ERR_STATUS bit
0; with one in force and the other time base it is BAD too. A write of an entry while EN = 1 is BAD and the entry stays; otherwise
the entry takes the merged word. CANCEL and the schedule's end clear EN, set ENTRY to 0xFF and record event 0x1031; an end sets
DONE, and GRID_RESPONSE returns to BUFFERED. While EN = 1, the start of the schedule in BUFFERED enters GRID_RESPONSE, elsewhere it
is suspended, and a VALID entry before the LAST one comes into force unless a later one is.
Where a clause rests on a corner that the spec leaves open, it states the choice of the model: logs 49, 50, 51 and 71.
Completion is stated here of: grEnable, grCancel, grEntryWrite, gridResponseEntry, grEntryInForce, grScheduleEnd. -/
def Obligations.DrawSchedulesRun : Prop :=
  (∀ (r : Req) (timebase : Bool) (s : State), s.mayWrite r F.GR_CTRL_EN →
    (s.rd F.GR_CTRL_EN = 0 → s.grWellFormed = true → exec (.grEnable r timebase) s = .next
      ((((({ (s.wr F.GR_CTRL_TIMEBASE (b2n timebase)) with power :=
        { (s.wr F.GR_CTRL_TIMEBASE (b2n timebase)).power with grDev := 0 } }).wr F.GR_DEV_DEV_J 0).wr F.GR_CTRL_EN
          1).grEnter).grCheck)) ∧
    (s.rd F.GR_CTRL_EN = 0 → s.grWellFormed = true → s.mode ≠ 2 →
      Does (.grEnable r timebase) s (fun t => t.rd F.GR_CTRL_EN = 1 ∧ t.rd F.GR_CTRL_TIMEBASE = b2n timebase ∧
        t.power.grDev = 0)) ∧
    (s.rd F.GR_CTRL_EN = 0 → s.grWellFormed = false →
      Does (.grEnable r timebase) s (fun t => t.rd F.GR_CTRL_EN = 0 ∧ t.rd F.GR_STATUS_BAD = 1 ∧
        bitOf (t.rd (errStatus 0x43)) 0 = true)) ∧
    (s.rd F.GR_CTRL_EN = 1 → s.rd F.GR_CTRL_TIMEBASE = b2n (!timebase) →
      exec (.grEnable r timebase) s = .next ((s.wr F.GR_STATUS_BAD 1).err 0x43 0)) ∧
    (s.rd F.GR_CTRL_EN = 1 → s.mode ≠ 3 →
      Does (.grCancel r) s (fun t => t.rd F.GR_CTRL_EN = 0 ∧ t.rd F.GR_STATUS_ENTRY = 0xFF ∧
        s.logsBut t (fun k => k = F.GR_CTRL_EN.key ∨ k = F.GR_STATUS_ENTRY.key))) ∧
    (∀ u : State, s.rd F.GR_CTRL_EN = 1 →
      u = (((s.wr F.GR_CTRL_EN 0).wr F.GR_STATUS_ENTRY 0xFF).wr F.GR_STATUS_SUSPENDED 0).event 0x43 0x1031 1 →
      exec (.grCancel r) s = .next (if s.mode = 3 then u.changeMode 2 false else u))) ∧
  (∀ (r : Req) (n : Fin 64) (value : BitVec 64) (s : State), s.mayWrite r (F.GR_ENTRY_T_MS.i n.val) →
    (s.rd F.GR_CTRL_EN = 0 → r.level = .L0 → Does (.grEntryWrite r (.entry n) value) s (fun t =>
      t.reg (F.GR_ENTRY_T_MS.i n.val).key = (s.mergeWord true (F.GR_ENTRY_T_MS.i n.val).key value).1)) ∧
    (s.rd F.GR_CTRL_EN = 1 → r.level = .L0 → Does (.grEntryWrite r (.entry n) value) s (fun t =>
      t.reg (F.GR_ENTRY_T_MS.i n.val).key = s.reg (F.GR_ENTRY_T_MS.i n.val).key ∧ t.rd F.GR_STATUS_BAD = 1))) ∧
  (∀ s : State, s.rd F.GR_CTRL_EN = 1 →
    (s.mode = 2 → exec .gridResponseEntry s = .next ((s.grEntry s.grEntryNow).changeMode 3 false)) ∧
    (s.mode ≠ 2 → exec .gridResponseEntry s = .next ((s.grEntry s.grEntryNow).grCheck))) ∧
  (∀ (n : Fin 64) (s : State), s.rd F.GR_CTRL_EN = 1 → s.rd (F.GR_ENTRY_VALID.i n.val) = 1 →
    (∀ k ≤ n.val, s.rd (F.GR_ENTRY_LAST.i k) = 0) →
    Does (.grEntryInForce n) s (fun t => t.rd F.GR_STATUS_ENTRY =
      (if s.rd F.GR_STATUS_ENTRY = 0xFF then n.val else max (s.rd F.GR_STATUS_ENTRY) n.val) ∧ s.onlyRegs t)) ∧
  (∀ s u : State, s.rd F.GR_CTRL_EN = 1 →
    u = ((((s.wr F.GR_CTRL_EN 0).wr F.GR_STATUS_ENTRY 0xFF).wr F.GR_STATUS_SUSPENDED 0).wr F.GR_STATUS_DONE 1).event 0x43 0x1031 →
    u.rd F.GR_CTRL_EN = 0 ∧ u.rd F.GR_STATUS_DONE = 1 ∧ u.rd F.GR_STATUS_ENTRY = 0xFF ∧
    exec .grScheduleEnd s = .next (if s.mode = 3 then u.changeMode 2 false else u))

/-- A period of a slot in OPEN_MANUAL puts out its manual value within the output limits; one of a slot in OFF or OPEN_FREEZE does
nothing; one of a CLOSED slot that the routing runs computes the law on its sample. At L0, a mode write of OPEN_FREEZE or
OPEN_MANUAL takes the mode, CLOSED of a slot whose destination no other drives and whose source is no reserved one closes it
bumplessly; OFF of LS0 to LS4 outside STANDBY is rejected. A coefficient of a CLOSED slot other than its set point
is rejected and of another slot is stored. A cascade write on LS0 or LS1 changes nothing, on another CLOSED slot it is rejected.
A rejection sets COEF_REJECT of the slot.
Where a clause rests on a corner that the spec leaves open, it states the choice of the model: logs 49, 50, 51 and 71.
Completion is stated here of: loopSlotPeriod, lsModeWrite, lsCoefWrite, lsCascWrite. -/
def Obligations.LoopSlotsComputeAndReject : Prop :=
  (∀ (slot : Fin 16) (sample : BitVec 32) (s : State),
    (s.lsMode slot.val = 3 → exec (.loopSlotPeriod slot sample) s = .next (s.lsPut slot.val
      (clampInt (s.lsCoef slot.val).outMin (s.lsCoef slot.val).outMax (s.rdS (F.LS_SP_MAN.i slot.val))))) ∧
    (s.lsMode slot.val = 0 ∨ s.lsMode slot.val = 2 → exec (.loopSlotPeriod slot sample) s = .next s) ∧
    (s.lsMode slot.val = 1 → (s.lsSample slot.val sample.toInt).lsRuns slot.val = true →
      exec (.loopSlotPeriod slot sample) s = .next ((s.lsSample slot.val sample.toInt).lsCompute slot.val))) ∧
  (∀ (r : Req) (slot : Fin 16) (s : State), r.level = .L0 → s.mayWrite r (F.LS_STATE_MODE.i slot.val) →
    (∀ m : BitVec 2, 2 ≤ m.toNat → s.lsMode slot.val ≠ m.toNat →
      Does (.lsModeWrite r slot m) s (fun t => t.lsMode slot.val = m.toNat ∧ bitOf (t.rd F.LOOP_STATUS_OPEN) slot.val = true ∧
        bitOf (t.rd F.LOOP_STATUS_CLOSED) slot.val = false ∧ s.onlyRegs t)) ∧
    (s.lsMode slot.val ≠ 1 → s.lsTaken slot.val = false → (s.lsClose slot.val).rd (F.LS_CFG_MEAS_SRC.i slot.val) < 0x0B →
      exec (.lsModeWrite r slot 1) s = .next (s.lsClose slot.val)) ∧
    (slot.val ≤ 4 → s.lsMode slot.val ≠ 0 → s.mode ≠ 0 → exec (.lsModeWrite r slot 0) s = .next (s.lsReject slot.val)) ∧
    (∀ (which : LoopReg) (value : BitVec 64), s.lsMode slot.val = 1 → which ≠ .sp →
      exec (.lsCoefWrite r slot which value) s = .next (s.lsReject slot.val)) ∧
    (∀ (which : LoopReg) (value : BitVec 64), s.lsMode slot.val ≠ 1 →
      exec (.lsCoefWrite r slot which value) s = .next (s.lsStore slot.val which value)) ∧
    (∀ value : BitVec 64, slot.val ≤ 1 → exec (.lsCascWrite r slot value) s = .next s) ∧
    (∀ value : BitVec 64, 2 ≤ slot.val → s.lsMode slot.val = 1 →
      Does (.lsCascWrite r slot value) s (fun t => t.rd (F.LS_STATE_COEF_REJECT.i slot.val) = 1 ∧
        t.reg (F.LS_CASC_EN.i slot.val).key = s.reg (F.LS_CASC_EN.i slot.val).key)) ∧
    (∀ value : BitVec 64, 2 ≤ slot.val → s.lsMode slot.val ≠ 1 →
      F.LS_CASC_EN.get (s.mergeWord true (F.LS_CASC_EN.i slot.val).key value).1 = 0 →
      Does (.lsCascWrite r slot value) s (fun t =>
        t.reg (F.LS_CASC_EN.i slot.val).key = (s.mergeWord true (F.LS_CASC_EN.i slot.val).key value).1))) ∧
  (∀ (i : Fin 16) (s : State), (s.lsReject i.val).rd (F.LS_STATE_COEF_REJECT.i i.val) = 1)

/-- At L0 a command of a rail that takes commands from software is held while it starts and is waiting while it regulates, and is
rejected with CMD_REJECT for a rail of the arbiter. A period keeps its measurements. A write of the active compensator, or while a
swap is pending, is rejected; of the other it is stored. A swap to a compensator with gains waits as SWAP = 1, to one without is
rejected. A balance period shows each phase's current. A shed completes with the phase OFF; the inhibit ends; in the guard band
a regulating rail with PREADD_EN adds its healthy phases, up to 12 at once; a brake ends and is re-armed. A retry of the remote sense
that reads well brings it back, another leaves local sense. A phase is fenced and returned by RAIL_PH.FENCE; the telemetry peaks
restart.
Where a clause rests on a corner that the spec leaves open, it states the choice of the model: log 52.
Completion is stated here of: railCmdWrite, railPwmPeriod, railCompWrite, railSwap, phaseBalance, shedComplete,
shedInhibitEnd, guardPreadd, brakeEnd, brakeRearm, railSenseRetry, senseRetryResult, railPhFenceWrite, railPeakClr. -/
def Obligations.RailCommandsAndPhases : Prop :=
  (∀ (r : Req) (rail : Fin 12) (slew : BitVec 8) (target : BitVec 16) (s : State), r.level = .L0 →
    s.mayWrite r (rf F.RAIL_CMD_TARGET rail.val) →
    (s.rd (rf F.RAIL_CFG_CMD_SRC rail.val) = 0 → s.railState rail.val = 2 → Does (.railCmdWrite r rail slew target) s (fun t =>
      (t.rail rail.val).cmd = some (target.toNat, slew.toNat) ∧ t = { s with rails := t.rails })) ∧
    (s.rd (rf F.RAIL_CFG_CMD_SRC rail.val) = 0 → s.railState rail.val = 1 → Does (.railCmdWrite r rail slew target) s (fun t =>
      (t.rail rail.val).held = some (target.toNat, slew.toNat) ∧ t = { s with rails := t.rails })) ∧
    (s.rd (rf F.RAIL_CFG_CMD_SRC rail.val) = 1 →
      exec (.railCmdWrite r rail slew target) s = .next (s.err (railPage rail.val) 0))) ∧
  (∀ (rail : Fin 12) (vSense current temp : BitVec 16) (s : State),
    Does (.railPwmPeriod rail vSense current temp) s (fun t =>
      (t.rail rail.val).lastV = vSense.toNat ∧ (t.rail rail.val).lastI = current.toInt)) ∧
  (∀ (r : Req) (rail : Fin 12) (comp1 kdf : Bool) (value : BitVec 64) (f : Field) (s : State), r.level = .L0 →
    f = rf (match comp1, kdf with
      | false, false => F.RAIL_COMP0_KPI_KP | false, true => F.RAIL_COMP0_KDF_KD
      | true, false => F.RAIL_COMP1_KPI_KP | true, true => F.RAIL_COMP1_KDF_KD) rail.val → s.mayWrite r f →
    (s.compActive rail.val ≠ comp1 → s.rd (rf F.RAIL_CTRL_SWAP rail.val) = 0 →
      exec (.railCompWrite r rail comp1 kdf value) s = .next (s.setReg f.key (compWord kdf value))) ∧
    (s.compActive rail.val = comp1 ∨ s.rd (rf F.RAIL_CTRL_SWAP rail.val) = 1 →
      exec (.railCompWrite r rail comp1 kdf value) s =
        .next ((s.railEvent rail.val F.RAIL_EVENTS_COMP_REJECT).railReject rail.val))) ∧
  (∀ (r : Req) (rail : Fin 12) (c : LawCoef) (s : State), r.level = .L0 → s.mayWrite r (rf F.RAIL_CTRL_SWAP rail.val) →
    c = s.compCoef rail.val (!s.compActive rail.val) →
    (c.kp ≠ 0 ∨ c.ki ≠ 0 → exec (.railSwap r rail) s = .next (s.wr (rf F.RAIL_CTRL_SWAP rail.val) 1)) ∧
    (c.kp = 0 → c.ki = 0 → exec (.railSwap r rail) s = .next (s.railReject rail.val)) ∧
    exec (.railSenseRetry r rail) s = .next (s.wr (rf F.RAIL_CTRL_SENSE_RETRY rail.val) 1)) ∧
  (∀ (rail : Fin 12) (currents temps : List (BitVec 16)) (s : State),
    Does (.phaseBalance rail currents temps) s (fun t =>
      ∀ p < railPhases rail.val, t.rd (phf F.RAIL_PH_I rail.val p) = (currents.getD p 0).toNat)) ∧
  (∀ (rail : Fin 12) (p : Nat) (s : State), (s.rail rail.val).shed = some p → s.rd (rf F.RAIL_STATUS_BRAKING rail.val) = 0 →
    Does (.shedComplete rail) s (fun t => t.rd (phf F.RAIL_PH_STATE rail.val p) = 0 ∧ (t.rail rail.val).shed = none ∧
      (t.rail rail.val).shedEnd = some (s.now, p))) ∧
  (∀ (rail : Fin 12) (s : State),
    exec (.shedInhibitEnd rail) s = .next (s.wr (rf F.RAIL_STATUS_SHED_INH rail.val) 0) ∧
    (s.railState rail.val = 2 → s.railGuarded rail.val = true → s.rd (rf F.RAIL_CTRL_PREADD_EN rail.val) = 1 →
      exec (.guardPreadd rail) s = .next (s.phAddTo rail.val (railPhases rail.val))) ∧
    (s.railState rail.val ≠ 2 ∨ s.railGuarded rail.val = false ∨ s.rd (rf F.RAIL_CTRL_PREADD_EN rail.val) = 0 →
      exec (.guardPreadd rail) s = .next s) ∧
    (s.rd (rf F.RAIL_STATUS_BRAKING rail.val) = 1 →
      Does (.brakeEnd rail) s (fun t => t.rd (rf F.RAIL_STATUS_BRAKING rail.val) = 0)) ∧
    (s.rd (rf F.RAIL_STATUS_BRAKING rail.val) = 0 → Does (.brakeRearm rail) s (fun t => (t.rail rail.val).armed = true ∧
      t = { s with rails := t.rails })) ∧
    (s.rd (rf F.RAIL_CTRL_SENSE_RETRY rail.val) = 1 → Does (.senseRetryResult rail true) s (fun t =>
      t.rd (rf F.RAIL_CTRL_SENSE_RETRY rail.val) = 0 ∧ t.rd (rf F.RAIL_STATUS_SENSE_LOCAL rail.val) = 0 ∧ s.onlyRegs t)) ∧
    (s.rd (rf F.RAIL_CTRL_SENSE_RETRY rail.val) = 1 →
      exec (.senseRetryResult rail false) s = .next (s.wr (rf F.RAIL_CTRL_SENSE_RETRY rail.val) 0))) ∧
  (∀ (r : Req) (rail : Fin 12) (phase : Fin 48) (s : State), r.level = .L0 → phase.val < railPhases rail.val →
    s.mayWrite r (phf F.RAIL_PH_FENCE rail.val phase.val) →
    (s.rd (phf F.RAIL_PH_FENCE rail.val phase.val) = 0 → Does (.railPhFenceWrite r rail phase true) s (fun t =>
      t.rd (phf F.RAIL_PH_FENCE rail.val phase.val) = 1 ∧ bitOf (t.rd (errStatus (railPage rail.val))) 2 = true)) ∧
    (s.rd (phf F.RAIL_PH_FENCE rail.val phase.val) = 1 → Does (.railPhFenceWrite r rail phase false) s (fun t =>
      t.rd (phf F.RAIL_PH_FENCE rail.val phase.val) = 0 ∧ t.rd (phf F.RAIL_PH_STATE rail.val phase.val) = 0))) ∧
  (∀ (r : Req) (s : State), s.mayWrite r F.RAIL_SYS_CTRL_PEAK_CLR →
    Does (.railPeakClr r) s (fun t => (∀ rail < 12, (t.rail rail).peakOn = false) ∧ t = { s with rails := t.rails }))

/-- A running rail that loses remote sense goes to local sense with ERR_STATUS bit 3. Over-voltage, under-voltage and over-current
of a running rail trip it, under-voltage only while it regulates or with too few healthy phases: its error bit sets and the last-fault
record holds the rail and the code 1, 2 or 3. A phase's sixteenth consecutive peak-limited cycle, or its over-temperature, fences it;
one that is not consecutive counts as the first. A sense check that may start names its rail and phase; its
result ends the test, and one beyond the limit sets ERR_STATUS bit 4. A stage that is due starts or stops: STAGE says so, and at a
start SEQ_BUSY. A rail at its target sets PGOOD and regulates. A dirty last-fault record goes to flash; CLEAR at L0 empties it.
Where a clause rests on a corner that the spec leaves open, it states the choice of the model: log 52.
Completion is stated here of: senseLost, railOv, railUv, railOc, phasePeakLimit, phaseOtFence, senseCheckStart,
senseCheckResult, railStartStage, pgoodSet, railStopStage, lastFaultFlashWrite, railLfClear. -/
def Obligations.RailsProtectStartAndStop : Prop :=
  (∀ (rail : Fin 12) (s : State), s.railUp rail.val = true →
    (s.rd (rf F.RAIL_STATUS_SENSE_LOCAL rail.val) = 0 → Does (.senseLost rail) s (fun t =>
      t.rd (rf F.RAIL_STATUS_SENSE_LOCAL rail.val) = 1 ∧ bitOf (t.rd (errStatus (railPage rail.val))) 3 = true ∧
      t.railSys.faultAt = some s.now)) ∧
    exec (.railOv rail) s = .next (s.railTrip rail.val 7 1 0x2020) ∧
    Does (.railOv rail) s (fun t => bitOf (t.rd (errStatus (railPage rail.val))) 7 = true ∧ t.rd F.RAIL_LF_0_RAIL = rail.val ∧
      t.rd F.RAIL_LF_0_CODE = 1) ∧
    (s.railState rail.val = 2 ∨ s.railFew rail.val = true → Does (.railUv rail) s (fun t => bitOf (t.rd (errStatus (railPage rail.val))) 6 = true ∧
      t.rd F.RAIL_LF_0_RAIL = rail.val ∧ t.rd F.RAIL_LF_0_CODE = 2)) ∧
    Does (.railOc rail) s (fun t => bitOf (t.rd (errStatus (railPage rail.val))) 5 = true ∧
      t.rd F.RAIL_LF_0_RAIL = rail.val ∧ t.rd F.RAIL_LF_0_CODE = 3)) ∧
  (∀ (rail : Fin 12) (phase : Fin 48) (s : State), phase.val < railPhases rail.val →
    s.rd (phf F.RAIL_PH_FENCE rail.val phase.val) = 0 →
    (Sparse.get (fun _ => 0) (s.rail rail.val).peaks phase.val = 15 → Does (.phasePeakLimit rail phase true) s (fun t =>
      t.rd (phf F.RAIL_PH_FENCE rail.val phase.val) = 1)) ∧
    (Sparse.get (fun _ => 0) (s.rail rail.val).peaks phase.val < 15 → Does (.phasePeakLimit rail phase true) s (fun t =>
      Sparse.get (fun _ => 0) (t.rail rail.val).peaks phase.val = Sparse.get (fun _ => 0) (s.rail rail.val).peaks phase.val + 1 ∧
      t.rd (phf F.RAIL_PH_FENCE rail.val phase.val) = 0)) ∧
    Does (.phasePeakLimit rail phase false) s (fun t => Sparse.get (fun _ => 0) (t.rail rail.val).peaks phase.val = 1 ∧
      t.rd (phf F.RAIL_PH_FENCE rail.val phase.val) = 0) ∧
    Does (.phaseOtFence rail phase) s (fun t => t.rd (phf F.RAIL_PH_FENCE rail.val phase.val) = 1 ∧
      t.rd F.RAIL_LF_0_CODE = 6)) ∧
  (∀ (rail : Fin 12) (phase : Fin 48) (s : State), s.rd F.RAIL_SYS_TEST_PERIOD_S ≠ 0 → s.checkGate = true →
    s.railState rail.val = 2 → s.shedFree rail.val = true → (∀ x < 12, (s.rail x).test = none) →
    s.phState rail.val phase.val = 1 → 200 ≤ s.rdS (phf F.RAIL_PH_I rail.val phase.val) →
    s.rd (rf F.RAIL_CFG_MIN_PH rail.val) < (s.phIn rail.val 1).length →
    Does (.senseCheckStart rail phase) s (fun t => t.rd F.RAIL_SYS_TEST_RAIL = rail.val ∧
      t.rd F.RAIL_SYS_TEST_PHASE = phase.val ∧
      (t.rail rail.val).test = some (phase.val, s.rdS (phf F.RAIL_PH_I rail.val phase.val)))) ∧
  (∀ (rail : Fin 12) (rise : BitVec 16) (p : Nat) (reading : Int) (s : State), (s.rail rail.val).test = some (p, reading) →
    Does (.senseCheckResult rail rise) s (fun t => (t.rail rail.val).test = none ∧
      (reading + 2000 < 20 * ((rise.toInt - reading).natAbs : Int) →
        bitOf (t.rd (errStatus (railPage rail.val))) 4 = true))) ∧
  (∀ s : State, s.railSys.seq = 0 → s.rd F.SYS_BOOT_STEP = 5 →
    Does (.railStartStage 0) s (fun t => t.railSys.seq = 1 ∧ t.rd F.RAIL_SYS_STATUS_STAGE = 0 ∧
      t.rd F.RAIL_SYS_STATUS_SEQ_BUSY = 1)) ∧
  (∀ (stage : Fin 4) (s : State),
    (stage.val ≠ 0 → s.railSys.seq = 1 → s.rd F.RAIL_SYS_STATUS_STAGE + 1 = stage.val →
      (∀ r ∈ s.stageRails (stage.val - 1), s.pgood r = true) → Does (.railStartStage stage) s (fun t =>
        t.rd F.RAIL_SYS_STATUS_STAGE = stage.val ∧ t.rd F.RAIL_SYS_STATUS_SEQ_BUSY = 1)) ∧
    (s.railSys.seq = 2 → stage.val ≠ 3 → s.rd F.RAIL_SYS_STATUS_STAGE = stage.val + 1 → s.stageLow (stage.val + 1) = true →
      Does (.railStopStage stage) s (fun t => t.rd F.RAIL_SYS_STATUS_STAGE = stage.val)) ∧
    (s.railSys.seq ≠ 2 → exec (.railStopStage stage) s = .next s)) ∧
  (∀ s : State, s.railSys.seq = 2 → Does (.railStopStage 3) s (fun t => t.rd F.RAIL_SYS_STATUS_STAGE = 3)) ∧
  (∀ (rail : Fin 12) (s : State), s.railState rail.val = 1 → (s.rail rail.val).ref = s.railTarget rail.val →
    95 * s.railTarget rail.val ≤ 500 * s.rd (rf F.RAIL_MEAS_V rail.val) →
    Does (.pgoodSet rail) s (fun t => t.pgood rail.val = true ∧ t.railState rail.val = 2)) ∧
  (∀ s : State, s.railSys.lfDirty = true → exec .lastFaultFlashWrite s =
    .next { s with railSys := { s.railSys with lfFlash := lfKeys.map s.reg, lfDirty := false } }) ∧
  (∀ (r : Req) (s : State), s.mayWrite r F.RAIL_LF_CMD_CLEAR → r.level = .L0 →
    Does (.railLfClear r) s (fun t => (∀ k ∈ lfKeys, t.reg k = 0) ∧ t.railSys.lfFlash = [0, 0, 0, 0] ∧
      s.regsBut t (fun k => k ∈ lfKeys)))

/-- An evaluation of the arbiter grants each frond the lowest of its limits with its reason; a grant held after a timeout does not pass
the clock's point, and while the power cores hand over none rises. A raise that times out gives up: target and grant return to the clock's point, which is held, and ERR_STATUS bit 0 of OPT sets. A
fast hold ends. A rail's average above its limit throttles it: FT_ACTIVE and FT_SEEN of the rail and ERR_STATUS bit 1 of CAP; a load
above the module's limit sets MOD_ACTIVE, MOD_SEEN and bit 0. A release lowers a throttle by one level. An allocation reports
source and budget, but not while the power cores hand over. A temperature at its maximum throttles its class with ERR_STATUS bit 3. FIT_REQ at L0 starts a window. A
reconciliation restarts the interval; the measured energy that is not charged, with attribution off all of it, counts as unattributed.
The rounding of what is charged is the model's choice (log 50).
Where a clause rests on a corner that the spec leaves open, it states the choice of the model: logs 50 and 51.
Completion is stated here of: energyReconcile, arbiterEvaluation, raiseTimeout, fastHoldEnd, railFastThrottle,
moduleFastLimit, fastThrottleRelease, budgetAllocation, tempMaxThrottle, attrFitReq. -/
def Obligations.GrantsThrottlesAndAttribution : Prop :=
  (∀ s u : State, u = s.arbEval .A → Does .arbiterEvaluation s (fun t =>
    (∀ low, low = (opLowest (s.opLimits .A)).2 → t.rd (gf F.OP_GRANT_GRANT_OP .A) =
      (if s.budget.stuckA then min low (s.rd (gf F.OP_GRANT_CLOCK_OP .A))
        else if s.coresHand then min low (s.rd (gf F.OP_GRANT_GRANT_OP .A)) else low) % 2 ^ F.OP_GRANT_GRANT_OP.width) ∧
    t.rd (gf F.OP_GRANT_REASON .A) = (opLowest (s.opLimits .A)).1 % 2 ^ F.OP_GRANT_REASON.width ∧
    (∀ low, low = (opLowest (u.opLimits .B)).2 → t.rd (gf F.OP_GRANT_GRANT_OP .B) =
      (if u.budget.stuckB then min low (u.rd (gf F.OP_GRANT_CLOCK_OP .B))
        else if u.coresHand then min low (u.rd (gf F.OP_GRANT_GRANT_OP .B)) else low) % 2 ^ F.OP_GRANT_GRANT_OP.width) ∧
    t.rd (gf F.OP_GRANT_REASON .B) = (opLowest (u.opLimits .B)).1 % 2 ^ F.OP_GRANT_REASON.width)) ∧
  (∀ (f : Frond) (s : State), s.rd (gf F.OP_GRANT_RAISING f) = 1 →
    Does (.raiseTimeout f) s (fun t => t.rd (gf F.OP_GRANT_RAISING f) = 0 ∧
      t.rd (gf F.OP_GRANT_TARGET_OP f) = s.rd (gf F.OP_GRANT_CLOCK_OP f) ∧
      t.rd (gf F.OP_GRANT_GRANT_OP f) = s.rd (gf F.OP_GRANT_CLOCK_OP f) ∧ t.budget.stuck f = true ∧
      bitOf (t.rd (errStatus 0x61)) 0 = true)) ∧
  (∀ (f : Frond) (s : State), exec (.fastHoldEnd f) s = .next { s with budget := s.budget.setHold f none }) ∧
  (∀ (rail : Fin 12) (avg : BitVec 16) (s : State),
    ((s.wr (F.CAP_RAIL_I_AVG.i rail.val) avg.toNat).railLimit rail.val : Int) < avg.toInt →
    Does (.railFastThrottle rail avg) s (fun t => bitOf (t.rd F.CAP_FT_FT_ACTIVE) rail.val = true ∧
      bitOf (t.rd F.CAP_FT_FT_SEEN) rail.val = true ∧ bitOf (t.rd (errStatus 0x60)) 1 = true)) ∧
  (∀ (load : Nat) (s : State), min (s.rd F.CAP_MODULE_PEAK_W * 1000) s.sourceMw < load →
    Does (.moduleFastLimit load) s (fun t => t.rd F.CAP_FT_MOD_ACTIVE = 1 ∧ t.rd F.CAP_FT_MOD_SEEN = 1 ∧
      bitOf (t.rd (errStatus 0x60)) 0 = true)) ∧
  (∀ s : State, (∀ r : Fin 12, Does (.fastThrottleRelease (some r)) s (fun t => t.fastLvl r.val = s.fastLvl r.val - 1 ∧
      (s.fastLvl r.val ≤ 1 → bitOf (t.rd F.CAP_FT_FT_ACTIVE) r.val = false))) ∧
    Does (.fastThrottleRelease none) s (fun t => t.fastLvl 12 = s.fastLvl 12 - 1 ∧
      (s.fastLvl 12 ≤ 1 → t.rd F.CAP_FT_MOD_ACTIVE = 0))) ∧
  (∀ (us : Nat) (s : State), s.coresHand = true → exec (.budgetAllocation us) s = .next s) ∧
  (∀ (us : Nat) (s : State), s.coresHand = false → Does (.budgetAllocation us) s (fun t =>
    t.rd F.CAP_STATUS_SOURCE_W = min (s.sourceMw / 1000) (2 ^ F.CAP_STATUS_SOURCE_W.width - 1) ∧
    t.rd F.CAP_STATUS_BUDGET_W = min (min ((if (s.bucketStep us).budget.burst then s.rd F.CAP_MODULE_PEAK_W
      else s.rd F.CAP_MODULE_SUST_W) * 1000) s.sourceMw / 1000) (2 ^ F.CAP_STATUS_BUDGET_W.width - 1))) ∧
  (∀ (f : Frond) (hbm : Bool) (tempC : BitVec 8) (s : State), (if hbm then 95 else 105) ≤ tempC.toInt →
    Does (.tempMaxThrottle f hbm tempC) s (fun t => bitOf t.budget.tempMax (thermBit f hbm) = true ∧
      bitOf (t.rd (errStatus 0x60)) 3 = true)) ∧
  (∀ (r : Req) (s : State), s.mayWrite r F.ATTR_CTRL_FIT_REQ → r.level = .L0 → s.rd F.ATTR_FIT_STATE ≠ 1 →
    Does (.attrFitReq r) s (fun t => t.rd F.ATTR_CTRL_FIT_REQ = 1 ∧ t.rd F.ATTR_FIT_STATE = 1 ∧ t.rd F.ATTR_FIT_PROGRESS = 0 ∧
      t.budget.fitSteps = [])) ∧
  (∀ s : State, s.rd F.ATTR_CTRL_EN = 0 → 0 ≤ s.power.eInt →
    Does .energyReconcile s (fun t => t.budget.unattr = s.budget.unattr + (s.power.eInt * 1000).toNat ∧ t.budget.acts = [] ∧
      t.power.eInt = 0 ∧ t.power.intSince = s.now ∧ t.rd F.ATTR_LAST_CHARGED = 0)) ∧
  (∀ (l : List (Option Nat × Option Nat × Nat)) (s : State), s.rd F.ATTR_CTRL_EN = 1 →
    l = scaleBy (s.attrScale (s.power.eInt * 1000) (priceSum s.priced)) 65536 (s.priced.filter isCharged) →
    (priceSum l : Int) ≤ s.power.eInt * 1000 → Does .energyReconcile s (fun t =>
      t.budget.unattr = s.budget.unattr + (s.power.eInt * 1000 - (priceSum l : Int)).toNat ∧ t.budget.acts = [] ∧
      t.power.eInt = 0 ∧ t.power.intSince = s.now))

/-- A sweep that its source asks for and that may begin takes the next number, shows itself and puts SAMPLE out for the instant 200 µs
ahead; an instant that the table may not place is counted, also while a sweep runs; what does not ask for one changes nothing. At the
instant balancing resumes and the unit readings exist; READ
goes out after it. A frame with a bad CRC is counted and sets ERR_STATUS bit 1. A break of the whole ring opens it at its
position, another one isolates the units between the two, and a READ that the first cuts and that does not fit again is lost. A two-break ring
that is not read in time opens the contactors with cause 4. A carrier that returns over the same units makes the ring whole; another
number of units refuses the pack. A bad enumeration leaves the ring off with ERR_STATUS bit 0, a good one sets the units, and in an
insertion goes on to CHECK or refuses the pack. BAL_SET alternates the groups; a unit that did not get it
stops bleeding. An open-wire test due in an open gap begins, and its result ends it and counts it.
Where a clause rests on a corner that the spec leaves open, it states the choice of the model: log 53.
Completion is stated here of: sweepSampleSend, sweepReadSend, sweepReadReturn, chainFrameResend, chainAlert,
monitoringTimeout, carrierReturn, enum, enumRetry, balanceGroupChange, owReq, openWireTest, openWireResult, balSetTimeout,
sweepSampleInstant. -/
def Obligations.SweepsReadTheRing : Prop :=
  (∀ (src : SweepSource) (s : State), s.chainUp = true → s.chain.sweep = none → s.rd F.CHAIN_STATUS_OW_BUSY = 0 →
    s.sourceOk src = true → s.sweepDue src = true →
    (s.instantBad src (s.now + 50000) = false → Does (.sweepSampleSend src) s (fun t =>
      t.rd F.CHAIN_SWEEP_SEQ = (s.rd F.CHAIN_SWEEP_SEQ + 1) % 256 ∧ t.rd F.CHAIN_STATUS_SWEEPING = 1 ∧
      t.rd F.CHAIN_STATUS_SOURCE = sourceCode src ∧ t.rd F.BAL_STATUS_PAUSED = 1 ∧
      t.chain.sweep = some ⟨(s.rd F.CHAIN_SWEEP_SEQ + 1) % 256, sourceCode src, s.now + 50000, false⟩ ∧
      t = { s with regs := t.regs, chain := t.chain,
                   outbox := .sample ((s.rd F.CHAIN_SWEEP_SEQ + 1) % 256) (s.now + 50000) :: s.outbox }))) ∧
  (∀ (src : SweepSource) (s : State), s.chainUp = true → s.sourceOk src = true →
    (s.sweepDue src = true → s.instantBad src (s.now + 50000) = true →
      exec (.sweepSampleSend src) s = .next ((s.sweepServed src).incSat F.CHAIN_SWEEP_REJECTED)) ∧
    (s.sweepDue src = false → exec (.sweepSampleSend src) s = .next s)) ∧
  (∀ (bcMa : Int) (w : Sweep) (s : State), s.chain.sweep = some w → Does (.sweepSampleInstant bcMa) s (fun t =>
    t.chain = { s.chain with sweep := some { w with sampled := true }, bcAt := bcMa, lastInstant := some w.instant } ∧
    t.rd F.BAL_STATUS_PAUSED = 0 ∧ t = { s with regs := t.regs, chain := t.chain })) ∧
  (∀ (w : Sweep) (s : State), s.chain.sweep = some w → w.sampled = true → s.chainUp = true →
    exec .sweepReadSend s = .next (({ s with chain := { s.chain with reading := true } }).put (.chain 2))) ∧
  (∀ (blocks : List GcsBlock) (stackMv : Nat) (w : Sweep) (s : State), s.chain.sweep = some w → s.chain.reading = true →
    exec (.sweepReadReturn blocks stackMv) s = .next
      (((((List.range s.units).foldl (fun (s : State) u => s.readUnit blocks u) s).measures).crossCheck stackMv).sweepDone
        w.instant s.therms)) ∧
  (∀ s : State,
    exec (.chainFrameResend false true) s = .next s ∧
    exec (.chainFrameResend false false) s = .next (s.incSat F.CHAIN_ERR_COUNT_RETRY) ∧
    ∀ gaveUp, Does (.chainFrameResend true gaveUp) s (fun t => bitOf (t.rd (errStatus 0x68)) 1 = true)) ∧
  (∀ (position : Fin 8) (s : State), position.val ≤ s.units → s.rd F.CHAIN_STATUS_RING = 1 → s.chain.reading = true →
    exec (.chainAlert position false) s = .next (s.breakAt position.val).readCut) ∧
  (∀ (position : Fin 8) (fit : Bool) (s : State), position.val ≤ s.units → fit = true ∨ s.chain.reading = false →
    (s.rd F.CHAIN_STATUS_RING = 1 → Does (.chainAlert position fit) s (fun t => t.rd F.CHAIN_STATUS_RING = 2 ∧
      t.rd F.CHAIN_STATUS_BREAK_A = position.val ∧ bitOf (t.rd (errStatus 0x68)) 2 = true)) ∧
    (s.rd F.CHAIN_STATUS_RING = 2 → s.rd F.CHAIN_STATUS_BREAK_A = position.val →
      exec (.chainAlert position fit) s = .next s) ∧
    (s.rd F.CHAIN_STATUS_RING = 2 → s.rd F.CHAIN_STATUS_BREAK_A ≠ position.val →
      exec (.chainAlert position fit) s = .next ((s.incSat F.CHAIN_ERR_COUNT_BREAKS).secondBreak position.val
        (min (s.rd F.CHAIN_STATUS_BREAK_A) position.val) (max (s.rd F.CHAIN_STATUS_BREAK_A) position.val)))) ∧
  (∀ s : State, s.twoBreaks = true → exec .monitoringTimeout s = .next (s.openReq 8 4).bcLost) ∧
  (∀ (units : BitVec 8) (serials : List (BitVec 64)) (s : State), s.rd F.CHAIN_STATUS_RING = 2 ∨ s.rd F.CHAIN_STATUS_RING = 3 →
    (units.toNat = s.units → serials.map (·.toNat) = s.serialsNow →
      exec (.carrierReturn units serials) s = .next ((s.ringWhole.inhibitCheck).event 0x68 0x3012)) ∧
    (units.toNat ≠ s.units →
      exec (.carrierReturn units serials) s = .next (s.wr F.CHAIN_STATUS_UNITS units.toNat).packRefuse)) ∧
  (∀ (units : BitVec 8) (returned : Bool) (stackMv : Nat) (serials : List (BitVec 64)) (s : State),
    (returned = false ∨ units.toNat = 0 ∨ 7 < units.toNat →
      Does (.enum units returned stackMv serials) s (fun t => t.rd F.CHAIN_STATUS_RING = 0 ∧
      bitOf (t.rd (errStatus 0x68)) 0 = true)) ∧
    (1 ≤ units.toNat → units.toNat ≤ 7 → s.chain.inserting = false →
      exec (.enum units true stackMv serials) s = .next (s.enumSet units.toNat serials)) ∧
    (∀ u : State, 1 ≤ units.toNat → units.toNat ≤ 7 → u = s.enumSet units.toNat serials → u.chain.inserting = true →
      u.packState = 2 →
      (u.cellsLegal = true → units.toNat = u.units → 140000 ≤ stackMv → stackMv ≤ 310000 →
        exec (.enum units true stackMv serials) s = .next
          (({ u with chain := { u.chain with owWanted := true, debounced := false } }).setPack 3).nefcCheck) ∧
      (u.cellsLegal = false ∨ units.toNat ≠ u.units ∨ stackMv < 140000 ∨ 310000 < stackMv →
        exec (.enum units true stackMv serials) s = .next u.packRefuse))) ∧
  (∀ s : State, s.rd F.CHAIN_STATUS_RING = 0 → s.rd F.CHAIN_CFG_EN = 1 → s.rd F.PACK_STATUS_PRSNT = 1 → s.chain.asleep = false →
    exec .enumRetry s = .next ((s.wr F.CHAIN_STATUS_RING 4).put (.chain 0))) ∧
  (∀ s : State, s.chainUp = true → Does .balanceGroupChange s (fun t =>
    t.rd F.BAL_STATUS_GROUP = 1 - s.rd F.BAL_STATUS_GROUP ∧ t.outbox = .chain 3 :: s.outbox)) ∧
  (∀ (unit : Fin 7) (s : State), Does (.balSetTimeout unit) s (fun t => unit.val ∈ t.chain.balLapsed ∧
    t = { s with regs := t.regs, chain := t.chain })) ∧
  (∀ (r : Req) (s : State), s.mayWrite r F.CHAIN_CFG_OW_REQ → exec (.owReq r) s = .next (s.wr F.CHAIN_CFG_OW_REQ 1)) ∧
  (∀ s : State, s.chainUp = true → s.owDue = true → s.owGate = true → s.chain.sweep = none →
    s.rd F.CHAIN_STATUS_OW_BUSY = 0 → Does .openWireTest s (fun t => t.rd F.CHAIN_STATUS_OW_BUSY = 1 ∧
      t.rd F.CHAIN_CFG_OW_REQ = 0 ∧ t.chain.owWanted = false ∧ t.chain.owCount = 0 ∧ t.outbox = .chain 4 :: s.outbox)) ∧
  (∀ s : State, s.rd F.CHAIN_STATUS_OW_BUSY = 1 →
    (∀ flagged, Does (.openWireResult flagged) s (fun t => t.rd F.CHAIN_STATUS_OW_BUSY = 0 ∧
      t.rd F.CHAIN_OW_TESTS = (s.rd F.CHAIN_OW_TESTS + 1) % 2 ^ F.CHAIN_OW_TESTS.width ∧
      t.chain.owFlagged = (List.range 119).filter (fun i => decide (i < 17 * s.units) && flagged.any (fun f => f.val == i)))) ∧
    Does (.openWireResult []) s (fun t => t.rd F.CHAIN_OW_SUSPECT = 0 ∧ t.chain.owWanted = false))

/-- WAKE latches its unit and cause and counts; a sleeping unit that reads a limit wakes with that limit's cause. Precharge ends in
closed contactors, then ONLINE, or in FAULT when it times out. An open request that runs opens the contactors. A stack that holds
voltage after opening is WELDED with ERR_STATUS bit 5. The pack's HVIL that opens on closed contactors opens them with cause 2, during
an insertion past DETECT fails it, and else is noted.
A pack pulled is ABSENT at once and its charge estimate is gone; one that arrives is at DETECT, and its debounce ends in ENUM once
its HVIL is closed. RELEASE in ONLINE outside RIDE_THROUGH begins the release; ACCEPT at RELEASED begins again at ENUM, in FAULT
without LIMIT at DETECT; CLR_LIMIT at L0 clears LIMIT without a warning. An update
of the units begins with unit 0; a unit restarted well takes its new version and the other bank.
Where a clause rests on a corner that the spec leaves open, it states the choice of the model: log 53.
Completion is stated here of: wake, packCmdWakeClr, prechargeDone, prechargePathOpen, prechargeTimeout, contactorOpen,
weldCheck, packHvilOpen, prsntNRise, prsntNFall, insertionDebounceEnd, packCmdRelease, packCmdAccept, packCmdClrLimit,
chainFwStart, gcsFwSwitch, gcsFwRestartDone, packHvilClose, sleepCheck. -/
def Obligations.PackSleepsInsertsAndReleases : Prop :=
  (∀ (unit : Fin 7) (cause : BitVec 4) (s : State), Does (.wake unit cause) s (fun t => t.chain.wakeN = true ∧
    t.rd F.CHAIN_WAKE_COUNT = (s.rd F.CHAIN_WAKE_COUNT + 1) % 2 ^ F.CHAIN_WAKE_COUNT.width ∧
    t.rd F.CHAIN_WAKE_LATCHED = 1 ∧ t.rd F.CHAIN_WAKE_UNIT = unit.val ∧ t.rd F.CHAIN_WAKE_CAUSE = cause.toNat)) ∧
  (∀ (unit : Fin 7) (minMv maxMv : Nat) (minC maxC : Int) (fault : Bool) (s u : State), s.chain.asleep = true →
    u = (if minMv ≤ s.rd F.PACK_LIM_V_UV_WARN then s.wr F.PACK_STATUS_AUX_TAP 0 else s) →
    (s.rd F.PACK_LIM_V_OV ≤ maxMv →
      exec (.sleepCheck unit minMv maxMv minC maxC fault) s = .next (u.wake unit.val 1)) ∧
    (maxMv < s.rd F.PACK_LIM_V_OV → minMv ≤ s.rd F.PACK_LIM_V_UV →
      exec (.sleepCheck unit minMv maxMv minC maxC fault) s = .next (u.wake unit.val 2)) ∧
    (maxMv < s.rd F.PACK_LIM_V_OV → s.rd F.PACK_LIM_V_UV < minMv → s.rdS F.PACK_LIM_T_OT ≤ maxC →
      exec (.sleepCheck unit minMv maxMv minC maxC fault) s = .next (u.wake unit.val 3)) ∧
    (maxMv < s.rd F.PACK_LIM_V_OV → s.rd F.PACK_LIM_V_UV < minMv → maxC < s.rdS F.PACK_LIM_T_OT →
      minC ≤ s.rdS F.PACK_LIM_T_UT → exec (.sleepCheck unit minMv maxMv minC maxC fault) s = .next (u.wake unit.val 4)) ∧
    (maxMv < s.rd F.PACK_LIM_V_OV → s.rd F.PACK_LIM_V_UV < minMv → maxC < s.rdS F.PACK_LIM_T_OT →
      s.rdS F.PACK_LIM_T_UT < minC → exec (.sleepCheck unit minMv maxMv minC maxC true) s = .next (u.wake unit.val 5)) ∧
    (maxMv < s.rd F.PACK_LIM_V_OV → s.rd F.PACK_LIM_V_UV < minMv → s.rd F.PACK_LIM_V_UV_WARN < minMv →
      maxC < s.rdS F.PACK_LIM_T_OT → s.rdS F.PACK_LIM_T_UT < minC →
      exec (.sleepCheck unit minMv maxMv minC maxC false) s = .next s)) ∧
  (∀ (r : Req) (s : State), s.mayWrite r F.PACK_CMD_WAKE_CLR →
    exec (.packCmdWakeClr r) s = .next { s with chain := { s.chain with wakeN := false } }) ∧
  (∀ s : State, s.packState = 4 → s.rd F.PACK_STATUS_CONTACTOR = 1 →
    (s.chain.openTo = none → Does (.prechargeDone false) s (fun t => t.rd F.PACK_STATUS_CONTACTOR = 2 ∧ t.packState = 4)) ∧
    (s.chain.openTo = none → Does (.prechargeDone true) s (fun t => t.packState = 8 ∧ t.rd F.PACK_STATUS_CONTACTOR = 0 ∧
      bitOf (t.rd (errStatus 0x69)) 1 = true)) ∧
    (∀ b, s.chain.openTo ≠ none → exec (.prechargeDone b) s = .next s) ∧
    Does .prechargeTimeout s (fun t => t.packState = 8 ∧ t.rd F.PACK_STATUS_CONTACTOR = 0 ∧ t.chain.inserting = false)) ∧
  (∀ s : State, s.packState = 4 → s.contactClosed = true →
    Does .prechargePathOpen s (fun t => t.packState = 5 ∧ t.chain.inserting = false)) ∧
  (∀ (dest : Nat) (s : State), s.chain.openTo = some dest → exec .contactorOpen s = .next (s.contactorsOpen dest s.chain.openCause)) ∧
  (∀ (stackMv : Nat) (s : State), s.rd F.PACK_STATUS_CONTACTOR = 0 →
    (60000 ≤ stackMv → Does (.weldCheck stackMv) s (fun t => t.rd F.PACK_STATUS_CONTACTOR = 3 ∧
      bitOf (t.rd (errStatus 0x69)) 5 = true)) ∧
    (stackMv < 60000 → exec (.weldCheck stackMv) s = .next s)) ∧
  (∀ s : State,
    (s.chain.inserting = false → s.rd F.PACK_STATUS_CONTACTOR = 2 →
      exec .packHvilOpen s = .next (((s.wr F.PACK_STATUS_HVIL 0).openReq 8 2).bcLost)) ∧
    (s.chain.inserting = false → s.rd F.PACK_STATUS_CONTACTOR ≠ 2 → exec .packHvilOpen s = .next (s.wr F.PACK_STATUS_HVIL 0)) ∧
    (s.chain.inserting = true → s.packState = 1 → exec .packHvilOpen s = .next (s.wr F.PACK_STATUS_HVIL 0)) ∧
    (s.chain.inserting = true → s.packState ≠ 1 →
      exec .packHvilOpen s = .next ((s.wr F.PACK_STATUS_HVIL 0).insertFail 2))) ∧
  (∀ s : State,
    (s.chain.inserting = false → exec .packHvilClose s = .next (s.wr F.PACK_STATUS_HVIL 1)) ∧
    (s.chain.inserting = true → s.chain.debounced = true → s.packState = 1 →
      exec .packHvilClose s = .next (s.wr F.PACK_STATUS_HVIL 1).insertEnum)) ∧
  (∀ s : State, Does .prsntNRise s (fun t => t.packState = 0 ∧ t.rd F.PACK_STATUS_PRSNT = 0 ∧ t.est.cells = [] ∧
    t.chain.sweep = none ∧ t.rd F.CHAIN_STATUS_RING = 0)) ∧
  (∀ s : State, Does .prsntNFall s (fun t => t.packState = 1 ∧ t.rd F.PACK_STATUS_PRSNT = 1 ∧ t.chain.inserting = true ∧
    t = { s with regs := t.regs, chain := t.chain })) ∧
  (∀ s : State, s.chain.inserting = true → s.packState = 1 → s.rd F.PACK_STATUS_HVIL = 1 →
    Does .insertionDebounceEnd s (fun t => t.packState = 2 ∧ t.rd F.CHAIN_STATUS_RING = 4)) ∧
  (∀ s : State, s.chain.inserting = true → s.packState = 1 → s.rd F.PACK_STATUS_HVIL = 0 →
    exec .insertionDebounceEnd s = .next { s with chain := { s.chain with debounced := true } }) ∧
  (∀ (r : Req) (s : State), s.mayWrite r F.PACK_CMD_RELEASE → s.packState = 5 →
    (s.mode = 4 → exec (.packCmdRelease r) s = .next s) ∧
    (s.mode ≠ 4 → exec (.packCmdRelease r) s = .next (((s.goBusOnly false).setPack 6).openReq 7 5))) ∧
  (∀ (r : Req) (s : State), s.mayWrite r F.PACK_CMD_ACCEPT → s.rd F.PACK_STATUS_PRSNT = 1 → s.packState = 7 →
    Does (.packCmdAccept r) s (fun t => t.packState = 2 ∧ t.chain.inserting = true)) ∧
  (∀ (r : Req) (s : State), s.mayWrite r F.PACK_CMD_ACCEPT → s.rd F.PACK_STATUS_PRSNT = 1 → s.packState = 8 →
    s.rd F.PACK_STATUS_LIMIT = 0 → s.chain.openTo = none →
    Does (.packCmdAccept r) s (fun t => t.packState = 1 ∧ t.chain.inserting = true)) ∧
  (∀ (r : Req) (s : State), s.mayWrite r F.PACK_CMD_CLR_LIMIT → r.level = .L0 →
    (s.warnAt 0 0 = 0 → exec (.packCmdClrLimit r) s = .next (s.wr F.PACK_STATUS_LIMIT 0)) ∧
    (s.warnAt 0 0 ≠ 0 → exec (.packCmdClrLimit r) s = .next s)) ∧
  (∀ (r : Req) (s : State), s.mayWrite r F.CHAIN_FW_START → r.level = .L0 → s.rd F.CHAIN_FW_START = 0 →
    Does (.chainFwStart r) s (fun t => t.rd F.CHAIN_FW_START = 1 ∧ t.rd F.CHAIN_STATUS_FW_BUSY = 1 ∧ t.rd F.CHAIN_FW_UNIT = 0 ∧
      t.rd (F.GCS_STATUS_STATE.i 0) = 3 ∧ t.chain.fwReady = false)) ∧
  (∀ (roomUs : Nat) (s : State), s.rd F.CHAIN_STATUS_FW_BUSY = 1 → s.chain.fwReady = false → s.chain.sweep = none →
    3500 ≤ roomUs → Does (.gcsFwSwitch roomUs) s (fun t => t.chain.fwReady = true ∧ t.rd F.CHAIN_FW_PROGRESS = 100)) ∧
  (∀ (version : BitVec 16) (s : State), s.chain.fwReady = true → s.rd F.CHAIN_FW_UNIT < 7 →
    Does (.gcsFwRestartDone true version) s (fun t =>
      t.rd (F.GCS_STATUS_FW_VERSION.i (s.rd F.CHAIN_FW_UNIT)) = version.toNat ∧
      t.rd (F.GCS_STATUS_BANK.i (s.rd F.CHAIN_FW_UNIT)) = 1 - s.rd (F.GCS_STATUS_BANK.i (s.rd F.CHAIN_FW_UNIT)) ∧
      t.rd (F.GCS_STATUS_STATE.i (s.rd F.CHAIN_FW_UNIT)) = 1 ∧ t.chain.fwReady = false) ∧
    Does (.gcsFwRestartDone false version) s (fun t => bitOf (t.rd (errStatus 0x68)) 4 = true ∧ t.rd F.CHAIN_FW_START = 0 ∧
      t.rd F.CHAIN_FW_RESULT = 2))

/-- In 10 µs each cell's charge falls by the counted current, a bleeding cell's by its bleed charge more, and the allowances of the
bleeding cells fall by it; charge that passes 2 × CAP_MAH / 100 counts in N_EFC. Each second every uncertainty grows by the same fraction, up to 1, and the second's charge starts again. In a powered mode that
has been still, rest is recognised. Under NO_REST no window falls due; else the first one to come is due. A window that is open
ends by its timeout or its abort with outcome 2 or 3. REST_NOW forces a window of kind 3 unless one is due or open, or POLICY is
NO_REST. A change of POLICY at L0 is stored and acts. COMMIT takes a good shadow table and refuses another. CAPTURE writes the restore
block with its check word; a restore that matches takes its offset and shows SOURCE 2, another sets ERR_STATUS bit 3.
Where a clause rests on a corner that the spec leaves open, it states the choice of the model: log 54.
Completion is stated here of: chargeIntegrate, uncertaintyGrowth, packFiguresUpdate, restRecognised, ocvCommit,
restWindowDue, restWindowTimeout, estCmdAbortRest, estCmdRestNow, estCmdCapture, estCmdRestore, estCtrlWrite. -/
def Obligations.ChargeIsCountedAndRestWindowsRun : Prop :=
  (∀ (bcUa tapUa : Int) (s : State), s.est.counted + (10 * s.countedUa bcUa tapUa).natAbs < s.rd F.PACK_CFG_CAP_MAH * 72000000000 →
    Does (.chargeIntegrate bcUa tapUa) s (fun t =>
      t.est.cells = s.est.cells.map (fun e => (e.1, if s.bleeds e.1
        then { e.2 with q := e.2.q - 10 * s.countedUa bcUa tapUa - bleedPc, bledAt := some s.now }
        else { e.2 with q := e.2.q - 10 * s.countedUa bcUa tapUa })) ∧
      t.chain.bleed = (s.chain.bleed.map (fun e => (e.1, if s.bleeds e.1 then e.2 - bleedPc else e.2))).filter (fun e => e.2 != 0) ∧
      t.est.second = s.est.second + 10 * s.countedUa bcUa tapUa ∧
      t.rd F.EST_CAP_N_EFC = s.rd F.EST_CAP_N_EFC ∧
      t = { s with regs := t.regs, est := t.est, chain := { s.chain with bleed := t.chain.bleed } })) ∧
  (∀ (bcUa tapUa : Int) (n step : Nat) (s : State), step = s.rd F.PACK_CFG_CAP_MAH * 72000000000 → step ≠ 0 →
    n = s.est.counted + (10 * s.countedUa bcUa tapUa).natAbs → step ≤ n → s.countedUa bcUa tapUa ≠ 0 →
    Does (.chargeIntegrate bcUa tapUa) s (fun t => t.est.counted = n % step ∧
      t.rd F.EST_CAP_N_EFC = min (s.rd F.EST_CAP_N_EFC + n / step) (2 ^ F.EST_CAP_N_EFC.width - 1))) ∧
  (∀ s : State, exec .uncertaintyGrowth s = .next { s with est := { s.est with
    second := 0, cells := s.est.cells.map (fun e => (e.1, { e.2 with u := min 1000000000000 (e.2.u + s.growth) })) } }) ∧
  (∀ s : State, exec .packFiguresUpdate s =
    .next ((((s.figures.allowEdge).inhibitCheck.heldCheck).rideEnergy).restForceCheck)) ∧
  (∀ s : State, s.est.stillSince ≠ none → s.mode ≠ 0 → Does .restRecognised s (fun t => t.est.atRest = true ∧
    t.rd F.EST_STATUS_REST_STATE = 3 ∧ t = { s with regs := t.regs, est := t.est })) ∧
  (∀ s : State, s.restPolicy = 2 → exec .restWindowDue s = .next s) ∧
  (∀ s : State, s.restPolicy ≠ 2 → s.restComing = [] → exec .restWindowDue s = .next s) ∧
  (∀ (n : Nat) (s : State), s.restPolicy ≠ 2 → leastFirst s.restComing = some (n, 0) →
    exec .restWindowDue s = .next (({ s with est := { s.est with sched := none } }).restDue 0)) ∧
  (∀ (n k : Nat) (s : State), s.restPolicy ≠ 2 → leastFirst s.restComing = some (n, k) →
    (k = 4 → exec .restWindowDue s = .next (({ s with est := { s.est with retryAt := none } }).restDue 4)) ∧
    (k = 1 ∨ k = 3 → (k = 1 → s.rd F.PWR_STATUS_REST = 0 ∧ s.est.due.contains 4 = false) →
      exec .restWindowDue s = .next (({ s with est := { s.est with forcedAt := none } }).restDue k))) ∧
  (∀ s : State, s.rd F.PWR_STATUS_REST = 0 → exec .restWindowTimeout s = .next s) ∧
  (∀ s : State, s.rd F.PWR_STATUS_REST = 1 → exec .restWindowTimeout s = .next (s.restEnd 2)) ∧
  (∀ (r : Req) (s : State), s.mayWrite r F.EST_CMD_ABORT_REST → exec (.estCmdAbortRest r) s = .next (s.restEnd 3)) ∧
  (∀ (r : Req) (s : State), s.mayWrite r F.EST_CMD_REST_NOW →
    (s.rd F.PWR_STATUS_REST = 1 → exec (.estCmdRestNow r) s = .next s) ∧
    (s.restPolicy ≠ 2 → s.rd F.PWR_STATUS_REST = 0 → s.forcedDue = false → exec (.estCmdRestNow r) s = .next (s.restForce 3)) ∧
    (s.restPolicy = 2 ∨ s.forcedDue = true → exec (.estCmdRestNow r) s = .next s)) ∧
  (∀ (r : Req) (policy : BitVec 2) (s : State), s.mayWrite r F.EST_CTRL_POLICY → r.level = .L0 →
    exec (.estCtrlWrite r policy) s = .next ((s.wr F.EST_CTRL_POLICY policy.toNat).policyChange s.restPolicy)) ∧
  (∀ (r : Req) (s : State), s.mayWrite r F.OCV_CMD_COMMIT → r.level = .L0 →
    (s.shadowGood = true → Does (.ocvCommit r) s (fun t => t.est.temps = s.shadowTemps ∧ t.rd F.OCV_STATUS_ROM = 0 ∧
      t.rd F.OCV_STATUS_TABLE_BAD = 0)) ∧
    (s.shadowGood = false → Does (.ocvCommit r) s (fun t => t.est = s.est ∧ t.rd F.OCV_STATUS_TABLE_BAD = 1 ∧
      bitOf (t.rd (errStatus 0x71)) 0 = true))) ∧
  (∀ (r : Req) (s : State), s.mayWrite r F.EST_CMD_CAPTURE → Does (.estCmdCapture r) s (fun t =>
    (∀ w < 33, t.rbWord w = s.captureWord w % 2 ^ 64) ∧ t.rbWord 33 = t.rbCheck ∧ s.onlyRegs t)) ∧
  (∀ (r : Req) (s : State), s.mayWrite r F.EST_CMD_RESTORE → r.level = .L0 →
    (s.rbMatches = true → Does (.estCmdRestore r) s (fun t => t.rd F.EST_SHUNT_OFFSET_UA = s.rbWord 4 / 2 ^ 32 % 2 ^ 32 ∧
      t.rd F.EST_STATUS_OFFSET_ZEROED = 1 ∧ t.rd F.EST_STATUS_NEFC_RESTORED = 1 ∧ t.rd F.EST_STATUS_SOURCE = 2)) ∧
    (s.rbMatches = false → Does (.estCmdRestore r) s (fun t => t.est = s.est ∧ bitOf (t.rd (errStatus 0x70)) 3 = true)))

/-- COLLECTOR_LATCH takes the oldest latch. Of a module page, the MFS bit of its source reads 1 and its class field the higher of
what it held and the class on the pin; when MFS was all zero, MCOL_FIRST names the source, the page, the bit, the class and the
injection, and MCOL_FIRST_TIME holds PHASE_TIME; the latch leaves the queue. Of a frond page, the frond's FFS bit reads 1 and so
does the frond's MFS bit, and the class field of each is raised. Beside these registers, MCOL_STATUS and what recording may change,
nothing changes up to here. Then the reactions that ERR_ACTION gives the bit act on that state in order: LOG records event 0xA001
with the page, bit, class and injection flag, FENCE and ESC do what they do for the page, PIN acts on FAULT_N. With no latch on its
way nothing happens.
Where a clause rests on a corner that the spec leaves open, it states the choice of the model: logs 55 and 56.
Completion is stated here of: collectorLatch. -/
def Obligations.LatchesReachTheirCollectors : Prop :=
  (∀ (p b : Nat) (inj : Bool) (rest : List (Nat × Nat × Bool)) (i : PageInfo) (s : State),
    s.latches = (p, b, inj) :: rest → pageInfo p = some i → i.frond = 15 → b < 12 →
    Does .collectorLatch s (fun t => ∃ u : State, u.latches = rest ∧ bitOf (u.rd F.MFS_SRC) (colBit p) = true ∧
      clsGet (u.rd F.MCOL_CLASS_CLASS) (colBit p) = max (clsGet (s.rd F.MCOL_CLASS_CLASS) (colBit p)) (s.pinClass p) ∧
      (s.rd F.MFS_SRC = 0 → u.rd F.MCOL_FIRST_SOURCE = colBit p ∧ u.rd F.MCOL_FIRST_PAGE = p ∧ u.rd F.MCOL_FIRST_BIT = b ∧
        u.rd F.MCOL_FIRST_CLASS = (errClass p b).num ∧ u.rd F.MCOL_FIRST_INJECTED = b2n inj ∧
        u.rd F.MCOL_FIRST_TIME_TIME = s.now % 2 ^ 64) ∧
      ({ s with latches := rest, col := u.col }).logsBut u (fun k => k ∈ [F.MFS_SRC.key, F.MCOL_CLASS_CLASS.key,
        F.MCOL_FIRST_PAGE.key, F.MCOL_FIRST_TIME_TIME.key, F.MCOL_STATUS_FE.key]) ∧
      t = u.reactAll s i p b inj)) ∧
  (∀ (p b : Nat) (inj : Bool) (rest : List (Nat × Nat × Bool)) (i : PageInfo) (s : State),
    s.latches = (p, b, inj) :: rest → pageInfo p = some i → i.frond < 2 →
    Does .collectorLatch s (fun t => ∃ u : State, u.latches = rest ∧ bitOf (u.rd (ffs (Frond.at i.frond))) (colBit p) = true ∧
      bitOf (u.rd F.MFS_SRC) i.frond = true ∧
      clsGet (u.rd (F.FCOL_CLASS_CLASS.pg (frondPg (Frond.at i.frond) 0x108))) (colBit p) =
        max (clsGet (s.rd (F.FCOL_CLASS_CLASS.pg (frondPg (Frond.at i.frond) 0x108))) (colBit p)) (s.pinClass p) ∧
      clsGet (u.rd F.MCOL_CLASS_CLASS) i.frond = max (clsGet (s.rd F.MCOL_CLASS_CLASS) i.frond) (s.pinClass p) ∧
      ({ s with latches := rest, col := u.col }).logsBut u (fun k =>
        (k / 4096 = frondPg (Frond.at i.frond) 0x108 ∧ k % 4096 ∈ [0x100, 0x108, 0x128, 0x130]) ∨
        k ∈ [F.MFS_SRC.key, F.MCOL_CLASS_CLASS.key, F.MCOL_FIRST_PAGE.key, F.MCOL_FIRST_TIME_TIME.key,
          F.MCOL_STATUS_FE.key]) ∧
      t = u.reactAll s i p b inj)) ∧
  (∀ s : State, s.latches = [] → exec .collectorLatch s = .next s)

/-- A write of MFS or FFS clears exactly the bits that are set, written with 1 and whose source's pin is deasserted, each with its
class field; every other bit and class field stays.
A self-check of the module collector writes SELF_OK, and one that fails sets ERR_STATUS bit 0 and stops ALIVE. ALIVE toggles
while SELF_OK is 1 and no MCOL_CLASS field holds FE; otherwise it keeps its level and ALIVE_RUN reads 0, and where it ran until
then event 0xA004 is recorded.
Where a clause rests on a corner that the spec leaves open, it states the choice of the model: logs 55 and 56.
Completion is stated here of: mfsWrite, ffsWrite, aliveToggle, collectorSelfCheck. -/
def Obligations.CollectorBitsClearAndAliveToggles : Prop :=
  (∀ (r : Req) (v : BitVec 64) (s : State), s.mayWrite r F.MFS_SRC →
    Does (.mfsWrite r v) s (fun t => (∀ b < 27,
        bitOf (t.rd F.MFS_SRC) b = (bitOf (s.rd F.MFS_SRC) b && (!bitOf v.toNat b || s.mfsPin b)) ∧
        clsGet (t.rd F.MCOL_CLASS_CLASS) b =
          if bitOf (s.rd F.MFS_SRC) b && bitOf v.toNat b && !s.mfsPin b then 0 else clsGet (s.rd F.MCOL_CLASS_CLASS) b) ∧
      ({ s with col := t.col }).logsBut t (fun k => k ∈ [F.MFS_SRC.key, F.MCOL_CLASS_CLASS.key, F.MCOL_STATUS_FE.key]))) ∧
  (∀ (r : Req) (f : Frond) (v : BitVec 64) (s : State), s.mayWrite r (ffs f) →
    Does (.ffsWrite r f v) s (fun t => (∀ b < 15,
        bitOf (t.rd (ffs f)) b = (bitOf (s.rd (ffs f)) b && (!bitOf v.toNat b || s.ffsPin f b)) ∧
        clsGet (t.rd (F.FCOL_CLASS_CLASS.pg (frondPg f 0x108))) b =
          if bitOf (s.rd (ffs f)) b && bitOf v.toNat b && !s.ffsPin f b then 0
          else clsGet (s.rd (F.FCOL_CLASS_CLASS.pg (frondPg f 0x108))) b) ∧
      ({ s with col := t.col }).logsBut t (fun k => k ∈ [(ffs f).key, (F.FCOL_CLASS_CLASS.pg (frondPg f 0x108)).key]))) ∧
  (∀ s : State, s.rd F.MCOL_STATUS_SELF_OK = 1 → s.feHeld = false →
    Does .aliveToggle s (fun t => t.col.alive = !s.col.alive ∧ t.rd F.MCOL_STATUS_ALIVE_RUN = 1 ∧
      t = { s with regs := t.regs, col := { s.col with alive := t.col.alive } } ∧
      s.regsBut t (fun k => k = F.MCOL_STATUS_FE.key))) ∧
  (∀ s : State, s.rd F.MCOL_STATUS_SELF_OK = 0 ∨ s.feHeld = true →
    (s.rd F.MCOL_STATUS_ALIVE_RUN = 1 → exec .aliveToggle s =
      .next (((s.wr F.MCOL_STATUS_FE (b2n s.feHeld)).wr F.MCOL_STATUS_ALIVE_RUN 0).event 0x80 0xA004)) ∧
    Does .aliveToggle s (fun t => t.col = s.col ∧ t.rd F.MCOL_STATUS_ALIVE_RUN = 0 ∧
      s.logsBut t (fun k => k = F.MCOL_STATUS_FE.key))) ∧
  (∀ (ok : Bool) (s : State), Does (.collectorSelfCheck ok) s (fun t => t.rd F.MCOL_STATUS_SELF_OK = b2n ok ∧
    (ok = true → s.feHeld = false → t.rd F.MCOL_STATUS_ALIVE_RUN = 1) ∧
    (ok = false → t.rd F.MCOL_STATUS_ALIVE_RUN = 0 ∧ bitOf (t.rd (errStatus 0x80)) 0 = true)))

/-- MCOL_PIN.ASSERT at L0 drives FAULT_N low for a pulse and records event 0xA003; during a pulse it restarts the pulse; while
the pin is held it changes nothing. At the pulse's end the pin stays low with HOLD = 1 and is released with HOLD = 0; with no pulse
nothing ends. RELEASE lets a held pin go; during a pulse, which runs to its end, it changes nothing. An FCOL that loses its
self-check sets its FCOL_LOST bit and its frond is fenced, as by a temperature past the shutdown limit.
Where a clause rests on a corner that the spec leaves open, it states the choice of the model: logs 55 and 56.
Completion is stated here of: fcolSelfCheckLost, frondTempFence, mcolPinAssert, mcolPinRelease, faultNPulseEnd. -/
def Obligations.FaultPinPulsesHoldsAndReleases : Prop :=
  (∀ (r : Req) (s : State), s.mayWrite r F.MCOL_PIN_ASSERT → r.level = .L0 →
    (s.col.pulse = false → s.rd F.MCOL_STATUS_FAULT_N_OUT = 0 →
      exec (.mcolPinAssert r) s = .next
        ((({ s with col := { s.col with pulse := true, pulseAt := s.now } }).wr F.MCOL_STATUS_FAULT_N_OUT 1).event
          0x80 0xA003)) ∧
    (s.col.pulse = true →
      exec (.mcolPinAssert r) s = .next { s with col := { s.col with pulseAt := s.now } }) ∧
    (s.col.pulse = false → s.rd F.MCOL_STATUS_FAULT_N_OUT ≠ 0 → exec (.mcolPinAssert r) s = .next s)) ∧
  (∀ s : State, s.col.pulse = true →
    Does .faultNPulseEnd s (fun t => t.col.pulse = false ∧
      (s.rd F.MCOL_PIN_HOLD = 1 → t.rd F.MCOL_STATUS_FAULT_N_OUT = s.rd F.MCOL_STATUS_FAULT_N_OUT) ∧
      (s.rd F.MCOL_PIN_HOLD = 0 → t.rd F.MCOL_STATUS_FAULT_N_OUT = 0) ∧
      t = { s with regs := t.regs, col := t.col } ∧ s.regsBut t (fun k => k = F.MCOL_STATUS_FAULT_N_OUT.key))) ∧
  (∀ s : State, s.col.pulse = false → exec .faultNPulseEnd s = .next s) ∧
  (∀ (r : Req) (s : State), s.mayWrite r F.MCOL_PIN_RELEASE →
    (s.col.pulse = true → exec (.mcolPinRelease r) s = .next s) ∧
    (s.col.pulse = false → Does (.mcolPinRelease r) s (fun t => t.rd F.MCOL_STATUS_FAULT_N_OUT = 0 ∧ s.onlyRegs t ∧
      s.regsBut t (fun k => k = F.MCOL_STATUS_FAULT_N_OUT.key)))) ∧
  (∀ (f : Frond) (s : State), exec (.fcolSelfCheckLost f) s = .next ((s.err 0x80 (1 + f.idx)).frondFence f)) ∧
  (∀ (f : Frond) (s : State), exec (.frondTempFence f) s = .next (s.frondFence f))

/-- RESET of a context that is not FREE begins its reset, and of a FREE one only sets CMD_REJECT. RST_CMD resets an engine that
exists while no chip reset runs, and a partition; a target that is neither changes nothing. The reset of a context that every tile
has left, outside a partition reset, completes; one that a tile holds past its time fails over to its partition's reset. An engine
in RESET whose partition is not in reset completes with its generation advanced and IDLE; one that is late is fenced. A partition
in RESET completes its contexts, engines and tiles and is rebuilt, and where that waited for a spare's calibration its reset ends
with the build. A step that overruns fails, and the next one up is performed: the partition's reset for a context, the fence for an
engine, a chip reset for a partition, a power cycle for a chip reset; one that does not run changes nothing. A context that waits
on the phase of a frond whose copy is invalid, by its head item or in a tile, faults with code 0x14.
Where a clause rests on a corner that the spec leaves open, it states the choice of the model: logs 57, 58, 59 and 60.
Completion is stated here of: ctxReset, contextResetComplete, contextResetTileTimeout, rstCmdEngine, engineResetComplete,
engineResetTimeout, rstCmdPartition, partitionResetComplete, recoveryStepOverrun, phaseInvalidTimeout. -/
def Obligations.RecoveryStepsRunAndEscalate : Prop :=
  (∀ (r : Req) (s : State), s.mayWrite r F.CTX_CMD_CMD →
    ((s.ctx (s.sel r F.CTX_SEL_ID.key % 65536)).alloc = true →
      exec (.ctxReset r) s = .next (s.ctxReset (s.sel r F.CTX_SEL_ID.key % 65536) 0)) ∧
    ((s.ctx (s.sel r F.CTX_SEL_ID.key % 65536)).alloc = false → exec (.ctxReset r) s = .next (s.err 0x20 2))) ∧
  (∀ (r : Req) (target : BitVec 16) (s : State), s.mayWrite r F.RST_CMD_CMD →
    (target.toNat % 64 < 44 → s.rd F.RST_STATUS_STEP ≤ 3 → exec (.rstCmdEngine r target) s =
      .next (s.engReset (Frond.at (target.toNat / 2 ^ 15)) (target.toNat % 64) 0)) ∧
    (44 ≤ target.toNat % 64 ∨ 4 ≤ s.rd F.RST_STATUS_STEP → exec (.rstCmdEngine r target) s = .next s) ∧
    (target.toNat < 64 → exec (.rstCmdPartition r target) s = .next (s.partReset target.toNat 0)) ∧
    (64 ≤ target.toNat → exec (.rstCmdPartition r target) s = .next s)) ∧
  (∀ (ctx : BitVec 16) (s : State),
    ((s.ctx ctx.toNat).resetting = true → s.ctxReleased ctx.toNat = true → s.partState (s.ctx ctx.toNat).part ≠ 4 →
      exec (.contextResetComplete ctx) s = .next (s.ctxResetEnd ctx.toNat).buildRetry) ∧
    ((s.ctx ctx.toNat).resetting = false ∨ s.ctxReleased ctx.toNat = false ∨ s.partState (s.ctx ctx.toNat).part = 4 →
      exec (.contextResetComplete ctx) s = .next s) ∧
    ((s.ctx ctx.toNat).resetting = true → s.ctxReleased ctx.toNat = false → exec (.contextResetTileTimeout ctx) s =
      .next (((s.stepClose 1 ctx.toNat true).partReset (s.ctx ctx.toNat).part 2).wr F.RST_LAST_FAILED 1)) ∧
    ((s.ctx ctx.toNat).resetting = false ∨ s.ctxReleased ctx.toNat = true →
      exec (.contextResetTileTimeout ctx) s = .next s)) ∧
  (∀ (f : Frond) (n : Fin 44) (s : State),
    (s.rd (ef F.ENG_STATUS_STATE f n.val) = 3 → s.engInPartReset f n.val = false → exec (.engineResetComplete f n) s =
      .next (((((s.inc (ef F.ENG_STATUS_GEN f n.val)).wr (ef F.ENG_STATUS_STATE f n.val) 0).stepClose 2
        (f.idx * 2 ^ 15 + n.val) false).event 0x82 0x9031).engKick f)) ∧
    (s.rd (ef F.ENG_STATUS_STATE f n.val) = 3 → exec (.engineResetTimeout f n) s =
      .next ((((s.stepClose 2 (f.idx * 2 ^ 15 + n.val) true).engFence f n.val)).wr F.RST_LAST_FAILED 1)) ∧
    (s.rd (ef F.ENG_STATUS_STATE f n.val) ≠ 3 ∨ s.engInPartReset f n.val = true →
      exec (.engineResetComplete f n) s = .next s) ∧
    (s.rd (ef F.ENG_STATUS_STATE f n.val) ≠ 3 → exec (.engineResetTimeout f n) s = .next s)) ∧
  (∀ (p : Fin 64) (s : State),
    (s.partState p.val = 4 → Sparse.get (fun _ => 0) s.work.building p.val = 0 →
      Does (.partitionResetComplete p) s (fun t => ∃ u1 u2 u3 : State,
        u1 = (s.partCtxs p.val).foldl (fun u c => u.ctxResetEnd c) s ∧
        u2 = (u1.partEngs p.val).foldl (fun u n => u.engResetEnd (s.partFrond p.val) n) u1 ∧
        u3 = (u2.partPhys p.val).foldl (fun u k => u.tileAfresh (s.partFrond p.val) k) u2 ∧
        ((u3.partSteps p.val 2).partState p.val = 2 →
          t = ((u3.partSteps p.val 2).stepClose 3 p.val false).event 0x82 0x9032) ∧
        ((u3.partSteps p.val 2).partState p.val ≠ 2 → t = u3.partSteps p.val 2))) ∧
    (s.partState p.val = 2 → (s.stepOf 3 p.val).isSome = true →
      exec (.partitionResetComplete p) s = .next ((s.stepClose 3 p.val false).event 0x82 0x9032)) ∧
    (s.partState p.val ≠ 2 → s.partState p.val ≠ 4 ∨ Sparse.get (fun _ => 0) s.work.building p.val ≠ 0 →
      exec (.partitionResetComplete p) s = .next s) ∧
    (s.partState p.val = 2 → (s.stepOf 3 p.val).isSome = false →
      exec (.partitionResetComplete p) s = .next s)) ∧
  (∀ (step : BitVec 3) (target : BitVec 16) (s : State),
    ((s.stepOf step.toNat target.toNat).isNone = true → exec (.recoveryStepOverrun step target) s = .next s) ∧
    ((s.stepOf step.toNat target.toNat).isSome = true →
      (step = 1 → exec (.recoveryStepOverrun step target) s = .next
        (((s.stepClose 1 target.toNat true).partReset (s.ctx target.toNat).part 2).wr F.RST_LAST_FAILED 1)) ∧
      (step = 2 → exec (.recoveryStepOverrun step target) s = .next
        (((s.stepClose 2 target.toNat true).engFence (Frond.at (target.toNat / 2 ^ 15)) (target.toNat % 64)).wr
          F.RST_LAST_FAILED 1)) ∧
      (step = 3 → exec (.recoveryStepOverrun step target) s = .next
        (((s.stepClose 3 target.toNat true).chipRequest 2).wr F.RST_LAST_FAILED 1)) ∧
      (step = 4 → exec (.recoveryStepOverrun step target) s = .next
        (((s.stepClose 4 target.toNat true).powerCycle 2 3 false).wr F.RST_LAST_FAILED 1)) ∧
      (step = 5 → exec (.recoveryStepOverrun step target) s = .next s))) ∧
  (∀ (ctx : BitVec 16) (s : State),
    ((s.ctx ctx.toNat).alloc = true → (s.copyOf (s.partFrond (s.ctx ctx.toNat).part)).valid = false →
      (∃ w, (s.ctx ctx.toNat).wait = some w ∧ w.kind = 3) ∨ (s.waitTile ctx.toNat 3).isSome = true →
      exec (.phaseInvalidTimeout ctx) s =
        .next ((s.err (frondPg (s.partFrond (s.ctx ctx.toNat).part) 0x108) 3).sysFault ctx.toNat 0x14)) ∧
    ((s.ctx ctx.toNat).alloc = false ∨ (s.copyOf (s.partFrond (s.ctx ctx.toNat).part)).valid = true →
      exec (.phaseInvalidTimeout ctx) s = .next s))

/-- RST_CMD of a chip reset at L0 begins one outside a chip reset, a power cycle, a stop and STANDBY, while CHIP_MAX within the hour
is not reached; when it is, ERR_STATUS bit 1 of the page RST is set and a power cycle is requested; under one of those states it
changes nothing. Each phase that is done sets the next PHASE (self-test only with LBIST, the full calibration and the ports' training
only once they are done), the full calibration begins on the fronds that are not fenced, and the last phase ends the step with event
0x9034. A power-cycle request at L0 sets MCOL_STATUS.PC_REQ, clears PC_ACKED, captures a dump and begins a stop; while one is in
force it changes nothing. In STANDBY the tray controller is interrupted until it acknowledges, and the first time event 0x9035 is
recorded.
Where a clause rests on a corner that the spec leaves open, it states the choice of the model: logs 57, 58, 59 and 60.
Completion is stated here of: rstCmdChip, chipResetPhaseDone, rstCmdPowerCycle, powerCycleIbi. -/
def Obligations.ChipResetPhasesAndPowerCycleRequest : Prop :=
  (∀ (r : Req) (s : State), s.mayWrite r F.RST_CMD_CMD → r.level = .L0 →
    (s.rd F.RST_STATUS_STEP < 4 → s.power.stopPhase = 0 → s.mode ≠ 0 →
      (s.chipsHour.length < max 1 (s.rd F.RST_CTRL_CHIP_MAX) → exec (.rstCmdChip r) s = .next (s.chipBegin 0)) ∧
      (max 1 (s.rd F.RST_CTRL_CHIP_MAX) ≤ s.chipsHour.length →
        exec (.rstCmdChip r) s = .next ((s.err 0x82 1).powerCycle 0 3 false))) ∧
    (4 ≤ s.rd F.RST_STATUS_STEP ∨ s.power.stopPhase ≠ 0 ∨ s.mode = 0 → exec (.rstCmdChip r) s = .next s) ∧
    (s.rd F.MCOL_STATUS_PC_REQ = 1 → exec (.rstCmdPowerCycle r) s = .next s) ∧
    (s.rd F.MCOL_STATUS_PC_REQ = 0 → Does (.rstCmdPowerCycle r) s (fun t => ∃ u : State,
      u = ((({ s with rst := { s.rst with steps := [], pcTold := false } }).stepOpen 5 0 0).wr F.MCOL_STATUS_PC_REQ 1).wr
        F.RST_TRAY_PC_ACKED 0 ∧
      t = (u.dumpCapture 0 5).stopBegin 3 (!u.stopAllowed)))) ∧
  (∀ (res : Training) (s : State), s.rd F.RST_STATUS_STEP = 4 →
    (s.rd F.RST_STATUS_PHASE = 0 → Does (.chipResetPhaseDone res) s (fun t => t.rd F.RST_STATUS_PHASE = 1)) ∧
    (s.rd F.RST_STATUS_PHASE = 1 → s.rd F.RST_CTRL_LBIST = 1 →
      Does (.chipResetPhaseDone res) s (fun t => t.rd F.RST_STATUS_PHASE = 2 ∧ s.onlyRegs t ∧
        s.regsBut t (fun k => k = F.RST_STATUS_PHASE.key))) ∧
    (s.rd F.RST_STATUS_PHASE = 1 → s.rd F.RST_CTRL_LBIST = 0 →
      Does (.chipResetPhaseDone res) s (fun t => t.rd F.RST_STATUS_PHASE = 3 ∧
        ∀ f : Frond, s.frondFenced f.idx = false → t.rd (acf F.ACAL_STATUS_FULL_CAL_BUSY f) = 1)) ∧
    (s.rd F.RST_STATUS_PHASE = 2 →
      exec (.chipResetPhaseDone res) s = .next ((s.lbistFences res.lbistBad false).wr F.RST_STATUS_PHASE 3).calBegin) ∧
    (s.rd F.RST_STATUS_PHASE = 3 → s.calDone = true →
      Does (.chipResetPhaseDone res) s (fun t => t.rd F.RST_STATUS_PHASE = 4 ∧ s.onlyRegs t)) ∧
    (s.rd F.RST_STATUS_PHASE = 3 → s.calDone = false → exec (.chipResetPhaseDone res) s = .next s) ∧
    (s.rd F.RST_STATUS_PHASE = 4 →
      exec (.chipResetPhaseDone res) s = .next (((s.chipMem res).wr F.RST_STATUS_PHASE 5).portsTrain)) ∧
    (s.rd F.RST_STATUS_PHASE = 5 → s.portsDone = true →
      Does (.chipResetPhaseDone res) s (fun t => t.rd F.RST_STATUS_PHASE = 6)) ∧
    (s.rd F.RST_STATUS_PHASE = 5 → s.portsDone = false → exec (.chipResetPhaseDone res) s = .next s) ∧
    (s.rd F.RST_STATUS_PHASE = 6 → exec (.chipResetPhaseDone res) s =
      .next ((((({ s with frondReset := false }).wr F.RST_STATUS_PHASE 0).stepClose 4 0 false).event 0x82 0x9034).arbBoth))) ∧
  (∀ (res : Training) (s : State), s.rd F.RST_STATUS_STEP ≠ 4 → exec (.chipResetPhaseDone res) s = .next s) ∧
  (∀ s : State,
    (s.rd F.MCOL_STATUS_PC_REQ = 1 → s.mode = 0 → s.power.stopPhase = 0 → s.rd F.RST_TRAY_PC_ACKED = 0 →
      (s.rst.pcTold = false → exec .powerCycleIbi s =
        .next (({ s.ibi 2 with rst := { (s.ibi 2).rst with pcTold := true } }).event 0x82 0x9035)) ∧
      (s.rst.pcTold = true → exec .powerCycleIbi s = .next (s.ibi 2))) ∧
    (s.rd F.MCOL_STATUS_PC_REQ = 0 ∨ s.mode ≠ 0 ∨ s.power.stopPhase ≠ 0 ∨ s.rd F.RST_TRAY_PC_ACKED = 1 →
      exec .powerCycleIbi s = .next s))

/-- STOP, CHIP_RESET, PC_ACK and FAULT_RELEASE are noted in RST_TRAY.LAST_CMD with an interrupt of the PIC's source 44. PC_ACK under
a power-cycle request sets PC_ACKED, and without one does no more; FAULT_RELEASE lets a held FAULT_N go, and during a pulse does no
more; STOP begins a stop; CHIP_RESET asks for a chip reset. The reads answer the status byte (FE, a fenced unit, STOPPING, PC_REQ,
ALIVE_RUN, and the mode in its low bits) and the four bytes of MFS, and change nothing but what is put out.
Where a clause rests on a corner that the spec leaves open, it states the choice of the model: logs 57, 58, 59 and 60.
Completion is stated here of: trayStop, trayChipReset, trayPcAck, trayFaultRelease, trayReadStatus, trayReadMfs. -/
def Obligations.TrayCommandsAct : Prop :=
  ∀ s : State,
    exec .trayStop s = .next (((s.wr F.RST_TRAY_LAST_CMD 0x10).irqPulse .pic 44).stopBegin 4 false) ∧
    exec .trayChipReset s = .next (((s.wr F.RST_TRAY_LAST_CMD 0x11).irqPulse .pic 44).chipRequest 4) ∧
    (s.rd F.MCOL_STATUS_PC_REQ = 1 →
      exec .trayPcAck s = .next (((s.wr F.RST_TRAY_LAST_CMD 0x12).irqPulse .pic 44).wr F.RST_TRAY_PC_ACKED 1)) ∧
    (s.rd F.MCOL_STATUS_PC_REQ = 0 →
      exec .trayPcAck s = .next ((s.wr F.RST_TRAY_LAST_CMD 0x12).irqPulse .pic 44)) ∧
    (s.col.pulse = false → exec .trayFaultRelease s =
      .next (((s.wr F.RST_TRAY_LAST_CMD 0x13).irqPulse .pic 44).wr F.MCOL_STATUS_FAULT_N_OUT 0)) ∧
    (s.col.pulse = true → exec .trayFaultRelease s = .next ((s.wr F.RST_TRAY_LAST_CMD 0x13).irqPulse .pic 44)) ∧
    (∀ cmd < 256, ((s.wr F.RST_TRAY_LAST_CMD cmd).irqPulse .pic 44).rd F.RST_TRAY_LAST_CMD = cmd ∧
      s.logsBut ((s.wr F.RST_TRAY_LAST_CMD cmd).irqPulse .pic 44) (fun k => k = F.RST_TRAY_LAST_CMD.key)) ∧
    exec .trayReadStatus s = .next (s.put (.answer true false [s.rd F.MCOL_STATUS_FE * 128 +
      (if s.fencedUnits = 0 then 0 else 64) + s.rd F.PWR_STATUS_STOPPING * 32 + s.rd F.MCOL_STATUS_PC_REQ * 16 +
      s.rd F.MCOL_STATUS_ALIVE_RUN * 8 + s.mode])) ∧
    Does .trayReadMfs s (fun t => ∃ l, t = s.put (.answer true false l) ∧ l.length = 4 ∧
      l.getD 0 0 + 256 * (l.getD 1 0 + 256 * (l.getD 2 0 + 256 * l.getD 3 0)) = s.rd F.MFS_SRC % 2 ^ 32)

/-- CAPTURE while neither a capture nor a flush runs raises SEQ, takes a dump under it, sets BUSY and clears SRAM_VALID, with
event 0x9040; during one it changes nothing. At its end SRAM holds the dump and the flush begins; the flush's end puts it in the
oldest slot, or leaves that slot invalid with ERR_STATUS bit 0 when the write failed; with nothing under way neither end changes
anything. FLUSH of a valid SRAM copy begins a flush, and does nothing else. ERASE at L0 empties the four slots. A scan of the hang
unit, while it is enabled and no chip reset runs, raises SCANS and reports how many waiting contexts it covered; otherwise it does
nothing.
Where a clause rests on a corner that the spec leaves open, it states the choice of the model: logs 57, 58, 59 and 60.
Completion is stated here of: hangScan, dumpCapture, dumpCaptureDone, dumpFlashWriteDone, dumpFlush, dumpErase. -/
def Obligations.CrashDumpAndHangScan : Prop :=
  (∀ (r : Req) (s : State), s.mayWrite r F.DUMP_CMD_CAPTURE →
    (s.rd F.DUMP_STATUS_BUSY = 0 → s.rd F.DUMP_STATUS_FLUSHING = 0 →
      Does (.dumpCapture r) s (fun t => t.rd F.DUMP_STATUS_BUSY = 1 ∧ t.rd F.DUMP_STATUS_SRAM_VALID = 0 ∧
        t.rd F.DUMP_STATUS_SEQ = (s.rd F.DUMP_STATUS_SEQ + 1) % 2 ^ F.DUMP_STATUS_SEQ.width ∧
        ∃ (d : Dump) (u : State), d.seq = t.rd F.DUMP_STATUS_SEQ ∧ t.dump.taking = some d ∧
          u = { s.recFlush.inc F.DUMP_STATUS_SEQ with dump := { s.dump with taking := some d }, draws := s.draws + 64 } ∧
          t = ((u.wr F.DUMP_STATUS_BUSY 1).wr F.DUMP_STATUS_SRAM_VALID 0).event 0x84 0x9040)) ∧
    (s.rd F.DUMP_STATUS_BUSY = 1 ∨ s.rd F.DUMP_STATUS_FLUSHING = 1 →
      exec (.dumpCapture r) s = .next s ∧ exec (.dumpFlush r) s = .next s) ∧
    (s.rd F.DUMP_STATUS_SRAM_VALID = 0 → exec (.dumpFlush r) s = .next s) ∧
    (s.rd F.DUMP_STATUS_BUSY = 0 → s.rd F.DUMP_STATUS_FLUSHING = 0 → s.rd F.DUMP_STATUS_SRAM_VALID = 1 →
      exec (.dumpFlush r) s = .next (s.wr F.DUMP_STATUS_FLUSHING 1)) ∧
    (r.level = .L0 → Does (.dumpErase r) s (fun t => (∀ k, 1 ≤ k → k ≤ 4 → t.dumpSlot k = none) ∧
      t = { s with regs := t.regs, dump := t.dump } ∧ s.regsBut t (fun k => k = F.DUMP_STATUS_FLASH_VALID.key)))) ∧
  (∀ (d : Dump) (s : State), s.dump.taking = some d →
    Does .dumpCaptureDone s (fun t => t.dump.taking = none ∧ t.dump.sram = some d ∧ t.rd F.DUMP_STATUS_BUSY = 0 ∧
      t.rd F.DUMP_STATUS_SRAM_VALID = 1 ∧ t.rd F.DUMP_STATUS_FLUSHING = 1 ∧
      t = { s with regs := t.regs, dump := t.dump } ∧ s.regsBut t (fun k => k = F.DUMP_STATUS_BUSY.key))) ∧
  (∀ s : State, s.dump.taking = none → exec .dumpCaptureDone s = .next s) ∧
  (∀ (ok : Bool) (s : State), s.rd F.DUMP_STATUS_FLUSHING = 0 → exec (.dumpFlashWriteDone ok) s = .next s) ∧
  (∀ s : State, s.rd F.DUMP_STATUS_FLUSHING = 1 →
    Does (.dumpFlashWriteDone true) s (fun t => t.rd F.DUMP_STATUS_FLUSHING = 0 ∧ t.dumpSlot s.dumpOldest = s.dump.sram ∧
      t = { s with regs := t.regs, dump := t.dump } ∧ s.regsBut t (fun k => k = F.DUMP_STATUS_BUSY.key)) ∧
    Does (.dumpFlashWriteDone false) s (fun t => t.rd F.DUMP_STATUS_FLUSHING = 0 ∧ t.dumpSlot s.dumpOldest = none ∧
      bitOf (t.rd (errStatus 0x84)) 0 = true)) ∧
  (∀ s : State, s.rd F.HANG_CFG_EN = 0 ∨ s.chipReset = true → exec .hangScan s = .next s) ∧
  (∀ s : State, s.rd F.HANG_CFG_EN = 1 → s.chipReset = false →
    Does .hangScan s (fun t => t.rd F.HANG_STATUS_SCANS = (s.rd F.HANG_STATUS_SCANS + 1) % 2 ^ F.HANG_STATUS_SCANS.width ∧
      t.rd F.HANG_STATUS_WAITING = min s.waitTrack.covered.1.length (2 ^ F.HANG_STATUS_WAITING.width - 1)))

/-- A wired source of an interrupt controller whose filtered line changes: LINE takes the level, and a rise makes the source
pending; a fall ends the pending state of a level-sensitive source that no software set holds. A line of a source that is not wired
or not there changes nothing. A write of PEND_SET makes every source that its bits name pending; a write of PEND_CLR clears every
source that it names, but for a level-sensitive source whose line is high, which stays as it was. Beside the LINE word, each changes
only what recording and counting interrupts may change.
Where a clause rests on a corner that the spec leaves open, it states the choice of the model: log 4.
Completion is stated here of: irqLineChange, ficPendSet, ficPendClr. -/
def Obligations.LinesAndPendingWritesSetSources : Prop :=
  (∀ (c : Ctl) (src : Fin 1024) (level : Bool) (s : State),
    irqExists c src.val = true → s.on (srcField c F.SRC_WIRED src.val) = true →
    Does (.irqLineChange c src level) s (fun t => t.irqLine c src.val = level ∧
      (level = true → s.irqLine c src.val = false → t.irqPending c src.val = true) ∧
      (level = false → s.on (srcField c F.SRC_SENSE src.val) = false → src.val ∉ (s.ctl c).latched →
        t.irqPending c src.val = false) ∧
      s.logsBut t (fun k => k = ((F.FIC_LINE_LINE.pg (ctlPage c)).i (src.val / 64)).key))) ∧
  (∀ (c : Ctl) (src : Fin 1024) (level : Bool) (s : State),
    irqExists c src.val = false ∨ s.on (srcField c F.SRC_WIRED src.val) = false →
    exec (.irqLineChange c src level) s = .next s) ∧
  (∀ (r : Req) (c : Ctl) (word : Fin 16) (bits : BitVec 64) (s : State),
    s.mayWrite r ((F.FIC_PEND_SET_PEND.pg (ctlPage c)).i word.val) →
    Does (.ficPendSet r c word bits) s (fun t => (∀ src ∈ irqNamed c word.val bits, t.irqPending c src = true) ∧
      s.logsBut t (fun _ => False))) ∧
  (∀ (r : Req) (c : Ctl) (word : Fin 16) (bits : BitVec 64) (s : State),
    s.mayWrite r ((F.FIC_PEND_CLR_PEND.pg (ctlPage c)).i word.val) →
    Does (.ficPendClr r c word bits) s (fun t => (∀ src ∈ irqNamed c word.val bits,
      t.irqPending c src = (s.irqPending c src && !s.on (srcField c F.SRC_SENSE src) && s.irqLine c src)) ∧
      s.logsBut t (fun _ => False)))

/-- A claim by a target to which the controller presents a source makes that source active, puts it with its PRIO on the
target's stack, clears its pending state unless it is level-sensitive with its line high, and sends the core to VEC_BASE plus 16
times the ID. A claim with nothing presented counts SPURIOUS, leaves the stack and goes to the vector of ID 1023. An EOI of the
stack's top pops it and ends the source's active state, and a level-sensitive source whose line is high is pending again; one of
1023 has no effect; any other sets ERR_STATUS bit 0 of the controller's page. A target that the controller does not have claims and
ends nothing. Each changes, beside what recording and counting interrupts may change, only the ACTIVE word of its source and, at a
claim, CORE_STATUS of the core that leaves WFI.
Where a clause rests on a corner that the spec leaves open, it states the choice of the model: log 4.
Completion is stated here of: irqClaim, ficEoi. -/
def Obligations.ClaimsAndEndsOfInterruptKeepTheStack : Prop :=
  (∀ (c : Ctl) (target : Fin 8) (id : Nat) (s : State),
    irqTargetExists c target.val = true → s.irqPresented c target.val = some id →
    Does (.irqClaim c target) s (fun t => t.irqActive c id = true ∧
      t.irqStack c target.val = (id, s.rd (srcField c F.SRC_PRIO id)) :: s.irqStack c target.val ∧
      (s.on (srcField c F.SRC_SENSE id) = true ∨ s.irqLine c id = false → t.irqPending c id = false) ∧
      (t.ctl c).claimed.head? =
        some (target.val, (s.rd ((F.FIC_CORE_VEC_BASE.pg (ctlPage c)).i target.val) * 2 ^ 14 + 16 * id) % 2 ^ 64) ∧
      s.logsBut t (fun k => k = ((F.FIC_ACTIVE_ACTIVE.pg (ctlPage c)).i (id / 64)).key ∨
        ∃ f, c = .fic f ∧ k = (F.CORE_STATUS_STATE.pg (corePage f target.val)).key))) ∧
  (∀ (c : Ctl) (target : Fin 8) (s : State),
    irqTargetExists c target.val = true → s.irqPresented c target.val = none →
    Does (.irqClaim c target) s (fun t =>
      t.rd (F.FIC_STATS_SPURIOUS.pg (ctlPage c)) = min (2 ^ 32 - 1) (s.rd (F.FIC_STATS_SPURIOUS.pg (ctlPage c)) + 1) ∧
      t.irqStack c target.val = s.irqStack c target.val ∧
      (t.ctl c).claimed.head? =
        some (target.val, (s.rd ((F.FIC_CORE_VEC_BASE.pg (ctlPage c)).i target.val) * 2 ^ 14 + 16 * 1023) % 2 ^ 64) ∧
      s.logsBut t (fun k => ∃ f, c = .fic f ∧ k = (F.CORE_STATUS_STATE.pg (corePage f target.val)).key))) ∧
  (∀ (r : Req) (c : Ctl) (target : Fin 8) (id : BitVec 10) (prio : Nat) (rest : List (Nat × Nat)) (s : State),
    s.mayWrite r ((F.FIC_EOI_ID.pg (ctlPage c)).i target.val) → irqTargetExists c target.val = true →
    id.toNat ≠ 1023 → s.irqStack c target.val = (id.toNat, prio) :: rest →
    Does (.ficEoi r c target id) s (fun t => t.irqStack c target.val = rest ∧ t.irqActive c id.toNat = false ∧
      (s.on (srcField c F.SRC_SENSE id.toNat) = false → s.irqLine c id.toNat = true → t.irqPending c id.toNat = true) ∧
      s.logsBut t (fun k => k = ((F.FIC_ACTIVE_ACTIVE.pg (ctlPage c)).i (id.toNat / 64)).key))) ∧
  (∀ (r : Req) (c : Ctl) (target : Fin 8) (id : BitVec 10) (s : State), irqTargetExists c target.val = false →
    exec (.irqClaim c target) s = .next s ∧
    (s.mayWrite r ((F.FIC_EOI_ID.pg (ctlPage c)).i target.val) → exec (.ficEoi r c target id) s = .next s)) ∧
  (∀ (r : Req) (c : Ctl) (target : Fin 8) (s : State),
    s.mayWrite r ((F.FIC_EOI_ID.pg (ctlPage c)).i target.val) → exec (.ficEoi r c target 1023) s = .next s) ∧
  (∀ (r : Req) (c : Ctl) (target : Fin 8) (id : BitVec 10) (s : State),
    s.mayWrite r ((F.FIC_EOI_ID.pg (ctlPage c)).i target.val) → irqTargetExists c target.val = true →
    id.toNat ≠ 1023 → (s.irqStack c target.val).head?.map Prod.fst ≠ some id.toNat →
    exec (.ficEoi r c target id) s = .next (s.err (ctlPage c) 0))

/-- A moderation group with a time limit, or whose count is reached, releases every pending source of the group, and HELD reads
0; with neither, nothing happens. A control core that enters WFI from RUN takes CORE_STATUS.STATE 2 (one in WFI stays so), and a PIC
target idles, and every pending, moderated source for that target is released; a core in another state and a target that is not
there change nothing.
Where a clause rests on a corner that the spec leaves open, it states the choice of the model: log 4.
Completion is stated here of: modGroupRelease, wfiRelease. -/
def Obligations.ModerationReleasesHeldSources : Prop :=
  (∀ (c : Ctl) (group : Fin 32) (s : State),
    s.on ((F.FIC_MOD_TIME_US.pg (ctlPage c)).i group.val) = true ∨
      max 1 (s.rd ((F.FIC_MOD_COUNT.pg (ctlPage c)).i group.val)) ≤
        (Sparse.get modDefault (s.ctl c).groups group.val).count →
    Does (.modGroupRelease c group) s (fun t => (∀ src ∈ s.irqGroupIds c group.val, src ∈ (t.ctl c).released) ∧
      t.rd ((F.FIC_MOD_HELD.pg (ctlPage c)).i group.val) = 0 ∧ s.logsBut t (fun _ => False))) ∧
  (∀ (c : Ctl) (group : Fin 32) (s : State), s.rd ((F.FIC_MOD_TIME_US.pg (ctlPage c)).i group.val) = 0 →
    (Sparse.get modDefault (s.ctl c).groups group.val).count <
      max 1 (s.rd ((F.FIC_MOD_COUNT.pg (ctlPage c)).i group.val)) → exec (.modGroupRelease c group) s = .next s) ∧
  (∀ (f : Frond) (target : Fin 8) (s : State),
    s.rd (F.CORE_STATUS_STATE.pg (corePage f target.val)) = 1 ∨
      s.rd (F.CORE_STATUS_STATE.pg (corePage f target.val)) = 2 →
    Does (.wfiRelease (.fic f) target) s (fun t => t.rd (F.CORE_STATUS_STATE.pg (corePage f target.val)) = 2 ∧
      (∀ src < 1024, s.irqPending (.fic f) src = true → s.on (srcField (.fic f) F.SRC_MOD_EN src) = true →
        s.irqTarget (.fic f) src = target.val → src ∈ (t.ctl (.fic f)).released) ∧
      s.logsBut t (fun k => k = (F.CORE_STATUS_STATE.pg (corePage f target.val)).key))) ∧
  (∀ (f : Frond) (target : Fin 8) (s : State),
    s.rd (F.CORE_STATUS_STATE.pg (corePage f target.val)) ≠ 1 →
    s.rd (F.CORE_STATUS_STATE.pg (corePage f target.val)) ≠ 2 → exec (.wfiRelease (.fic f) target) s = .next s) ∧
  (∀ (target : Fin 8) (s : State), 2 ≤ target.val → exec (.wfiRelease .pic target) s = .next s) ∧
  (∀ (target : Fin 8) (s : State), target.val < 2 →
    Does (.wfiRelease .pic target) s (fun t => target.val ∈ t.pic.wfi ∧
      (∀ src < 1024, s.irqPending .pic src = true → s.on (srcField .pic F.SRC_MOD_EN src) = true →
        s.irqTarget .pic src = target.val → src ∈ t.pic.released) ∧ s.logsBut t (fun _ => False)))

/-- FREEZE on a recorder that runs records event 0xF001 and then holds records: FREEZE reads 1 and nothing is held yet; on a frozen
one it changes nothing, unless UNFREEZE comes with it, which acts first. UNFREEZE and the timeout of 10 s end the freeze in force:
the held records are appended in order, event 0xF002 with their number, the number dropped and its cause (0 or 1) follows, and what
the mirror lost by it is recorded; with no freeze in force they change nothing. A mirror write of the up to 128 oldest waiting
records puts them in the flash ring and REC_MIRRORED passes the last; one that fails is retried once, and a second failure sets
FLASH_FAIL and records event 0xF021; with no record waiting nothing is written.
Where a clause rests on a corner that the spec leaves open, it states the choice of the model: log 61.
Completion is stated here of: mirrorBlockWrite, recFreeze, recUnfreeze, freezeTimeout. -/
def Obligations.FreezeHoldsAndMirrorWrites : Prop :=
  (∀ (r : Req) (also : Bool) (s : State), s.mayWrite r F.REC_CTRL_FREEZE →
    (s.rd F.REC_CTRL_FREEZE = 0 ∨ also = true →
      Does (.recFreeze r also) s (fun t => t.rd F.REC_CTRL_FREEZE = 1 ∧ t.recorder.held = [] ∧ t.recorder.dropped = 0 ∧
        t.recorder.frozenAt = s.now ∧ s.logsBut t (fun k => k = F.REC_CTRL_FREEZE.key))) ∧
    (s.rd F.REC_CTRL_FREEZE = 0 → Does (.recFreeze r also) s (fun t => ∃ u : State, u = s.event 0x88 0xF001 ∧
      t = ({ u with recorder := { u.recorder with held := [], dropped := 0, frozenAt := s.now } }).wr F.REC_CTRL_FREEZE 1)) ∧
    (s.rd F.REC_CTRL_FREEZE = 1 → exec (.recFreeze r false) s = .next s)) ∧
  (∀ (r : Req) (s : State), s.rd F.REC_CTRL_FREEZE = 1 →
    (s.mayWrite r F.REC_CTRL_UNFREEZE → Does (.recUnfreeze r) s (fun t => s.unfrozen t 0)) ∧
    Does .freezeTimeout s (fun t => s.unfrozen t 1)) ∧
  (∀ (s t : State) (cause : Nat), s.unfrozen t cause → t.rd F.REC_CTRL_FREEZE = 0 ∧ t.recorder.held = [] ∧
    s.logsBut t (fun k => k = F.REC_CTRL_FREEZE.key)) ∧
  (∀ (r : Req) (s : State), s.rd F.REC_CTRL_FREEZE = 0 →
    (s.mayWrite r F.REC_CTRL_UNFREEZE → exec (.recUnfreeze r) s = .next s) ∧ exec .freezeTimeout s = .next s) ∧
  (∀ (x : Rec) (l : List Rec) (s : State), s.recWaiting.take 128 = l ++ [x] →
    Does (.mirrorBlockWrite true) s (fun t => t.rd F.REC_MIRRORED_INDEX = (x.idx + 1) % 2 ^ 64 ∧
      t.recorder.flash = (x :: l.reverse ++ s.recorder.flash).take 262144 ∧ t.recorder.flashRetry = false ∧
      t = { s with regs := t.regs, recorder := t.recorder } ∧ s.regsBut t (fun k => k = F.REC_MIRRORED_INDEX.key))) ∧
  (∀ (ok : Bool) (s : State), s.recWaiting = [] → exec (.mirrorBlockWrite ok) s = .next s) ∧
  (∀ s : State, s.recWaiting ≠ [] → s.recorder.flashRetry = false →
    exec (.mirrorBlockWrite false) s = .next { s with recorder := { s.recorder with flashRetry := true } }) ∧
  (∀ s : State, s.recWaiting ≠ [] → s.recorder.flashRetry = true →
    exec (.mirrorBlockWrite false) s = .next
      ((({ s with recorder := { s.recorder with flashRetry := false } }).err 0x88 0).event 0x88 0xF021))

/-- A write of REC_RD_SEL keeps the selection for its requester and sets BUSY. When the load ends, REC_RD_W hold the four words
of the selected record, or zeros with GONE where the ring no longer holds it, and BUSY is 0. The registers are the requester's
own, and nothing else changes; with no load under way nothing changes at all.
Where a clause rests on a corner that the spec leaves open, it states the choice of the model: log 61.
Completion is stated here of: recRdSelWrite, recRdLoadDone. -/
def Obligations.RecordsAreReadByIndex : Prop :=
  (∀ (r : Req) (flash : Bool) (index : BitVec 48) (s : State), s.mayWrite r F.REC_RD_SEL_INDEX →
    Does (.recRdSelWrite r flash index) s (fun t =>
      t.sel r F.REC_RD_SEL_INDEX.key = b2n flash * 2 ^ 63 + index.toNat ∧ t.sel r F.REC_RD_STATUS_BUSY.key = 1 ∧
      t = { s with sels := t.sels })) ∧
  (∀ (r : Req) (x : Rec) (s : State), bitOf (s.sel r F.REC_RD_STATUS_BUSY.key) 0 = true →
    s.recAt (bitOf (s.sel r F.REC_RD_SEL_INDEX.key) 63) (s.sel r F.REC_RD_SEL_INDEX.key % 2 ^ 48) = some x →
    Does (.recRdLoadDone r) s (fun t => t.sel r F.REC_RD_STATUS_BUSY.key = 0 ∧
      t.sel r (F.REC_RD_W_WORD.i 0).key = x.w0.toNat ∧ t.sel r (F.REC_RD_W_WORD.i 1).key = x.w1.toNat ∧
      t.sel r (F.REC_RD_W_WORD.i 2).key = x.w2.toNat ∧ t.sel r (F.REC_RD_W_WORD.i 3).key = x.w3.toNat ∧
      t = { s with sels := t.sels })) ∧
  (∀ (r : Req) (s : State), bitOf (s.sel r F.REC_RD_STATUS_BUSY.key) 0 = true →
    s.recAt (bitOf (s.sel r F.REC_RD_SEL_INDEX.key) 63) (s.sel r F.REC_RD_SEL_INDEX.key % 2 ^ 48) = none →
    Does (.recRdLoadDone r) s (fun t => t.sel r F.REC_RD_STATUS_BUSY.key = 2 ∧
      (∀ w < 4, t.sel r (F.REC_RD_W_WORD.i w).key = 0) ∧ t = { s with sels := t.sels })) ∧
  (∀ (r : Req) (s : State), bitOf (s.sel r F.REC_RD_STATUS_BUSY.key) 0 = false → exec (.recRdLoadDone r) s = .next s)

/-- By a requester that the page REC_CLR admits: NONCE_REQ writes four fresh free words and the nonce is live; PTR_RESET empties the block; each
AUTH_DATA word is kept and counted up to 424, and one beyond is kept in mind; VERIFY starts a verification and RESULT reads BUSY,
and while frozen, verifying or erasing it is refused with result BUSY and event 0xF011. The end of a verification uses the nonce:
a result other than OK reads in RESULT and is recorded as event 0xF011; on OK event 0xF010 is recorded and mirrored, and the erasure
of records in scope older than the clear's own record begins. At its end the rings in scope hold only the records from that one on.
With no verification and no erasure under way their ends change nothing.
Where a clause rests on a corner that the spec leaves open, it states the choice of the model: log 61.
Completion is stated here of: recClrNonceReq, recClrPtrReset, recAuthDataWrite, recClrVerify, recClrResult,
recClearEraseDone. -/
def Obligations.AuthorisedClearErasesOlderRecords : Prop :=
  (∀ (r : Req) (s : State), s.mayWrite r F.REC_CLR_CMD_NONCE_REQ →
    Does (.recClrNonceReq r) s (fun t => t.recorder.nonceLive = true ∧ t.draws = s.draws + 4 ∧
      (∀ w < 4, t.rd (F.REC_NONCE_NONCE.i w) = Config.freeNat (s.draws + w) % 2 ^ 64) ∧
      t = { s with regs := t.regs, draws := t.draws, recorder := t.recorder } ∧
      s.regsBut t (fun k => ∃ w < 4, k = (F.REC_NONCE_NONCE.i w).key)) ∧
    exec (.recClrPtrReset r) s = .next
      (({ s with recorder := { s.recorder with authWords := [], authOver := false } }).wr F.REC_CLR_STATUS_WORDS 0) ∧
    (∀ word : BitVec 64, s.recorder.authWords.length < 424 → exec (.recAuthDataWrite r word) s = .next
      (({ s with recorder := { s.recorder with authWords := word :: s.recorder.authWords } }).wr F.REC_CLR_STATUS_WORDS
        (s.recorder.authWords.length + 1))) ∧
    (∀ word : BitVec 64, 424 ≤ s.recorder.authWords.length →
      exec (.recAuthDataWrite r word) s = .next { s with recorder := { s.recorder with authOver := true } }) ∧
    (s.rd F.REC_CTRL_FREEZE = 0 → s.recorder.verifying = false → s.recorder.erasing = none →
      exec (.recClrVerify r) s = .next
        (({ s with recorder := { s.recorder with verifying := true } }).wr F.REC_CLR_STATUS_RESULT 1)) ∧
    (s.rd F.REC_CTRL_FREEZE = 1 ∨ s.recorder.verifying = true ∨ s.recorder.erasing ≠ none →
      exec (.recClrVerify r) s = .next ((s.wr F.REC_CLR_STATUS_RESULT 1).event 0x8A 0xF011 1))) ∧
  (∀ s : State, s.recorder.verifying = true → s.recClrResult ≠ 2 →
    Does .recClrResult s (fun t => t.rd F.REC_CLR_STATUS_RESULT = s.recClrResult ∧
      t.recorder.verifying = false ∧ t.recorder.nonceLive = false ∧
      s.logsBut t (fun k => k = F.REC_CLR_STATUS_RESULT.key) ∧ ∃ u : State,
      u = { s with recorder := { s.recorder with verifying := false, nonceLive := false } } ∧
      t = (u.wr F.REC_CLR_STATUS_RESULT s.recClrResult).event 0x8A 0xF011 s.recClrResult)) ∧
  (∀ s : State, s.recorder.verifying = true → s.recClrResult = 2 →
    Does .recClrResult s (fun t => t.rd F.REC_CLR_STATUS_RESULT = 2 ∧ t.recorder.verifying = false ∧
      t.recorder.nonceLive = false ∧
      t.recorder.erasing = some (authWord s.recorder.authWords 0 / 2 ^ 32 % 4, s.rd F.REC_WRITTEN_INDEX) ∧ ∃ u v : State,
      u = { s with recorder := { s.recorder with verifying := false, nonceLive := false } } ∧
      v = (u.event 0x8A 0xF010 (authWord s.recorder.authWords 0 / 2 ^ 32 % 4)
        (wordOf ((authDigest s.recorder.authWords).take 4)).toNat (s.rd F.REC_WRITTEN_INDEX)).recFlush ∧
      t = ({ v with recorder := { v.recorder with erasing := t.recorder.erasing } }).wr F.REC_CLR_STATUS_RESULT 2)) ∧
  (∀ s : State, s.recorder.verifying = false → exec .recClrResult s = .next s) ∧
  (∀ s : State, s.recorder.erasing = none → exec .recClearEraseDone s = .next s) ∧
  (∀ (scope own : Nat) (s : State), s.recorder.erasing = some (scope, own) →
    Does .recClearEraseDone s (fun t => t.recorder.erasing = none ∧
      (bitOf scope 0 = true → ∀ x ∈ t.recorder.ring, own ≤ x.idx) ∧
      (bitOf scope 1 = true → ∀ x ∈ t.recorder.flash, own ≤ x.idx) ∧
      (∀ x ∈ s.recorder.ring, own ≤ x.idx → x ∈ t.recorder.ring) ∧
      (∀ x ∈ s.recorder.flash, own ≤ x.idx → x ∈ t.recorder.flash) ∧
      t = { s with regs := t.regs, recorder := t.recorder } ∧ s.regsBut t (fun k => k = F.REC_CLR_STATUS_RESULT.key) ∧ t.rd F.REC_CLR_STATUS_RESULT = 2))

/-- When the always-on domain comes up, MOD_INDEX takes MOD_ID, POWER_CYCLES is raised, start-up is at step 1, memory lists
nothing and WAKE_N keeps its level; a domain that is up does not come up again. RST_N low and the loss of the always-on supply put all logic in reset: the
domain is down, every byte of memory reads 0, the flash ring of records stays, and so do the commands that wait; the crash dump
in SRAM stays under RST_N and is lost with the supply. At the end of a stop with the rails down the module is in STANDBY: MODE and
STEP read 0, no stop runs and memory is lost; before that nothing ends. A bus that returns in STANDBY, outside a stop, HALTED, FAILED,
RECOVERY and a requested power cycle, restarts start-up at step 4, and otherwise changes nothing.
Where a clause rests on a corner that the spec leaves open, it states the choice of the model: logs 67 and 68.
Completion is stated here of: alwaysOnComeUp, rstNLow, stopComplete, alwaysOnPowerLoss, standbyBusReturn. -/
def Obligations.SupplyResetsAndComesUp : Prop :=
  (∀ (modId : BitVec 6) (dumpOk faultOk : Bool) (s : State),
    (s.boot.up = false → Does (.alwaysOnComeUp modId dumpOk faultOk) s (fun t => t.boot.up = true ∧
      t.rd F.SYS_BOOT_STEP = 1 ∧ t.rd F.LINK_ID_MOD_INDEX = modId.toNat ∧ t.mem = [] ∧ t.pending = s.pending ∧
      t.chain.wakeN = s.chain.wakeN ∧
      t.rd F.SYS_UPTIME_POWER_CYCLES = (s.rd F.SYS_UPTIME_POWER_CYCLES + 1) % 2 ^ F.SYS_UPTIME_POWER_CYCLES.width)) ∧
    (s.boot.up = true → exec (.alwaysOnComeUp modId dumpOk faultOk) s = .next s)) ∧
  (∀ s : State,
    Does .rstNLow s (fun t => t.boot.up = false ∧ (∀ a, t.byte a = 0) ∧ t.recorder.flash = s.recorder.flash ∧
      t.dump.sram = s.dump.sram ∧ t.pending = s.pending) ∧
    Does .alwaysOnPowerLoss s (fun t => t.boot.up = false ∧ (∀ a, t.byte a = 0) ∧ t.recorder.flash = s.recorder.flash ∧
      t.dump.sram = none ∧ t.pending = s.pending)) ∧
  (∀ s : State,
    (s.power.stopPhase = 2 → s.railsDown = true →
      Does .stopComplete s (fun t => t.power.stopPhase = 0 ∧ t.mode = 0 ∧ t.rd F.SYS_BOOT_STEP = 0 ∧ t.mem = [])) ∧
    (s.power.stopPhase ≠ 2 ∨ s.railsDown = false → exec .stopComplete s = .next s)) ∧
  (∀ s : State,
    (s.boot.up = true → s.mode = 0 → s.power.stopPhase = 0 → s.rd F.SYS_BOOT_STEP = 0 →
      s.rd F.SYS_BOOT_STATE ≤ 2 → s.rd F.MCOL_STATUS_PC_REQ = 0 →
      exec .standbyBusReturn s =
        .next ((((({ s with boot := { s.boot with retried := false } }).wr F.SYS_BOOT_RT_STATE 0).wr F.SYS_BOOT_STEP 4).wr
          F.SYS_BOOT_STATE 1).loadPower)) ∧
    (s.boot.up = false ∨ s.mode ≠ 0 ∨ s.power.stopPhase ≠ 0 ∨ s.rd F.SYS_BOOT_STEP ≠ 0 ∨ 2 < s.rd F.SYS_BOOT_STATE ∨
      s.rd F.MCOL_STATUS_PC_REQ = 1 → exec .standbyBusReturn s = .next s))

/-- With the domain up and no stop: the ROM's self-test of step 1 leads to step 2 or halts with code 1; step 2 keeps the digest of the
identity key and leads to step 3 or halts with code 2; step 3 verifies the images; step 4 ends with the IB in its band, and a pack
present begins its insertion, or fails with code 7; step 5 ends with every rail good, in BUS_ONLY at step 6; step 6, after the self-test
under LBIST, begins the full calibration; step 7 ends with it and HBM and bridge begin to train; step 8 trains them, then zeroes HBM
and the ports train; step 9 leads to step 10 once no port trains, and step 10 to step 11. Otherwise, and outside start-up and RECOVERY,
nothing changes. The bus wait of step 4 and of RECOVERY ends, both HVIL loops being closed, with LS0 and LS2 closing and the soft
start of the IB. A runtime that is not READY in time, outside a handover, sets RT_STATE 3 with code 0x0A. A rail that does not start is recorded and stops the rails; the
first time step 5 is to be repeated, with failure 5 and code 8, the second time start-up has FAILED.
Where a clause rests on a corner that the spec leaves open, it states the choice of the model: logs 67 and 68.
Completion is stated here of: startupStepComplete, startupBusWaitEnd, runtimeReadyTimeout, railStartFail. -/
def Obligations.StartupStepsFollowOrFail : Prop :=
  (∀ (res : Training) (s : State), s.boot.up = true → s.power.stopPhase = 0 →
    (s.rd F.SYS_BOOT_STEP = 1 → res.ok = true →
      exec (.startupStepComplete res) s = .next (s.wr F.SYS_BOOT_STEP 2)) ∧
    (∀ n : Nat, n = 1 ∨ n = 2 → s.rd F.SYS_BOOT_STEP = n → res.ok = false →
      Does (.startupStepComplete res) s (fun t => t.rd F.SYS_BOOT_STATE = 4 ∧ t.rd F.SYS_BOOT_STEP = 0 ∧
        t.rd F.SYS_BOOT_FAIL_STEP = n ∧ t.rd F.SYS_BOOT_FAIL_CODE = n ∧ t.rd F.MCOL_STATUS_FAULT_N_OUT = 1)) ∧
    (s.rd F.SYS_BOOT_STEP = 2 → res.ok = true →
      Does (.startupStepComplete res) s (fun t => t.rd F.SYS_BOOT_STEP = 3 ∧
        (∀ w < 4, t.rd (F.SYS_ID_HASH_HASH.i w) = (digestWords (keyDigest identityKey)).getD w 0 % 2 ^ 64) ∧ s.onlyRegs t)) ∧
    (s.rd F.SYS_BOOT_STEP = 3 → exec (.startupStepComplete res) s = .next s.bootImages) ∧
    (s.rd F.SYS_BOOT_STEP = 4 → s.rd F.FC_STATUS_STATE = 1 → res.ok = false →
      exec (.startupStepComplete res) s = .next (s.bootFailed 4 7 5)) ∧
    (s.rd F.SYS_BOOT_STEP = 4 → s.rd F.FC_STATUS_STATE = 1 → res.ok = true → Does (.startupStepComplete res) s (fun t =>
      ∃ u : State, u = (({ s with boot := { s.boot with retried := false } }).wr F.FC_STATUS_STATE 2).wr F.SYS_BOOT_STEP 5 ∧
        t = if s.rd F.PACK_STATUS_PRSNT = 0 then u else u.insertBegin)) ∧
    (s.rd F.SYS_BOOT_STEP = 5 → s.rd F.RAIL_SYS_STATUS_ALL_PGOOD = 1 → exec (.startupStepComplete res) s =
      .next ((((s.changeMode 1 true).wr F.SYS_BOOT_STEP 6).cfgRest 5 onFrond).arbBoth)) ∧
    (s.rd F.SYS_BOOT_STEP = 6 → exec (.startupStepComplete res) s =
      .next (((if s.rd F.RST_CTRL_LBIST = 0 then s else s.lbistFences res.lbistBad true).wr F.SYS_BOOT_STEP 7).calBegin)) ∧
    (s.rd F.SYS_BOOT_STEP = 7 → s.calDone = true → exec (.startupStepComplete res) s =
      .next (((s.wr F.SYS_BOOT_STEP 8).cfgLoad 6 (fun _ => true)).memTrainBegin)) ∧
    (s.rd F.SYS_BOOT_STEP = 8 → s.rd (hf F.BRIDGE_STATUS_STATE 0) = 0 →
      exec (.startupStepComplete res) s = .next (s.memTrain res)) ∧
    (s.rd F.SYS_BOOT_STEP = 8 → s.rd (hf F.BRIDGE_STATUS_STATE 0) ≠ 0 → exec (.startupStepComplete res) s =
      .next (((((s.stacksReady).memZero 0 0xA000000000).wr F.SYS_BOOT_STEP 9).cfgLoad 7 (onKind .lport)).portsTrain)) ∧
    (s.rd F.SYS_BOOT_STEP = 9 → s.portsDone = true →
      exec (.startupStepComplete res) s = .next (s.wr F.SYS_BOOT_STEP 10).hostTrain) ∧
    (s.rd F.SYS_BOOT_STEP = 10 → exec (.startupStepComplete res) s = .next (s.wr F.SYS_BOOT_STEP 11)) ∧
    (s.rd F.SYS_BOOT_STEP = 4 ∧ s.rd F.FC_STATUS_STATE ≠ 1 ∨ s.rd F.SYS_BOOT_STEP = 5 ∧ s.rd F.RAIL_SYS_STATUS_ALL_PGOOD = 0 ∨
      s.rd F.SYS_BOOT_STEP = 7 ∧ s.calDone = false ∨ s.rd F.SYS_BOOT_STEP = 9 ∧ s.portsDone = false ∨
      s.rd F.SYS_BOOT_STEP = 0 ∧ s.rd F.SYS_BOOT_STATE ≠ 3 → exec (.startupStepComplete res) s = .next s)) ∧
  (∀ s : State, s.power.hvilA = false ∨ s.power.hvilB = false → exec .startupBusWaitEnd s = .next s) ∧
  (∀ (res : Training) (s : State), s.boot.up = false ∨ s.power.stopPhase ≠ 0 →
    exec (.startupStepComplete res) s = .next s ∧ exec .startupBusWaitEnd s = .next s) ∧
  (∀ s : State, s.boot.up = true → s.power.stopPhase = 0 → s.mode = 0 → s.rd F.FC_STATUS_STATE = 0 →
    s.power.hvilA = true → s.power.hvilB = true →
    (s.rd F.SYS_BOOT_STATE = 1 → s.rd F.SYS_BOOT_STEP = 4 → exec .startupBusWaitEnd s =
      .next ((((s.lsClose 0).lsClose 2).wr F.FC_STATUS_STATE 1).wr F.SYS_BOOT_STATE 0)) ∧
    (s.rd F.SYS_BOOT_STATE = 3 →
      exec .startupBusWaitEnd s = .next (((s.lsClose 0).lsClose 2).wr F.FC_STATUS_STATE 1))) ∧
  (∀ s : State,
    (s.rd F.SYS_BOOT_RT_STATE = 1 → ¬ (s.fw.unit = 2 ∧ s.rd F.FW_STATUS_STATE = 5) → exec .runtimeReadyTimeout s =
      .next ((((s.wr F.SYS_BOOT_RT_STATE 3).wr F.SYS_BOOT_FAIL_STEP 11).wr F.SYS_BOOT_FAIL_CODE 0x0A).event 0 0x0003 11 0x0A)) ∧
    (s.rd F.SYS_BOOT_RT_STATE ≠ 1 ∨ s.fw.unit = 2 ∧ s.rd F.FW_STATUS_STATE = 5 →
      exec .runtimeReadyTimeout s = .next s)) ∧
  (∀ (rail : Fin 12) (s : State),
    (s.railSys.seq = 1 → s.railState rail.val = 1 → Does (.railStartFail rail) s (fun t => ∃ u : State,
      u = (((s.err (railPage rail.val) 8).event (railPage rail.val) 0x2030).railLastFault rail.val 8 0).railsStop ∧
      (s.boot.retried = false → t = ({ u with boot := { u.boot with retried := true } }).bootFail 5 8 ∧
        t.rd F.SYS_BOOT_FAIL_STEP = 5 ∧ t.rd F.SYS_BOOT_FAIL_CODE = 8) ∧
      (s.boot.retried = true → t = u.bootFailed 5 8 7))) ∧
    (s.railSys.seq ≠ 1 ∨ s.railState rail.val ≠ 1 → exec (.railStartFail rail) s = .next s))

/-- PTR_RESET zeroes CFG_PTR. A write of CFG_DATA puts the word at the pointer and raises it; a read answers the word there and
raises it. COMMIT, while no flash write runs, checks the buffer as the selected block: it reports the first reason and RESULT 3,
or starts the flash write with RESULT 1; while one runs it does nothing. At the write's end the block is stored, RESULT reads 2 and
event 0x0021 is recorded; a write that failed gives RESULT 3 and ERR_STATUS bit 3 of SYS; with none under way nothing happens. ERASE
removes the stored block. READ puts the stored block in the buffer, with 0 beyond it. A read of DUMP_DATA answers the word at DUMP_SEL
and raises the offset.
Where a clause rests on a corner that the spec leaves open, it states the choice of the model: logs 62, 63, 64, 65, 66 and 72.
Completion is stated here of: dumpDataRead, cfgPtrReset, cfgCommit, cfgFlashWriteDone, cfgRead, cfgErase, cfgDataAccess. -/
def Obligations.ConfigurationBufferCommandsAct : Prop :=
  ∀ (r : Req) (s : State),
    (s.mayWrite r F.CFG_CMD_PTR_RESET →
      (∃ t, exec (.cfgPtrReset r) s = .next t ∧ t.rd F.CFG_PTR_WORD = 0 ∧ s.onlyRegs t ∧
        s.regsBut t (fun k => k = F.CFG_PTR_WORD.key)) ∧
      (∃ t, exec (.cfgRead r) s = .next t ∧ t = { s with cfg := t.cfg } ∧
        ∀ i < ((s.cfgStored (s.rd F.CFG_SEL_ID)).getD []).length,
          t.cfgBuf i = ((s.cfgStored (s.rd F.CFG_SEL_ID)).getD []).getD i 0) ∧
      Does (.cfgRead r) s (fun t => ∀ i, ((s.cfgStored (s.rd F.CFG_SEL_ID)).getD []).length ≤ i → t.cfgBuf i = 0) ∧
      exec (.cfgErase r) s = .next (s.cfgSetStored (s.rd F.CFG_SEL_ID) none) ∧
      (s.cfg.writing = none → (cfgCheck (s.rd F.CFG_SEL_ID) (some s.cfgBufBlock)).1 = 0 →
        Does (.cfgCommit r) s (fun t => t.cfg.writing = some (s.rd F.CFG_SEL_ID, s.cfgBufBlock) ∧
          t.rd F.CFG_WR_STATUS_RESULT = 1 ∧ t.rd F.CFG_WR_STATUS_REASON = 0 ∧
          t = { s with regs := t.regs, cfg := { s.cfg with writing := t.cfg.writing } } ∧
          s.regsBut t (fun k => k = F.CFG_WR_STATUS_RESULT.key))) ∧
      (s.cfg.writing = none → (cfgCheck (s.rd F.CFG_SEL_ID) (some s.cfgBufBlock)).1 ≠ 0 →
        Does (.cfgCommit r) s (fun t => t.rd F.CFG_WR_STATUS_RESULT = 3 ∧ t.rd F.CFG_WR_STATUS_REASON =
          (cfgCheck (s.rd F.CFG_SEL_ID) (some s.cfgBufBlock)).1 % 2 ^ F.CFG_WR_STATUS_REASON.width ∧ s.onlyRegs t ∧
          s.regsBut t (fun k => k = F.CFG_WR_STATUS_RESULT.key))) ∧
      (s.cfg.writing.isSome = true → exec (.cfgCommit r) s = .next s)) ∧
    (s.mayWrite r F.CFG_DATA_WORD → ∀ v : BitVec 64,
      Does (.cfgDataAccess r (some v)) s (fun t => t.cfgBuf (s.rd F.CFG_PTR_WORD) = v ∧
        t.rd F.CFG_PTR_WORD = (s.rd F.CFG_PTR_WORD + 1) % 2 ^ F.CFG_PTR_WORD.width ∧
        (∀ i, i ≠ s.rd F.CFG_PTR_WORD → t.cfgBuf i = s.cfgBuf i))) ∧
    (s.cfg.writing = none → ∀ ok : Bool, exec (.cfgFlashWriteDone ok) s = .next s) ∧
    (s.pageFault r F.CFG_DATA_WORD.page false = none →
      exec (.cfgDataAccess r none) s = .next (s.cfgStep.put (.answer true false (wordBytes (s.cfgBuf (s.rd F.CFG_PTR_WORD)))))) ∧
    (∀ (id : Nat) (l : List Word), s.cfg.writing = some (id, l) →
      exec (.cfgFlashWriteDone true) s = .next
        (((({ s with cfg := { s.cfg with writing := none } }).cfgSetStored id (some l)).wr F.CFG_WR_STATUS_RESULT 2).event
          2 0x0021) ∧
      exec (.cfgFlashWriteDone false) s = .next
        ((({ s with cfg := { s.cfg with writing := none } }).wr F.CFG_WR_STATUS_RESULT 3).err 0 3)) ∧
    (s.pageFault r F.DUMP_DATA_WORD.page false = none →
      exec (.dumpDataRead r) s = .next ((s.inc F.DUMP_SEL_OFFSET).put (.answer true false (wordBytes s.dumpWord))))

/-- NONCE_REQ writes four free words and the nonce is live. PTR_RESET empties the block; a word is kept and counted up to 428, and
one beyond is kept in mind. EXECUTE while none runs starts the op with RESULT BUSY, and while one runs does nothing. The end of an op
uses the nonce: with another result than OK nothing is blown, RESULT reads it, ERR_STATUS bit 0 sets and 0x0041 is recorded; with OK
the fuses are blown and 0x0040 is recorded, and a bad read-back sets ERR_STATUS bit 1; with none running nothing happens. The ops blow,
by their code: 1 DEBUG_CLOSED, which ends the unlock; 2 an owner hash with its VALID bit; 3 and 4 a root or owner slot's REVOKED bit;
5 ROLLBACK; 6 OWNER_REQ; each nothing else. A nonce expires. DBG_UNLOCK at L0 is ignored once debug is closed, and otherwise takes the
value, with event 0x0050 when it is newly set; from another level a write that would change it is a privilege error.
Where a clause rests on a corner that the spec leaves open, it states the choice of the model: logs 62, 63, 64, 65, 66 and 72.
Completion is stated here of: nonceExpire, fuseNonceReq, fusePtrReset, fuseAuthDataWrite, fuseExecute, fuseOpDone,
dbgUnlockWrite. -/
def Obligations.FuseCommandsBlowOnlyWhatIsAccepted : Prop :=
  (∀ (r : Req) (s : State), s.mayWrite r F.FUSE_CMD_NONCE_REQ →
    Does (.fuseNonceReq r) s (fun t => t.fuse = { s.fuse with nonceLive := true } ∧ t.draws = s.draws + 4 ∧
      (∀ w < 4, t.rd (F.FUSE_NONCE_NONCE.i w) = Config.freeNat (s.draws + w) % 2 ^ 64) ∧
      s.regsBut t (fun k => ∃ w < 4, k = (F.FUSE_NONCE_NONCE.i w).key) ∧
      t = { s with regs := t.regs, draws := t.draws, fuse := t.fuse }) ∧
    exec (.fusePtrReset r) s = .next
      (({ s with fuse := { s.fuse with words := [], overrun := false } }).wr F.FUSE_RESULT_WORDS 0) ∧
    (∀ word : BitVec 64, s.fuse.words.length < 428 → exec (.fuseAuthDataWrite r word) s = .next
      (({ s with fuse := { s.fuse with words := word :: s.fuse.words } }).wr F.FUSE_RESULT_WORDS (s.fuse.words.length + 1))) ∧
    (∀ word : BitVec 64, 428 ≤ s.fuse.words.length →
      exec (.fuseAuthDataWrite r word) s = .next { s with fuse := { s.fuse with overrun := true } }) ∧
    (s.fuse.running = false → exec (.fuseExecute r) s = .next
      (({ s with fuse := { s.fuse with running := true } }).wr F.FUSE_RESULT_RESULT 1)) ∧
    (s.fuse.running = true → exec (.fuseExecute r) s = .next s)) ∧
  (∀ (good : Bool) (s : State), s.fuse.running = false → exec (.fuseOpDone good) s = .next s) ∧
  (∀ (good : Bool) (s : State), s.fuse.running = true → s.fuseResult ≠ 2 →
    exec (.fuseOpDone good) s = .next (((({ s with fuse := { s.fuse with running := false, nonceLive := false } }).wr
      F.FUSE_RESULT_RESULT s.fuseResult).err 1 0).event 1 0x0041)) ∧
  (∀ (l : List Nat) (s : State), 1 ≤ byteAt l 4 → byteAt l 4 ≤ 6 →
    (byteAt l 4 = 1 → (s.fuseBlow l).rd F.FUSE_STATE_DEBUG_CLOSED = 1 ∧ (s.fuseBlow l).rd F.DBG_CTRL_CLOSED = 1 ∧
      (s.fuseBlow l).rd F.DBG_CTRL_UNLOCK = 0) ∧
    (byteAt l 4 = 2 → byteAt l 5 < 4 → bitOf ((s.fuseBlow l).rd F.FUSE_STATE_OWNER_VALID) (byteAt l 5) = true ∧
      ∀ w < 4, (s.fuseBlow l).rd (F.OWNER_HASH_HASH.ij (byteAt l 5) w) = leAt l (48 + 8 * w) 8 % 2 ^ 64) ∧
    (byteAt l 4 = 3 → byteAt l 5 < 4 → bitOf ((s.fuseBlow l).rd F.FUSE_STATE_ROOT_REVOKED) (byteAt l 5) = true) ∧
    (byteAt l 4 = 4 → byteAt l 5 < 4 → bitOf ((s.fuseBlow l).rd F.FUSE_STATE_OWNER_REVOKED) (byteAt l 5) = true) ∧
    (byteAt l 4 = 5 → (s.fuseBlow l).rd F.FUSE_STATE_ROLLBACK = byteAt l 5 % 2 ^ F.FUSE_STATE_ROLLBACK.width) ∧
    (byteAt l 4 = 6 → (s.fuseBlow l).rd F.FUSE_STATE_OWNER_REQ = 1) ∧ s.onlyRegs (s.fuseBlow l) ∧
    s.regsBut (s.fuseBlow l) (fun k => k = F.FUSE_STATE_ROLLBACK.key ∨ (byteAt l 4 = 1 ∧ k = F.DBG_CTRL_UNLOCK.key) ∨
      (byteAt l 4 = 2 ∧ ∃ w < 4, k = (F.OWNER_HASH_HASH.ij (byteAt l 5) w).key))) ∧
  (∀ (good : Bool) (s : State), s.fuse.running = true → s.fuseResult ≠ 2 →
    Does (.fuseOpDone good) s (fun t => t.rd F.FUSE_RESULT_RESULT = s.fuseResult ∧
      t.fuse = { s.fuse with running := false, nonceLive := false } ∧ bitOf (t.rd (errStatus 1)) 0 = true ∧
      (∀ k, F.FUSE_STATE_ROLLBACK.key = k ∨ (∃ n < 4, ∃ w < 4, k = (F.OWNER_HASH_HASH.ij n w).key) → t.reg k = s.reg k))) ∧
  (∀ s : State, s.fuse.running = true → s.fuseResult = 2 →
    exec (.fuseOpDone true) s = .next
      (((({ s with fuse := { s.fuse with running := false, nonceLive := false } }).wr F.FUSE_RESULT_RESULT 2).fuseBlow
        s.fuseBlock).event 1 0x0040) ∧
    exec (.fuseOpDone false) s = .next
      ((((({ s with fuse := { s.fuse with running := false, nonceLive := false } }).wr F.FUSE_RESULT_RESULT 2).fuseBlow
        s.fuseBlock).err 1 1).event 1 0x0040)) ∧
  (∀ s : State, exec (.nonceExpire true) s = .next { s with fuse := { s.fuse with nonceLive := false } } ∧
    exec (.nonceExpire false) s = .next { s with recorder := { s.recorder with nonceLive := false } }) ∧
  (∀ (r : Req) (value : Bool) (s : State), s.mayWrite r F.DBG_CTRL_UNLOCK → r.level = .L0 →
    (s.rd F.FUSE_STATE_DEBUG_CLOSED ≠ 0 → exec (.dbgUnlockWrite r value) s = .next s) ∧
    (s.rd F.FUSE_STATE_DEBUG_CLOSED = 0 → exec (.dbgUnlockWrite r value) s = .next
      (if value = true ∧ s.rd F.DBG_CTRL_UNLOCK = 0 then (s.wr F.DBG_CTRL_UNLOCK 1).event 0 0x0050
      else s.wr F.DBG_CTRL_UNLOCK (b2n value)))) ∧
  (∀ (r : Req) (value : Bool) (s : State), s.mayWrite r F.DBG_CTRL_UNLOCK → r.level ≠ .L0 →
    b2n value ≠ s.rd F.DBG_CTRL_UNLOCK →
    exec (.dbgUnlockWrite r value) s = .next (s.fieldPriv r F.DBG_CTRL_UNLOCK.page F.DBG_CTRL_UNLOCK.off))

/-- At L0 with a selected unit that exists and no operation in progress: OPEN erases the inactive slot, clears its valid bit and
enters STAGING; LOAD copies the image into it, as much as the slot holds, and enters VERIFYING; of a unit that does not exist both
fail with result 2. In STAGING an APPEND of 1 to 512 bytes puts them after the slot's bytes and PROGRESS counts them (any other count
does nothing); CLOSE enters VERIFYING; with nothing open both do nothing. A verification that succeeds enters READY with event 0x0030;
one that fails enters FAILED with its reason; a slot that could not be written fails with reason 0x0A and ERR_STATUS bit 3 of SYS; none
under way, nothing happens. A command during an operation that it does not belong to only gives RESULT BUSY. ABORT outside HANDOVER
abandons what runs. From another level each is a privilege error.
Where a clause rests on a corner that the spec leaves open, it states the choice of the model: logs 62, 63, 64, 65, 66 and 72.
Completion is stated here of: fwLoad, fwOpen, fwAppend, fwClose, fwStagingDone, fwActivate, fwConfirm, fwAbort. -/
def Obligations.FirmwareStagingCommandsAct : Prop :=
  (∀ (r : Req) (s : State), s.mayWrite r F.FW_CMD_CMD → r.level ≠ .L0 →
    ∀ c ∈ [Instr.fwLoad r, .fwOpen r, .fwAppend r, .fwClose r, .fwAbort r, .fwActivate r, .fwConfirm r],
      exec c s = .next (s.fieldPriv r F.FW_CMD_CMD.page F.FW_CMD_CMD.off)) ∧
  ∀ (r : Req) (s : State), s.mayWrite r F.FW_CMD_CMD → r.level = .L0 →
    (s.fwIdle = true → s.rd F.FW_SEL_UNIT ≤ 5 →
      Does (.fwOpen r) s (fun t => t.rd F.FW_STATUS_STATE = 1 ∧ t.rd F.FW_STATUS_RESULT = 0 ∧ t.rd F.FW_STATUS_PROGRESS = 0 ∧
        t.fw.unit = s.rd F.FW_SEL_UNIT ∧ t.fw.opened = true ∧
        t.slotImage (s.rd F.FW_SEL_UNIT) (1 - s.fwActive (s.rd F.FW_SEL_UNIT)) = [] ∧
        t.rd (validField (s.rd F.FW_SEL_UNIT) (1 - s.fwActive (s.rd F.FW_SEL_UNIT))) = 0 ∧
        t = { s with regs := t.regs, fw := t.fw }) ∧
      Does (.fwLoad r) s (fun t => t.rd F.FW_STATUS_STATE = 2 ∧ t.rd F.FW_STATUS_RESULT = 0 ∧
        t.fw.unit = s.rd F.FW_SEL_UNIT ∧ t.fw.opened = false ∧ ∃ u : State,
        u = (s.wr (validField (s.rd F.FW_SEL_UNIT) (1 - s.fwActive (s.rd F.FW_SEL_UNIT))) 0).wr F.FW_STATUS_PROGRESS 0 ∧
        t.slotImage (s.rd F.FW_SEL_UNIT) (1 - s.fwActive (s.rd F.FW_SEL_UNIT)) =
          (u.fwSource (min (s.rd F.FW_LEN_BYTES) (slotSize (s.rd F.FW_SEL_UNIT)))).2)) ∧
    (s.fwIdle = true → 5 < s.rd F.FW_SEL_UNIT → exec (.fwOpen r) s = .next ((s.wr F.FW_STATUS_RESULT 2).wr F.FW_STATUS_STATE 8) ∧
      exec (.fwLoad r) s = .next ((s.wr F.FW_STATUS_RESULT 2).wr F.FW_STATUS_STATE 8)) ∧
    (s.fwIdle = true → exec (.fwAppend r) s = .next s ∧ exec (.fwClose r) s = .next s) ∧
    (s.fwIdle = false → s.rd F.FW_STATUS_STATE ≠ 1 ∨ s.fw.opened = false →
      exec (.fwAppend r) s = .next (s.wr F.FW_STATUS_RESULT 0x0B) ∧
      exec (.fwClose r) s = .next (s.wr F.FW_STATUS_RESULT 0x0B)) ∧
    (s.rd F.FW_STATUS_STATE = 1 → s.fw.opened = true → s.rd F.FW_BUF_CNT_BYTES = 0 ∨ 512 < s.rd F.FW_BUF_CNT_BYTES →
      exec (.fwAppend r) s = .next s) ∧
    (s.fwIdle = false → exec (.fwLoad r) s = .next (s.wr F.FW_STATUS_RESULT 0x0B) ∧
      exec (.fwOpen r) s = .next (s.wr F.FW_STATUS_RESULT 0x0B) ∧
      exec (.fwActivate r) s = .next (s.wr F.FW_STATUS_RESULT 0x0B) ∧
      exec (.fwConfirm r) s = .next (s.wr F.FW_STATUS_RESULT 0x0B)) ∧
    (s.rd F.FW_STATUS_STATE = 1 → s.fw.opened = true → 1 ≤ s.rd F.FW_BUF_CNT_BYTES → s.rd F.FW_BUF_CNT_BYTES ≤ 512 →
      Does (.fwAppend r) s (fun t =>
        t.slotImage s.fw.unit (1 - s.fwActive s.fw.unit) =
          (s.slotImage s.fw.unit (1 - s.fwActive s.fw.unit) ++ s.fwBuf (s.rd F.FW_BUF_CNT_BYTES)).take
            (slotSize s.fw.unit) ∧
        t.rd F.FW_STATUS_PROGRESS =
          (t.slotImage s.fw.unit (1 - s.fwActive s.fw.unit)).length % 2 ^ F.FW_STATUS_PROGRESS.width ∧
        t = { s with regs := t.regs, fw := t.fw } ∧ s.regsBut t (fun k => k = F.FW_STATUS_PROGRESS.key))) ∧
    (s.rd F.FW_STATUS_STATE = 1 → s.fw.opened = true →
      Does (.fwClose r) s (fun t => t.rd F.FW_STATUS_STATE = 2 ∧ t.rd F.FW_STATUS_RESULT = 0 ∧
        t = { s with regs := t.regs, fw := { s.fw with opened := false } } ∧
        s.regsBut t (fun k => k = F.FW_STATUS_STATE.key))) ∧
    (s.rd F.FW_STATUS_STATE ≠ 5 → exec (.fwAbort r) s = .next s.fwAbandon) ∧
    (s.rd F.FW_STATUS_STATE = 5 → exec (.fwAbort r) s = .next (s.wr F.FW_STATUS_RESULT 0x0B)) ∧
    (∀ written : Bool, s.rd F.FW_STATUS_STATE ≠ 2 → exec (.fwStagingDone written) s = .next s) ∧
    (s.rd F.FW_STATUS_STATE = 2 →
      exec (.fwStagingDone false) s =
        .next (((s.err 0 3).wr F.FW_STATUS_RESULT 0x0A).wr F.FW_STATUS_STATE 8) ∧
      ((s.imageVerify s.fw.unit (1 - s.fwActive s.fw.unit)).2 = 0 →
        exec (.fwStagingDone true) s = .next (((((s.imageVerify s.fw.unit (1 - s.fwActive s.fw.unit)).1).wr F.FW_STATUS_RESULT 0).wr F.FW_STATUS_STATE 3).event 3 0x0030)) ∧
      ((s.imageVerify s.fw.unit (1 - s.fwActive s.fw.unit)).2 ≠ 0 →
        exec (.fwStagingDone true) s = .next ((((s.imageVerify s.fw.unit (1 - s.fwActive s.fw.unit)).1).wr F.FW_STATUS_RESULT
          (s.imageVerify s.fw.unit (1 - s.fwActive s.fw.unit)).2).wr
          F.FW_STATUS_STATE 8)))

/-- ACTIVATE at L0 of the unit that is READY prefers its inactive slot on trial and waits for the safe point (the HBM training image
is on trial at once, with event 0x0031; in RECOVERY a power cycle is requested as well); of another unit, or with none READY, it does
nothing. FW_SAFE_POINT, unless a chip reset runs, the unit is the runtime, the steward is at work or a power core's stop runs, enters
HANDOVER: the unit runs its new slot and the power core's interrupts start over, the first port retrains, or the units' update begins.
In HANDOVER the steward or the power core enters TRIAL with event 0x0031 (the power core with a new evaluation of the arbiter), the
ports go on one by one until none is left, the units' update enters TRIAL once through; otherwise nothing changes. CONFIRM of a unit in
trial ends the trial, enters CONFIRMED and records 0x0032, and of another does nothing. The READY timeout in HANDOVER reverts the unit
to its previous slot, and its core, the runtime or the port restarts on it. RT_READY of a runtime in STARTING sets RT_STATE RUNNING
and records 0x0005; READY reads 1 while the runtime is RUNNING; the runtime's handover completes by it, or begins where it waits.
Where a clause rests on a corner that the spec leaves open, it states the choice of the model: logs 62, 63, 64, 65, 66 and 72.
Completion is stated here of: fwRtReady, fwActivate, fwSafePoint, fwReadyTimeout, fwConfirm. -/
def Obligations.FirmwareActivationHandsOverOrReverts : Prop :=
  (∀ (r : Req) (s : State), s.mayWrite r F.FW_CMD_CMD → r.level = .L0 →
    (s.rd F.FW_STATUS_STATE = 3 → s.rd F.FW_SEL_UNIT = s.fw.unit → Does (.fwActivate r) s (fun t => ∃ u : State,
      u = (s.fwSetPrefer s.fw.unit (1 - s.fwActive s.fw.unit)).fwTrial s.fw.unit true 0 ∧
      (s.fw.unit ≠ 4 → s.rd F.SYS_BOOT_STATE ≠ 3 → t = u.fwTo 4 0) ∧
      (s.fw.unit = 4 → s.rd F.SYS_BOOT_STATE ≠ 3 → t = (u.fwTo 6 0).event 3 0x0031) ∧
      (s.rd F.SYS_BOOT_STATE = 3 → t = (u.fwTo 4 0).powerCycle 0 3 false))) ∧
    (s.fwIdle = true → s.rd F.FW_STATUS_STATE ≠ 3 ∨ s.rd F.FW_SEL_UNIT ≠ s.fw.unit → exec (.fwActivate r) s = .next s) ∧
    (s.fwIdle = true → bitOf s.fw.trial (s.rd F.FW_SEL_UNIT) = false → exec (.fwConfirm r) s = .next s) ∧
    (s.fwIdle = true → bitOf s.fw.trial (s.rd F.FW_SEL_UNIT) = true →
      exec (.fwConfirm r) s = .next (((s.fwTrial (s.rd F.FW_SEL_UNIT) false 0).fwTo 7 0).event 3 0x0032))) ∧
  (∀ s : State, s.rd F.FW_STATUS_STATE = 4 →
    (s.rd F.RST_STATUS_STEP ≠ 4 → ∃ u : State, u = (s.fwRun s.fw.unit (s.fwPrefer s.fw.unit)).fwTo 5 0 ∧
      (s.fw.unit = 0 → s.stewardSafe = true → exec .fwSafePoint s = .next u) ∧
      (s.fw.unit = 1 → s.power.stopPhase = 0 → exec .fwSafePoint s =
        .next (if u.rd F.ATTR_FIT_STATE = 1 then (u.irqCoreReset .pic 0).fitStart else u.irqCoreReset .pic 0)) ∧
      (s.fw.unit = 3 → exec .fwSafePoint s = .next (u.fwPort 0)) ∧ (s.fw.unit = 5 → exec .fwSafePoint s = .next u.gcsStart)) ∧
    (s.rd F.RST_STATUS_STEP = 4 ∨ s.fw.unit = 2 ∨ s.fw.unit = 0 ∧ s.stewardSafe = false ∨
      s.fw.unit = 1 ∧ s.power.stopPhase ≠ 0 → exec .fwSafePoint s = .next s)) ∧
  (∀ s : State, s.rd F.FW_STATUS_STATE = 5 →
    (s.fw.unit = 0 → exec .fwSafePoint s = .next ((s.fwTo 6 0).event 3 0x0031)) ∧
    (s.fw.unit = 1 → exec .fwSafePoint s = .next ((s.fwTo 6 0).event 3 0x0031).arbBoth) ∧
    (s.fw.unit = 3 → s.portUp s.fw.port = true → exec .fwSafePoint s = .next (s.fwPort (s.fw.port + 1))) ∧
    (s.fw.unit = 5 → s.rd F.CHAIN_FW_RESULT = 1 → s.rd F.CHAIN_FW_START = 0 →
      exec .fwSafePoint s = .next ((s.fwTo 6 0).event 3 0x0031)) ∧
    (s.fw.unit = 2 ∨ s.fw.unit = 3 ∧ s.portUp s.fw.port = false ∨
      s.fw.unit = 5 ∧ (s.rd F.CHAIN_FW_RESULT ≠ 1 ∨ s.rd F.CHAIN_FW_START = 1) → exec .fwSafePoint s = .next s) ∧
    ∃ u : State, u = (s.fwRevert s.fw.unit).fwRun s.fw.unit ((s.fwRevert s.fw.unit).fwPrefer s.fw.unit) ∧
      (s.fw.unit = 0 ∨ s.fw.unit = 5 → exec .fwReadyTimeout s = .next u) ∧
      (s.fw.unit = 1 → exec .fwReadyTimeout s = .next (u.irqCoreReset .pic 0).arbBoth) ∧
      (s.fw.unit = 2 → exec .fwReadyTimeout s = .next u.runtimeBoot) ∧
      (s.fw.unit = 3 → exec .fwReadyTimeout s = .next (u.portTrigger u.fw.port))) ∧
  (∀ s : State, (s.rd F.FW_STATUS_STATE ≠ 4 → s.rd F.FW_STATUS_STATE ≠ 5 → exec .fwSafePoint s = .next s) ∧
    (s.rd F.FW_STATUS_STATE ≠ 5 → exec .fwReadyTimeout s = .next s)) ∧
  (∀ (r : Req) (s : State), s.mayWrite r F.FW_RT_READY → Does (.fwRtReady r) s (fun t => ∃ u : State,
    (s.rd F.SYS_BOOT_RT_STATE = 1 → u = ((((s.wr F.SYS_BOOT_RT_STATE 2).wrSat F.SYS_BOOT_TIME_RT_MS (s.now / 250000)).event 0
      0x0005).wr F.FW_RT_READY 1)) ∧
    (s.rd F.SYS_BOOT_RT_STATE ≠ 1 → u = s.wr F.FW_RT_READY (if s.rd F.SYS_BOOT_RT_STATE = 2 then 1 else 0)) ∧
    (s.fw.unit ≠ 2 → t = u) ∧
    (s.fw.unit = 2 → s.rd F.FW_STATUS_STATE = 5 → t = (u.fwTo 6 0).event 3 0x0031) ∧
    (s.fw.unit = 2 → s.rd F.FW_STATUS_STATE = 4 → s.rd F.RST_STATUS_STEP ≠ 4 → t = u.fwHand 2) ∧
    (s.fw.unit = 2 → s.rd F.FW_STATUS_STATE ≠ 5 → s.rd F.FW_STATUS_STATE ≠ 4 ∨ s.rd F.RST_STATUS_STEP = 4 → t = u)))

/-- Out of reset and past step 1 of start-up, SETDASA and ENTDAA give a module without a dynamic address the address, and RSTDAA
takes it away; a module that has one keeps it, and one that is not up does nothing. At the dynamic address ENEC and DISEC set and clear
the bits of the enabled events, GETPID answers six bytes whose last carries the low bits of MOD_ID, and GETBCR, GETDCR and GETSTATUS
answer; without it none of these does anything. The open parts of the answers are free values of the model.
Where a clause rests on a corner that the spec leaves open, it states the choice of the model: logs 62, 63, 64, 65, 66 and 72.
Completion is stated here of: i3cSetdasa, i3cEntdaa, i3cRstdaa, i3cEnec, i3cDisec, i3cGetpid, i3cGetbcr, i3cGetdcr,
i3cGetstatus. -/
def Obligations.CommonCommandCodesAct : Prop :=
  (∀ (addr : BitVec 7) (s : State), s.i3cUp = true → s.tray.address = none →
    exec (.i3cSetdasa addr) s = .next { s with tray := { s.tray with address := some addr.toNat } } ∧
    exec (.i3cEntdaa addr) s = .next { s with tray := { s.tray with address := some addr.toNat } }) ∧
  (∀ s : State, s.i3cUp = true → exec .i3cRstdaa s = .next { s with tray := { s.tray with address := none } }) ∧
  (∀ (mask : BitVec 8) (s : State), s.i3cOn = true →
    Does (.i3cEnec mask) s (fun t => (∀ b < 8, bitOf t.tray.events b = (bitOf s.tray.events b || bitOf mask.toNat b)) ∧
      t = { s with tray := t.tray }) ∧
    Does (.i3cDisec mask) s (fun t =>
      (∀ b < 8, bitOf t.tray.events b = (bitOf s.tray.events b && !bitOf mask.toNat b)) ∧ t = { s with tray := t.tray })) ∧
  (∀ (addr : BitVec 7) (s : State), s.i3cUp = false ∨ s.tray.address.isSome = true →
    exec (.i3cSetdasa addr) s = .next s ∧ exec (.i3cEntdaa addr) s = .next s) ∧
  (∀ (mask : BitVec 8) (s : State), s.i3cOn = false →
    ∀ c ∈ [Instr.i3cEnec mask, .i3cDisec mask, .i3cGetpid, .i3cGetbcr, .i3cGetdcr, .i3cGetstatus], exec c s = .next s) ∧
  (∀ s : State, s.i3cUp = false → exec .i3cRstdaa s = .next s) ∧
  (∀ s : State, s.i3cOn = true →
    Does .i3cGetpid s (fun t => ∃ l, t = s.put (.answer true false l) ∧ l.length = 6 ∧
      l.getD 5 0 % 64 = s.rd F.LINK_ID_MOD_INDEX % 64) ∧
    Does .i3cGetbcr s (fun t => ∃ v, t = s.put (.answer true false [v]) ∧ v < 256 ∧ bitOf v 1 = true ∧ bitOf v 2 = true) ∧
    Does .i3cGetdcr s (fun t => ∃ v, t = s.put (.answer true false [v]) ∧ v < 256) ∧
    Does .i3cGetstatus s (fun t => ∃ a b, t = (s.put (.answer true false [a, b])).drawn ∧ a < 256 ∧ b < 256))

/-- A write or read that is not of 8 bytes at a multiple of 8, or that lies outside 0xF00_0000_0000-0xF00_0FFF_FFFF, is answered
with an access error (a read gives no data) and changes nothing beside the record of the denial. A write of 8 bytes at
0xF00_0000_0000 + (page << 12) + offset of a page that admits it acts on the register of that page and offset; a privilege error
that a field of it makes is recorded, and reaches a requester that is no session and no relay. A page that refuses the access answers an access error with its reason.
Completion is stated here of: registerWrite. -/
def Obligations.RegisterAccessesAreAligned : Prop :=
  (∀ (r : Req) (addr : BitVec 44) (bytes : BitVec 7) (value : BitVec 64) (s : State),
    bytes.toNat ≠ 8 ∨ addr.toNat % 8 ≠ 0 ∨ addr.toNat < 0xF0000000000 ∨ 0xF0010000000 ≤ addr.toNat →
    Does (.registerWrite r addr bytes value) s (fun t => t.outbox.head? = some (.answer false false []) ∧
      s.logsBut t (fun _ => False))) ∧
  (∀ (r : Req) (a bytes : Nat) (s : State), bytes ≠ 8 ∨ a % 8 ≠ 0 ∨ a < 0xF0000000000 ∨ 0xF0010000000 ≤ a →
    (s.regRead r a bytes).2.1 ≠ 0 ∧ (s.regRead r a bytes).2.2 = 0 ∧ s.logsBut (s.regRead r a bytes).1 (fun _ => False)) ∧
  (∀ (r : Req) (page : BitVec 16) (off : Nat) (value : BitVec 64) (i : PageInfo) (s : State), off < 4096 → off % 8 = 0 →
    pageInfo page.toNat = some i →
    (s.pageFault r page.toNat true = none →
      exec (.registerWrite r (BitVec.ofNat 44 (0xF0000000000 + page.toNat * 4096 + off)) 8 value) s =
        .next (if (s.regPut r (page.toNat * 4096 + off) value).2 = 1
          then (s.regPut r (page.toNat * 4096 + off) value).1.fieldPriv r page.toNat off
          else (s.regPut r (page.toNat * 4096 + off) value).1)) ∧
    (∀ reason, s.pageFault r page.toNat true = some reason →
      exec (.registerWrite r (BitVec.ofNat 44 (0xF0000000000 + page.toNat * 4096 + off)) 8 value) s =
        .next (s.accessError r page.toNat off reason)))

/-- At L0 on a page that admits the write: CFG_LOCK reads 1; FENCE = 1 fences the unit of a page with that capability and
FENCE = 0 ends the fence of a fenced one; ENABLE on a page with that capability takes the bit and starts or stops the unit; without
the capability, and where the bit already reads as written, they change nothing. ACCESS_CLASS takes the written classes while FIXED is
0, and stays while it is 1. ERR_MASK takes the written bits but those of class FE, and ERR_INJECT arms exactly the assigned bits that
are written with 1, beside those armed. From another level, CFG_LOCK, and each of the others whose write would change what it reads
(ERR_INJECT: that is not 0), is a privilege error and does no more.
RESET_REQ on a page that admits it: on an engine from L0 or L1, while no chip reset or power cycle runs, the engine's reset
begins; on a tile from L0 or L1 the reset of the partition that holds it, and without one nothing; on a control core that is not
fenced from L0 the core resets; on a port from L0 or L1 the port retrains; from L2, from L1 on a core, and on a page without the
capability it is ignored. A page that refuses the write answers an access error to each of these.
Where a clause rests on a corner that the spec leaves open, it states the choice of the model: log 69.
Completion is stated here of: errMaskWrite, errInjectWrite, accessClassWrite, blkCtrlEnable, blkCtrlFenceSet,
blkCtrlFenceClear, blkCtrlResetReq, blkCtrlCfgLock. -/
def Obligations.HeaderCommandsAct : Prop :=
  (∀ (r : Req) (page : BitVec 16) (i : PageInfo) (s : State), r.level = .L0 → pageInfo page.toNat = some i →
    s.pageFault r page.toNat true = none →
    Does (.blkCtrlCfgLock r page) s (fun t => t = s.wr (F.BLK_CTRL_CFG_LOCK.pg page.toNat) 1 ∧
      t.rd (F.BLK_CTRL_CFG_LOCK.pg page.toNat) = 1) ∧
    (capOf page.toNat 0 = true → exec (.blkCtrlFenceSet r page) s = .next (s.fenceSet i page.toNat)) ∧
    (capOf page.toNat 0 = true → s.blkFenced page.toNat = true →
      exec (.blkCtrlFenceClear r page) s = .next (s.fenceClear i page.toNat)) ∧
    (capOf page.toNat 0 = false → exec (.blkCtrlFenceSet r page) s = .next s ∧
      exec (.blkCtrlFenceClear r page) s = .next s) ∧
    (s.blkFenced page.toNat = false → exec (.blkCtrlFenceClear r page) s = .next s) ∧
    (∀ on : Bool, capOf page.toNat 2 = false ∨ s.rd (F.BLK_CTRL_ENABLE.pg page.toNat) = b2n on →
      exec (.blkCtrlEnable r page on) s = .next s) ∧
    (∀ on : Bool, capOf page.toNat 2 = true → s.rd (F.BLK_CTRL_ENABLE.pg page.toNat) ≠ b2n on →
      exec (.blkCtrlEnable r page on) s =
        .next ((s.wr (F.BLK_CTRL_ENABLE.pg page.toNat) (b2n on)).enableAct i page.toNat on)) ∧
    (∀ value : BitVec 64, s.on (F.ACCESS_CLASS_FIXED.pg page.toNat) = false →
      Does (.accessClassWrite r page value) s (fun t =>
        t.rd (F.ACCESS_CLASS_READ.pg page.toNat) = value.toNat % 4 ∧
        t.rd (F.ACCESS_CLASS_WRITE.pg page.toNat) = value.toNat / 4 % 4 ∧
        t.rd (F.ACCESS_CLASS_FIXED.pg page.toNat) = 0)) ∧
    (∀ value : BitVec 64, s.on (F.ACCESS_CLASS_FIXED.pg page.toNat) = true →
      exec (.accessClassWrite r page value) s = .next s) ∧
    (∀ value : BitVec 64, exec (.errMaskWrite r page value) s =
      .next (s.wr (F.ERR_MASK_MASK.pg page.toNat) (maskOf page.toNat value.toNat))) ∧
    (∀ value : BitVec 64, Does (.errInjectWrite r page value) s (fun t => ∀ b < 12, t.armed page.toNat b =
      (s.armed page.toNat b || (bitOf value.toNat b && bitOf (errImplAt page.toNat) b))))) ∧
  (∀ (r : Req) (page : BitVec 16) (value : BitVec 64) (s : State), r.level ≠ .L0 → s.pageFault r page.toNat true = none →
    exec (.blkCtrlCfgLock r page) s = .next (s.fieldPriv r page.toNat 0x010) ∧
    (capOf page.toNat 0 = true → s.blkFenced page.toNat = false →
      exec (.blkCtrlFenceSet r page) s = .next (s.fieldPriv r page.toNat 0x010)) ∧
    (capOf page.toNat 0 = true → s.blkFenced page.toNat = true →
      exec (.blkCtrlFenceClear r page) s = .next (s.fieldPriv r page.toNat 0x010)) ∧
    (∀ on : Bool, capOf page.toNat 2 = true → s.rd (F.BLK_CTRL_ENABLE.pg page.toNat) ≠ b2n on →
      exec (.blkCtrlEnable r page on) s = .next (s.fieldPriv r page.toNat 0x010)) ∧
    (value.toNat % 4096 ≠ s.rd (F.ERR_MASK_MASK.pg page.toNat) →
      exec (.errMaskWrite r page value) s = .next (s.fieldPriv r page.toNat 0x028)) ∧
    (value.toNat % 4096 ≠ 0 → exec (.errInjectWrite r page value) s = .next (s.fieldPriv r page.toNat 0x030)) ∧
    (value.toNat % 16 ≠ s.rd (F.ACCESS_CLASS_READ.pg page.toNat) + 4 * s.rd (F.ACCESS_CLASS_WRITE.pg page.toNat) →
      s.on (F.ACCESS_CLASS_FIXED.pg page.toNat) = false →
      Does (.accessClassWrite r page value) s (fun t => (∃ u : State, s.onlyRegs u ∧ (∀ k, u.reg k = s.reg k) ∧
        t = u.fieldPriv r page.toNat 0x040)))) ∧
  (∀ (r : Req) (page : BitVec 16) (on : Bool) (value : BitVec 64) (reason : Nat) (s : State),
    s.pageFault r page.toNat true = some reason →
    exec (.blkCtrlCfgLock r page) s = .next (s.accessError r page.toNat 0x010 reason) ∧
    exec (.blkCtrlFenceSet r page) s = .next (s.accessError r page.toNat 0x010 reason) ∧
    exec (.blkCtrlFenceClear r page) s = .next (s.accessError r page.toNat 0x010 reason) ∧
    exec (.blkCtrlEnable r page on) s = .next (s.accessError r page.toNat 0x010 reason) ∧
    exec (.blkCtrlResetReq r page) s = .next (s.accessError r page.toNat 0x010 reason) ∧
    exec (.errMaskWrite r page value) s = .next (s.accessError r page.toNat 0x028 reason) ∧
    exec (.errInjectWrite r page value) s = .next (s.accessError r page.toNat 0x030 reason) ∧
    exec (.accessClassWrite r page value) s = .next (s.accessError r page.toNat 0x040 reason)) ∧
  (∀ (r : Req) (page : BitVec 16) (i : PageInfo) (s : State), pageInfo page.toNat = some i →
    s.pageFault r page.toNat true = none →
    (i.kind = .eng → r.level ≠ .L2 → s.rd F.RST_STATUS_STEP ≤ 3 →
      exec (.blkCtrlResetReq r page) s = .next (s.engReset (Frond.at i.frond) i.inst 0)) ∧
    (∀ q : Nat, i.kind = .tile → r.level ≠ .L2 → s.rd F.RST_STATUS_STEP ≤ 3 →
      s.partOfTile (Frond.at i.frond) (s.logicalOf (Frond.at i.frond) i.inst) = some q →
      exec (.blkCtrlResetReq r page) s = .next (s.partReset q 0)) ∧
    (i.kind = .core → r.level = .L0 → s.rd (F.CORE_STATUS_STATE.pg page.toNat) ≠ 4 →
      exec (.blkCtrlResetReq r page) s = .next (s.coreReset (Frond.at i.frond) i.inst)) ∧
    (i.kind = .lport → r.level ≠ .L2 → exec (.blkCtrlResetReq r page) s = .next (s.portTrigger i.inst)) ∧
    (capOf page.toNat 1 = false → exec (.blkCtrlResetReq r page) s = .next s) ∧
    (i.kind = .tile → s.partOfTile (Frond.at i.frond) (s.logicalOf (Frond.at i.frond) i.inst) = none →
      exec (.blkCtrlResetReq r page) s = .next s) ∧
    (i.kind = .core → r.level ≠ .L0 → exec (.blkCtrlResetReq r page) s = .next s) ∧
    (r.level = .L2 → exec (.blkCtrlResetReq r page) s = .next s))
end

