-- ==== Sys2Proof/Laws/Sparse.lean ====
section
/-! SUPPORT. Sparse tables: what a read finds after a write, and the canonical form. -/

namespace Sys2Proof

variable {α : Type}

@[simp] theorem Sparse.get_nil (d : Nat → α) (k : Nat) : Sparse.get d [] k = d k := rfl

theorem Sparse.get_erase_same (d : Nat → α) (m : Sparse α) (k : Nat) : Sparse.get d (Sparse.erase m k) k = d k := by
  induction m with
  | nil => rfl
  | cons e t ih =>
    obtain ⟨k', v⟩ := e
    by_cases h : k = k' <;> simp [Sparse.erase, Sparse.get, h]
    · subst h; exact ih
    · exact ih

theorem Sparse.get_erase_ne (d : Nat → α) (m : Sparse α) (k j : Nat) (h : j ≠ k) :
    Sparse.get d (Sparse.erase m k) j = Sparse.get d m j := by
  induction m with
  | nil => rfl
  | cons e t ih =>
    obtain ⟨k', v⟩ := e
    by_cases hk : k = k'
    · subst hk; simp [Sparse.erase, Sparse.get, h, ih]
    · by_cases hj : j = k' <;> simp [Sparse.erase, Sparse.get, hk, hj, ih]

theorem Sparse.get_insert_same (d : Nat → α) (m : Sparse α) (k : Nat) (v : α) (h : ∀ e ∈ m, e.1 ≠ k) :
    Sparse.get d (Sparse.insert m k v) k = v := by
  induction m with
  | nil => simp [Sparse.insert, Sparse.get]
  | cons e t ih =>
    obtain ⟨k', v'⟩ := e
    have hk : k' ≠ k := h (k', v') (by simp)
    by_cases hlt : k < k'
    · simp [Sparse.insert, Sparse.get, hlt]
    · simp only [Sparse.insert, hlt, if_false, Sparse.get, if_neg (Ne.symm hk)]
      exact ih (fun e he => h e (by simp [he]))

theorem Sparse.get_insert_ne (d : Nat → α) (m : Sparse α) (k j : Nat) (v : α) (h : j ≠ k) :
    Sparse.get d (Sparse.insert m k v) j = Sparse.get d m j := by
  induction m with
  | nil => simp [Sparse.insert, Sparse.get, h]
  | cons e t ih =>
    obtain ⟨k', v'⟩ := e
    by_cases hlt : k < k'
    · simp [Sparse.insert, Sparse.get, hlt, h]
    · by_cases hj : j = k' <;> simp [Sparse.insert, Sparse.get, hlt, hj, ih]

theorem Sparse.erase_keys (m : Sparse α) (k : Nat) : ∀ e ∈ Sparse.erase m k, e.1 ≠ k := by
  induction m with
  | nil => simp [Sparse.erase]
  | cons e t ih =>
    obtain ⟨k', v⟩ := e
    by_cases h : k = k'
    · subst h; intro e he; exact ih e (by simpa [Sparse.erase] using he)
    · intro e he
      simp only [Sparse.erase, h, if_false, List.mem_cons] at he
      rcases he with rfl | he
      · exact fun hh => h hh.symm
      · exact ih e he

/-- A read finds what was written. -/
theorem Sparse.get_set_same [DecidableEq α] (d : Nat → α) (m : Sparse α) (k : Nat) (v : α) :
    Sparse.get d (Sparse.set d m k v) k = v := by
  unfold Sparse.set
  split
  · next h => rw [Sparse.get_erase_same, h]
  · exact Sparse.get_insert_same d _ k v (Sparse.erase_keys m k)

/-- A write leaves every other key alone. -/
theorem Sparse.get_set_ne [DecidableEq α] (d : Nat → α) (m : Sparse α) (k j : Nat) (v : α) (h : j ≠ k) :
    Sparse.get d (Sparse.set d m k v) j = Sparse.get d m j := by
  unfold Sparse.set
  split
  · exact Sparse.get_erase_ne d m k j h
  · rw [Sparse.get_insert_ne d _ k j v h, Sparse.get_erase_ne d m k j h]

theorem Sparse.get_set [DecidableEq α] (d : Nat → α) (m : Sparse α) (k j : Nat) (v : α) :
    Sparse.get d (Sparse.set d m k v) j = if j = k then v else Sparse.get d m j := by
  split
  · next h => rw [h, Sparse.get_set_same]
  · next h => exact Sparse.get_set_ne d m k j v h

/-! ### The canonical form -/

theorem Sparse.wfAbove_mono [DecidableEq α] (d : Nat → α) (m : Sparse α) (b b' : Nat) (hb : b' ≤ b)
    (h : Sparse.wfAbove d (some b) m = true) : Sparse.wfAbove d (some b') m = true := by
  cases m with
  | nil => rfl
  | cons e t =>
    simp only [Sparse.wfAbove, Bool.and_eq_true, decide_eq_true_eq] at h ⊢
    exact ⟨⟨by omega, h.1.2⟩, h.2⟩

theorem Sparse.wfAbove_none [DecidableEq α] (d : Nat → α) (m : Sparse α) (b : Nat)
    (h : Sparse.wfAbove d (some b) m = true) : Sparse.wfAbove d none m = true := by
  cases m with
  | nil => rfl
  | cons e t =>
    simp only [Sparse.wfAbove, Bool.and_eq_true, decide_eq_true_eq] at h ⊢
    exact ⟨⟨trivial, h.1.2⟩, h.2⟩

/-- What lies above a bound, and what a bound admits. -/
def Sparse.above (b : Option Nat) (k : Nat) : Bool := match b with | none => true | some n => decide (n < k)

theorem Sparse.wfAbove_cons [DecidableEq α] (d : Nat → α) (b : Option Nat) (k : Nat) (v : α) (t : Sparse α) :
    Sparse.wfAbove d b ((k, v) :: t) = true ↔
      Sparse.above b k = true ∧ v ≠ d k ∧ Sparse.wfAbove d (some k) t = true := by
  cases b <;> simp [Sparse.wfAbove, Sparse.above, and_assoc]

theorem Sparse.wfAbove_filter [DecidableEq α] (d : Nat → α) (p : Nat × α → Bool) (m : Sparse α) :
    ∀ b, Sparse.wfAbove d b m = true → Sparse.wfAbove d b (m.filter p) = true := by
  induction m with
  | nil => intro b h; rfl
  | cons e t ih =>
    obtain ⟨k, v⟩ := e
    intro b h
    rw [Sparse.wfAbove_cons] at h
    by_cases hp : p (k, v) = true
    · rw [List.filter_cons_of_pos hp, Sparse.wfAbove_cons]
      exact ⟨h.1, h.2.1, ih _ h.2.2⟩
    · rw [List.filter_cons_of_neg hp]
      have := ih _ h.2.2
      cases b with
      | none => exact Sparse.wfAbove_none d _ k this
      | some n =>
        refine Sparse.wfAbove_mono d _ k n ?_ this
        have := h.1
        simp [Sparse.above] at this
        omega

theorem Sparse.wf_filter [DecidableEq α] (d : Nat → α) (p : Nat × α → Bool) (m : Sparse α)
    (h : Sparse.wf d m = true) : Sparse.wf d (m.filter p) = true := Sparse.wfAbove_filter d p m none h

theorem Sparse.erase_eq_filter (m : Sparse α) (k : Nat) : Sparse.erase m k = m.filter (fun e => decide (e.1 ≠ k)) := by
  induction m with
  | nil => rfl
  | cons e t ih =>
    obtain ⟨k', v⟩ := e
    by_cases h : k = k'
    · subst h; simp [Sparse.erase, ih]
    · have h' : k' ≠ k := fun hh => h hh.symm
      simp [Sparse.erase, h, h', ih]

theorem Sparse.wf_erase [DecidableEq α] (d : Nat → α) (m : Sparse α) (k : Nat) (h : Sparse.wf d m = true) :
    Sparse.wf d (Sparse.erase m k) = true := by
  rw [Sparse.erase_eq_filter]; exact Sparse.wf_filter d _ m h

theorem Sparse.wfAbove_insert [DecidableEq α] (d : Nat → α) (k : Nat) (v : α) (hv : v ≠ d k) (m : Sparse α) :
    ∀ b, Sparse.above b k = true → (∀ e ∈ m, e.1 ≠ k) → Sparse.wfAbove d b m = true →
      Sparse.wfAbove d b (Sparse.insert m k v) = true := by
  induction m with
  | nil =>
    intro b hb _ _
    simp only [Sparse.insert]
    rw [Sparse.wfAbove_cons]
    exact ⟨hb, hv, rfl⟩
  | cons e t ih =>
    obtain ⟨k', v'⟩ := e
    intro b hb hk h
    rw [Sparse.wfAbove_cons] at h
    have hne : k' ≠ k := hk (k', v') (by simp)
    by_cases hlt : k < k'
    · simp only [Sparse.insert, hlt, if_true]
      rw [Sparse.wfAbove_cons, Sparse.wfAbove_cons]
      exact ⟨hb, hv, by simpa [Sparse.above] using hlt, h.2.1, h.2.2⟩
    · simp only [Sparse.insert, hlt, if_false]
      rw [Sparse.wfAbove_cons]
      refine ⟨h.1, h.2.1, ih (some k') ?_ (fun e he => hk e (by simp [he])) h.2.2⟩
      simp [Sparse.above]; omega

/-- A write keeps the canonical form. -/
theorem Sparse.wf_set [DecidableEq α] (d : Nat → α) (m : Sparse α) (k : Nat) (v : α) (h : Sparse.wf d m = true) :
    Sparse.wf d (Sparse.set d m k v) = true := by
  unfold Sparse.set
  split
  · exact Sparse.wf_erase d m k h
  · next hv => exact Sparse.wfAbove_insert d k v hv _ none rfl (Sparse.erase_keys m k) (Sparse.wf_erase d m k h)

end Sys2Proof
end

