-- ==== Sys2Proof/Laws/Regs.lean ====
section
/-! SUPPORT. The register file: a field reads what was written to it, and a write leaves the bits of every other field and
every other register alone. -/

namespace Sys2Proof

/-- The field lies within a word. -/
def Field.fits (f : Field) : Bool := decide (f.lo + f.width ≤ 64)

/-- The fields have no bit in common. -/
def Field.apart (f g : Field) : Bool := decide (f.lo + f.width ≤ g.lo) || decide (g.lo + g.width ≤ f.lo)

theorem Field.mask_bit (f : Field) (i : Nat) (hi : i < 64) :
    f.mask.getLsbD i = (decide (f.lo ≤ i) && decide (i < f.lo + f.width)) := by
  simp only [Field.mask, BitVec.getLsbD_shiftLeft, BitVec.getLsbD_setWidth, BitVec.getLsbD_allOnes, hi]
  by_cases h1 : f.lo ≤ i <;> by_cases h2 : i < f.lo + f.width <;> simp [h1, h2] <;> omega

theorem Field.put_bit (f : Field) (w : Word) (v i : Nat) (hi : i < 64) :
    (f.put w v).getLsbD i =
      if f.lo ≤ i ∧ i < f.lo + f.width then v.testBit (i - f.lo) else w.getLsbD i := by
  simp only [Field.put, BitVec.getLsbD_or, BitVec.getLsbD_and, BitVec.getLsbD_not, Field.mask_bit f i hi,
    BitVec.getLsbD_shiftLeft, BitVec.getLsbD_setWidth, BitVec.getLsbD_ofNat, hi]
  by_cases h1 : f.lo ≤ i
  · by_cases h2 : i < f.lo + f.width
    · have h3 : i - f.lo < f.width := by omega
      have h4 : i - f.lo < 64 := by omega
      simp [h1, h2, h3, h4]
    · have h3 : ¬ i - f.lo < f.width := by omega
      simp [h1, h2, h3]
  · have h3 : i < f.lo := by omega
    simp [h1, h3]

theorem Field.get_testBit (f : Field) (w : Word) (i : Nat) :
    (f.get w).testBit i = (decide (i < f.width) && w.getLsbD (f.lo + i)) := by
  simp [Field.get, BitVec.testBit_toNat]

/-- A field reads what was put into it, modulo its width. -/
theorem Field.get_put_same (f : Field) (w : Word) (v : Nat) (h : f.fits = true) : f.get (f.put w v) = v % 2 ^ f.width := by
  apply Nat.eq_of_testBit_eq
  intro i
  rw [Field.get_testBit, Nat.testBit_mod_two_pow]
  by_cases hi : i < f.width
  · have hb : f.lo + i < 64 := by simp [Field.fits] at h; omega
    rw [Field.put_bit f w v _ hb]
    have : f.lo ≤ f.lo + i ∧ f.lo + i < f.lo + f.width := by omega
    simp [this]
  · simp [hi]

/-- A put leaves the bits of a field apart from it alone. -/
theorem Field.get_put_apart (f g : Field) (w : Word) (v : Nat) (h : f.apart g = true) : g.get (f.put w v) = g.get w := by
  apply Nat.eq_of_testBit_eq
  intro i
  rw [Field.get_testBit, Field.get_testBit]
  by_cases hi : i < g.width
  · by_cases hb : g.lo + i < 64
    · rw [Field.put_bit f w v _ hb]
      have : ¬ (f.lo ≤ g.lo + i ∧ g.lo + i < f.lo + f.width) := by
        simp [Field.apart] at h; omega
      simp [this]
    · simp [BitVec.getLsbD_of_ge _ _ (by omega : 64 ≤ g.lo + i)]
  · simp [hi]

namespace Machine

theorem State.reg_setReg (s : State) (k j : Nat) (w : Word) : (s.setReg k w).reg j = if j = k then w else s.reg j := by
  simp only [State.reg, State.setReg]
  exact Sparse.get_set resetOf s.regs k j w

@[simp] theorem State.reg_setReg_same (s : State) (k : Nat) (w : Word) : (s.setReg k w).reg k = w := by
  simp [State.reg_setReg]

theorem State.reg_setReg_ne (s : State) (k j : Nat) (w : Word) (h : j ≠ k) : (s.setReg k w).reg j = s.reg j := by
  simp [State.reg_setReg, h]

/-- A write of a field leaves every register but its own alone. -/
theorem State.reg_wr_ne (s : State) (f : Field) (v k : Nat) (h : k ≠ f.key) : (s.wr f v).reg k = s.reg k :=
  State.reg_setReg_ne s f.key k _ h

/-- A field reads what was written, modulo its width. -/
theorem State.rd_wr_same (s : State) (f : Field) (v : Nat) (h : f.fits = true) : (s.wr f v).rd f = v % 2 ^ f.width := by
  simp only [State.rd, State.wr, State.reg_setReg_same]
  exact Field.get_put_same f _ v h

/-- A write leaves a field of another register alone. -/
theorem State.rd_wr_ne (s : State) (f g : Field) (v : Nat) (h : g.key ≠ f.key) : (s.wr f v).rd g = s.rd g := by
  simp only [State.rd, State.reg_wr_ne s f v g.key h]

/-- A write leaves a field apart from it alone, in its own register too. -/
theorem State.rd_wr_apart (s : State) (f g : Field) (v : Nat) (h : f.apart g = true) : (s.wr f v).rd g = s.rd g := by
  by_cases hk : g.key = f.key
  · simp only [State.rd, State.wr, hk, State.reg_setReg_same]
    exact Field.get_put_apart f g _ v h
  · exact State.rd_wr_ne s f g v hk

/-- Memory reads the byte written, and every other byte as before. -/
theorem State.byte_setByte (s : State) (a b : Nat) (x : Byte) : (s.setByte a x).byte b = if b = a then x else s.byte b := by
  simp only [State.byte, State.setByte]
  exact Sparse.get_set memDefault s.mem a b x

end Machine

end Sys2Proof
end

