-- ==== Sys2Proof/Laws/State.lean ====
section
/-! SUPPORT. What each elementary update leaves of every other field of the state: one lemma a field and update. -/

namespace Sys2Proof.Machine

variable (s : State)

/-! ### setReg -/

@[simp] theorem State.setReg_sels (k : Nat) (w : Word) : (s.setReg k w).sels = s.sels := rfl
@[simp] theorem State.setReg_mem (k : Nat) (w : Word) : (s.setReg k w).mem = s.mem := rfl
@[simp] theorem State.setReg_poison (k : Nat) (w : Word) : (s.setReg k w).poison = s.poison := rfl
@[simp] theorem State.setReg_latches (k : Nat) (w : Word) : (s.setReg k w).latches = s.latches := rfl
@[simp] theorem State.setReg_frondReset (k : Nat) (w : Word) : (s.setReg k w).frondReset = s.frondReset := rfl
@[simp] theorem State.setReg_recorder (k : Nat) (w : Word) : (s.setReg k w).recorder = s.recorder := rfl
@[simp] theorem State.setReg_ficA (k : Nat) (w : Word) : (s.setReg k w).ficA = s.ficA := rfl
@[simp] theorem State.setReg_ficB (k : Nat) (w : Word) : (s.setReg k w).ficB = s.ficB := rfl
@[simp] theorem State.setReg_pic (k : Nat) (w : Word) : (s.setReg k w).pic = s.pic := rfl
@[simp] theorem State.setReg_phase (k : Nat) (w : Word) : (s.setReg k w).phase = s.phase := rfl
@[simp] theorem State.setReg_power (k : Nat) (w : Word) : (s.setReg k w).power = s.power := rfl
@[simp] theorem State.setReg_rails (k : Nat) (w : Word) : (s.setReg k w).rails = s.rails := rfl
@[simp] theorem State.setReg_railSys (k : Nat) (w : Word) : (s.setReg k w).railSys = s.railSys := rfl
@[simp] theorem State.setReg_budget (k : Nat) (w : Word) : (s.setReg k w).budget = s.budget := rfl
@[simp] theorem State.setReg_chain (k : Nat) (w : Word) : (s.setReg k w).chain = s.chain := rfl
@[simp] theorem State.setReg_est (k : Nat) (w : Word) : (s.setReg k w).est = s.est := rfl
@[simp] theorem State.setReg_tiles (k : Nat) (w : Word) : (s.setReg k w).tiles = s.tiles := rfl
@[simp] theorem State.setReg_hbm (k : Nat) (w : Word) : (s.setReg k w).hbm = s.hbm := rfl
@[simp] theorem State.setReg_ring (k : Nat) (w : Word) : (s.setReg k w).ring = s.ring := rfl
@[simp] theorem State.setReg_work (k : Nat) (w : Word) : (s.setReg k w).work = s.work := rfl
@[simp] theorem State.setReg_rst (k : Nat) (w : Word) : (s.setReg k w).rst = s.rst := rfl
@[simp] theorem State.setReg_col (k : Nat) (w : Word) : (s.setReg k w).col = s.col := rfl
@[simp] theorem State.setReg_hang (k : Nat) (w : Word) : (s.setReg k w).hang = s.hang := rfl
@[simp] theorem State.setReg_dump (k : Nat) (w : Word) : (s.setReg k w).dump = s.dump := rfl
@[simp] theorem State.setReg_link (k : Nat) (w : Word) : (s.setReg k w).link = s.link := rfl
@[simp] theorem State.setReg_sessions (k : Nat) (w : Word) : (s.setReg k w).sessions = s.sessions := rfl
@[simp] theorem State.setReg_host (k : Nat) (w : Word) : (s.setReg k w).host = s.host := rfl
@[simp] theorem State.setReg_boot (k : Nat) (w : Word) : (s.setReg k w).boot = s.boot := rfl
@[simp] theorem State.setReg_cfg (k : Nat) (w : Word) : (s.setReg k w).cfg = s.cfg := rfl
@[simp] theorem State.setReg_fw (k : Nat) (w : Word) : (s.setReg k w).fw = s.fw := rfl
@[simp] theorem State.setReg_fuse (k : Nat) (w : Word) : (s.setReg k w).fuse = s.fuse := rfl
@[simp] theorem State.setReg_tray (k : Nat) (w : Word) : (s.setReg k w).tray = s.tray := rfl
@[simp] theorem State.setReg_outbox (k : Nat) (w : Word) : (s.setReg k w).outbox = s.outbox := rfl
@[simp] theorem State.setReg_draws (k : Nat) (w : Word) : (s.setReg k w).draws = s.draws := rfl
@[simp] theorem State.setReg_pending (k : Nat) (w : Word) : (s.setReg k w).pending = s.pending := rfl

/-! ### wr -/

@[simp] theorem State.wr_sels (f : Field) (v : Nat) : (s.wr f v).sels = s.sels := rfl
@[simp] theorem State.wr_mem (f : Field) (v : Nat) : (s.wr f v).mem = s.mem := rfl
@[simp] theorem State.wr_poison (f : Field) (v : Nat) : (s.wr f v).poison = s.poison := rfl
@[simp] theorem State.wr_latches (f : Field) (v : Nat) : (s.wr f v).latches = s.latches := rfl
@[simp] theorem State.wr_frondReset (f : Field) (v : Nat) : (s.wr f v).frondReset = s.frondReset := rfl
@[simp] theorem State.wr_recorder (f : Field) (v : Nat) : (s.wr f v).recorder = s.recorder := rfl
@[simp] theorem State.wr_ficA (f : Field) (v : Nat) : (s.wr f v).ficA = s.ficA := rfl
@[simp] theorem State.wr_ficB (f : Field) (v : Nat) : (s.wr f v).ficB = s.ficB := rfl
@[simp] theorem State.wr_pic (f : Field) (v : Nat) : (s.wr f v).pic = s.pic := rfl
@[simp] theorem State.wr_phase (f : Field) (v : Nat) : (s.wr f v).phase = s.phase := rfl
@[simp] theorem State.wr_power (f : Field) (v : Nat) : (s.wr f v).power = s.power := rfl
@[simp] theorem State.wr_rails (f : Field) (v : Nat) : (s.wr f v).rails = s.rails := rfl
@[simp] theorem State.wr_railSys (f : Field) (v : Nat) : (s.wr f v).railSys = s.railSys := rfl
@[simp] theorem State.wr_budget (f : Field) (v : Nat) : (s.wr f v).budget = s.budget := rfl
@[simp] theorem State.wr_chain (f : Field) (v : Nat) : (s.wr f v).chain = s.chain := rfl
@[simp] theorem State.wr_est (f : Field) (v : Nat) : (s.wr f v).est = s.est := rfl
@[simp] theorem State.wr_tiles (f : Field) (v : Nat) : (s.wr f v).tiles = s.tiles := rfl
@[simp] theorem State.wr_hbm (f : Field) (v : Nat) : (s.wr f v).hbm = s.hbm := rfl
@[simp] theorem State.wr_ring (f : Field) (v : Nat) : (s.wr f v).ring = s.ring := rfl
@[simp] theorem State.wr_work (f : Field) (v : Nat) : (s.wr f v).work = s.work := rfl
@[simp] theorem State.wr_rst (f : Field) (v : Nat) : (s.wr f v).rst = s.rst := rfl
@[simp] theorem State.wr_col (f : Field) (v : Nat) : (s.wr f v).col = s.col := rfl
@[simp] theorem State.wr_hang (f : Field) (v : Nat) : (s.wr f v).hang = s.hang := rfl
@[simp] theorem State.wr_dump (f : Field) (v : Nat) : (s.wr f v).dump = s.dump := rfl
@[simp] theorem State.wr_link (f : Field) (v : Nat) : (s.wr f v).link = s.link := rfl
@[simp] theorem State.wr_sessions (f : Field) (v : Nat) : (s.wr f v).sessions = s.sessions := rfl
@[simp] theorem State.wr_host (f : Field) (v : Nat) : (s.wr f v).host = s.host := rfl
@[simp] theorem State.wr_boot (f : Field) (v : Nat) : (s.wr f v).boot = s.boot := rfl
@[simp] theorem State.wr_cfg (f : Field) (v : Nat) : (s.wr f v).cfg = s.cfg := rfl
@[simp] theorem State.wr_fw (f : Field) (v : Nat) : (s.wr f v).fw = s.fw := rfl
@[simp] theorem State.wr_fuse (f : Field) (v : Nat) : (s.wr f v).fuse = s.fuse := rfl
@[simp] theorem State.wr_tray (f : Field) (v : Nat) : (s.wr f v).tray = s.tray := rfl
@[simp] theorem State.wr_outbox (f : Field) (v : Nat) : (s.wr f v).outbox = s.outbox := rfl
@[simp] theorem State.wr_draws (f : Field) (v : Nat) : (s.wr f v).draws = s.draws := rfl
@[simp] theorem State.wr_pending (f : Field) (v : Nat) : (s.wr f v).pending = s.pending := rfl

/-! ### wrS -/

@[simp] theorem State.wrS_sels (f : Field) (v : Int) : (s.wrS f v).sels = s.sels := rfl
@[simp] theorem State.wrS_mem (f : Field) (v : Int) : (s.wrS f v).mem = s.mem := rfl
@[simp] theorem State.wrS_poison (f : Field) (v : Int) : (s.wrS f v).poison = s.poison := rfl
@[simp] theorem State.wrS_latches (f : Field) (v : Int) : (s.wrS f v).latches = s.latches := rfl
@[simp] theorem State.wrS_frondReset (f : Field) (v : Int) : (s.wrS f v).frondReset = s.frondReset := rfl
@[simp] theorem State.wrS_recorder (f : Field) (v : Int) : (s.wrS f v).recorder = s.recorder := rfl
@[simp] theorem State.wrS_ficA (f : Field) (v : Int) : (s.wrS f v).ficA = s.ficA := rfl
@[simp] theorem State.wrS_ficB (f : Field) (v : Int) : (s.wrS f v).ficB = s.ficB := rfl
@[simp] theorem State.wrS_pic (f : Field) (v : Int) : (s.wrS f v).pic = s.pic := rfl
@[simp] theorem State.wrS_phase (f : Field) (v : Int) : (s.wrS f v).phase = s.phase := rfl
@[simp] theorem State.wrS_power (f : Field) (v : Int) : (s.wrS f v).power = s.power := rfl
@[simp] theorem State.wrS_rails (f : Field) (v : Int) : (s.wrS f v).rails = s.rails := rfl
@[simp] theorem State.wrS_railSys (f : Field) (v : Int) : (s.wrS f v).railSys = s.railSys := rfl
@[simp] theorem State.wrS_budget (f : Field) (v : Int) : (s.wrS f v).budget = s.budget := rfl
@[simp] theorem State.wrS_chain (f : Field) (v : Int) : (s.wrS f v).chain = s.chain := rfl
@[simp] theorem State.wrS_est (f : Field) (v : Int) : (s.wrS f v).est = s.est := rfl
@[simp] theorem State.wrS_tiles (f : Field) (v : Int) : (s.wrS f v).tiles = s.tiles := rfl
@[simp] theorem State.wrS_hbm (f : Field) (v : Int) : (s.wrS f v).hbm = s.hbm := rfl
@[simp] theorem State.wrS_ring (f : Field) (v : Int) : (s.wrS f v).ring = s.ring := rfl
@[simp] theorem State.wrS_work (f : Field) (v : Int) : (s.wrS f v).work = s.work := rfl
@[simp] theorem State.wrS_rst (f : Field) (v : Int) : (s.wrS f v).rst = s.rst := rfl
@[simp] theorem State.wrS_col (f : Field) (v : Int) : (s.wrS f v).col = s.col := rfl
@[simp] theorem State.wrS_hang (f : Field) (v : Int) : (s.wrS f v).hang = s.hang := rfl
@[simp] theorem State.wrS_dump (f : Field) (v : Int) : (s.wrS f v).dump = s.dump := rfl
@[simp] theorem State.wrS_link (f : Field) (v : Int) : (s.wrS f v).link = s.link := rfl
@[simp] theorem State.wrS_sessions (f : Field) (v : Int) : (s.wrS f v).sessions = s.sessions := rfl
@[simp] theorem State.wrS_host (f : Field) (v : Int) : (s.wrS f v).host = s.host := rfl
@[simp] theorem State.wrS_boot (f : Field) (v : Int) : (s.wrS f v).boot = s.boot := rfl
@[simp] theorem State.wrS_cfg (f : Field) (v : Int) : (s.wrS f v).cfg = s.cfg := rfl
@[simp] theorem State.wrS_fw (f : Field) (v : Int) : (s.wrS f v).fw = s.fw := rfl
@[simp] theorem State.wrS_fuse (f : Field) (v : Int) : (s.wrS f v).fuse = s.fuse := rfl
@[simp] theorem State.wrS_tray (f : Field) (v : Int) : (s.wrS f v).tray = s.tray := rfl
@[simp] theorem State.wrS_outbox (f : Field) (v : Int) : (s.wrS f v).outbox = s.outbox := rfl
@[simp] theorem State.wrS_draws (f : Field) (v : Int) : (s.wrS f v).draws = s.draws := rfl
@[simp] theorem State.wrS_pending (f : Field) (v : Int) : (s.wrS f v).pending = s.pending := rfl

/-! ### wrSat -/

@[simp] theorem State.wrSat_sels (f : Field) (v : Nat) : (s.wrSat f v).sels = s.sels := rfl
@[simp] theorem State.wrSat_mem (f : Field) (v : Nat) : (s.wrSat f v).mem = s.mem := rfl
@[simp] theorem State.wrSat_poison (f : Field) (v : Nat) : (s.wrSat f v).poison = s.poison := rfl
@[simp] theorem State.wrSat_latches (f : Field) (v : Nat) : (s.wrSat f v).latches = s.latches := rfl
@[simp] theorem State.wrSat_frondReset (f : Field) (v : Nat) : (s.wrSat f v).frondReset = s.frondReset := rfl
@[simp] theorem State.wrSat_recorder (f : Field) (v : Nat) : (s.wrSat f v).recorder = s.recorder := rfl
@[simp] theorem State.wrSat_ficA (f : Field) (v : Nat) : (s.wrSat f v).ficA = s.ficA := rfl
@[simp] theorem State.wrSat_ficB (f : Field) (v : Nat) : (s.wrSat f v).ficB = s.ficB := rfl
@[simp] theorem State.wrSat_pic (f : Field) (v : Nat) : (s.wrSat f v).pic = s.pic := rfl
@[simp] theorem State.wrSat_phase (f : Field) (v : Nat) : (s.wrSat f v).phase = s.phase := rfl
@[simp] theorem State.wrSat_power (f : Field) (v : Nat) : (s.wrSat f v).power = s.power := rfl
@[simp] theorem State.wrSat_rails (f : Field) (v : Nat) : (s.wrSat f v).rails = s.rails := rfl
@[simp] theorem State.wrSat_railSys (f : Field) (v : Nat) : (s.wrSat f v).railSys = s.railSys := rfl
@[simp] theorem State.wrSat_budget (f : Field) (v : Nat) : (s.wrSat f v).budget = s.budget := rfl
@[simp] theorem State.wrSat_chain (f : Field) (v : Nat) : (s.wrSat f v).chain = s.chain := rfl
@[simp] theorem State.wrSat_est (f : Field) (v : Nat) : (s.wrSat f v).est = s.est := rfl
@[simp] theorem State.wrSat_tiles (f : Field) (v : Nat) : (s.wrSat f v).tiles = s.tiles := rfl
@[simp] theorem State.wrSat_hbm (f : Field) (v : Nat) : (s.wrSat f v).hbm = s.hbm := rfl
@[simp] theorem State.wrSat_ring (f : Field) (v : Nat) : (s.wrSat f v).ring = s.ring := rfl
@[simp] theorem State.wrSat_work (f : Field) (v : Nat) : (s.wrSat f v).work = s.work := rfl
@[simp] theorem State.wrSat_rst (f : Field) (v : Nat) : (s.wrSat f v).rst = s.rst := rfl
@[simp] theorem State.wrSat_col (f : Field) (v : Nat) : (s.wrSat f v).col = s.col := rfl
@[simp] theorem State.wrSat_hang (f : Field) (v : Nat) : (s.wrSat f v).hang = s.hang := rfl
@[simp] theorem State.wrSat_dump (f : Field) (v : Nat) : (s.wrSat f v).dump = s.dump := rfl
@[simp] theorem State.wrSat_link (f : Field) (v : Nat) : (s.wrSat f v).link = s.link := rfl
@[simp] theorem State.wrSat_sessions (f : Field) (v : Nat) : (s.wrSat f v).sessions = s.sessions := rfl
@[simp] theorem State.wrSat_host (f : Field) (v : Nat) : (s.wrSat f v).host = s.host := rfl
@[simp] theorem State.wrSat_boot (f : Field) (v : Nat) : (s.wrSat f v).boot = s.boot := rfl
@[simp] theorem State.wrSat_cfg (f : Field) (v : Nat) : (s.wrSat f v).cfg = s.cfg := rfl
@[simp] theorem State.wrSat_fw (f : Field) (v : Nat) : (s.wrSat f v).fw = s.fw := rfl
@[simp] theorem State.wrSat_fuse (f : Field) (v : Nat) : (s.wrSat f v).fuse = s.fuse := rfl
@[simp] theorem State.wrSat_tray (f : Field) (v : Nat) : (s.wrSat f v).tray = s.tray := rfl
@[simp] theorem State.wrSat_outbox (f : Field) (v : Nat) : (s.wrSat f v).outbox = s.outbox := rfl
@[simp] theorem State.wrSat_draws (f : Field) (v : Nat) : (s.wrSat f v).draws = s.draws := rfl
@[simp] theorem State.wrSat_pending (f : Field) (v : Nat) : (s.wrSat f v).pending = s.pending := rfl

/-! ### inc -/

@[simp] theorem State.inc_sels (f : Field) (n : Nat) : (s.inc f n).sels = s.sels := rfl
@[simp] theorem State.inc_mem (f : Field) (n : Nat) : (s.inc f n).mem = s.mem := rfl
@[simp] theorem State.inc_poison (f : Field) (n : Nat) : (s.inc f n).poison = s.poison := rfl
@[simp] theorem State.inc_latches (f : Field) (n : Nat) : (s.inc f n).latches = s.latches := rfl
@[simp] theorem State.inc_frondReset (f : Field) (n : Nat) : (s.inc f n).frondReset = s.frondReset := rfl
@[simp] theorem State.inc_recorder (f : Field) (n : Nat) : (s.inc f n).recorder = s.recorder := rfl
@[simp] theorem State.inc_ficA (f : Field) (n : Nat) : (s.inc f n).ficA = s.ficA := rfl
@[simp] theorem State.inc_ficB (f : Field) (n : Nat) : (s.inc f n).ficB = s.ficB := rfl
@[simp] theorem State.inc_pic (f : Field) (n : Nat) : (s.inc f n).pic = s.pic := rfl
@[simp] theorem State.inc_phase (f : Field) (n : Nat) : (s.inc f n).phase = s.phase := rfl
@[simp] theorem State.inc_power (f : Field) (n : Nat) : (s.inc f n).power = s.power := rfl
@[simp] theorem State.inc_rails (f : Field) (n : Nat) : (s.inc f n).rails = s.rails := rfl
@[simp] theorem State.inc_railSys (f : Field) (n : Nat) : (s.inc f n).railSys = s.railSys := rfl
@[simp] theorem State.inc_budget (f : Field) (n : Nat) : (s.inc f n).budget = s.budget := rfl
@[simp] theorem State.inc_chain (f : Field) (n : Nat) : (s.inc f n).chain = s.chain := rfl
@[simp] theorem State.inc_est (f : Field) (n : Nat) : (s.inc f n).est = s.est := rfl
@[simp] theorem State.inc_tiles (f : Field) (n : Nat) : (s.inc f n).tiles = s.tiles := rfl
@[simp] theorem State.inc_hbm (f : Field) (n : Nat) : (s.inc f n).hbm = s.hbm := rfl
@[simp] theorem State.inc_ring (f : Field) (n : Nat) : (s.inc f n).ring = s.ring := rfl
@[simp] theorem State.inc_work (f : Field) (n : Nat) : (s.inc f n).work = s.work := rfl
@[simp] theorem State.inc_rst (f : Field) (n : Nat) : (s.inc f n).rst = s.rst := rfl
@[simp] theorem State.inc_col (f : Field) (n : Nat) : (s.inc f n).col = s.col := rfl
@[simp] theorem State.inc_hang (f : Field) (n : Nat) : (s.inc f n).hang = s.hang := rfl
@[simp] theorem State.inc_dump (f : Field) (n : Nat) : (s.inc f n).dump = s.dump := rfl
@[simp] theorem State.inc_link (f : Field) (n : Nat) : (s.inc f n).link = s.link := rfl
@[simp] theorem State.inc_sessions (f : Field) (n : Nat) : (s.inc f n).sessions = s.sessions := rfl
@[simp] theorem State.inc_host (f : Field) (n : Nat) : (s.inc f n).host = s.host := rfl
@[simp] theorem State.inc_boot (f : Field) (n : Nat) : (s.inc f n).boot = s.boot := rfl
@[simp] theorem State.inc_cfg (f : Field) (n : Nat) : (s.inc f n).cfg = s.cfg := rfl
@[simp] theorem State.inc_fw (f : Field) (n : Nat) : (s.inc f n).fw = s.fw := rfl
@[simp] theorem State.inc_fuse (f : Field) (n : Nat) : (s.inc f n).fuse = s.fuse := rfl
@[simp] theorem State.inc_tray (f : Field) (n : Nat) : (s.inc f n).tray = s.tray := rfl
@[simp] theorem State.inc_outbox (f : Field) (n : Nat) : (s.inc f n).outbox = s.outbox := rfl
@[simp] theorem State.inc_draws (f : Field) (n : Nat) : (s.inc f n).draws = s.draws := rfl
@[simp] theorem State.inc_pending (f : Field) (n : Nat) : (s.inc f n).pending = s.pending := rfl

/-! ### incSat -/

@[simp] theorem State.incSat_sels (f : Field) (n : Nat) : (s.incSat f n).sels = s.sels := rfl
@[simp] theorem State.incSat_mem (f : Field) (n : Nat) : (s.incSat f n).mem = s.mem := rfl
@[simp] theorem State.incSat_poison (f : Field) (n : Nat) : (s.incSat f n).poison = s.poison := rfl
@[simp] theorem State.incSat_latches (f : Field) (n : Nat) : (s.incSat f n).latches = s.latches := rfl
@[simp] theorem State.incSat_frondReset (f : Field) (n : Nat) : (s.incSat f n).frondReset = s.frondReset := rfl
@[simp] theorem State.incSat_recorder (f : Field) (n : Nat) : (s.incSat f n).recorder = s.recorder := rfl
@[simp] theorem State.incSat_ficA (f : Field) (n : Nat) : (s.incSat f n).ficA = s.ficA := rfl
@[simp] theorem State.incSat_ficB (f : Field) (n : Nat) : (s.incSat f n).ficB = s.ficB := rfl
@[simp] theorem State.incSat_pic (f : Field) (n : Nat) : (s.incSat f n).pic = s.pic := rfl
@[simp] theorem State.incSat_phase (f : Field) (n : Nat) : (s.incSat f n).phase = s.phase := rfl
@[simp] theorem State.incSat_power (f : Field) (n : Nat) : (s.incSat f n).power = s.power := rfl
@[simp] theorem State.incSat_rails (f : Field) (n : Nat) : (s.incSat f n).rails = s.rails := rfl
@[simp] theorem State.incSat_railSys (f : Field) (n : Nat) : (s.incSat f n).railSys = s.railSys := rfl
@[simp] theorem State.incSat_budget (f : Field) (n : Nat) : (s.incSat f n).budget = s.budget := rfl
@[simp] theorem State.incSat_chain (f : Field) (n : Nat) : (s.incSat f n).chain = s.chain := rfl
@[simp] theorem State.incSat_est (f : Field) (n : Nat) : (s.incSat f n).est = s.est := rfl
@[simp] theorem State.incSat_tiles (f : Field) (n : Nat) : (s.incSat f n).tiles = s.tiles := rfl
@[simp] theorem State.incSat_hbm (f : Field) (n : Nat) : (s.incSat f n).hbm = s.hbm := rfl
@[simp] theorem State.incSat_ring (f : Field) (n : Nat) : (s.incSat f n).ring = s.ring := rfl
@[simp] theorem State.incSat_work (f : Field) (n : Nat) : (s.incSat f n).work = s.work := rfl
@[simp] theorem State.incSat_rst (f : Field) (n : Nat) : (s.incSat f n).rst = s.rst := rfl
@[simp] theorem State.incSat_col (f : Field) (n : Nat) : (s.incSat f n).col = s.col := rfl
@[simp] theorem State.incSat_hang (f : Field) (n : Nat) : (s.incSat f n).hang = s.hang := rfl
@[simp] theorem State.incSat_dump (f : Field) (n : Nat) : (s.incSat f n).dump = s.dump := rfl
@[simp] theorem State.incSat_link (f : Field) (n : Nat) : (s.incSat f n).link = s.link := rfl
@[simp] theorem State.incSat_sessions (f : Field) (n : Nat) : (s.incSat f n).sessions = s.sessions := rfl
@[simp] theorem State.incSat_host (f : Field) (n : Nat) : (s.incSat f n).host = s.host := rfl
@[simp] theorem State.incSat_boot (f : Field) (n : Nat) : (s.incSat f n).boot = s.boot := rfl
@[simp] theorem State.incSat_cfg (f : Field) (n : Nat) : (s.incSat f n).cfg = s.cfg := rfl
@[simp] theorem State.incSat_fw (f : Field) (n : Nat) : (s.incSat f n).fw = s.fw := rfl
@[simp] theorem State.incSat_fuse (f : Field) (n : Nat) : (s.incSat f n).fuse = s.fuse := rfl
@[simp] theorem State.incSat_tray (f : Field) (n : Nat) : (s.incSat f n).tray = s.tray := rfl
@[simp] theorem State.incSat_outbox (f : Field) (n : Nat) : (s.incSat f n).outbox = s.outbox := rfl
@[simp] theorem State.incSat_draws (f : Field) (n : Nat) : (s.incSat f n).draws = s.draws := rfl
@[simp] theorem State.incSat_pending (f : Field) (n : Nat) : (s.incSat f n).pending = s.pending := rfl

/-! ### setBit -/

@[simp] theorem State.setBit_sels (f : Field) (i : Nat) : (s.setBit f i).sels = s.sels := rfl
@[simp] theorem State.setBit_mem (f : Field) (i : Nat) : (s.setBit f i).mem = s.mem := rfl
@[simp] theorem State.setBit_poison (f : Field) (i : Nat) : (s.setBit f i).poison = s.poison := rfl
@[simp] theorem State.setBit_latches (f : Field) (i : Nat) : (s.setBit f i).latches = s.latches := rfl
@[simp] theorem State.setBit_frondReset (f : Field) (i : Nat) : (s.setBit f i).frondReset = s.frondReset := rfl
@[simp] theorem State.setBit_recorder (f : Field) (i : Nat) : (s.setBit f i).recorder = s.recorder := rfl
@[simp] theorem State.setBit_ficA (f : Field) (i : Nat) : (s.setBit f i).ficA = s.ficA := rfl
@[simp] theorem State.setBit_ficB (f : Field) (i : Nat) : (s.setBit f i).ficB = s.ficB := rfl
@[simp] theorem State.setBit_pic (f : Field) (i : Nat) : (s.setBit f i).pic = s.pic := rfl
@[simp] theorem State.setBit_phase (f : Field) (i : Nat) : (s.setBit f i).phase = s.phase := rfl
@[simp] theorem State.setBit_power (f : Field) (i : Nat) : (s.setBit f i).power = s.power := rfl
@[simp] theorem State.setBit_rails (f : Field) (i : Nat) : (s.setBit f i).rails = s.rails := rfl
@[simp] theorem State.setBit_railSys (f : Field) (i : Nat) : (s.setBit f i).railSys = s.railSys := rfl
@[simp] theorem State.setBit_budget (f : Field) (i : Nat) : (s.setBit f i).budget = s.budget := rfl
@[simp] theorem State.setBit_chain (f : Field) (i : Nat) : (s.setBit f i).chain = s.chain := rfl
@[simp] theorem State.setBit_est (f : Field) (i : Nat) : (s.setBit f i).est = s.est := rfl
@[simp] theorem State.setBit_tiles (f : Field) (i : Nat) : (s.setBit f i).tiles = s.tiles := rfl
@[simp] theorem State.setBit_hbm (f : Field) (i : Nat) : (s.setBit f i).hbm = s.hbm := rfl
@[simp] theorem State.setBit_ring (f : Field) (i : Nat) : (s.setBit f i).ring = s.ring := rfl
@[simp] theorem State.setBit_work (f : Field) (i : Nat) : (s.setBit f i).work = s.work := rfl
@[simp] theorem State.setBit_rst (f : Field) (i : Nat) : (s.setBit f i).rst = s.rst := rfl
@[simp] theorem State.setBit_col (f : Field) (i : Nat) : (s.setBit f i).col = s.col := rfl
@[simp] theorem State.setBit_hang (f : Field) (i : Nat) : (s.setBit f i).hang = s.hang := rfl
@[simp] theorem State.setBit_dump (f : Field) (i : Nat) : (s.setBit f i).dump = s.dump := rfl
@[simp] theorem State.setBit_link (f : Field) (i : Nat) : (s.setBit f i).link = s.link := rfl
@[simp] theorem State.setBit_sessions (f : Field) (i : Nat) : (s.setBit f i).sessions = s.sessions := rfl
@[simp] theorem State.setBit_host (f : Field) (i : Nat) : (s.setBit f i).host = s.host := rfl
@[simp] theorem State.setBit_boot (f : Field) (i : Nat) : (s.setBit f i).boot = s.boot := rfl
@[simp] theorem State.setBit_cfg (f : Field) (i : Nat) : (s.setBit f i).cfg = s.cfg := rfl
@[simp] theorem State.setBit_fw (f : Field) (i : Nat) : (s.setBit f i).fw = s.fw := rfl
@[simp] theorem State.setBit_fuse (f : Field) (i : Nat) : (s.setBit f i).fuse = s.fuse := rfl
@[simp] theorem State.setBit_tray (f : Field) (i : Nat) : (s.setBit f i).tray = s.tray := rfl
@[simp] theorem State.setBit_outbox (f : Field) (i : Nat) : (s.setBit f i).outbox = s.outbox := rfl
@[simp] theorem State.setBit_draws (f : Field) (i : Nat) : (s.setBit f i).draws = s.draws := rfl
@[simp] theorem State.setBit_pending (f : Field) (i : Nat) : (s.setBit f i).pending = s.pending := rfl

/-! ### clrBit -/

@[simp] theorem State.clrBit_sels (f : Field) (i : Nat) : (s.clrBit f i).sels = s.sels := rfl
@[simp] theorem State.clrBit_mem (f : Field) (i : Nat) : (s.clrBit f i).mem = s.mem := rfl
@[simp] theorem State.clrBit_poison (f : Field) (i : Nat) : (s.clrBit f i).poison = s.poison := rfl
@[simp] theorem State.clrBit_latches (f : Field) (i : Nat) : (s.clrBit f i).latches = s.latches := rfl
@[simp] theorem State.clrBit_frondReset (f : Field) (i : Nat) : (s.clrBit f i).frondReset = s.frondReset := rfl
@[simp] theorem State.clrBit_recorder (f : Field) (i : Nat) : (s.clrBit f i).recorder = s.recorder := rfl
@[simp] theorem State.clrBit_ficA (f : Field) (i : Nat) : (s.clrBit f i).ficA = s.ficA := rfl
@[simp] theorem State.clrBit_ficB (f : Field) (i : Nat) : (s.clrBit f i).ficB = s.ficB := rfl
@[simp] theorem State.clrBit_pic (f : Field) (i : Nat) : (s.clrBit f i).pic = s.pic := rfl
@[simp] theorem State.clrBit_phase (f : Field) (i : Nat) : (s.clrBit f i).phase = s.phase := rfl
@[simp] theorem State.clrBit_power (f : Field) (i : Nat) : (s.clrBit f i).power = s.power := rfl
@[simp] theorem State.clrBit_rails (f : Field) (i : Nat) : (s.clrBit f i).rails = s.rails := rfl
@[simp] theorem State.clrBit_railSys (f : Field) (i : Nat) : (s.clrBit f i).railSys = s.railSys := rfl
@[simp] theorem State.clrBit_budget (f : Field) (i : Nat) : (s.clrBit f i).budget = s.budget := rfl
@[simp] theorem State.clrBit_chain (f : Field) (i : Nat) : (s.clrBit f i).chain = s.chain := rfl
@[simp] theorem State.clrBit_est (f : Field) (i : Nat) : (s.clrBit f i).est = s.est := rfl
@[simp] theorem State.clrBit_tiles (f : Field) (i : Nat) : (s.clrBit f i).tiles = s.tiles := rfl
@[simp] theorem State.clrBit_hbm (f : Field) (i : Nat) : (s.clrBit f i).hbm = s.hbm := rfl
@[simp] theorem State.clrBit_ring (f : Field) (i : Nat) : (s.clrBit f i).ring = s.ring := rfl
@[simp] theorem State.clrBit_work (f : Field) (i : Nat) : (s.clrBit f i).work = s.work := rfl
@[simp] theorem State.clrBit_rst (f : Field) (i : Nat) : (s.clrBit f i).rst = s.rst := rfl
@[simp] theorem State.clrBit_col (f : Field) (i : Nat) : (s.clrBit f i).col = s.col := rfl
@[simp] theorem State.clrBit_hang (f : Field) (i : Nat) : (s.clrBit f i).hang = s.hang := rfl
@[simp] theorem State.clrBit_dump (f : Field) (i : Nat) : (s.clrBit f i).dump = s.dump := rfl
@[simp] theorem State.clrBit_link (f : Field) (i : Nat) : (s.clrBit f i).link = s.link := rfl
@[simp] theorem State.clrBit_sessions (f : Field) (i : Nat) : (s.clrBit f i).sessions = s.sessions := rfl
@[simp] theorem State.clrBit_host (f : Field) (i : Nat) : (s.clrBit f i).host = s.host := rfl
@[simp] theorem State.clrBit_boot (f : Field) (i : Nat) : (s.clrBit f i).boot = s.boot := rfl
@[simp] theorem State.clrBit_cfg (f : Field) (i : Nat) : (s.clrBit f i).cfg = s.cfg := rfl
@[simp] theorem State.clrBit_fw (f : Field) (i : Nat) : (s.clrBit f i).fw = s.fw := rfl
@[simp] theorem State.clrBit_fuse (f : Field) (i : Nat) : (s.clrBit f i).fuse = s.fuse := rfl
@[simp] theorem State.clrBit_tray (f : Field) (i : Nat) : (s.clrBit f i).tray = s.tray := rfl
@[simp] theorem State.clrBit_outbox (f : Field) (i : Nat) : (s.clrBit f i).outbox = s.outbox := rfl
@[simp] theorem State.clrBit_draws (f : Field) (i : Nat) : (s.clrBit f i).draws = s.draws := rfl
@[simp] theorem State.clrBit_pending (f : Field) (i : Nat) : (s.clrBit f i).pending = s.pending := rfl

/-! ### setByte -/

@[simp] theorem State.setByte_regs (a : Nat) (b : Byte) : (s.setByte a b).regs = s.regs := rfl
@[simp] theorem State.setByte_sels (a : Nat) (b : Byte) : (s.setByte a b).sels = s.sels := rfl
@[simp] theorem State.setByte_poison (a : Nat) (b : Byte) : (s.setByte a b).poison = s.poison := rfl
@[simp] theorem State.setByte_latches (a : Nat) (b : Byte) : (s.setByte a b).latches = s.latches := rfl
@[simp] theorem State.setByte_frondReset (a : Nat) (b : Byte) : (s.setByte a b).frondReset = s.frondReset := rfl
@[simp] theorem State.setByte_recorder (a : Nat) (b : Byte) : (s.setByte a b).recorder = s.recorder := rfl
@[simp] theorem State.setByte_ficA (a : Nat) (b : Byte) : (s.setByte a b).ficA = s.ficA := rfl
@[simp] theorem State.setByte_ficB (a : Nat) (b : Byte) : (s.setByte a b).ficB = s.ficB := rfl
@[simp] theorem State.setByte_pic (a : Nat) (b : Byte) : (s.setByte a b).pic = s.pic := rfl
@[simp] theorem State.setByte_phase (a : Nat) (b : Byte) : (s.setByte a b).phase = s.phase := rfl
@[simp] theorem State.setByte_power (a : Nat) (b : Byte) : (s.setByte a b).power = s.power := rfl
@[simp] theorem State.setByte_rails (a : Nat) (b : Byte) : (s.setByte a b).rails = s.rails := rfl
@[simp] theorem State.setByte_railSys (a : Nat) (b : Byte) : (s.setByte a b).railSys = s.railSys := rfl
@[simp] theorem State.setByte_budget (a : Nat) (b : Byte) : (s.setByte a b).budget = s.budget := rfl
@[simp] theorem State.setByte_chain (a : Nat) (b : Byte) : (s.setByte a b).chain = s.chain := rfl
@[simp] theorem State.setByte_est (a : Nat) (b : Byte) : (s.setByte a b).est = s.est := rfl
@[simp] theorem State.setByte_tiles (a : Nat) (b : Byte) : (s.setByte a b).tiles = s.tiles := rfl
@[simp] theorem State.setByte_hbm (a : Nat) (b : Byte) : (s.setByte a b).hbm = s.hbm := rfl
@[simp] theorem State.setByte_ring (a : Nat) (b : Byte) : (s.setByte a b).ring = s.ring := rfl
@[simp] theorem State.setByte_work (a : Nat) (b : Byte) : (s.setByte a b).work = s.work := rfl
@[simp] theorem State.setByte_rst (a : Nat) (b : Byte) : (s.setByte a b).rst = s.rst := rfl
@[simp] theorem State.setByte_col (a : Nat) (b : Byte) : (s.setByte a b).col = s.col := rfl
@[simp] theorem State.setByte_hang (a : Nat) (b : Byte) : (s.setByte a b).hang = s.hang := rfl
@[simp] theorem State.setByte_dump (a : Nat) (b : Byte) : (s.setByte a b).dump = s.dump := rfl
@[simp] theorem State.setByte_link (a : Nat) (b : Byte) : (s.setByte a b).link = s.link := rfl
@[simp] theorem State.setByte_sessions (a : Nat) (b : Byte) : (s.setByte a b).sessions = s.sessions := rfl
@[simp] theorem State.setByte_host (a : Nat) (b : Byte) : (s.setByte a b).host = s.host := rfl
@[simp] theorem State.setByte_boot (a : Nat) (b : Byte) : (s.setByte a b).boot = s.boot := rfl
@[simp] theorem State.setByte_cfg (a : Nat) (b : Byte) : (s.setByte a b).cfg = s.cfg := rfl
@[simp] theorem State.setByte_fw (a : Nat) (b : Byte) : (s.setByte a b).fw = s.fw := rfl
@[simp] theorem State.setByte_fuse (a : Nat) (b : Byte) : (s.setByte a b).fuse = s.fuse := rfl
@[simp] theorem State.setByte_tray (a : Nat) (b : Byte) : (s.setByte a b).tray = s.tray := rfl
@[simp] theorem State.setByte_outbox (a : Nat) (b : Byte) : (s.setByte a b).outbox = s.outbox := rfl
@[simp] theorem State.setByte_draws (a : Nat) (b : Byte) : (s.setByte a b).draws = s.draws := rfl
@[simp] theorem State.setByte_pending (a : Nat) (b : Byte) : (s.setByte a b).pending = s.pending := rfl

/-! ### put -/

@[simp] theorem State.put_regs (o : Out) : (s.put o).regs = s.regs := rfl
@[simp] theorem State.put_sels (o : Out) : (s.put o).sels = s.sels := rfl
@[simp] theorem State.put_mem (o : Out) : (s.put o).mem = s.mem := rfl
@[simp] theorem State.put_poison (o : Out) : (s.put o).poison = s.poison := rfl
@[simp] theorem State.put_latches (o : Out) : (s.put o).latches = s.latches := rfl
@[simp] theorem State.put_frondReset (o : Out) : (s.put o).frondReset = s.frondReset := rfl
@[simp] theorem State.put_recorder (o : Out) : (s.put o).recorder = s.recorder := rfl
@[simp] theorem State.put_ficA (o : Out) : (s.put o).ficA = s.ficA := rfl
@[simp] theorem State.put_ficB (o : Out) : (s.put o).ficB = s.ficB := rfl
@[simp] theorem State.put_pic (o : Out) : (s.put o).pic = s.pic := rfl
@[simp] theorem State.put_phase (o : Out) : (s.put o).phase = s.phase := rfl
@[simp] theorem State.put_power (o : Out) : (s.put o).power = s.power := rfl
@[simp] theorem State.put_rails (o : Out) : (s.put o).rails = s.rails := rfl
@[simp] theorem State.put_railSys (o : Out) : (s.put o).railSys = s.railSys := rfl
@[simp] theorem State.put_budget (o : Out) : (s.put o).budget = s.budget := rfl
@[simp] theorem State.put_chain (o : Out) : (s.put o).chain = s.chain := rfl
@[simp] theorem State.put_est (o : Out) : (s.put o).est = s.est := rfl
@[simp] theorem State.put_tiles (o : Out) : (s.put o).tiles = s.tiles := rfl
@[simp] theorem State.put_hbm (o : Out) : (s.put o).hbm = s.hbm := rfl
@[simp] theorem State.put_ring (o : Out) : (s.put o).ring = s.ring := rfl
@[simp] theorem State.put_work (o : Out) : (s.put o).work = s.work := rfl
@[simp] theorem State.put_rst (o : Out) : (s.put o).rst = s.rst := rfl
@[simp] theorem State.put_col (o : Out) : (s.put o).col = s.col := rfl
@[simp] theorem State.put_hang (o : Out) : (s.put o).hang = s.hang := rfl
@[simp] theorem State.put_dump (o : Out) : (s.put o).dump = s.dump := rfl
@[simp] theorem State.put_link (o : Out) : (s.put o).link = s.link := rfl
@[simp] theorem State.put_sessions (o : Out) : (s.put o).sessions = s.sessions := rfl
@[simp] theorem State.put_host (o : Out) : (s.put o).host = s.host := rfl
@[simp] theorem State.put_boot (o : Out) : (s.put o).boot = s.boot := rfl
@[simp] theorem State.put_cfg (o : Out) : (s.put o).cfg = s.cfg := rfl
@[simp] theorem State.put_fw (o : Out) : (s.put o).fw = s.fw := rfl
@[simp] theorem State.put_fuse (o : Out) : (s.put o).fuse = s.fuse := rfl
@[simp] theorem State.put_tray (o : Out) : (s.put o).tray = s.tray := rfl
@[simp] theorem State.put_draws (o : Out) : (s.put o).draws = s.draws := rfl
@[simp] theorem State.put_pending (o : Out) : (s.put o).pending = s.pending := rfl

/-! ### drawn -/

@[simp] theorem State.drawn_regs : (s.drawn).regs = s.regs := rfl
@[simp] theorem State.drawn_sels : (s.drawn).sels = s.sels := rfl
@[simp] theorem State.drawn_mem : (s.drawn).mem = s.mem := rfl
@[simp] theorem State.drawn_poison : (s.drawn).poison = s.poison := rfl
@[simp] theorem State.drawn_latches : (s.drawn).latches = s.latches := rfl
@[simp] theorem State.drawn_frondReset : (s.drawn).frondReset = s.frondReset := rfl
@[simp] theorem State.drawn_recorder : (s.drawn).recorder = s.recorder := rfl
@[simp] theorem State.drawn_ficA : (s.drawn).ficA = s.ficA := rfl
@[simp] theorem State.drawn_ficB : (s.drawn).ficB = s.ficB := rfl
@[simp] theorem State.drawn_pic : (s.drawn).pic = s.pic := rfl
@[simp] theorem State.drawn_phase : (s.drawn).phase = s.phase := rfl
@[simp] theorem State.drawn_power : (s.drawn).power = s.power := rfl
@[simp] theorem State.drawn_rails : (s.drawn).rails = s.rails := rfl
@[simp] theorem State.drawn_railSys : (s.drawn).railSys = s.railSys := rfl
@[simp] theorem State.drawn_budget : (s.drawn).budget = s.budget := rfl
@[simp] theorem State.drawn_chain : (s.drawn).chain = s.chain := rfl
@[simp] theorem State.drawn_est : (s.drawn).est = s.est := rfl
@[simp] theorem State.drawn_tiles : (s.drawn).tiles = s.tiles := rfl
@[simp] theorem State.drawn_hbm : (s.drawn).hbm = s.hbm := rfl
@[simp] theorem State.drawn_ring : (s.drawn).ring = s.ring := rfl
@[simp] theorem State.drawn_work : (s.drawn).work = s.work := rfl
@[simp] theorem State.drawn_rst : (s.drawn).rst = s.rst := rfl
@[simp] theorem State.drawn_col : (s.drawn).col = s.col := rfl
@[simp] theorem State.drawn_hang : (s.drawn).hang = s.hang := rfl
@[simp] theorem State.drawn_dump : (s.drawn).dump = s.dump := rfl
@[simp] theorem State.drawn_link : (s.drawn).link = s.link := rfl
@[simp] theorem State.drawn_sessions : (s.drawn).sessions = s.sessions := rfl
@[simp] theorem State.drawn_host : (s.drawn).host = s.host := rfl
@[simp] theorem State.drawn_boot : (s.drawn).boot = s.boot := rfl
@[simp] theorem State.drawn_cfg : (s.drawn).cfg = s.cfg := rfl
@[simp] theorem State.drawn_fw : (s.drawn).fw = s.fw := rfl
@[simp] theorem State.drawn_fuse : (s.drawn).fuse = s.fuse := rfl
@[simp] theorem State.drawn_tray : (s.drawn).tray = s.tray := rfl
@[simp] theorem State.drawn_outbox : (s.drawn).outbox = s.outbox := rfl
@[simp] theorem State.drawn_pending : (s.drawn).pending = s.pending := rfl

/-! ### What they write -/

@[simp] theorem State.put_outbox (o : Out) : (s.put o).outbox = o :: s.outbox := rfl
@[simp] theorem State.drawn_draws : s.drawn.draws = s.draws + 1 := rfl
@[simp] theorem State.setReg_regs (k : Nat) (w : Word) : (s.setReg k w).regs = Sparse.set resetOf s.regs k w := rfl
@[simp] theorem State.setByte_mem (a : Nat) (b : Byte) : (s.setByte a b).mem = Sparse.set memDefault s.mem a b := rfl

/-! ### Reading a register after an update of another field -/

@[simp] theorem State.reg_with_sels (x : Sparse Nat) (k : Nat) : ({ s with sels := x } : State).reg k = s.reg k := rfl
@[simp] theorem State.reg_with_mem (x : List Host.Cell) (k : Nat) : ({ s with mem := x } : State).reg k = s.reg k := rfl
@[simp] theorem State.reg_with_poison (x : Sparse Bool) (k : Nat) : ({ s with poison := x } : State).reg k = s.reg k := rfl
@[simp] theorem State.reg_with_latches (x : List (Nat × Nat × Bool)) (k : Nat) : ({ s with latches := x } : State).reg k = s.reg k := rfl
@[simp] theorem State.reg_with_frondReset (x : Bool) (k : Nat) : ({ s with frondReset := x } : State).reg k = s.reg k := rfl
@[simp] theorem State.reg_with_recorder (x : Recorder) (k : Nat) : ({ s with recorder := x } : State).reg k = s.reg k := rfl
@[simp] theorem State.reg_with_ficA (x : IntCtl) (k : Nat) : ({ s with ficA := x } : State).reg k = s.reg k := rfl
@[simp] theorem State.reg_with_ficB (x : IntCtl) (k : Nat) : ({ s with ficB := x } : State).reg k = s.reg k := rfl
@[simp] theorem State.reg_with_pic (x : IntCtl) (k : Nat) : ({ s with pic := x } : State).reg k = s.reg k := rfl
@[simp] theorem State.reg_with_phase (x : PhaseUnit) (k : Nat) : ({ s with phase := x } : State).reg k = s.reg k := rfl
@[simp] theorem State.reg_with_power (x : PowerUnit) (k : Nat) : ({ s with power := x } : State).reg k = s.reg k := rfl
@[simp] theorem State.reg_with_rails (x : Sparse RailUnit) (k : Nat) : ({ s with rails := x } : State).reg k = s.reg k := rfl
@[simp] theorem State.reg_with_railSys (x : RailSys) (k : Nat) : ({ s with railSys := x } : State).reg k = s.reg k := rfl
@[simp] theorem State.reg_with_budget (x : BudgetUnit) (k : Nat) : ({ s with budget := x } : State).reg k = s.reg k := rfl
@[simp] theorem State.reg_with_chain (x : ChainUnit) (k : Nat) : ({ s with chain := x } : State).reg k = s.reg k := rfl
@[simp] theorem State.reg_with_est (x : EstUnit) (k : Nat) : ({ s with est := x } : State).reg k = s.reg k := rfl
@[simp] theorem State.reg_with_tiles (x : Sparse TileUnit) (k : Nat) : ({ s with tiles := x } : State).reg k = s.reg k := rfl
@[simp] theorem State.reg_with_hbm (x : Sparse HbmFrond) (k : Nat) : ({ s with hbm := x } : State).reg k = s.reg k := rfl
@[simp] theorem State.reg_with_ring (x : RingUnit) (k : Nat) : ({ s with ring := x } : State).reg k = s.reg k := rfl
@[simp] theorem State.reg_with_work (x : WorkUnit) (k : Nat) : ({ s with work := x } : State).reg k = s.reg k := rfl
@[simp] theorem State.reg_with_rst (x : RstUnit) (k : Nat) : ({ s with rst := x } : State).reg k = s.reg k := rfl
@[simp] theorem State.reg_with_col (x : ColUnit) (k : Nat) : ({ s with col := x } : State).reg k = s.reg k := rfl
@[simp] theorem State.reg_with_hang (x : HangUnit) (k : Nat) : ({ s with hang := x } : State).reg k = s.reg k := rfl
@[simp] theorem State.reg_with_dump (x : DumpUnit) (k : Nat) : ({ s with dump := x } : State).reg k = s.reg k := rfl
@[simp] theorem State.reg_with_link (x : LinkUnit) (k : Nat) : ({ s with link := x } : State).reg k = s.reg k := rfl
@[simp] theorem State.reg_with_sessions (x : Sparse Session) (k : Nat) : ({ s with sessions := x } : State).reg k = s.reg k := rfl
@[simp] theorem State.reg_with_host (x : HostUnit) (k : Nat) : ({ s with host := x } : State).reg k = s.reg k := rfl
@[simp] theorem State.reg_with_boot (x : BootUnit) (k : Nat) : ({ s with boot := x } : State).reg k = s.reg k := rfl
@[simp] theorem State.reg_with_cfg (x : CfgUnit) (k : Nat) : ({ s with cfg := x } : State).reg k = s.reg k := rfl
@[simp] theorem State.reg_with_fw (x : FwUnit) (k : Nat) : ({ s with fw := x } : State).reg k = s.reg k := rfl
@[simp] theorem State.reg_with_fuse (x : FuseUnit) (k : Nat) : ({ s with fuse := x } : State).reg k = s.reg k := rfl
@[simp] theorem State.reg_with_tray (x : TrayUnit) (k : Nat) : ({ s with tray := x } : State).reg k = s.reg k := rfl
@[simp] theorem State.reg_with_outbox (x : List Out) (k : Nat) : ({ s with outbox := x } : State).reg k = s.reg k := rfl
@[simp] theorem State.reg_with_draws (x : Nat) (k : Nat) : ({ s with draws := x } : State).reg k = s.reg k := rfl
@[simp] theorem State.reg_with_pending (x : List Instr) (k : Nat) : ({ s with pending := x } : State).reg k = s.reg k := rfl
@[simp] theorem State.rd_with_sels (x : Sparse Nat) (g : Field) : ({ s with sels := x } : State).rd g = s.rd g := rfl
@[simp] theorem State.rd_with_mem (x : List Host.Cell) (g : Field) : ({ s with mem := x } : State).rd g = s.rd g := rfl
@[simp] theorem State.rd_with_poison (x : Sparse Bool) (g : Field) : ({ s with poison := x } : State).rd g = s.rd g := rfl
@[simp] theorem State.rd_with_latches (x : List (Nat × Nat × Bool)) (g : Field) : ({ s with latches := x } : State).rd g = s.rd g := rfl
@[simp] theorem State.rd_with_frondReset (x : Bool) (g : Field) : ({ s with frondReset := x } : State).rd g = s.rd g := rfl
@[simp] theorem State.rd_with_recorder (x : Recorder) (g : Field) : ({ s with recorder := x } : State).rd g = s.rd g := rfl
@[simp] theorem State.rd_with_ficA (x : IntCtl) (g : Field) : ({ s with ficA := x } : State).rd g = s.rd g := rfl
@[simp] theorem State.rd_with_ficB (x : IntCtl) (g : Field) : ({ s with ficB := x } : State).rd g = s.rd g := rfl
@[simp] theorem State.rd_with_pic (x : IntCtl) (g : Field) : ({ s with pic := x } : State).rd g = s.rd g := rfl
@[simp] theorem State.rd_with_phase (x : PhaseUnit) (g : Field) : ({ s with phase := x } : State).rd g = s.rd g := rfl
@[simp] theorem State.rd_with_power (x : PowerUnit) (g : Field) : ({ s with power := x } : State).rd g = s.rd g := rfl
@[simp] theorem State.rd_with_rails (x : Sparse RailUnit) (g : Field) : ({ s with rails := x } : State).rd g = s.rd g := rfl
@[simp] theorem State.rd_with_railSys (x : RailSys) (g : Field) : ({ s with railSys := x } : State).rd g = s.rd g := rfl
@[simp] theorem State.rd_with_budget (x : BudgetUnit) (g : Field) : ({ s with budget := x } : State).rd g = s.rd g := rfl
@[simp] theorem State.rd_with_chain (x : ChainUnit) (g : Field) : ({ s with chain := x } : State).rd g = s.rd g := rfl
@[simp] theorem State.rd_with_est (x : EstUnit) (g : Field) : ({ s with est := x } : State).rd g = s.rd g := rfl
@[simp] theorem State.rd_with_tiles (x : Sparse TileUnit) (g : Field) : ({ s with tiles := x } : State).rd g = s.rd g := rfl
@[simp] theorem State.rd_with_hbm (x : Sparse HbmFrond) (g : Field) : ({ s with hbm := x } : State).rd g = s.rd g := rfl
@[simp] theorem State.rd_with_ring (x : RingUnit) (g : Field) : ({ s with ring := x } : State).rd g = s.rd g := rfl
@[simp] theorem State.rd_with_work (x : WorkUnit) (g : Field) : ({ s with work := x } : State).rd g = s.rd g := rfl
@[simp] theorem State.rd_with_rst (x : RstUnit) (g : Field) : ({ s with rst := x } : State).rd g = s.rd g := rfl
@[simp] theorem State.rd_with_col (x : ColUnit) (g : Field) : ({ s with col := x } : State).rd g = s.rd g := rfl
@[simp] theorem State.rd_with_hang (x : HangUnit) (g : Field) : ({ s with hang := x } : State).rd g = s.rd g := rfl
@[simp] theorem State.rd_with_dump (x : DumpUnit) (g : Field) : ({ s with dump := x } : State).rd g = s.rd g := rfl
@[simp] theorem State.rd_with_link (x : LinkUnit) (g : Field) : ({ s with link := x } : State).rd g = s.rd g := rfl
@[simp] theorem State.rd_with_sessions (x : Sparse Session) (g : Field) : ({ s with sessions := x } : State).rd g = s.rd g := rfl
@[simp] theorem State.rd_with_host (x : HostUnit) (g : Field) : ({ s with host := x } : State).rd g = s.rd g := rfl
@[simp] theorem State.rd_with_boot (x : BootUnit) (g : Field) : ({ s with boot := x } : State).rd g = s.rd g := rfl
@[simp] theorem State.rd_with_cfg (x : CfgUnit) (g : Field) : ({ s with cfg := x } : State).rd g = s.rd g := rfl
@[simp] theorem State.rd_with_fw (x : FwUnit) (g : Field) : ({ s with fw := x } : State).rd g = s.rd g := rfl
@[simp] theorem State.rd_with_fuse (x : FuseUnit) (g : Field) : ({ s with fuse := x } : State).rd g = s.rd g := rfl
@[simp] theorem State.rd_with_tray (x : TrayUnit) (g : Field) : ({ s with tray := x } : State).rd g = s.rd g := rfl
@[simp] theorem State.rd_with_outbox (x : List Out) (g : Field) : ({ s with outbox := x } : State).rd g = s.rd g := rfl
@[simp] theorem State.rd_with_draws (x : Nat) (g : Field) : ({ s with draws := x } : State).rd g = s.rd g := rfl
@[simp] theorem State.rd_with_pending (x : List Instr) (g : Field) : ({ s with pending := x } : State).rd g = s.rd g := rfl
@[simp] theorem State.reg_put (o : Out) (k : Nat) : (s.put o).reg k = s.reg k := rfl
@[simp] theorem State.rd_put (o : Out) (g : Field) : (s.put o).rd g = s.rd g := rfl
@[simp] theorem State.reg_drawn (k : Nat) : s.drawn.reg k = s.reg k := rfl
@[simp] theorem State.rd_drawn (g : Field) : s.drawn.rd g = s.rd g := rfl
@[simp] theorem State.reg_setByte (a : Nat) (b : Byte) (k : Nat) : (s.setByte a b).reg k = s.reg k := rfl
@[simp] theorem State.rd_setByte (a : Nat) (b : Byte) (g : Field) : (s.setByte a b).rd g = s.rd g := rfl

end Sys2Proof.Machine
end

