-- ==== Sys2Proof/Laws/Events.lean ====
section
/-! SUPPORT. What recording an event, latching an error and driving an interrupt leave alone: of the registers all but the
recorder's counts, the controllers' pending words, moderation groups and statistics, and the host port's frame count; of the
rest of the state all but the recorder, the controllers, the sessions, the host port's queues and what is put out. -/

namespace Sys2Proof.Machine

/-- `t` is `s` but for what recording may write. -/
structure Logged (s t : State) : Prop where
  reg : ∀ k, eventKey k = false → t.reg k = s.reg k
  canon : s.canonical → t.canonical
  sels : t.sels = s.sels
  mem : t.mem = s.mem
  poison : t.poison = s.poison
  latches : t.latches = s.latches
  frondReset : t.frondReset = s.frondReset
  phase : t.phase = s.phase
  power : t.power = s.power
  rails : t.rails = s.rails
  railSys : t.railSys = s.railSys
  budget : t.budget = s.budget
  chain : t.chain = s.chain
  est : t.est = s.est
  tiles : t.tiles = s.tiles
  hbm : t.hbm = s.hbm
  ring : t.ring = s.ring
  work : t.work = s.work
  rst : t.rst = s.rst
  col : t.col = s.col
  hang : t.hang = s.hang
  dump : t.dump = s.dump
  link : t.link = s.link
  boot : t.boot = s.boot
  cfg : t.cfg = s.cfg
  fw : t.fw = s.fw
  fuse : t.fuse = s.fuse
  tray : t.tray = s.tray
  draws : t.draws = s.draws
  pending : t.pending = s.pending

namespace Logged

theorem refl (s : State) : Logged s s where
  reg := fun _ _ => rfl
  canon := id
  sels := rfl
  mem := rfl
  poison := rfl
  latches := rfl
  frondReset := rfl
  phase := rfl
  power := rfl
  rails := rfl
  railSys := rfl
  budget := rfl
  chain := rfl
  est := rfl
  tiles := rfl
  hbm := rfl
  ring := rfl
  work := rfl
  rst := rfl
  col := rfl
  hang := rfl
  dump := rfl
  link := rfl
  boot := rfl
  cfg := rfl
  fw := rfl
  fuse := rfl
  tray := rfl
  draws := rfl
  pending := rfl

theorem trans {s t u : State} (h : Logged s t) (g : Logged t u) : Logged s u where
  reg := fun k hk => (g.reg k hk).trans (h.reg k hk)
  canon := fun c => g.canon (h.canon c)
  sels := g.sels.trans h.sels
  mem := g.mem.trans h.mem
  poison := g.poison.trans h.poison
  latches := g.latches.trans h.latches
  frondReset := g.frondReset.trans h.frondReset
  phase := g.phase.trans h.phase
  power := g.power.trans h.power
  rails := g.rails.trans h.rails
  railSys := g.railSys.trans h.railSys
  budget := g.budget.trans h.budget
  chain := g.chain.trans h.chain
  est := g.est.trans h.est
  tiles := g.tiles.trans h.tiles
  hbm := g.hbm.trans h.hbm
  ring := g.ring.trans h.ring
  work := g.work.trans h.work
  rst := g.rst.trans h.rst
  col := g.col.trans h.col
  hang := g.hang.trans h.hang
  dump := g.dump.trans h.dump
  link := g.link.trans h.link
  boot := g.boot.trans h.boot
  cfg := g.cfg.trans h.cfg
  fw := g.fw.trans h.fw
  fuse := g.fuse.trans h.fuse
  tray := g.tray.trans h.tray
  draws := g.draws.trans h.draws
  pending := g.pending.trans h.pending

/-- A write of a register that recording may write. -/
theorem setReg (s : State) (k : Nat) (w : Word) (hk : eventKey k = true) : Logged s (s.setReg k w) where
  reg := fun j hj => State.reg_setReg_ne s k j w (by rintro rfl; simp [hk] at hj)
  canon := fun c => ⟨c.1, Sparse.wf_set resetOf s.regs k w c.2⟩
  sels := rfl
  mem := rfl
  poison := rfl
  latches := rfl
  frondReset := rfl
  phase := rfl
  power := rfl
  rails := rfl
  railSys := rfl
  budget := rfl
  chain := rfl
  est := rfl
  tiles := rfl
  hbm := rfl
  ring := rfl
  work := rfl
  rst := rfl
  col := rfl
  hang := rfl
  dump := rfl
  link := rfl
  boot := rfl
  cfg := rfl
  fw := rfl
  fuse := rfl
  tray := rfl
  draws := rfl
  pending := rfl

theorem with_recorder (s : State) (x : Recorder) : Logged s { s with recorder := x } where
  reg := fun _ _ => rfl
  canon := fun c => c
  sels := rfl
  mem := rfl
  poison := rfl
  latches := rfl
  frondReset := rfl
  phase := rfl
  power := rfl
  rails := rfl
  railSys := rfl
  budget := rfl
  chain := rfl
  est := rfl
  tiles := rfl
  hbm := rfl
  ring := rfl
  work := rfl
  rst := rfl
  col := rfl
  hang := rfl
  dump := rfl
  link := rfl
  boot := rfl
  cfg := rfl
  fw := rfl
  fuse := rfl
  tray := rfl
  draws := rfl
  pending := rfl

theorem with_ficA (s : State) (x : IntCtl) : Logged s { s with ficA := x } where
  reg := fun _ _ => rfl
  canon := fun c => c
  sels := rfl
  mem := rfl
  poison := rfl
  latches := rfl
  frondReset := rfl
  phase := rfl
  power := rfl
  rails := rfl
  railSys := rfl
  budget := rfl
  chain := rfl
  est := rfl
  tiles := rfl
  hbm := rfl
  ring := rfl
  work := rfl
  rst := rfl
  col := rfl
  hang := rfl
  dump := rfl
  link := rfl
  boot := rfl
  cfg := rfl
  fw := rfl
  fuse := rfl
  tray := rfl
  draws := rfl
  pending := rfl

theorem with_ficB (s : State) (x : IntCtl) : Logged s { s with ficB := x } where
  reg := fun _ _ => rfl
  canon := fun c => c
  sels := rfl
  mem := rfl
  poison := rfl
  latches := rfl
  frondReset := rfl
  phase := rfl
  power := rfl
  rails := rfl
  railSys := rfl
  budget := rfl
  chain := rfl
  est := rfl
  tiles := rfl
  hbm := rfl
  ring := rfl
  work := rfl
  rst := rfl
  col := rfl
  hang := rfl
  dump := rfl
  link := rfl
  boot := rfl
  cfg := rfl
  fw := rfl
  fuse := rfl
  tray := rfl
  draws := rfl
  pending := rfl

theorem with_pic (s : State) (x : IntCtl) : Logged s { s with pic := x } where
  reg := fun _ _ => rfl
  canon := fun c => c
  sels := rfl
  mem := rfl
  poison := rfl
  latches := rfl
  frondReset := rfl
  phase := rfl
  power := rfl
  rails := rfl
  railSys := rfl
  budget := rfl
  chain := rfl
  est := rfl
  tiles := rfl
  hbm := rfl
  ring := rfl
  work := rfl
  rst := rfl
  col := rfl
  hang := rfl
  dump := rfl
  link := rfl
  boot := rfl
  cfg := rfl
  fw := rfl
  fuse := rfl
  tray := rfl
  draws := rfl
  pending := rfl

theorem with_sessions (s : State) (x : Sparse Session) : Logged s { s with sessions := x } where
  reg := fun _ _ => rfl
  canon := fun c => c
  sels := rfl
  mem := rfl
  poison := rfl
  latches := rfl
  frondReset := rfl
  phase := rfl
  power := rfl
  rails := rfl
  railSys := rfl
  budget := rfl
  chain := rfl
  est := rfl
  tiles := rfl
  hbm := rfl
  ring := rfl
  work := rfl
  rst := rfl
  col := rfl
  hang := rfl
  dump := rfl
  link := rfl
  boot := rfl
  cfg := rfl
  fw := rfl
  fuse := rfl
  tray := rfl
  draws := rfl
  pending := rfl

theorem with_host (s : State) (x : HostUnit) : Logged s { s with host := x } where
  reg := fun _ _ => rfl
  canon := fun c => c
  sels := rfl
  mem := rfl
  poison := rfl
  latches := rfl
  frondReset := rfl
  phase := rfl
  power := rfl
  rails := rfl
  railSys := rfl
  budget := rfl
  chain := rfl
  est := rfl
  tiles := rfl
  hbm := rfl
  ring := rfl
  work := rfl
  rst := rfl
  col := rfl
  hang := rfl
  dump := rfl
  link := rfl
  boot := rfl
  cfg := rfl
  fw := rfl
  fuse := rfl
  tray := rfl
  draws := rfl
  pending := rfl

theorem with_outbox (s : State) (x : List Out) : Logged s { s with outbox := x } where
  reg := fun _ _ => rfl
  canon := fun c => c
  sels := rfl
  mem := rfl
  poison := rfl
  latches := rfl
  frondReset := rfl
  phase := rfl
  power := rfl
  rails := rfl
  railSys := rfl
  budget := rfl
  chain := rfl
  est := rfl
  tiles := rfl
  hbm := rfl
  ring := rfl
  work := rfl
  rst := rfl
  col := rfl
  hang := rfl
  dump := rfl
  link := rfl
  boot := rfl
  cfg := rfl
  fw := rfl
  fuse := rfl
  tray := rfl
  draws := rfl
  pending := rfl

end Logged

theorem Logged.wr (s : State) (f : Field) (v : Nat) (hk : eventKey f.key = true) : Logged s (s.wr f v) :=
  Logged.setReg s f.key _ hk

theorem Logged.when {s : State} (b : Bool) (g : State → State) (h : Logged s (g s)) : Logged s (s.when b g) := by
  cases b
  · exact Logged.refl s
  · exact h

theorem Logged.ite {s t u : State} {c : Prop} [Decidable c] (h : Logged s t) (g : Logged s u) :
    Logged s (if c then t else u) := by
  split
  · exact h
  · exact g

theorem Logged.foldl {α : Type} (g : State → α → State) (hg : ∀ s a, Logged s (g s a)) (l : List α) (s : State) :
    Logged s (l.foldl g s) := by
  induction l generalizing s with
  | nil => exact Logged.refl s
  | cons a t ih => exact (hg s a).trans (ih (g s a))

theorem Logged.setCtl (s : State) (c : Ctl) (k : IntCtl) : Logged s (s.setCtl c k) := by
  match c with
  | .fic .A => exact Logged.with_ficA s k
  | .fic .B => exact Logged.with_ficB s k
  | .pic => exact Logged.with_pic s k

theorem Logged.setSess (s : State) (n : Nat) (x : Session) : Logged s (s.setSess n x) := Logged.with_sessions s _

theorem Logged.put (s : State) (o : Out) : Logged s (s.put o) := Logged.with_outbox s _

/-! ### Interrupt controllers -/

theorem Field.get_lt (f : Field) (w : Word) : f.get w < 2 ^ f.width := (w.extractLsb' f.lo f.width).isLt

theorem eventKey_stats (c : Ctl) (f : Field) (h : f.off = 0x108) : eventKey (f.pg (ctlPage c)).key = true := by
  match c with
  | .fic .A => simp [eventKey, Field.key, Field.pg, ctlPage, frondPg, Frond.idx, h]
  | .fic .B => simp [eventKey, Field.key, Field.pg, ctlPage, frondPg, Frond.idx, h]
  | .pic => simp [eventKey, Field.key, Field.pg, ctlPage, h]

theorem eventKey_pend (c : Ctl) (n : Nat) (h : n < 16) :
    eventKey ((F.FIC_PEND_SET_PEND.pg (ctlPage c)).i n).key = true := by
  have e : ∀ p, ((F.FIC_PEND_SET_PEND.pg p).i n).key = p * 4096 + (0x400 + 8 * n) := fun _ => rfl
  have a : ∀ p, (p * 4096 + (0x400 + 8 * n)) / 4096 = p := by intro p; omega
  have b : ∀ p, (p * 4096 + (0x400 + 8 * n)) % 4096 = 0x400 + 8 * n := by intro p; omega
  have d : decide (0x400 + 8 * n < 0x480) = true := by simp; omega
  simp only [eventKey, e, a, b, d]
  match c with
  | .fic .A => simp [ctlPage, frondPg, Frond.idx]
  | .fic .B => simp [ctlPage, frondPg, Frond.idx]
  | .pic => simp [ctlPage]

theorem eventKey_held (c : Ctl) (n : Nat) (h : n < 32) : eventKey ((F.FIC_MOD_HELD.pg (ctlPage c)).i n).key = true := by
  have e : ∀ p, ((F.FIC_MOD_HELD.pg p).i n).key = p * 4096 + (0x600 + 8 * n) := fun _ => rfl
  have a : ∀ p, (p * 4096 + (0x600 + 8 * n)) / 4096 = p := by intro p; omega
  have b : ∀ p, (p * 4096 + (0x600 + 8 * n)) % 4096 = 0x600 + 8 * n := by intro p; omega
  have d : decide (0x600 + 8 * n < 0x700) = true := by simp; omega
  simp only [eventKey, e, a, b, d]
  match c with
  | .fic .A => simp [ctlPage, frondPg, Frond.idx]
  | .fic .B => simp [ctlPage, frondPg, Frond.idx]
  | .pic => simp [ctlPage]

theorem Logged.irqHeldBack (s : State) (c : Ctl) (src : Nat) : Logged s (s.irqHeldBack c src) := by
  unfold State.irqHeldBack
  exact Logged.ite (Logged.wr _ _ _ (eventKey_stats c _ rfl)) (Logged.refl s)

theorem Logged.irqRelease (s : State) (c : Ctl) (g : Nat) (h : g < 32) : Logged s (s.irqRelease c g) :=
  ((Logged.setCtl s c _).trans (Logged.wr _ _ _ (eventKey_held c g h))).trans
    (Logged.foldl _ (fun s i => Logged.irqHeldBack s c i) _ _)

theorem Logged.irqCountEvent (s : State) (c : Ctl) (src : Nat) : Logged s (s.irqCountEvent c src) := by
  have hg : s.rd (srcField c F.SRC_MOD_GRP src) < 32 := Field.get_lt _ _
  unfold State.irqCountEvent
  exact Logged.ite (((Logged.setCtl s c _).trans (Logged.wr _ _ _ (eventKey_held c _ hg))).trans
    (Logged.ite (Logged.irqRelease _ c _ hg) (Logged.refl _))) (Logged.refl s)

theorem Logged.irqCome (s : State) (c : Ctl) (src : Nat) : Logged s (s.irqCome c src) :=
  Logged.ite (Logged.irqCountEvent s c src) (Logged.irqHeldBack s c src)

theorem Logged.pendBit (s : State) (c : Ctl) (src : Nat) (b : Bool) (h : src < 1024) :
    Logged s (setWordBit s c F.FIC_PEND_SET_PEND src b) := by
  have hk := eventKey_pend c (src / 64) (by omega)
  unfold setWordBit
  exact Logged.ite (Logged.wr s _ _ hk) (Logged.wr s _ _ hk)

/-- An edge of a source touches what recording may write. -/
theorem Logged.irqEdge (s : State) (c : Ctl) (src : Nat) (h : src < 1024) : Logged s (s.irqEdge c src) := by
  unfold State.irqEdge
  split
  · exact ((Logged.wr _ _ _ (eventKey_stats c _ rfl)).trans (Logged.setCtl _ c _)).trans (Logged.irqCountEvent _ c src)
  · exact ((Logged.pendBit s c src true h).trans (Logged.setCtl _ c _)).trans (Logged.irqCome _ c src)

theorem Logged.irqPulse (s : State) (c : Ctl) (src : Nat) (h : src < 1024) : Logged s (s.irqPulse c src) := by
  unfold State.irqPulse
  exact Logged.ite (Logged.irqEdge s c src h) (Logged.refl s)

/-! ### The recorder -/

theorem Logged.recNew (s : State) (r : Rec) : Logged s (s.recNew r) := by
  unfold State.recNew
  exact Logged.ite (((Logged.irqPulse s _ 25 (by omega)).trans (Logged.irqPulse _ _ 25 (by omega))).trans
    (Logged.irqPulse _ _ 45 (by omega))) (Logged.refl s)

theorem Logged.hostPut (s : State) (prio : Nat) (m : HostMsg) : Logged s (s.hostPut prio m) := by
  cases m with
  | frame mac udp ip h payload wire => exact (Logged.put s _).trans (Logged.put _ _)
  | _ => exact Logged.put s _

theorem Logged.hostOut (s : State) (prio : Nat) (m : HostMsg) : Logged s (s.hostOut prio m) := by
  unfold State.hostOut
  exact Logged.ite ((Logged.hostPut s _ _).trans (Logged.wr _ _ _ (by decide))) (Logged.with_host s _)

theorem Logged.bsendRaw (s : State) (n typ sub : Nat) (l : List Nat) (u r : Bool) (q : Nat) :
    Logged s (s.bsendRaw n typ sub l u r q) :=
  (Logged.setSess s n _).trans (Logged.hostOut _ _ _)

theorem Logged.bsend (s : State) (n typ sub : Nat) (l : List Nat) : Logged s (s.bsend n typ sub l) := by
  unfold State.bsend
  exact Logged.ite (Logged.setSess s n _) ((Logged.setSess s n _).trans (Logged.bsendRaw _ n typ sub l _ _ _))

theorem Logged.eventTo (s : State) (n : Nat) (r : Rec) : Logged s (s.eventTo n r) := by
  unfold State.eventTo
  exact Logged.ite (Logged.setSess s n _) ((Logged.setSess s n _).trans (Logged.bsend _ n _ _ _))

theorem Logged.eventFrames (s : State) (r : Rec) : Logged s (s.eventFrames r) := by
  unfold State.eventFrames
  exact Logged.foldl _ (fun s n => Logged.ite (Logged.eventTo s n r) (Logged.refl s)) _ s

theorem Logged.recPush (s : State) (r : Rec) : Logged s (s.recPush r) := by
  unfold State.recPush
  exact ((((Logged.with_recorder s _).trans (Logged.wr _ _ _ (by decide))).trans
    (Logged.when _ _ (Logged.wr _ _ _ (by decide)))).trans (Logged.recNew _ _)).trans (Logged.eventFrames _ _)

theorem Logged.recAccept (s : State) (source cls code p0 p1 p2 p3 : Nat) (sup : Option Bucket) :
    Logged s (s.recAccept source cls code p0 p1 p2 p3 sup) := by
  unfold State.recAccept
  refine Logged.trans (t := s.wr F.REC_STATUS_NEXT_SEQ (s.rd F.REC_STATUS_NEXT_SEQ + 1))
    (Logged.wr _ _ _ (by decide)) (Logged.ite (Logged.ite ?_ ?_) ?_)
  · exact (Logged.with_recorder _ _).trans (Logged.wr _ _ _ (by decide))
  · exact (Logged.with_recorder _ _).trans (Logged.wr _ _ _ (by decide))
  · exact Logged.foldl _ (fun s r => Logged.recPush s r) _ _

theorem Logged.recOffer (s : State) (source cls code p0 p1 p2 p3 : Nat) :
    Logged s (s.recOffer source cls code p0 p1 p2 p3) := by
  unfold State.recOffer
  refine Logged.ite (Logged.refl s) (Logged.ite (Logged.recAccept s _ _ _ _ _ _ _ _) (Logged.ite ?_ ?_))
  · exact (Logged.with_recorder s _).trans (Logged.wr _ _ _ (by decide))
  · exact (Logged.with_recorder s _).trans (Logged.recAccept _ _ _ _ _ _ _ _ _)

theorem Logged.mirrorLost (s : State) (lost : Nat) : Logged s (s.mirrorLost lost) := by
  unfold State.mirrorLost
  exact Logged.ite (Logged.recOffer s _ _ _ _ _ _ _) (Logged.refl s)

theorem Logged.eventAs (s : State) (p cls code p0 p1 p2 p3 : Nat) : Logged s (s.eventAs p cls code p0 p1 p2 p3) :=
  (Logged.recOffer s _ _ _ _ _ _ _).trans (Logged.mirrorLost _ _)

/-- Recording an event changes only what recording may write. -/
theorem Logged.event (s : State) (p code p0 p1 p2 p3 : Nat) : Logged s (s.event p code p0 p1 p2 p3) :=
  Logged.eventAs s p _ code p0 p1 p2 p3

/-- A register that recording does not write reads as before. -/
theorem State.reg_event (s : State) (p code p0 p1 p2 p3 k : Nat) (h : eventKey k = false) :
    (s.event p code p0 p1 p2 p3).reg k = s.reg k := (Logged.event s p code p0 p1 p2 p3).reg k h

theorem State.rd_event (s : State) (p code p0 p1 p2 p3 : Nat) (g : Field) (h : eventKey g.key = false) :
    (s.event p code p0 p1 p2 p3).rd g = s.rd g := by
  simp only [State.rd, State.reg_event s p code p0 p1 p2 p3 g.key h]

@[simp] theorem State.event_sels (s : State) (p code p0 p1 p2 p3 : Nat) :
    (s.event p code p0 p1 p2 p3).sels = s.sels := (Logged.event s p code p0 p1 p2 p3).sels
@[simp] theorem State.event_mem (s : State) (p code p0 p1 p2 p3 : Nat) :
    (s.event p code p0 p1 p2 p3).mem = s.mem := (Logged.event s p code p0 p1 p2 p3).mem
@[simp] theorem State.event_poison (s : State) (p code p0 p1 p2 p3 : Nat) :
    (s.event p code p0 p1 p2 p3).poison = s.poison := (Logged.event s p code p0 p1 p2 p3).poison
@[simp] theorem State.event_latches (s : State) (p code p0 p1 p2 p3 : Nat) :
    (s.event p code p0 p1 p2 p3).latches = s.latches := (Logged.event s p code p0 p1 p2 p3).latches
@[simp] theorem State.event_frondReset (s : State) (p code p0 p1 p2 p3 : Nat) :
    (s.event p code p0 p1 p2 p3).frondReset = s.frondReset := (Logged.event s p code p0 p1 p2 p3).frondReset
@[simp] theorem State.event_phase (s : State) (p code p0 p1 p2 p3 : Nat) :
    (s.event p code p0 p1 p2 p3).phase = s.phase := (Logged.event s p code p0 p1 p2 p3).phase
@[simp] theorem State.event_power (s : State) (p code p0 p1 p2 p3 : Nat) :
    (s.event p code p0 p1 p2 p3).power = s.power := (Logged.event s p code p0 p1 p2 p3).power
@[simp] theorem State.event_rails (s : State) (p code p0 p1 p2 p3 : Nat) :
    (s.event p code p0 p1 p2 p3).rails = s.rails := (Logged.event s p code p0 p1 p2 p3).rails
@[simp] theorem State.event_railSys (s : State) (p code p0 p1 p2 p3 : Nat) :
    (s.event p code p0 p1 p2 p3).railSys = s.railSys := (Logged.event s p code p0 p1 p2 p3).railSys
@[simp] theorem State.event_budget (s : State) (p code p0 p1 p2 p3 : Nat) :
    (s.event p code p0 p1 p2 p3).budget = s.budget := (Logged.event s p code p0 p1 p2 p3).budget
@[simp] theorem State.event_chain (s : State) (p code p0 p1 p2 p3 : Nat) :
    (s.event p code p0 p1 p2 p3).chain = s.chain := (Logged.event s p code p0 p1 p2 p3).chain
@[simp] theorem State.event_est (s : State) (p code p0 p1 p2 p3 : Nat) :
    (s.event p code p0 p1 p2 p3).est = s.est := (Logged.event s p code p0 p1 p2 p3).est
@[simp] theorem State.event_tiles (s : State) (p code p0 p1 p2 p3 : Nat) :
    (s.event p code p0 p1 p2 p3).tiles = s.tiles := (Logged.event s p code p0 p1 p2 p3).tiles
@[simp] theorem State.event_hbm (s : State) (p code p0 p1 p2 p3 : Nat) :
    (s.event p code p0 p1 p2 p3).hbm = s.hbm := (Logged.event s p code p0 p1 p2 p3).hbm
@[simp] theorem State.event_ring (s : State) (p code p0 p1 p2 p3 : Nat) :
    (s.event p code p0 p1 p2 p3).ring = s.ring := (Logged.event s p code p0 p1 p2 p3).ring
@[simp] theorem State.event_work (s : State) (p code p0 p1 p2 p3 : Nat) :
    (s.event p code p0 p1 p2 p3).work = s.work := (Logged.event s p code p0 p1 p2 p3).work
@[simp] theorem State.event_rst (s : State) (p code p0 p1 p2 p3 : Nat) :
    (s.event p code p0 p1 p2 p3).rst = s.rst := (Logged.event s p code p0 p1 p2 p3).rst
@[simp] theorem State.event_col (s : State) (p code p0 p1 p2 p3 : Nat) :
    (s.event p code p0 p1 p2 p3).col = s.col := (Logged.event s p code p0 p1 p2 p3).col
@[simp] theorem State.event_hang (s : State) (p code p0 p1 p2 p3 : Nat) :
    (s.event p code p0 p1 p2 p3).hang = s.hang := (Logged.event s p code p0 p1 p2 p3).hang
@[simp] theorem State.event_dump (s : State) (p code p0 p1 p2 p3 : Nat) :
    (s.event p code p0 p1 p2 p3).dump = s.dump := (Logged.event s p code p0 p1 p2 p3).dump
@[simp] theorem State.event_link (s : State) (p code p0 p1 p2 p3 : Nat) :
    (s.event p code p0 p1 p2 p3).link = s.link := (Logged.event s p code p0 p1 p2 p3).link
@[simp] theorem State.event_boot (s : State) (p code p0 p1 p2 p3 : Nat) :
    (s.event p code p0 p1 p2 p3).boot = s.boot := (Logged.event s p code p0 p1 p2 p3).boot
@[simp] theorem State.event_cfg (s : State) (p code p0 p1 p2 p3 : Nat) :
    (s.event p code p0 p1 p2 p3).cfg = s.cfg := (Logged.event s p code p0 p1 p2 p3).cfg
@[simp] theorem State.event_fw (s : State) (p code p0 p1 p2 p3 : Nat) :
    (s.event p code p0 p1 p2 p3).fw = s.fw := (Logged.event s p code p0 p1 p2 p3).fw
@[simp] theorem State.event_fuse (s : State) (p code p0 p1 p2 p3 : Nat) :
    (s.event p code p0 p1 p2 p3).fuse = s.fuse := (Logged.event s p code p0 p1 p2 p3).fuse
@[simp] theorem State.event_tray (s : State) (p code p0 p1 p2 p3 : Nat) :
    (s.event p code p0 p1 p2 p3).tray = s.tray := (Logged.event s p code p0 p1 p2 p3).tray
@[simp] theorem State.event_draws (s : State) (p code p0 p1 p2 p3 : Nat) :
    (s.event p code p0 p1 p2 p3).draws = s.draws := (Logged.event s p code p0 p1 p2 p3).draws
@[simp] theorem State.event_pending (s : State) (p code p0 p1 p2 p3 : Nat) :
    (s.event p code p0 p1 p2 p3).pending = s.pending := (Logged.event s p code p0 p1 p2 p3).pending

/-! ### Errors -/

/-- Latching an error sets a bit of the page's ERR_STATUS or leaves the register file. -/
theorem State.reg_errAs (s : State) (p b k : Nat) (inj : Bool) (h : k ≠ (errStatus p).key) :
    (s.errAs p b inj).reg k = s.reg k := by
  unfold State.errAs
  split
  · rfl
  · simp only
    split
    · exact State.reg_wr_ne s _ _ k h
    · exact State.reg_wr_ne s _ _ k h

/-- An error leaves every register but the page's ERR_STATUS and ERR_INJECT. -/
theorem State.reg_err (s : State) (p b k : Nat) (h : k ≠ (errStatus p).key) (hi : k ≠ (F.ERR_INJECT_INJECT.pg p).key) :
    (s.err p b).reg k = s.reg k := by
  unfold State.err
  split
  · exact (State.reg_errAs _ p b k true h).trans (State.reg_wr_ne s _ _ k hi)
  · exact State.reg_errAs s p b k false h

theorem State.rd_err (s : State) (p b : Nat) (g : Field) (h : g.key ≠ (errStatus p).key)
    (hi : g.key ≠ (F.ERR_INJECT_INJECT.pg p).key) : (s.err p b).rd g = s.rd g := by
  simp only [State.rd, State.reg_err s p b g.key h hi]

theorem State.canonical_setReg (s : State) (k : Nat) (w : Word) (h : s.canonical) : (s.setReg k w).canonical :=
  ⟨h.1, Sparse.wf_set resetOf s.regs k w h.2⟩

theorem State.canonical_wr (s : State) (f : Field) (v : Nat) (h : s.canonical) : (s.wr f v).canonical :=
  State.canonical_setReg s _ _ h

theorem State.canonical_setByte (s : State) (a : Nat) (b : Byte) (h : s.canonical) : (s.setByte a b).canonical :=
  ⟨Sparse.wf_set memDefault s.mem a b h.1, h.2⟩

/-- Storing bytes keeps the canonical form of memory. -/
theorem State.canonical_setBytes (s : State) (a n v : Nat) (h : s.canonical) : (s.setBytes a n v).canonical := by
  induction n generalizing s a v with
  | zero => exact h
  | succ n ih => exact ih _ _ _ (State.canonical_setByte s a _ h)

theorem State.canonical_errAs (s : State) (p b : Nat) (inj : Bool) (h : s.canonical) : (s.errAs p b inj).canonical := by
  unfold State.errAs
  split
  · exact h
  · simp only
    split
    · exact State.canonical_wr s _ _ h
    · exact State.canonical_wr s _ _ h

theorem State.canonical_err (s : State) (p b : Nat) (h : s.canonical) : (s.err p b).canonical := by
  unfold State.err
  split
  · exact State.canonical_errAs _ p b true (State.canonical_wr s _ _ h)
  · exact State.canonical_errAs s p b false h

@[simp] theorem State.errAs_sels (s : State) (p b : Nat) (inj : Bool) : (s.errAs p b inj).sels = s.sels := by
  unfold State.errAs
  split
  · rfl
  · simp only
    split <;> rfl
@[simp] theorem State.err_sels (s : State) (p b : Nat) : (s.err p b).sels = s.sels := by
  unfold State.err
  split
  · exact State.errAs_sels _ p b true
  · exact State.errAs_sels s p b false
@[simp] theorem State.errAs_mem (s : State) (p b : Nat) (inj : Bool) : (s.errAs p b inj).mem = s.mem := by
  unfold State.errAs
  split
  · rfl
  · simp only
    split <;> rfl
@[simp] theorem State.err_mem (s : State) (p b : Nat) : (s.err p b).mem = s.mem := by
  unfold State.err
  split
  · exact State.errAs_mem _ p b true
  · exact State.errAs_mem s p b false
@[simp] theorem State.errAs_poison (s : State) (p b : Nat) (inj : Bool) : (s.errAs p b inj).poison = s.poison := by
  unfold State.errAs
  split
  · rfl
  · simp only
    split <;> rfl
@[simp] theorem State.err_poison (s : State) (p b : Nat) : (s.err p b).poison = s.poison := by
  unfold State.err
  split
  · exact State.errAs_poison _ p b true
  · exact State.errAs_poison s p b false
@[simp] theorem State.errAs_frondReset (s : State) (p b : Nat) (inj : Bool) : (s.errAs p b inj).frondReset = s.frondReset := by
  unfold State.errAs
  split
  · rfl
  · simp only
    split <;> rfl
@[simp] theorem State.err_frondReset (s : State) (p b : Nat) : (s.err p b).frondReset = s.frondReset := by
  unfold State.err
  split
  · exact State.errAs_frondReset _ p b true
  · exact State.errAs_frondReset s p b false
@[simp] theorem State.errAs_phase (s : State) (p b : Nat) (inj : Bool) : (s.errAs p b inj).phase = s.phase := by
  unfold State.errAs
  split
  · rfl
  · simp only
    split <;> rfl
@[simp] theorem State.err_phase (s : State) (p b : Nat) : (s.err p b).phase = s.phase := by
  unfold State.err
  split
  · exact State.errAs_phase _ p b true
  · exact State.errAs_phase s p b false
@[simp] theorem State.errAs_power (s : State) (p b : Nat) (inj : Bool) : (s.errAs p b inj).power = s.power := by
  unfold State.errAs
  split
  · rfl
  · simp only
    split <;> rfl
@[simp] theorem State.err_power (s : State) (p b : Nat) : (s.err p b).power = s.power := by
  unfold State.err
  split
  · exact State.errAs_power _ p b true
  · exact State.errAs_power s p b false
@[simp] theorem State.errAs_rails (s : State) (p b : Nat) (inj : Bool) : (s.errAs p b inj).rails = s.rails := by
  unfold State.errAs
  split
  · rfl
  · simp only
    split <;> rfl
@[simp] theorem State.err_rails (s : State) (p b : Nat) : (s.err p b).rails = s.rails := by
  unfold State.err
  split
  · exact State.errAs_rails _ p b true
  · exact State.errAs_rails s p b false
@[simp] theorem State.errAs_railSys (s : State) (p b : Nat) (inj : Bool) : (s.errAs p b inj).railSys = s.railSys := by
  unfold State.errAs
  split
  · rfl
  · simp only
    split <;> rfl
@[simp] theorem State.err_railSys (s : State) (p b : Nat) : (s.err p b).railSys = s.railSys := by
  unfold State.err
  split
  · exact State.errAs_railSys _ p b true
  · exact State.errAs_railSys s p b false
@[simp] theorem State.errAs_budget (s : State) (p b : Nat) (inj : Bool) : (s.errAs p b inj).budget = s.budget := by
  unfold State.errAs
  split
  · rfl
  · simp only
    split <;> rfl
@[simp] theorem State.err_budget (s : State) (p b : Nat) : (s.err p b).budget = s.budget := by
  unfold State.err
  split
  · exact State.errAs_budget _ p b true
  · exact State.errAs_budget s p b false
@[simp] theorem State.errAs_chain (s : State) (p b : Nat) (inj : Bool) : (s.errAs p b inj).chain = s.chain := by
  unfold State.errAs
  split
  · rfl
  · simp only
    split <;> rfl
@[simp] theorem State.err_chain (s : State) (p b : Nat) : (s.err p b).chain = s.chain := by
  unfold State.err
  split
  · exact State.errAs_chain _ p b true
  · exact State.errAs_chain s p b false
@[simp] theorem State.errAs_est (s : State) (p b : Nat) (inj : Bool) : (s.errAs p b inj).est = s.est := by
  unfold State.errAs
  split
  · rfl
  · simp only
    split <;> rfl
@[simp] theorem State.err_est (s : State) (p b : Nat) : (s.err p b).est = s.est := by
  unfold State.err
  split
  · exact State.errAs_est _ p b true
  · exact State.errAs_est s p b false
@[simp] theorem State.errAs_tiles (s : State) (p b : Nat) (inj : Bool) : (s.errAs p b inj).tiles = s.tiles := by
  unfold State.errAs
  split
  · rfl
  · simp only
    split <;> rfl
@[simp] theorem State.err_tiles (s : State) (p b : Nat) : (s.err p b).tiles = s.tiles := by
  unfold State.err
  split
  · exact State.errAs_tiles _ p b true
  · exact State.errAs_tiles s p b false
@[simp] theorem State.errAs_hbm (s : State) (p b : Nat) (inj : Bool) : (s.errAs p b inj).hbm = s.hbm := by
  unfold State.errAs
  split
  · rfl
  · simp only
    split <;> rfl
@[simp] theorem State.err_hbm (s : State) (p b : Nat) : (s.err p b).hbm = s.hbm := by
  unfold State.err
  split
  · exact State.errAs_hbm _ p b true
  · exact State.errAs_hbm s p b false
@[simp] theorem State.errAs_ring (s : State) (p b : Nat) (inj : Bool) : (s.errAs p b inj).ring = s.ring := by
  unfold State.errAs
  split
  · rfl
  · simp only
    split <;> rfl
@[simp] theorem State.err_ring (s : State) (p b : Nat) : (s.err p b).ring = s.ring := by
  unfold State.err
  split
  · exact State.errAs_ring _ p b true
  · exact State.errAs_ring s p b false
@[simp] theorem State.errAs_work (s : State) (p b : Nat) (inj : Bool) : (s.errAs p b inj).work = s.work := by
  unfold State.errAs
  split
  · rfl
  · simp only
    split <;> rfl
@[simp] theorem State.err_work (s : State) (p b : Nat) : (s.err p b).work = s.work := by
  unfold State.err
  split
  · exact State.errAs_work _ p b true
  · exact State.errAs_work s p b false
@[simp] theorem State.errAs_rst (s : State) (p b : Nat) (inj : Bool) : (s.errAs p b inj).rst = s.rst := by
  unfold State.errAs
  split
  · rfl
  · simp only
    split <;> rfl
@[simp] theorem State.err_rst (s : State) (p b : Nat) : (s.err p b).rst = s.rst := by
  unfold State.err
  split
  · exact State.errAs_rst _ p b true
  · exact State.errAs_rst s p b false
@[simp] theorem State.errAs_col (s : State) (p b : Nat) (inj : Bool) : (s.errAs p b inj).col = s.col := by
  unfold State.errAs
  split
  · rfl
  · simp only
    split <;> rfl
@[simp] theorem State.err_col (s : State) (p b : Nat) : (s.err p b).col = s.col := by
  unfold State.err
  split
  · exact State.errAs_col _ p b true
  · exact State.errAs_col s p b false
@[simp] theorem State.errAs_hang (s : State) (p b : Nat) (inj : Bool) : (s.errAs p b inj).hang = s.hang := by
  unfold State.errAs
  split
  · rfl
  · simp only
    split <;> rfl
@[simp] theorem State.err_hang (s : State) (p b : Nat) : (s.err p b).hang = s.hang := by
  unfold State.err
  split
  · exact State.errAs_hang _ p b true
  · exact State.errAs_hang s p b false
@[simp] theorem State.errAs_dump (s : State) (p b : Nat) (inj : Bool) : (s.errAs p b inj).dump = s.dump := by
  unfold State.errAs
  split
  · rfl
  · simp only
    split <;> rfl
@[simp] theorem State.err_dump (s : State) (p b : Nat) : (s.err p b).dump = s.dump := by
  unfold State.err
  split
  · exact State.errAs_dump _ p b true
  · exact State.errAs_dump s p b false
@[simp] theorem State.errAs_link (s : State) (p b : Nat) (inj : Bool) : (s.errAs p b inj).link = s.link := by
  unfold State.errAs
  split
  · rfl
  · simp only
    split <;> rfl
@[simp] theorem State.err_link (s : State) (p b : Nat) : (s.err p b).link = s.link := by
  unfold State.err
  split
  · exact State.errAs_link _ p b true
  · exact State.errAs_link s p b false
@[simp] theorem State.errAs_boot (s : State) (p b : Nat) (inj : Bool) : (s.errAs p b inj).boot = s.boot := by
  unfold State.errAs
  split
  · rfl
  · simp only
    split <;> rfl
@[simp] theorem State.err_boot (s : State) (p b : Nat) : (s.err p b).boot = s.boot := by
  unfold State.err
  split
  · exact State.errAs_boot _ p b true
  · exact State.errAs_boot s p b false
@[simp] theorem State.errAs_cfg (s : State) (p b : Nat) (inj : Bool) : (s.errAs p b inj).cfg = s.cfg := by
  unfold State.errAs
  split
  · rfl
  · simp only
    split <;> rfl
@[simp] theorem State.err_cfg (s : State) (p b : Nat) : (s.err p b).cfg = s.cfg := by
  unfold State.err
  split
  · exact State.errAs_cfg _ p b true
  · exact State.errAs_cfg s p b false
@[simp] theorem State.errAs_fw (s : State) (p b : Nat) (inj : Bool) : (s.errAs p b inj).fw = s.fw := by
  unfold State.errAs
  split
  · rfl
  · simp only
    split <;> rfl
@[simp] theorem State.err_fw (s : State) (p b : Nat) : (s.err p b).fw = s.fw := by
  unfold State.err
  split
  · exact State.errAs_fw _ p b true
  · exact State.errAs_fw s p b false
@[simp] theorem State.errAs_fuse (s : State) (p b : Nat) (inj : Bool) : (s.errAs p b inj).fuse = s.fuse := by
  unfold State.errAs
  split
  · rfl
  · simp only
    split <;> rfl
@[simp] theorem State.err_fuse (s : State) (p b : Nat) : (s.err p b).fuse = s.fuse := by
  unfold State.err
  split
  · exact State.errAs_fuse _ p b true
  · exact State.errAs_fuse s p b false
@[simp] theorem State.errAs_tray (s : State) (p b : Nat) (inj : Bool) : (s.errAs p b inj).tray = s.tray := by
  unfold State.errAs
  split
  · rfl
  · simp only
    split <;> rfl
@[simp] theorem State.err_tray (s : State) (p b : Nat) : (s.err p b).tray = s.tray := by
  unfold State.err
  split
  · exact State.errAs_tray _ p b true
  · exact State.errAs_tray s p b false
@[simp] theorem State.errAs_draws (s : State) (p b : Nat) (inj : Bool) : (s.errAs p b inj).draws = s.draws := by
  unfold State.errAs
  split
  · rfl
  · simp only
    split <;> rfl
@[simp] theorem State.err_draws (s : State) (p b : Nat) : (s.err p b).draws = s.draws := by
  unfold State.err
  split
  · exact State.errAs_draws _ p b true
  · exact State.errAs_draws s p b false
@[simp] theorem State.errAs_pending (s : State) (p b : Nat) (inj : Bool) : (s.errAs p b inj).pending = s.pending := by
  unfold State.errAs
  split
  · rfl
  · simp only
    split <;> rfl
@[simp] theorem State.err_pending (s : State) (p b : Nat) : (s.err p b).pending = s.pending := by
  unfold State.err
  split
  · exact State.errAs_pending _ p b true
  · exact State.errAs_pending s p b false

end Sys2Proof.Machine
end

