-- ==== Sys2Proof/WellFormed.lean ====
section
/-! DEFINITION. Which commands are well formed: operands that only together, or only within a range that their type is wider
than, are what the spec lets arrive. The meanings are total on every command; nothing rests on this check but statements that
say so. -/

namespace Sys2Proof

/-- The level that a requester carries (R531): the steward and the power cores L0, a control core L1 or L2. -/
def Req.ok (r : Req) : Bool :=
  match r.kind with
  | .steward => r.level == .L0
  | .power => r.level == .L0
  | .core _ _ => r.level != .L0
  | .host _ => true
  | .relay _ => true

/-- A memory operation moves at least one byte. -/
def MemOp.ok : MemOp → Bool
  | .read n => decide (0 < n)
  | .write d _ => !d.isEmpty

/-- A remote load has 1 to 64 bytes (R252), a store at least one. -/
def RemoteOp.ok : RemoteOp → Bool
  | .load n => decide (1 ≤ n.toNat) && decide (n.toNat ≤ 64)
  | .store d => !d.isEmpty && decide (d.length ≤ 64)
  | _ => true

/-- A transaction carries LEN + 1 bytes or none, at most 4,096 (R253). -/
def Txn.ok (t : Txn) : Bool :=
  decide (1 ≤ t.len.toNat) && decide (t.len.toNat ≤ 4096) && (t.data.isEmpty || t.data.length == t.len.toNat)

/-- A unit's block has 16 cells and 4 thermistors (R389). -/
def GcsBlock.good (b : GcsBlock) : Bool := b.cells.length == 16 && b.therm.length == 4

/-- What a training finds has a pair of verdicts for each slot, and a rate for each stack. -/
def Training.good (t : Training) : Bool := t.rates.length == 8

/-- A phase that the rail has (R335). -/
def phaseOk (rail phase : Nat) : Bool := decide (phase < Machine.railPhases rail)

/-- HBM lies below 0xA0_0000_0000 (R17). -/
def inHbm (addr : BitVec 44) : Bool := decide (addr.toNat < 0xA000000000)

/-- A command is well formed. -/
def Instr.wf (i : Instr) : Bool :=
  match i with
  | .startupStepComplete res => res.good
  | .chipResetPhaseDone res => res.good
  | .registerWrite r _ bytes _ => r.ok && decide (1 ≤ bytes.toNat)
  | .accessClassWrite r _ _ => r.ok
  | .blkCtrlEnable r _ _ => r.ok
  | .blkCtrlFenceSet r _ => r.ok
  | .blkCtrlFenceClear r _ => r.ok
  | .blkCtrlResetReq r _ => r.ok
  | .blkCtrlCfgLock r _ => r.ok
  | .errMaskWrite r _ _ => r.ok
  | .errInjectWrite r _ _ => r.ok
  | .tileWindowAccess _ _ _ _ op _ => op.ok
  | .hbmReadRequest _ addr _ => inHbm addr
  | .hbmWriteRequest _ addr data _ _ => inHbm addr && !data.isEmpty
  | .nmuReduceWrite _ addr _ _ data => inHbm addr && !data.isEmpty
  | .hbmScrubBlock addr _ _ => inHbm addr
  | .coreRemoteAccess _ _ _ op => op.ok
  | .submissionWindowWrite _ _ data => !data.isEmpty
  | .pageRetireDone _ found => found.all fun p => p.2 != .clean
  | .flitReceive _ flit => flit.bytes.length == 256
  | .routerForward _ t => t.ok
  | .read _ t => t.ok
  | .write _ t => t.ok && !t.data.isEmpty
  | .atomic _ t => t.ok
  | .reduceWrite _ t => t.ok && !t.data.isEmpty
  | .readResp _ t => t.ok
  | .atomicResp _ t => t.ok
  | .wdone _ t => t.ok
  | .relay _ t _ _ => t.ok
  | .relayResp _ t => t.ok
  | .ping _ t => t.ok
  | .pingResp _ t => t.ok
  | .attest _ sig sigLen => sig.length == sigLen.toNat
  | .phaseBalance rail currents temps =>
    currents.length == Machine.railPhases rail && temps.length == Machine.railPhases rail
  | .phasePeakLimit rail phase _ => phaseOk rail phase
  | .phaseOtFence rail phase => phaseOk rail phase
  | .railPhFenceWrite r rail phase _ => r.ok && phaseOk rail phase
  | .senseCheckStart rail phase => phaseOk rail phase
  | .sweepReadReturn blocks _ => blocks.all GcsBlock.good
  | .enum units _ _ serials => decide (units.toNat ≤ 7) && decide (serials.length ≤ 7)
  | .carrierReturn units serials => decide (units.toNat ≤ 7) && decide (serials.length ≤ 7)
  | .recoveryStepOverrun step _ => decide (1 ≤ step.toNat) && decide (step.toNat ≤ 4)
  | _ => true

end Sys2Proof
end

