-- ==== Sys2Proof/Tests/Slice0.lean ====
section
/-! SUPPORT. Tests. Each witness theorem shows, for the clauses of a statement, a small state and operands that meet the
hypotheses together, and what the command then leaves; the expected values follow from the rule that the statement names. -/

namespace Sys2Proof.Tests

open Sys2Proof Sys2Proof.Machine

set_option Elab.async false

/-- Fields set one after the other from the state after reset. -/
def base (l : List (Field × Nat)) : State := l.foldl (fun s e => s.wr e.1 e.2) State.reset

/-- Fields set in a state. -/
def put (s : State) (l : List (Field × Nat)) : State := l.foldl (fun s e => s.wr e.1 e.2) s

/-- The command answers a next state that passes a check. -/
def gives (c : Instr) (s : State) (p : State → Bool) : Bool :=
  match exec c s with
  | .next t => p t
  | _ => false

/-- The command changes nothing. -/
def idle (c : Instr) (s : State) : Bool := gives c s (fun t => decide (t = s))

/-- A requester at L0. -/
abbrev su : Req := ⟨.steward, .L0⟩

/-- A requester at L1. -/
abbrev user : Req := ⟨.core .A 0, .L1⟩

/-! ### The step phase -/

def pMiss : State :=
  let s := base [(F.PHASE_STATUS_LOCK_STATE, 2), (F.PHASE_WINDOW_WIN, 0)]
  { s with phase := { s.phase with acc := 2 ^ 63, byMark := false } }

def pFire (ended : Bool) : State :=
  { State.reset with phase := { State.reset.phase with queue := [⟨3, 0, ended⟩] } }

def pSet : State := { State.reset with phase := { State.reset.phase with pendStep := some 0xFFFFFFFF } }

def pArmed (b : Nat) : State := base [(F.ERR_INJECT_INJECT.pg 0xA0, 2 ^ b)]

theorem witness_StepStartsMarksAndControls_1 :
    pSet.phase.pendStep = some 0xFFFFFFFF ∧
      gives .autonomousWrap pSet (fun t => t.phase.step == 0xFFFFFFFF && t.phase.pendStep == none) = true := by
  decide +kernel

theorem witness_StepStartsMarksAndControls_2 :
    State.reset.lock ≠ 2 ∧ idle .expectedMarkMiss State.reset = true ∧
      idle .expectedMarkMiss { pMiss with phase := { pMiss.phase with byMark := true } } = true ∧
      idle .expectedMarkMiss { pMiss with phase := { pMiss.phase with acc := 0 } } = true := by
  decide +kernel

theorem witness_StepStartsMarksAndControls_3 :
    State.reset.phase.pendStep = none ∧
      gives .autonomousWrap State.reset (fun t => t.phase.acc == 0 && t.phase.step == 1 && !t.phase.byMark) = true := by
  decide +kernel

theorem witness_StepStartsMarksAndControls_4 :
    pMiss.lock = 2 ∧ pMiss.phase.byMark = false ∧ pMiss.rd F.PHASE_WINDOW_WIN < pMiss.angle ∧
      gives .expectedMarkMiss pMiss (fun t => t.lock == 3 && t.rd F.PHASE_STATUS_HOLD_STEPS == 1) = true := by
  decide +kernel

theorem witness_StepStartsMarksAndControls_5 :
    gives .activeSourceLapse State.reset (fun t => t.rd F.PHASE_STATUS_ACTIVE_SRC == State.reset.srcPick) = true := by
  decide +kernel

theorem witness_StepStartsMarksAndControls_6 :
    State.reset.rd F.PHASE_STEP_IO_IN_EDGE = b2n (!true) := by
  decide +kernel

theorem witness_StepStartsMarksAndControls_7 :
    State.reset.rd F.PHASE_STEP_IO_IN_EDGE = b2n false ∧ idle (.stepInEdge false) State.reset = true := by
  decide +kernel

theorem witness_StepStartsMarksAndControls_8 :
    State.reset.mayWrite su F.PHASE_CTRL_COMMIT ∧
      gives (.phaseCtrlCommit su) State.reset (fun t => t.rd F.PHASE_STATUS_COMMIT_PEND == 1) = true ∧
      gives (.phaseCtrlReacquire su) State.reset (fun t => t.rd F.PHASE_CTRL_REACQUIRE == 1) = true ∧
      gives (.phaseCtrlForceFree su) pMiss (fun t => t.lock == 0 && t.phase.run == []) = true ∧
      gives (.phaseCtrlProfClear su) (base [(F.PROF_BIN_BIN0.i 63, 7)]) (fun t => t.reg (F.PROF_BIN_BIN0.i 63).key == 0) = true := by
  decide +kernel

theorem witness_StepStartsMarksAndControls_9 :
    State.reset.mayWrite su F.PHASE_STEP_SET_STEP ∧
      gives (.phaseStepSetWrite su 0xFFFFFFFF) State.reset (fun t => t.phase.pendStep == some 0xFFFFFFFF) = true := by
  decide +kernel

theorem witness_EventTableFiresAndCopiesFollow_1 :
    (pFire false).phase.queue = [⟨3, 0, false⟩] ∧
      gives .phaseEventFire (pFire false) (fun t => bitOf (t.rd F.PHEV_FIRED_FIRED) 3 && t.phase.queue == []) = true := by
  decide +kernel

theorem witness_EventTableFiresAndCopiesFollow_2 :
    (pFire true).phase.queue = [⟨3, 0, true⟩] ∧
      gives .phaseEventFire (pFire true) (fun t => !bitOf (t.rd F.PHEV_FIRED_FIRED) 3 && t.phase.queue == []) = true := by
  decide +kernel

theorem witness_EventTableFiresAndCopiesFollow_3 :
    (pFire true).phase.queue ≠ [] ∧ State.reset.phase.queue = [] ∧ idle .phaseEventFire State.reset = true := by
  decide +kernel

theorem witness_EventTableFiresAndCopiesFollow_4 :
    (pArmed 1).armed 0xA0 1 = true ∧ (pArmed 2).armed 0xA0 2 = true ∧
      gives (.phaseBroadcast true true) (pArmed 1) (fun t => t.phase.copyA == (pArmed 1).phase.copyA && t.phase.copyB.valid &&
        bitOf (t.rd (errStatus 0xA0)) 1) = true ∧
      gives (.phaseBroadcast true true) (pArmed 2) (fun t => t.phase.copyA.valid && t.phase.copyB == (pArmed 2).phase.copyB &&
        bitOf (t.rd (errStatus 0xA0)) 2) = true := by
  decide +kernel

theorem witness_EventTableFiresAndCopiesFollow_5 :
    gives .segmentStart State.reset (fun t => t.phase.opPref == none) = true := by
  decide +kernel

theorem witness_EventTableFiresAndCopiesFollow_6 :
    State.reset.armed 0xA0 1 = false ∧ State.reset.armed 0xA0 2 = false ∧
      gives (.phaseBroadcast true true) State.reset (fun t => t.phase.copyA.valid && t.phase.copyB.valid) = true ∧
      gives (.phaseBroadcast false true) State.reset (fun t => bitOf (t.rd (errStatus 0xA0)) 1 && t.phase.copyB.valid) = true ∧
      gives (.phaseBroadcast true false) State.reset (fun t => bitOf (t.rd (errStatus 0xA0)) 2 && t.phase.copyA.valid) = true := by
  decide +kernel

theorem witness_EventTableFiresAndCopiesFollow_7 :
    gives (.frondCopyInvalid .B) State.reset (fun t => bitOf (t.rd (errStatus (frondPg .B 0x108))) 3) = true := by
  decide +kernel

theorem witness_EventTableFiresAndCopiesFollow_8 :
    gives .stepOutPulseEnd State.reset (fun t => !t.phase.stepOut) = true := by
  decide +kernel

/-! ### Tiles and arrays -/

def calOk : CalResult := ⟨true, true, 0, 0, 0⟩

def calBad : CalResult := ⟨false, true, 0, 0, 0⟩

/-- A ready tile of frond A with its rotation state. -/
def tRot (p r : Nat) : State := base [(tf F.TILE_STATUS_STATE .A p, 2), (tf F.ARR_SLOT_ROT_STATE .A p, r),
  (tf F.ARR_SLOT_SPARE .A p, 4), (tf F.ARR_SLOT_SLOT0 .A p, 0), (tf F.ARR_SLOT_SLOT1 .A p, 1), (tf F.ARR_SLOT_SLOT2 .A p, 2),
  (tf F.ARR_SLOT_SLOT3 .A p, 3), (tf F.ARR_SLOT_TARGET .A p, 3)]

def tTrig (p r : Nat) : State := (tRot p r).updTile .A p (fun u => { u with trigger := true })

def tBist : State := (tRot 1 3).updTile .A 1 (fun u => { u with trigger := true, bist := true })

def tUngated (p r : Nat) : State := put (tRot p r) [(acf F.ACAL_CTRL_CAL_GATE .A, 0)]

def tInPlace : State := put (tRot 0 6) [(af F.ARR_STATUS_TEMP_TRIG .A 0 3, 1), (acf F.ACAL_CTRL_SELFTEST_FORCE .A, 1)]

/-- A tile without a spare whose calibration of slot 3 is under way, and one with no trigger. -/
def tHeld : State := (tRot 0 6).updTile .A 0 (fun u => { u with ipSlot := some 3 })

/-- The tile's last calibration of an array is more than 600 s old. -/
def tOld : State := { State.reset with phase := { State.reset.phase with time := 600 * 250000000 + 1 } }

def tArmed : State := put (tRot 2 1) [(F.ERR_INJECT_INJECT.pg (tilePage .A 2), 1)]

/-- Frond A under a full calibration. -/
def tCalm : State := base [(acf F.ACAL_STATUS_FULL_CAL_BUSY .A, 0), (acf F.ACAL_CTRL_SELFTEST_FORCE .A, 1)]

def tSlots : State := put ((tRot 5 6).updTile .A 5 (fun u => { u with bistSlots := [0, 1] })) [(acf F.ACAL_CTRL_SELFTEST_FORCE .A, 1)]

def tSlotsShut : State := (tRot 5 6).updTile .A 5 (fun u => { u with bistSlots := [0] })

def tBusy : State := base [(acf F.ACAL_STATUS_FULL_CAL_BUSY .A, 1), (acf F.ACAL_CTRL_FULL_CAL_REQ .A, 1)]

theorem witness_ArraysCalibrateAndRotate_1 :
    ((State.reset.wr (af F.ARR_STATUS_TEMP .A 131 4) 0).drifted .A 131 4 = false ∧
      State.reset.now - Sparse.get (fun _ => 0) (State.reset.tile .A 131).calAt 4 ≤ 600 * 250000000) ∧
      gives (.arrayTempSample .A 131 4 0 true) State.reset (fun t => t.rd (af F.ARR_STATUS_STALE .A 131 4) == 0) = true := by
  decide +kernel

theorem witness_ArraysCalibrateAndRotate_2 :
    (State.reset.wr (af F.ARR_STATUS_TEMP .A 0 0) 0x3FFF).drifted .A 0 0 = true ∧
      gives (.arrayTempSample .A 0 0 0x3FFF true) State.reset (fun t => t.rd (af F.ARR_STATUS_STALE .A 0 0) == 1) = true := by
  decide +kernel

theorem witness_ArraysCalibrateAndRotate_3 :
    tOld.calOld .A 131 4 = true ∧
      gives (.arrayTempSample .A 131 4 0 true) tOld (fun t => t.rd (af F.ARR_STATUS_STALE .A 131 4) == 1) = true ∧
      gives (.arrayTempSample .A 131 4 0 false) tOld (fun t => t.rd (af F.ARR_STATUS_STALE .A 131 4) == 1) = true := by
  decide +kernel

theorem witness_ArraysCalibrateAndRotate_4 :
    tArmed.rot .A 2 = 1 ∧ tArmed.armed (tilePage .A 2) 0 = true ∧
      gives (.spareCopyDone .A 2 false) tArmed (fun t => t.rot .A 2 == 1 && bitOf (t.rd (errStatus (tilePage .A 2))) 0) = true := by
  decide +kernel

theorem witness_ArraysCalibrateAndRotate_5 :
    tHeld.rot .A 0 = 6 ∧ (tHeld.tile .A 0).ipSlot = some 3 ∧ tHeld.calPass .A calOk = true ∧ tHeld.slotArr .A 0 3 < 5 ∧
      gives (.inPlaceCalibration .A 0 3 calOk) tHeld (fun t => t.rd (af F.ARR_CAL_RES_PASS .A 0 3) == 1 &&
        (t.tile .A 0).ipSlot == none && t.rd (af F.ARR_STATUS_ARR_STATE .A 0 3) == 0 && t.rd (af F.ARR_STATUS_TEMP_TRIG .A 0 3) == 0) = true := by
  decide +kernel

theorem witness_ArraysCalibrateAndRotate_6 :
    tCalm.mayWrite su (acf F.ACAL_CTRL_FULL_CAL_REQ .A) ∧ tCalm.calGateOpen .A = true ∧
      tCalm.rd (acf F.ACAL_STATUS_FULL_CAL_BUSY .A) = 0 ∧
      gives (.acalFullCalReq su .A) tCalm (fun t => t.rd (acf F.ACAL_STATUS_FULL_CAL_BUSY .A) == 1 && t.tileState .A 131 == 1 &&
        t.tileState .A 0 == 1) = true := by
  decide +kernel

theorem witness_ArraysCalibrateAndRotate_7 :
    tBusy.mayWrite su (acf F.ACAL_CTRL_FULL_CAL_REQ .A) ∧ gives (.acalFullCalReq su .A) tBusy (fun t =>
      decide (t = tBusy.wr (acf F.ACAL_CTRL_FULL_CAL_REQ .A) 1)) = true := by
  decide +kernel

theorem witness_ArraysCalibrateAndRotate_8 :
    (tRot 5 6).tileState .A 5 ≠ 4 ∧ (tRot 5 6).rot .A 5 = 6 ∧ (tRot 5 3).rot .A 5 = 3 ∧
      gives (.acalBistReq su .A) (tRot 5 6) (fun t => (t.tile .A 5).bistSlots == [0, 1, 2, 3]) = true ∧
      gives (.acalBistReq su .A) (tRot 5 3) (fun t => (t.tile .A 5).bist && t.rot .A 5 == 3) = true := by
  decide +kernel

theorem witness_ArraysCalibrateAndRotate_9 :
    tSlots.rot .A 5 ≠ 5 ∧ (tSlots.tile .A 5).bistSlots = [0, 1] ∧ tSlots.slotArr .A 5 0 = 0 ∧
      tSlots.rd (acf F.ACAL_CTRL_SELFTEST_FORCE .A) = 1 ∧
      gives (.arrayBistDone .A 5 0 true) tSlots (fun t => (t.tile .A 5).bistSlots == [1]) = true := by
  decide +kernel

theorem witness_ArraysCalibrateAndRotate_10 :
    tSlotsShut.rot .A 5 ≠ 5 ∧ (tSlotsShut.tile .A 5).bistSlots = [0] ∧ tSlotsShut.slotArr .A 5 0 = 0 ∧
      bitOf tSlotsShut.phase.testOpen 0 = false ∧ tSlotsShut.rd (acf F.ACAL_CTRL_SELFTEST_FORCE .A) = 0 ∧
      idle (.arrayBistDone .A 5 0 false) tSlotsShut = true := by
  decide +kernel

theorem witness_ArraysCalibrateAndRotate_11 :
    ((tRot 5 2).tile .A 5).trigger = false ∧ idle (.rotTimeout .A 5) (tRot 5 2) = true := by
  decide +kernel

theorem witness_ArraysCalibrateAndRotate_12 :
    gives (.arrayTempSample .B 0 2 0 false) State.reset (fun t => bitOf (t.rd (errStatus (tilePage .B 0))) 4) = true := by
  decide +kernel

theorem witness_ArraysCalibrateAndRotate_13 :
    (base [(acf F.ACAL_CTRL_PHASE_ONLY .A, 1)]).rd (acf F.ACAL_CTRL_PHASE_ONLY .A) = 1 ∧
      idle (.acalIntervalExpire .A) (base [(acf F.ACAL_CTRL_PHASE_ONLY .A, 1)]) = true := by
  decide +kernel

theorem witness_ArraysCalibrateAndRotate_14 :
    (tRot 131 0).rd (acf F.ACAL_CTRL_PHASE_ONLY .A) = 0 ∧ (tRot 131 0).rot .A 131 ≠ 6 ∧ (tRot 131 0).tileState .A 131 = 2 ∧
      (tRot 131 0).rotOn .A 131 = true ∧
      gives (.acalIntervalExpire .A) (tRot 131 0) (fun t => (t.tile .A 131).trigger) = true := by
  decide +kernel

theorem witness_ArraysCalibrateAndRotate_15 :
    (tTrig 0 3).rot .A 0 = 3 ∧ ((tTrig 0 3).tile .A 0).trigger = true ∧ (tTrig 0 3).rd (tf F.ARR_SLOT_TARGET .A 0) < 4 ∧
      gives (.spareRotation .A 0) (tTrig 0 3) (fun t => t.slotArr .A 0 3 == 4 && t.spareArr .A 0 == 3 && t.rot .A 0 == 0) = true := by
  decide +kernel

theorem witness_ArraysCalibrateAndRotate_16 :
    (tBist.tile .A 1).bist = true ∧ gives (.spareRotation .A 1) tBist (fun t => t.rot .A 1 == 5) = true := by
  decide +kernel

theorem witness_ArraysCalibrateAndRotate_17 :
    (tRot 2 1).rot .A 2 = 1 ∧ (tRot 2 1).armed (tilePage .A 2) 0 = false ∧
      gives (.spareCopyDone .A 2 false) (tRot 2 1) (fun t => t.rot .A 2 == 2) = true ∧
      gives (.spareCopyDone .A 2 true) (tRot 2 1) (fun t => t.rot .A 2 == 1 && bitOf (t.rd (errStatus (tilePage .A 2))) 0) = true := by
  decide +kernel

theorem witness_ArraysCalibrateAndRotate_18 :
    (tUngated 3 2).rot .A 3 = 2 ∧ (tUngated 3 2).rd (acf F.ACAL_CTRL_CAL_GATE .A) = 0 ∧
      ((tUngated 3 2).tile .A 3).verifyOnly = false ∧ (tUngated 3 2).spareArr .A 3 < 5 ∧ (tUngated 3 2).calPass .A calOk = true ∧
      gives (.spareCalDone .A 3 calOk) (tUngated 3 2) (fun t => t.rot .A 3 == 3 && t.rd (af F.ARR_CAL_RES_PASS .A 3 4) == 1) = true := by
  decide +kernel

theorem witness_ArraysCalibrateAndRotate_19 :
    (tUngated 3 2).calPass .A calBad = false ∧ Sparse.get (fun _ => 0) ((tUngated 3 2).tile .A 3).calFails 4 = 0 ∧
      gives (.spareCalDone .A 3 calBad) (tUngated 3 2) (fun t => t.rot .A 3 == 4 && bitOf (t.rd (errStatus (tilePage .A 3))) 1) = true := by
  decide +kernel

theorem witness_ArraysCalibrateAndRotate_20 :
    tInPlace.rot .A 0 = 6 ∧ tInPlace.rd (af F.ARR_STATUS_TEMP_TRIG .A 0 (tInPlace.slotArr .A 0 3)) = 1 ∧
      tInPlace.calGateOpen .A = true ∧ tInPlace.calPass .A calOk = true ∧ tInPlace.slotArr .A 0 3 < 5 ∧
      gives (.inPlaceCalibration .A 0 3 calOk) tInPlace (fun t => t.rd (af F.ARR_CAL_RES_PASS .A 0 3) == 1) = true := by
  decide +kernel

theorem witness_ArraysCalibrateAndRotate_21 :
    tInPlace.mayWrite su (acf F.ACAL_CTRL_FULL_CAL_REQ .A) ∧ tInPlace.calGateOpen .A = true ∧
      gives (.acalFullCalReq su .A) tInPlace (fun t => t.rd (acf F.ACAL_STATUS_FULL_CAL_BUSY .A) == 1) = true := by
  decide +kernel

theorem witness_ArraysCalibrateAndRotate_22 :
    tBusy.rd (acf F.ACAL_STATUS_FULL_CAL_BUSY .A) = 1 := by
  decide +kernel

theorem witness_ArraysCalibrateAndRotate_23 :
    (base [(acf F.ACAL_STATUS_FULL_CAL_BUSY .A, 0)]).rd (acf F.ACAL_STATUS_FULL_CAL_BUSY .A) = 0 ∧
      idle (.fullCalibrationDone .A []) (base [(acf F.ACAL_STATUS_FULL_CAL_BUSY .A, 0)]) = true := by
  decide +kernel

theorem witness_ArraysCalibrateAndRotate_24 :
    (tRot 131 0).mayWrite su (acf F.ACAL_CTRL_BIST_REQ .A) ∧ (tRot 131 0).tileState .A 131 ≠ 4 ∧ (tRot 131 0).rot .A 131 = 0 ∧
      gives (.acalBistReq su .A) (tRot 131 0) (fun t => t.rot .A 131 == 5 && t.rd (acf F.ACAL_STATUS_BIST_BUSY .A) == 1) = true := by
  decide +kernel

theorem witness_ArraysCalibrateAndRotate_25 :
    (tRot 5 5).rot .A 5 = 5 ∧ (tRot 5 5).spareArr .A 5 = 4 ∧
      gives (.arrayBistDone .A 5 4 true) (tRot 5 5) (fun t => t.rot .A 5 == 0) = true := by
  decide +kernel

theorem witness_ArraysCalibrateAndRotate_26 :
    ((tTrig 5 2).tile .A 5).trigger = true ∧ (tTrig 5 2).rot .A 5 ≠ 3 ∧
      gives (.rotTimeout .A 5) (tTrig 5 2) (fun t => bitOf (t.rd (errStatus (tilePage .A 5))) 5) = true := by
  decide +kernel

theorem witness_ArraysCalibrateAndRotate_27 :
    ((tTrig 5 3).tile .A 5).trigger = true ∧ (tTrig 5 3).rot .A 5 = 3 ∧ idle (.rotTimeout .A 5) (tTrig 5 3) = true := by
  decide +kernel

/-- A partition in BUILT over logical tile 0. -/
def mPart : State := base [(F.PART_STATUS_STATE.i 0, 2), (F.PART_CFG_FROND.i 0, 0), (F.PART_CFG_WIDTH.i 0, 1), (F.PART_CFG_HEIGHT.i 0, 1)]

/-- Physical tile 131 is a spare and logical tile 127 is not mapped. -/
def mFree : State := base [(acf F.ACAL_STATUS_FULL_CAL_BUSY .A, 0), (mapField F.TMAP_ENTRY_VALID .A 127, 0), (tf F.TILE_STATUS_STATE .A 131, 3)]

/-- The word of a map entry: VALID and PHYS. -/
def mWord (v p : Nat) : BitVec 64 := F.TMAP_ENTRY_VALID.put (F.TMAP_ENTRY_PHYS.put 0 p) v

def mRecal : State := State.reset.updTile .B 3 (fun u => { u with recal := true })

theorem witness_TileMapAndReturnOfTiles_1 :
    mPart.mayWrite su (mapField F.TMAP_ENTRY_VALID .A 0) ∧ (mPart.partOfTile .A 0).isSome = true ∧
      (mPart.mergeWord true (mapField F.TMAP_ENTRY_VALID .A 0).key (mWord 1 131)).1 ≠ mPart.reg (mapField F.TMAP_ENTRY_VALID .A 0).key ∧
      gives (.tmapEntryWrite su .A 0 (mWord 1 131)) mPart (fun t => bitOf (t.rd (errStatus 0x100)) 0) = true := by
  decide +kernel

theorem witness_TileMapAndReturnOfTiles_2 :
    mFree.partOfTile .A 127 = none ∧
      131 < F.TMAP_ENTRY_PHYS.get (mFree.mergeWord true (mapField F.TMAP_ENTRY_VALID .A 127).key (mWord 1 132)).1 ∧
      (mFree.mergeWord true (mapField F.TMAP_ENTRY_VALID .A 127).key (mWord 1 132)).1 ≠
        mFree.reg (mapField F.TMAP_ENTRY_VALID .A 127).key ∧
      gives (.tmapEntryWrite su .A 127 (mWord 1 132)) mFree (fun t => bitOf (t.rd (errStatus 0x100)) 1) = true := by
  decide +kernel

theorem witness_TileMapAndReturnOfTiles_3 :
    mFree.mayWrite su (mapField F.TMAP_ENTRY_VALID .A 127) ∧ mFree.partOfTile .A 127 = none ∧ mFree.physOf .A 127 = none ∧
      (mFree.mergeWord true (mapField F.TMAP_ENTRY_VALID .A 127).key (mWord 1 131)).1 ≠
        mFree.reg (mapField F.TMAP_ENTRY_VALID .A 127).key ∧
      F.TMAP_ENTRY_PHYS.get (mFree.mergeWord true (mapField F.TMAP_ENTRY_VALID .A 127).key (mWord 1 131)).1 = 131 ∧
      mFree.tileState .A 131 ≠ 4 ∧ (∀ x < 128, mFree.physOf .A x ≠ some 131) ∧
      gives (.tmapEntryWrite su .A 127 (mWord 1 131)) mFree (fun t => t.logicalOf .A 131 == 127 && t.tileState .A 131 == 2) = true := by
  decide +kernel

/-- Logical tile 0 holds physical tile 0. -/
def mHeld : State := put mFree [(mapField F.TMAP_ENTRY_VALID .A 0, 1), (mapField F.TMAP_ENTRY_PHYS .A 0, 0), (tf F.TILE_STATUS_LOGICAL .A 0, 0),
  (tf F.TILE_STATUS_STATE .A 0, 2)]

theorem witness_TileMapAndReturnOfTiles_4 :
    mHeld.partOfTile .A 0 = none ∧ mHeld.physOf .A 0 = some 0 ∧ mHeld.tileState .A 0 ≠ 4 ∧
      F.TMAP_ENTRY_VALID.get (mHeld.mergeWord true (mapField F.TMAP_ENTRY_VALID .A 0).key (mWord 0 0)).1 = 0 ∧
      (∀ x < 128, x ≠ 0 → mHeld.physOf .A x ≠ some 0) ∧
      gives (.tmapEntryWrite su .A 0 (mWord 0 0)) mHeld (fun t => t.logicalOf .A 0 == 0xFF && t.tileState .A 0 == 3) = true := by
  decide +kernel

theorem witness_TileMapAndReturnOfTiles_5 :
    (State.reset.tile .B 3).recal = false ∧ idle (.tileRecalDone .B 3 []) State.reset = true := by
  decide +kernel

theorem witness_TileMapAndReturnOfTiles_6 :
    (mRecal.tile .B 3).recal = true ∧ mRecal.work.building = [] ∧ mRecal.arraysFenced .B 3 < 2 := by
  decide +kernel

/-! ### Tile programs -/

/-- An op word of a class and op code with the fields at their places. -/
def opw (cls op : Nat) (l : List (Nat × Nat)) : Nat := cls * 2 ^ 21 + op * 2 ^ 16 + (l.map (fun e => e.2 * 2 ^ e.1)).foldl (· + ·) 0

/-- Tile `p` of frond A runs with an op word at its PC. -/
def tRun (p w : Nat) : State :=
  (base [(tf F.TILE_STATUS_STATE .A p, 2), (tf F.TSEQ_STATUS_STATE .A p, 1)]).setBytes (storeKey 0 p 0) 16 w

/-- The same with its unit changed. -/
def tRunWith (w : Nat) (g : TileUnit → TileUnit) : State := (tRun 0 w).updTile .A 0 g

/-- An LMOVE COPY of one row of 32 bytes under S1. -/
def wCopy : Nat := opw 3 0 [(91, 1), (86, 0)]

def tCopy : State := tRunWith wCopy (fun u => (u.setS 1 (32 + 2 ^ 24)).setS 2 0)

def qCopy : TileQ := (tCopy.tile .A 0).capture wCopy 0 0 0

def tFull : State := tCopy.updTile .A 0 (fun u => u.setQueue 8 (List.replicate 16 qCopy))

/-- An op in flight that writes one byte. -/
def tFly (l : List (Nat × Nat)) : State := tRunWith 0 (fun u => { u with fly := [⟨8, qCopy, l, none⟩] })

def tWait (n : Nat) : State := put (tRun 0 (opw 4 0 [])) [(tf F.TSEQ_STATUS_STATE .A 0, 2), (tf F.TSEQ_WAIT_VALUE .A 0, 1), (tcnt .A 0 0, n)]

def tPwait : State :=
  let s := put (tRunWith (opw 4 0xB []) (fun u => { u with pwait := some (0, 5, false) })) [(tf F.TSEQ_STATUS_STATE .A 0, 3)]
  { s with phase := { s.phase with copyA := { s.phase.copyA with valid := true } } }

def tEnd (l : List TileFly) : State := put (tRunWith 0 (fun u => { u with fly := l })) [(tf F.TSEQ_STATUS_STATE .A 0, 4)]

theorem witness_ProgramsIssueRetireAndEnd_1 :
    (tRun 0 wCopy).takesOp .A 0 wCopy ∧ opClass wCopy < 4 ∧
      (tRun 0 wCopy).opFault .A 0 (((tRun 0 wCopy).tile .A 0).capture wCopy 0 0 0) = some 8 ∧
      gives (.tileOpIssue .A 0) (tRun 0 wCopy) (fun t => t.rd (tf F.TSEQ_FAULT_CODE .A 0) == 8) = true := by
  decide +kernel

theorem witness_ProgramsIssueRetireAndEnd_2 :
    tFull.takesOp .A 0 wCopy ∧ tFull.opFault .A 0 qCopy = none ∧ queueDepth (opQueue wCopy) ≤ ((tFull.tile .A 0).queue 8).length ∧
      gives (.tileOpIssue .A 0) tFull (fun t => t.seqState .A 0 == 6) = true := by
  decide +kernel

theorem witness_ProgramsIssueRetireAndEnd_3 :
    tCopy.takesOp .A 0 wCopy ∧ tCopy.opFault .A 0 qCopy = none ∧ ((tCopy.tile .A 0).queue 8).length < queueDepth (opQueue wCopy) ∧
      gives (.tileOpIssue .A 0) tCopy (fun t => (t.tile .A 0).queue 8 == [qCopy] && t.pc .A 0 == 16) = true := by
  decide +kernel

theorem witness_ProgramsIssueRetireAndEnd_4 :
    (put (tRun 0 0) [(tf F.TSEQ_STATUS_PC .A 0, 0x400000)]).issuing .A 0 = true ∧
      gives (.tileOpIssue .A 0) (put (tRun 0 0) [(tf F.TSEQ_STATUS_PC .A 0, 0x400000)]) (fun t =>
        t.rd (tf F.TSEQ_FAULT_CODE .A 0) == 0xA) = true := by
  decide +kernel

theorem witness_ProgramsIssueRetireAndEnd_5 :
    (tRun 131 1).issuing .A 131 = true ∧ (tRun 131 1).pc .A 131 ≤ 0x3FFFF0 ∧ opIllegal ((tRun 131 1).opHere .A 131) = true ∧
      gives (.tileOpIssue .A 131) (tRun 131 1) (fun t => t.rd (tf F.TSEQ_FAULT_CODE .A 131) == 1) = true := by
  decide +kernel

theorem witness_ProgramsIssueRetireAndEnd_6 :
    ((tRun 0 0).tile .A 0).fly.find? (fun x => x.queue == 8) = none ∧ idle (.tileOpRetire .A 0 8) (tRun 0 0) = true := by
  decide +kernel

theorem witness_ProgramsIssueRetireAndEnd_7 :
    ((tFly [(64, 7)]).tile .A 0).fly.find? (fun x => x.queue == 8) = some ⟨8, qCopy, [(64, 7)], none⟩ ∧ (tFly []).tileState .A 0 ≠ 4 ∧
      gives (.tileOpRetire .A 0 8) (tFly [(64, 7)]) (fun t => t.byte (storeKey 0 0 64) == 7 && (t.tile .A 0).fly == []) = true ∧
      gives (.tileOpRetire .A 0 8) (tFly []) (fun t => t.mem == (tFly []).mem) = true := by
  decide +kernel

theorem witness_ProgramsIssueRetireAndEnd_8 :
    (tWait 0).seqState .A 0 = 2 ∧
      reached ((tWait 0).rd (tcnt .A 0 ((tWait 0).rd (tf F.TSEQ_WAIT_COUNTER .A 0)))) ((tWait 0).rd (tf F.TSEQ_WAIT_VALUE .A 0)) = false ∧
      idle (.tileCounterWaitMet .A 0) (tWait 0) = true := by
  decide +kernel

theorem witness_ProgramsIssueRetireAndEnd_9 :
    reached ((tWait 1).rd (tcnt .A 0 ((tWait 1).rd (tf F.TSEQ_WAIT_COUNTER .A 0)))) ((tWait 1).rd (tf F.TSEQ_WAIT_VALUE .A 0)) = true ∧
      gives (.tileCounterWaitMet .A 0) (tWait 1) (fun t => t.pc .A 0 == 16) = true := by
  decide +kernel

/-- A tile that waits at a WAIT on counter 15 for 1, which it has. -/
def tWaits : State := put (tRunWith (opw 4 7 [(113, 1), (104, 15)]) (fun u => u.setS 1 1)) [(tf F.TSEQ_STATUS_STATE .A 0, 2),
  (tf F.TSEQ_WAIT_VALUE .A 0, 1), (tf F.TSEQ_WAIT_COUNTER .A 0, 15), (tcnt .A 0 15, 1)]

theorem witness_ProgramsIssueRetireAndEnd_10 :
    tWaits.seqState .A 0 = 2 ∧
      reached (tWaits.rd (tcnt .A 0 (tWaits.rd (tf F.TSEQ_WAIT_COUNTER .A 0)))) (tWaits.rd (tf F.TSEQ_WAIT_VALUE .A 0)) = true ∧
      (tWaits.wr (tf F.TSEQ_STATUS_STATE .A 0) 1).takesOp .A 0 (opw 4 7 [(113, 1), (104, 15)]) ∧
      gives (.tileCounterWaitMet .A 0) tWaits (fun t => t.pc .A 0 == 16 && t.seqState .A 0 == 1 &&
        t.rd (tf F.TSEQ_ISSUED_COUNT .A 0) == 1) = true := by
  decide +kernel

theorem witness_ProgramsIssueRetireAndEnd_11 :
    (tRun 0 0).seqState .A 0 ≠ 2 ∧ idle (.tileCounterWaitMet .A 0) (tRun 0 0) = true ∧ idle (.tilePhaseWaitMet .A 0) (tRun 0 0) = true := by
  decide +kernel

/-- A NOP with WT on counter 3. -/
def tWt (n : Nat) : State := put (tRun 0 (opw 4 0 [(12, 3), (6, 1)])) [(tcnt .A 0 3, n)]

theorem witness_ProgramsIssueRetireAndEnd_12 :
    (tWt 0).issuing .A 0 = true ∧ (tWt 0).opHere .A 0 = opw 4 0 [(12, 3), (6, 1)] ∧ (tWt 0).tileState .A 0 ≠ 4 ∧
      opIllegal (opw 4 0 [(12, 3), (6, 1)]) = false ∧ opClass (opw 4 0 [(12, 3), (6, 1)]) = 4 ∧
      bitOf (opw 4 0 [(12, 3), (6, 1)]) 6 = true ∧ ((tWt 0).tile .A 0).wtTaken = false ∧
      reached ((tWt 0).rd (tcnt .A 0 (opWcnt (opw 4 0 [(12, 3), (6, 1)])))) 1 = false ∧
      gives (.tileOpIssue .A 0) (tWt 0) (fun t => t.seqState .A 0 == 2 && t.rd (tf F.TSEQ_WAIT_COUNTER .A 0) == 3 &&
        t.rd (tf F.TSEQ_WAIT_VALUE .A 0) == 1 && t.rd (tf F.TSEQ_WAIT_BY_WT .A 0) == 1) = true := by
  decide +kernel

theorem witness_ProgramsIssueRetireAndEnd_13 :
    reached ((tWt 1).rd (tcnt .A 0 3)) 1 = true ∧ bitOf (opw 4 0 [(12, 3), (6, 1)]) 7 = false ∧
      gives (.tileOpIssue .A 0) (tWt 1) (fun t => t.pc .A 0 == 16 && t.rd (tcnt .A 0 3) == 0) = true := by
  decide +kernel

theorem witness_ProgramsIssueRetireAndEnd_14 :
    tPwait.seqState .A 0 = 3 ∧ tPwait.pwaitMet .A 0 = true ∧
      gives (.tilePhaseWaitMet .A 0) tPwait (fun t => t.pc .A 0 == 16 && (t.tile .A 0).pwait == none) = true := by
  decide +kernel

theorem witness_ProgramsIssueRetireAndEnd_15 :
    (tEnd [⟨8, qCopy, [], none⟩]).seqState .A 0 = 4 ∧ ((tEnd [⟨8, qCopy, [], none⟩]).tile .A 0).drained = false ∧
      idle (.programEnd .A 0) (tEnd [⟨8, qCopy, [], none⟩]) = true := by
  decide +kernel

theorem witness_ProgramsIssueRetireAndEnd_16 :
    ((tEnd []).tile .A 0).stopping = false ∧ ((tEnd []).tile .A 0).drained = true ∧
      gives (.programEnd .A 0) (tEnd []) (fun t => t.seqState .A 0 == 0) = true := by
  decide +kernel

/-- An op at the head of a queue of tile 0 of frond A, no full calibration running. -/
def tQ (k : Nat) (q : TileQ) : State :=
  (base [(tf F.TILE_STATUS_STATE .A 0, 2), (acf F.ACAL_STATUS_FULL_CAL_BUSY .A, 0), (tf F.ARR_SLOT_SLOT1 .A 0, 1)]).updTile .A 0
    (fun u => u.setQueue k [q])

def qOp (w r0 a0 a1 : Nat) : TileQ := ⟨w, a0, a1, 0, r0, 0, 0, 0, 0, 0⟩

def qLoad : TileQ := qOp (opw 0 0 [(58, 3), (57, 1)]) 0 0 0

def qEval : TileQ := qOp (opw 0 1 [(92, 1), (68, 1)]) 0 0 0

def qSwap : TileQ := qOp (opw 0 2 [(93, 1)]) 0 0 0

def qDrain : TileQ := qOp (opw 0 3 [(92, 1), (68, 1)]) 0 0 0x400000

def qMm : TileQ := qOp (opw 1 0 [(89, 3), (85, 3)]) 32 0 0x400000

def qStore : TileQ := qOp (opw 1 1 [(89, 12)]) 0 0 0

def qZero : TileQ := qOp (opw 1 2 [(94, 3)]) 0 0 0

def qFill : TileQ := ⟨opw 3 1 [], 0, 0, 0, 32 + 2 ^ 24, 0, 0x0102030405060708, 0, 0, 0⟩

def tEval : State := (tQ 0 qEval).updTile .A 0 (fun u => { u with bankValid := 3 })

theorem witness_ArrayDmuAndMoverOpsStart_1 :
    (tQ 4 qLoad).startsOp .A 0 4 qLoad ∧ opClass qLoad.word = 0 ∧ opCode qLoad.word = 0 := by
  decide +kernel

theorem witness_ArrayDmuAndMoverOpsStart_2 :
    (tQ 0 qEval).startsOp .A 0 0 qEval ∧ opClass qEval.word = 0 ∧ opCode qEval.word = 1 ∧
      (tQ 0 qEval).evalInvalid .A 0 qEval = true ∧
      gives (.arrayEval .A 0) (tQ 0 qEval) (fun t => t.rd (tf F.TSEQ_FAULT_CODE .A 0) == 5) = true := by
  decide +kernel

theorem witness_ArrayDmuAndMoverOpsStart_3 :
    tEval.startsOp .A 0 0 qEval ∧ tEval.evalInvalid .A 0 qEval = false := by
  decide +kernel

theorem witness_ArrayDmuAndMoverOpsStart_4 :
    (tQ 0 qSwap).startsOp .A 0 0 qSwap ∧ opCode qSwap.word = 2 ∧ opSlots qSwap.word = [1] ∧ bitOf qSwap.word 7 = false ∧
      (tQ 0 qSwap).rot .A 0 = 0 ∧ (tQ 0 qSwap).slotArr .A 0 1 < 5 ∧
      gives (.arraySwap .A 0) (tQ 0 qSwap) (fun t => t.bankNow .A 0 1 == 1 && (t.tile .A 0).queue 0 == []) = true := by
  decide +kernel

theorem witness_ArrayDmuAndMoverOpsStart_5 :
    (tQ 0 qDrain).startsOp .A 0 0 qDrain ∧ opCode qDrain.word = 3 ∧
      gives (.arrayDrain .A 0) (tQ 0 qDrain) (fun t => (t.tile .A 0).fly.length == 1) = true := by
  decide +kernel

theorem witness_ArrayDmuAndMoverOpsStart_6 :
    (tQ 5 qMm).startsOp .A 0 5 qMm ∧ opClass qMm.word = 1 ∧ opCode qMm.word = 0 ∧ bitOf qMm.word 93 = false := by
  decide +kernel

theorem witness_ArrayDmuAndMoverOpsStart_7 :
    (tQ 6 qStore).startsOp .A 0 6 qStore ∧ opCode qStore.word = 1 ∧ bitsAt qStore.word 92 89 = 12 := by
  decide +kernel

theorem witness_ArrayDmuAndMoverOpsStart_8 :
    (tQ 8 qCopy).headOp .A 0 8 3 1 = false ∧ idle (.lmoveFill .A 0) (tQ 8 qCopy) = true ∧
      (tQ 8 qCopy).headOp .A 0 0 0 3 = false ∧ idle (.arrayDrain .A 0) (tQ 8 qCopy) = true := by
  decide +kernel

/-- A COPY with WT on counter 3, and one whose source beat is poisoned. -/
def qWt : TileQ := { qCopy with word := qCopy.word + 3 * 2 ^ 12 + 2 ^ 6 }

def tPoison : State := (tQ 8 qCopy).setPoison (storeKey 0 0 0) true

theorem witness_ArrayDmuAndMoverOpsStart_9 :
    (tQ 8 qWt).startable .A 0 8 = none ∧ idle (.lmoveCopy .A 0) (tQ 8 qWt) = true := by
  decide +kernel

theorem witness_ArrayDmuAndMoverOpsStart_10 :
    (put (tQ 8 qWt) [(tcnt .A 0 3, 1)]).startable .A 0 8 = some qWt ∧ opClass qWt.word = 3 ∧ opCode qWt.word = 0 ∧
      (put (tQ 8 qWt) [(tcnt .A 0 3, 1)]).readsPoison .A 0 qWt = false ∧
      gives (.lmoveCopy .A 0) (put (tQ 8 qWt) [(tcnt .A 0 3, 1)]) (fun t => t.rd (tcnt .A 0 3) == 0 &&
        (t.tile .A 0).queue 8 == []) = true := by
  decide +kernel

theorem witness_ArrayDmuAndMoverOpsStart_11 :
    tPoison.startable .A 0 8 = some qCopy ∧ tPoison.readsPoison .A 0 qCopy = true ∧ tPoison.col.inverted = [] ∧
      gives (.lmoveCopy .A 0) tPoison (fun t => t.rd (tf F.TSEQ_FAULT_CODE .A 0) == 0xE && (t.tile .A 0).queue 8 == []) = true := by
  decide +kernel

/-- A multiplication that accumulates, and a STORE to BF16 that clears. -/
def qMmAcc : TileQ := qOp (opw 1 0 [(93, 1), (89, 3), (85, 3)]) 32 0 0x400000

def qStoreB : TileQ := qOp (opw 1 1 [(89, 2), (88, 1)]) 0 0 0

theorem witness_ArrayDmuAndMoverOpsStart_12 :
    (tQ 5 qMmAcc).startsOp .A 0 5 qMmAcc ∧ bitOf qMmAcc.word 93 = true ∧ bitOf ((tQ 5 qMmAcc).tile .A 0).daccInt 0 = false ∧
      bitOf (((tQ 5 qMmAcc).updTile .A 0 (fun u => { u with daccInt := 1 })).tile .A 0).daccInt 0 = true ∧
      (tQ 6 qStoreB).startsOp .A 0 6 qStoreB ∧ bitsAt qStoreB.word 92 89 ≠ 12 ∧ bitOf qStoreB.word 88 = true := by
  decide +kernel

theorem witness_ArrayDmuAndMoverOpsStart_13 :
    (tQ 5 qZero).startsOp .A 0 5 qZero ∧ opCode qZero.word = 2 := by
  decide +kernel

theorem witness_ArrayDmuAndMoverOpsStart_14 :
    (tQ 8 qCopy).startsOp .A 0 8 qCopy ∧ opClass qCopy.word = 3 ∧ opCode qCopy.word = 0 ∧
      gives (.lmoveCopy .A 0) ((tQ 8 qCopy).setByte (storeKey 0 0 31) 9) (fun t =>
        ((t.tile .A 0).fly.map (fun x => x.writes.getLast?)) == [some (31, 9)]) = true := by
  decide +kernel

theorem witness_ArrayDmuAndMoverOpsStart_15 :
    (tQ 8 qFill).startsOp .A 0 8 qFill ∧ opClass qFill.word = 3 ∧ opCode qFill.word = 1 ∧
      gives (.lmoveFill .A 0) (tQ 8 qFill) (fun t => ((t.tile .A 0).fly.map (fun x => x.writes.take 2)) == [[(0, 8), (1, 7)]]) = true := by
  decide +kernel

/-- A VEC op of a function on one row of eight FP32 elements. -/
def qVec (n : Nat) : TileQ := qOp (opw 2 0 [(74, n)]) (8 + 2 ^ 32) 0 0x400000

theorem witness_VectorOpsStart_1 :
    ∀ n ∈ List.range 0x15, (tQ 7 (qVec n)).startsOp .A 0 7 (qVec n) ∧ opFunc (qVec n).word = n := by
  decide +kernel

theorem witness_VectorOpsStart_2 :
    ∀ n ∈ [0x18, 0x19, 0x1A, 0x1B, 0x1C], (tQ 7 (qVec n)).startsOp .A 0 7 (qVec n) ∧ opFunc (qVec n).word = n := by
  decide +kernel

theorem witness_VectorOpsStart_3 :
    gives (.vecAbs .A 0) ((tQ 7 (qVec 7)).setBytes (storeKey 0 0 0x400000) 4 0xC0400000) (fun t =>
      ((t.tile .A 0).fly.map (fun x => (x.writes.take 4).map (·.2))) == [leBytes 4 0x40400000]) = true := by
  decide +kernel

theorem witness_VectorOpsStart_4 :
    gives (.vecRsum .A 0) (((tQ 7 (qVec 0x18)).setBytes (storeKey 0 0 0x400000) 4 0x3F800000).setBytes (storeKey 0 0 0x400004) 4 0x40000000)
      (fun t => ((t.tile .A 0).fly.map (fun x => x.writes.map (·.2))) == [leBytes 4 0x40400000]) = true := by
  decide +kernel

/-- An ALU op of a function: S3 := S1 op S2. -/
def tAlu (n a b : Nat) : State :=
  tRunWith (opw 4 3 [(123, 3), (118, 1), (113, 2), (108, n)]) (fun u => (u.setS 1 a).setS 2 b)

theorem witness_SequencerAluFunctions_1 :
    ∀ n ∈ List.range 16, (tAlu n 1 2).takesOp .A 0 (opw 4 3 [(123, 3), (118, 1), (113, 2), (108, n)]) ∧
      opClass (opw 4 3 [(123, 3), (118, 1), (113, 2), (108, n)]) = 4 ∧ opCode (opw 4 3 [(123, 3), (118, 1), (113, 2), (108, n)]) = 3 ∧
      ((tAlu n 1 2).tile .A 0).seqA (opw 4 3 [(123, 3), (118, 1), (113, 2), (108, n)]) = 1 ∧
      ((tAlu n 1 2).tile .A 0).seqB (opw 4 3 [(123, 3), (118, 1), (113, 2), (108, n)]) = 2 := by
  decide +kernel

theorem witness_SequencerAluFunctions_2 :
    gives (.seqAluSub .A 0) (tAlu 1 1 2) (fun t => (t.tile .A 0).sreg 3 == 2 ^ 64 - 1 && t.pc .A 0 == 16) = true := by
  decide +kernel

theorem witness_SequencerAluFunctions_3 :
    gives (.seqAluSar .A 0) (tAlu 8 (2 ^ 63) 63) (fun t => (t.tile .A 0).sreg 3 == 2 ^ 64 - 1) = true := by
  decide +kernel

theorem witness_SequencerAluFunctions_4 :
    gives (.seqAluMin .A 0) (tAlu 9 (2 ^ 64 - 1) 1) (fun t => (t.tile .A 0).sreg 3 == 2 ^ 64 - 1) = true := by
  decide +kernel

theorem witness_SequencerAluFunctions_5 :
    gives (.seqAluMinu .A 0) (tAlu 11 (2 ^ 64 - 1) 1) (fun t => (t.tile .A 0).sreg 3 == 1) = true := by
  decide +kernel

def wLi : Nat := opw 4 2 [(123, 31), (24, 2 ^ 64 - 1)]

def wAmov (f : Nat) : Nat := opw 4 4 [(113, 1), (108, f), (104, 15)]

def wLoop (l : Nat) : Nat := opw 4 5 [(113, 1), (88, l)]

def wBr (f l : Nat) : Nat := opw 4 6 [(118, 1), (113, 2), (108, f), (88, l)]

def wWait : Nat := opw 4 7 [(113, 1), (104, 15)]

def wSignal : Nat := opw 4 10 [(118, 1), (113, 2)]

def s1 (w n : Nat) : State := tRunWith w (fun u => u.setS 1 n)

/-- Domain 1 may write the signal counters: it is the domain of partition 1, which holds context 5. -/
def tSignal : State :=
  let s := put (tRunWith wSignal (fun u => (u.setS 1 7).setS 2 3)) [(tf F.TSEQ_STATUS_CTX .A 0, 5), (F.PART_CFG_DOMAIN.i 1, 1)]
  (s.updCtx 5 (fun x => { x with alloc := true, part := 1 })).setDom 1 (⟨⟨false, [], []⟩,
    ⟨true, [(0, 0xE0000000000)], [(0, 2 ^ 63 + 2 ^ 39 + 2 ^ 38 + 256)]⟩, 0⟩)

theorem witness_SequencerOpsGoOn_1 :
    (tRun 0 (opw 4 0 [])).takesOp .A 0 (opw 4 0 []) ∧ gives (.seqNop .A 0) (tRun 0 (opw 4 0 [])) (fun t => t.pc .A 0 == 16) = true := by
  decide +kernel

theorem witness_SequencerOpsGoOn_2 :
    (tRun 0 (opw 4 1 [])).takesOp .A 0 (opw 4 1 []) ∧ gives (.seqEnd .A 0) (tRun 0 (opw 4 1 [])) (fun t => t.seqState .A 0 == 4) = true := by
  decide +kernel

theorem witness_SequencerOpsGoOn_3 :
    (tRun 0 wLi).takesOp .A 0 wLi ∧ bitsAt wLi 127 123 ≠ 0 ∧
      gives (.seqLi .A 0) (tRun 0 wLi) (fun t => (t.tile .A 0).sreg 31 == 2 ^ 64 - 1) = true := by
  decide +kernel

theorem witness_SequencerOpsGoOn_4 :
    (s1 (wAmov 0) 5).takesOp .A 0 (wAmov 0) ∧ (s1 (wAmov 1) 5).takesOp .A 0 (wAmov 1) ∧
      gives (.seqAmov .A 0) (s1 (wAmov 1) (2 ^ 24 + 5)) (fun t => (t.tile .A 0).areg 15 == 5) = true := by
  decide +kernel

theorem witness_SequencerOpsGoOn_5 :
    (s1 (wLoop 0) 3).takesOp .A 0 (wLoop 0) ∧ bitsAt (wLoop 0) 103 88 = 0 ∧
      gives (.seqLoop .A 0) (s1 (wLoop 0) 3) (fun t => t.rd (tf F.TSEQ_FAULT_CODE .A 0) == 1) = true := by
  decide +kernel

theorem witness_SequencerOpsGoOn_6 :
    (s1 (wLoop 2) 3).takesOp .A 0 (wLoop 2) ∧ ((s1 (wLoop 2) 3).tile .A 0).loops = [] ∧
      gives (.seqLoop .A 0) (s1 (wLoop 2) 3) (fun t => t.pc .A 0 == 16 && (t.tile .A 0).loops == [⟨3, 16, 48⟩]) = true := by
  decide +kernel

theorem witness_SequencerOpsGoOn_7 :
    (s1 (wLoop 2) 0).takesOp .A 0 (wLoop 2) ∧ ((s1 (wLoop 2) 0).tile .A 0).seqB (wLoop 2) % 2 ^ 32 = 0 ∧
      gives (.seqLoop .A 0) (s1 (wLoop 2) 0) (fun t => t.pc .A 0 == 48 && (t.tile .A 0).loops == []) = true := by
  decide +kernel

theorem witness_SequencerOpsGoOn_8 :
    (s1 (wBr 0 4) 0).takesOp .A 0 (wBr 0 4) ∧ brTaken 0 0 0 = true ∧
      gives (.seqBr .A 0) (s1 (wBr 0 4) 0) (fun t => t.pc .A 0 == 64) = true := by
  decide +kernel

theorem witness_SequencerOpsGoOn_9 :
    (s1 (wBr 1 4) 1).takesOp .A 0 (wBr 1 4) ∧ gives (.seqBr .A 0) (s1 (wBr 1 4) 1) (fun t => t.pc .A 0 == 16) = true := by
  decide +kernel

theorem witness_SequencerOpsGoOn_10 :
    (s1 wWait 1).takesOp .A 0 wWait ∧ reached ((s1 wWait 1).rd (tcnt .A 0 15)) 1 = false ∧
      gives (.seqWait .A 0) (s1 wWait 1) (fun t => t.seqState .A 0 == 2 && t.pc .A 0 == 0) = true := by
  decide +kernel

theorem witness_SequencerOpsGoOn_11 :
    reached ((s1 wWait 0).rd (tcnt .A 0 15)) 0 = true ∧ gives (.seqWait .A 0) (s1 wWait 0) (fun t => t.pc .A 0 == 16) = true := by
  decide +kernel

theorem witness_SequencerOpsGoOn_12 :
    (s1 (opw 4 8 [(113, 1), (104, 15)]) (2 ^ 32 + 4)).takesOp .A 0 (opw 4 8 [(113, 1), (104, 15)]) ∧
      gives (.seqCset .A 0) (s1 (opw 4 8 [(113, 1), (104, 15)]) (2 ^ 32 + 4)) (fun t => t.rd (tcnt .A 0 15) == 4) = true := by
  decide +kernel

theorem witness_SequencerOpsGoOn_13 :
    (s1 (opw 4 9 [(113, 1)]) 4).takesOp .A 0 (opw 4 9 [(113, 1)]) ∧
      gives (.seqCadd .A 0) (put (s1 (opw 4 9 [(113, 1)]) 4) [(tcnt .A 0 0, 2 ^ 32 - 1)]) (fun t => t.rd (tcnt .A 0 0) == 3) = true := by
  decide +kernel

theorem witness_SequencerOpsGoOn_14 :
    tSignal.takesOp .A 0 wSignal ∧ tSignal.heldDom (tSignal.ctxDom (tSignal.runCtx .A 0)) = false ∧
      tSignal.domMay (tSignal.ctxDom (tSignal.runCtx .A 0)) rightW (tSignal.globalOf (0xE0000000000 + 8 * 7)) 8 = true ∧
      gives (.seqSignal .A 0) tSignal (fun t => t.counter 7 == 3 && t.pc .A 0 == 16) = true := by
  decide +kernel

theorem witness_SequencerOpsGoOn_15 :
    (s1 wSignal 7).takesOp .A 0 wSignal ∧ (s1 wSignal 7).heldDom ((s1 wSignal 7).ctxDom ((s1 wSignal 7).runCtx .A 0)) = false ∧
      (s1 wSignal 7).domMay ((s1 wSignal 7).ctxDom ((s1 wSignal 7).runCtx .A 0)) rightW ((s1 wSignal 7).globalOf (0xE0000000000 + 56)) 8
        = false ∧
      gives (.seqSignal .A 0) (s1 wSignal 7) (fun t => t.rd (tf F.TSEQ_FAULT_CODE .A 0) == 0xB) = true := by
  decide +kernel

theorem witness_SequencerOpsGoOn_16 :
    (s1 (opw 4 11 [(113, 1)]) 9).takesOp .A 0 (opw 4 11 [(113, 1)]) ∧
      gives (.seqPwait .A 0) (s1 (opw 4 11 [(113, 1)]) 9) (fun t => t.seqState .A 0 == 3) = true := by
  decide +kernel

theorem witness_SequencerOpsGoOn_17 :
    (tRun 0 (opw 4 12 [(123, 2), (88, 3)])).takesOp .A 0 (opw 4 12 [(123, 2), (88, 3)]) ∧
      gives (.seqSread .A 0) (put (tRun 0 (opw 4 12 [(123, 2), (88, 3)])) [(tcnt .A 0 3, 77)]) (fun t => (t.tile .A 0).sreg 2 == 77) = true := by
  decide +kernel

theorem witness_SequencerOpsGoOn_18 :
    (tRun 0 (opw 5 0 [])).takesOp .A 0 (opw 5 0 []) := by
  decide +kernel

theorem witness_SequencerOpsGoOn_19 :
    (put (tRun 0 (opw 5 1 [])) [(tf F.TSEQ_STATUS_CTX .A 0, 5)]).takesOp .A 0 (opw 5 1 []) ∧
      gives (.markTag .A 0) (put (tRun 0 (opw 5 1 [])) [(tf F.TSEQ_STATUS_CTX .A 0, 5)]) (fun t => t.rd (tf F.TSEQ_TAG_CTX .A 0) == 5) = true := by
  decide +kernel

/-! ### Stores and HBM -/

/-- A megabyte of HBM is visible on frond A, and logical tile 0 maps to physical tile 0. -/
def hMem : State := base [(hf F.HBMF_STATUS_VISIBLE_MB 0, 1), (mapField F.TMAP_ENTRY_VALID .A 0, 1),
  (mapField F.TMAP_ENTRY_PHYS .A 0, 0), (tf F.TILE_STATUS_STATE .A 0, 2)]

abbrev cpu : Accessor := .core .A 0

abbrev outsider : Accessor := .remote 5 .A

theorem witness_AccessesChangeTheirBytes_1 :
    hMem.accHeld cpu = false ∧ hMem.mayAccess cpu rightW 0xFFFC0 64 = true ∧ hMem.placeOf (accFrond cpu) 0xFFFC0 = .hbm 0 0xFFFC0 ∧
      hMem.pcBit F.HBMF_FENCE_PC 0 (hMem.pcOf 0 0xFFFC0) = false ∧ hMem.col.inverted = [] ∧
      gives (.hbmWriteRequest cpu 0xFFFC0 (List.replicate 64 7) false .clean) hMem (fun t =>
        t.byte 0xFFFFF == 7 && t.byte 0xFFFBF == 0 && t.outbox == [.answer true false []]) = true := by
  decide +kernel

theorem witness_AccessesChangeTheirBytes_2 :
    hMem.accHeld outsider = false ∧ hMem.mayAccess outsider rightW 0x40 1 = false ∧
      gives (.hbmWriteRequest outsider 0x40 [7] false .clean) hMem (fun t => t.mem == []) = true := by
  decide +kernel

theorem witness_AccessesChangeTheirBytes_3 :
    gives (.nmuReduceWrite cpu 0x100 0 0 [1, 2, 3, 4]) hMem (fun t => t.byte 0x103 == 4) = true ∧
      gives (.nmuReduceWrite cpu 0x100 3 1 [1, 2, 3, 4]) hMem (fun t => t.mem == [] && t.outbox == [.answer false false []]) = true := by
  decide +kernel

theorem witness_AccessesChangeTheirBytes_4 :
    hMem.accHeld cpu = false ∧ hMem.mayAccess cpu rightW 0x100 4 = true ∧ hMem.placeOf (accFrond cpu) 0x100 = .hbm 0 0x100 ∧
      hMem.pcBit F.HBMF_FENCE_PC 0 (hMem.pcOf 0 0x100) = false ∧
      gives (.nmuReduceWrite cpu 0x100 0 1 [0, 0, 0x80, 0x3F]) (hMem.setBytes 0x100 4 0x3F800000) (fun t => t.bytesAt 0x100 4 == 0x40000000) = true := by
  decide +kernel

theorem witness_AccessesChangeTheirBytes_5 :
    hMem.mayAccess cpu rightR 0xC0 64 = true ∧ hMem.placeOf (accFrond cpu) 0xC0 = .hbm 0 0xC0 ∧ hMem.blockPoison 0 0xC0 = false ∧
      gives (.hbmReadRequest cpu 0xFF .clean) (hMem.setByte 0xFF 9) (fun t => t.outbox == [.answer true false (List.replicate 63 0 ++ [9])]) = true := by
  decide +kernel

theorem witness_AccessesChangeTheirBytes_6 :
    hMem.accHeld cpu = false ∧ hMem.mayAccess cpu rightW (windowAddr .A 0 0xDFFFE0) 32 = true ∧
      hMem.placeOf (accFrond cpu) (windowAddr .A 0 0xDFFFE0) = .store 0 0 0xDFFFE0 ∧
      gives (.tileWindowAccess cpu .A 0 0xDFFFE0 (.write (List.replicate 32 5) false) .clean) hMem (fun t =>
        t.byte (storeKey 0 0 0xDFFFFF) == 5 && t.byte (storeKey 0 0 0xDFFFDF) == 0) = true := by
  decide +kernel

theorem witness_AccessesChangeTheirBytes_7 :
    hMem.mayAccess cpu rightW (windowAddr .A 0 (0xE00000 + 8 * 15)) 8 = true ∧
      hMem.placeOf (accFrond cpu) (windowAddr .A 0 (0xE00000 + 8 * 15)) = .tcnt 0 0 (8 * 15) ∧
      gives (.tileCounterWindowWrite cpu .A 0 15 0xFFFFFFFF00000003) (put hMem [(tcnt .A 0 15, 2 ^ 32 - 1)]) (fun t => t.rd (tcnt .A 0 15) == 2) = true := by
  decide +kernel

def hRetired (c : Bool) : State := hMem.setHbmF 0 { (hMem.hbmF 0) with table := [⟨2, 0, 5, c⟩] }

def hRelease (st : Nat) : State :=
  put hMem [(hf F.HBMF_TEST_CTRL_RELEASE 0, 1), (hf F.HBMF_TEST_STATUS_STATE 0, st), (hf F.HBMF_TEST_BASE_BASE 0, 0),
    (hf F.HBMF_TEST_SIZE_SIZE 0, 4096)]

def hFails : State := hMem.setHbmF 0 { (hMem.hbmF 0) with bridgeFails := 15 }

/-- Stack 0's scrub runs. -/
def hScrub : State := put hMem [(F.PWR_STATUS_MODE, 1), (hc F.HBMC_STATUS_STATE 0 0, 3), (hc F.HBMC_STATUS_STATE 0 32, 3),
  (hc F.HBMC_STATUS_STATE 0 64, 3), (hc F.HBMC_STATUS_STATE 0 96, 3)]

def hWindow : State := put { hMem with phase := { hMem.phase with refreshOpen := 128 } }
  [(F.HBMC_REF_CTRL_WINDOW_EN.pg (hbmcPage 7), 1), (F.HBMC_REF_CTRL_PULLIN_MAX.pg (hbmcPage 7), 8)]

def hOpen (st : Nat) : State := { hRelease st with phase := { (hRelease st).phase with testOpen := 31 } }

theorem witness_MemoryUpkeepRuns_1 :
    idle (.storeScrub .A 131 0xDFFFFF .bad false) (put hMem [(tf F.TILE_STATUS_STATE .A 131, 4)]) = true ∧
      (put hMem [(tf F.TILE_STATUS_STATE .A 131, 2)]).tileState .A 131 ≠ 4 ∧
      gives (.storeScrub .A 131 0xDFFFFF .bad false) (put hMem [(tf F.TILE_STATUS_STATE .A 131, 2)]) (fun t =>
        t.poisoned (storeKey 0 131 0xDFFFE0) && bitOf (t.rd (errStatus 0x102)) 1) = true := by
  decide +kernel

theorem witness_MemoryUpkeepRuns_2 :
    hScrub.pcBit F.HBMF_FENCE_PC 0 (hScrub.pcOf 0 0x40) = false ∧ hScrub.inTest 0 0x40 = false ∧
      hScrub.scrubRuns 0 (hScrub.pcOf 0 0x40) = true ∧
      gives (.hbmScrubBlock 0x7F .bad false) (hScrub.setByte 0x40 3) (fun t => t.byte 0x40 == 0) = true := by
  decide +kernel

theorem witness_MemoryUpkeepRuns_3 :
    idle (.hbmScrubBlock 0xA000000000 .bad true) hScrub = true ∧ hbmSplit 0xA000000000 = (2, 0) ∧
      idle (.hbmScrubBlock 0x7F .bad true) State.reset = true ∧
      gives (.hbmScrubBlock 0x7F .clean true) hScrub (fun t => t.rd (hf F.HBMF_SCRUB_PASSES 0) == 1) = true := by
  decide +kernel

theorem witness_MemoryUpkeepRuns_4 :
    idle (.storeScrub .A 0 0xE00000 .bad false) hMem = true ∧
      gives (.storeScrub .A 0 0 .clean false) hMem (fun t => t.mem == [] && t.poison == []) = true := by
  decide +kernel

theorem witness_MemoryUpkeepRuns_5 :
    bitOf hWindow.phase.refreshOpen 7 = true ∧ hWindow.rd (F.HBMC_REF_CTRL_WINDOW_EN.pg (hbmcPage 7)) = 1 ∧
      gives (.refreshInterval 7 31 85) hWindow (fun t => Sparse.get (fun _ => (0 : Int)) (t.hbmF 1).credit 127 == -8 &&
        Sparse.get (fun _ => 0) (t.hbmF 1).openFor 127 == 1 && t.rd (F.HBMC_STATUS_TEMP.pg (hbmcPage 7)) == 85) = true := by
  decide +kernel

theorem witness_MemoryUpkeepRuns_6 :
    idle (.hbmTestDone .A [0] []) (hOpen 2) = true ∧
      gives (.hbmTestDone .A [0, 1] []) (hOpen 3) (fun t => t.rd (hf F.HBMF_TEST_STATUS_FAIL_PAGES 0) == 1) = true := by
  decide +kernel

theorem witness_MemoryUpkeepRuns_7 :
    (∀ e ∈ ((hRetired true).hbmF 0).table, e.current = true) ∧ idle (.pageRetireDone .A []) (hRetired true) = true := by
  decide +kernel

theorem witness_MemoryUpkeepRuns_8 :
    ((hRetired false).hbmF 0).table.find? (fun e => !e.current) = some ⟨2, 0, 5, false⟩ ∧
      gives (.pageRetireDone .A []) (hRetired false) (fun t => (t.hbmF 0).table == [⟨2, 0, 5, true⟩]) = true := by
  decide +kernel

theorem witness_MemoryUpkeepRuns_9 :
    hMem.mayWrite su (hf F.HBMF_RET_ADD_PAGE 0) ∧ hMem.visible 0 = 256 * 4096 ∧
      gives (.hbmfRetAddWrite su .A (256 * 2 ^ 32)) hMem (fun t => bitOf (t.rd (errStatus 0x104)) 0) = true ∧
      gives (.hbmfRetAddWrite su .A (255 * 2 ^ 32)) hMem (fun t => (t.hbmF 0).table.map (·.page) == [255]) = true := by
  decide +kernel

theorem witness_MemoryUpkeepRuns_10 :
    hMem.mayWrite su ((hf F.HBMF_FENCE_PC 0).i 1) ∧
      gives (.hbmfFenceWrite su .A true (2 ^ 63)) hMem (fun t => t.pcBit F.HBMF_FENCE_PC 0 127 && !t.pcBit F.HBMF_FENCE_PC 0 126) = true := by
  decide +kernel

theorem witness_MemoryUpkeepRuns_11 :
    bitOf hMem.phase.refreshOpen 7 = false ∧
      gives (.refreshInterval 7 31 85) hMem (fun t => Sparse.get (fun _ => (0 : Int)) (t.hbmF 1).credit 127 ==
        min 1 ((hMem.rd (F.HBMC_REF_CTRL_POSTPONE_MAX.pg (hbmcPage 7)) : Nat) : Int)) = true := by
  decide +kernel

theorem witness_MemoryUpkeepRuns_12 :
    hMem.bridgeDown = false ∧
      gives (.bridgeFlitRetry .A true) hFails (fun t => (t.hbmF 0).bridgeFails == 0 && bitOf (t.rd (errStatus 0x104)) 2) = true ∧
      gives (.bridgeFlitRetry .A false) hFails (fun t => t.rd (hf F.BRIDGE_STATUS_STATE 1) == 2 && t.bridgeDown) = true := by
  decide +kernel

theorem witness_MemoryUpkeepRuns_13 :
    (put hMem [(hf F.BRIDGE_STATUS_STATE 0, 2)]).bridgeDown = true ∧
      idle (.bridgeFlitRetry .B true) (put hMem [(hf F.BRIDGE_STATUS_STATE 0, 2)]) = true := by
  decide +kernel

theorem witness_MemoryUpkeepRuns_14 :
    hMem.mayWrite su (hf F.HBMF_TEST_CTRL_RELEASE 0) ∧ hMem.rd (hf F.HBMF_TEST_CTRL_RELEASE 0) = 0 ∧
      gives (.hbmTestRelease su .A) hMem (fun t => t.rd (hf F.HBMF_TEST_STATUS_STATE 0) == 1) = true := by
  decide +kernel

theorem witness_MemoryUpkeepRuns_15 :
    (hRelease 1).rd (hf F.HBMF_TEST_CTRL_RELEASE 0) = 1 ∧ (hRelease 1).rd (hf F.HBMF_TEST_CTRL_PATTERN 0) ≠ 3 ∧
      (hRelease 1).rd (hf F.HBMF_TEST_STATUS_STATE 0) = 1 ∧
      gives (.hbmTestStart su .A) (hOpen 1) (fun t => t.rd (hf F.HBMF_TEST_STATUS_STATE 0) == 3) = true := by
  decide +kernel

theorem witness_MemoryUpkeepRuns_16 :
    (hRelease 2).rd (hf F.HBMF_TEST_STATUS_STATE 0) = 2 ∧ idle (.hbmTestReturn su .A) (hRelease 2) = true := by
  decide +kernel

theorem witness_MemoryUpkeepRuns_17 :
    (hRelease 4).rd (hf F.HBMF_TEST_STATUS_STATE 0) = 4 ∧ (hRelease 4).inTest 0 4095 = true ∧
      gives (.hbmTestReturn su .A) ((hRelease 4).setByte 4095 3) (fun t => t.byte 4095 == 0 && t.rd (hf F.HBMF_TEST_CTRL_RELEASE 0) == 0) = true := by
  decide +kernel

theorem witness_MemoryUpkeepRuns_18 :
    (hOpen 2).hbmTestOpen 0 = true ∧ gives (.hbmTestRun .A) (hOpen 2) (fun t => t.rd (hf F.HBMF_TEST_STATUS_STATE 0) == 3) = true := by
  decide +kernel

theorem witness_MemoryUpkeepRuns_19 :
    (hRelease 2).hbmTestOpen 0 = false ∧ idle (.hbmTestRun .A) (hRelease 2) = true := by
  decide +kernel

theorem witness_MemoryUpkeepRuns_20 :
    (hOpen 3).rd (hf F.HBMF_TEST_STATUS_STATE 0) = 3 ∧
      gives (.hbmTestDone .A [] []) (hOpen 3) (fun t => t.rd (hf F.HBMF_TEST_STATUS_STATE 0) == 4) = true := by
  decide +kernel

/-! ### Engines and cores -/

/-- A descriptor whose header has a type, an op and OPX. -/
def dw (type op opx : Nat) (l : List Nat) : Desc := ⟨(type + 256 * op + 0xFF000000 + opx * 2 ^ 56) :: l, 5, 0, 0⟩

/-- Engine `n` of frond A runs a descriptor of context 5, whose domain may read and write the first megabyte. -/
def eRun (n : Nat) (d : Desc) (l : List (Nat × Nat × Nat)) : State :=
  let s := put hMem [(ef F.ENG_STATUS_STATE .A n, 1), (F.PART_CFG_DOMAIN.i 1, 1)]
  let s := (s.updCtx 5 (fun x => { x with alloc := true, part := 1 })).setDom 1 (⟨⟨false, [], []⟩,
    ⟨true, [], [(0, 2 ^ 63 + 2 ^ 39 + 2 ^ 38 + 256)]⟩, 0⟩)
  let s := s.setEng .A n ⟨[], some d, none, []⟩
  l.foldl (fun s e => s.setBytes e.1 e.2.1 e.2.2) s

/-- The run that the engine begins with. -/
def eOf (s : State) (n : Nat) (d : Desc) : EngRun :=
  ⟨s, .A, n, d.ctx, s.ctxDom d.ctx, none, false, 0, (s.eng .A n).reads, [], false⟩

/-- The hypotheses of a descriptor that runs without failing. -/
def eGood (n type op : Nat) (s : State) (g : Desc → EngRun → EngRun) : Bool :=
  match s.engReady .A n type op with
  | some d => headerGood d && d.op == op && (g d (eOf s n d)).fail.isNone && !(g d (eOf s n d)).wait
  | none => false

/-- The descriptor has made its writes: `n` bytes at `a` hold `v`. -/
def eMade (c : Instr) (k : Nat) (s : State) (a n v : Nat) : Bool :=
  gives c s (fun t => (t.eng .A k).done == some 0 && t.bytesAt a n == v)

def eFill : State := eRun 0 (dw 1 3 0 [0, 0x0807060504030201, 0x100, 10, 0, 0, 0]) []

def eCopy : State := eRun 0 (dw 1 0 0 [0, 0x40, 0x100, 4, 0, 0, 0]) [(0x40, 4, 0x04030201)]

def eTrans : State := eRun 0 (dw 1 1 0 [0, 0x40 + 2 ^ 50, 0x100, 2, 2 + 2 * 2 ^ 24, 0, 0]) [(0x40, 4, 0x04030201)]

/-- FP32 1.0, -2.5 to FP16. -/
def eConv : State := eRun 16 (dw 2 0 0 [0, 0x40, 0x100, 2 + 2 ^ 24 + 3 * 2 ^ 52, 8 + 2 ^ 32 * 4, 0, 0]) [(0x40, 8, 0xC02000003F800000)]

/-- A STORED chunk of two bytes, a ZERO chunk of four, END. -/
def eDecomp : State := eRun 16 (dw 2 3 0 [0, 0x40, 0x100, 14, 64, 0x200, 0])
  [(0x40, 4, 2 ^ 19 + 2), (0x44, 2, 0xBBAA), (0x46, 4, 3 * 2 ^ 19 + 2 * 2 ^ 16), (0x4A, 4, 3 * 2 ^ 16)]

/-- Two elements of four bytes by the 32-bit indices 2 and 0. -/
def eGs (op w5 : Nat) : State := eRun 20 (dw 3 op 0 [0, 0x40, 0x100, 0x80, 2 + 4 * 2 ^ 24 + w5, 4 + 2 ^ 32 * 4, 3])
  [(0x40, 8, 0x3F80000040000000), (0x48, 4, 0x40400000), (0x80, 8, 2), (0x100, 8, 0x3F80000040800000)]

/-- INT32 keys 3, -1, 2. -/
def eSort (w7 : Nat) : State := eRun 28 (dw 4 0 0 [0, 0x40, 0, 0x100, 0x140, 0x180, 3 + w7]) [(0x40, 12, 0x00000002FFFFFFFF00000003)]

/-- The two greatest of the FP32 keys -0, 1.0, +0. -/
def eTopk : State := eRun 28 (dw 4 1 0 [0, 0x40, 0x100, 0x140, 1 + 3 * 2 ^ 24, 2 ^ 33 + 2 ^ 44, 0]) [(0x40, 12, 0x000000003F80000080000000)]

/-- UINT32 keys 3, 12, 25 in two bins of ten from 5. -/
def eHist : State := eRun 28 (dw 4 2 0 [0, 0x40, 0x100, 3 + 2 ^ 25, 5 + 10 * 2 ^ 32, 0, 0]) [(0x40, 12, 0x000000190000000C00000003)]

/-- One FP32 cell: its centre times 2.0. -/
def eSten : State := eRun 30 (dw 5 0 0 [0, 0x200, 0x100, 2 ^ 49, 0, 0, 0x40]) [(0x40 + 13 * 4, 4, 0x40000000), (0x200, 4, 0x40400000)]

/-- 2.0 × 3.0 in FP64. -/
def eGemm : State := eRun 32 (dw 6 0 0 [0, 0x40, 0x80, 0x100, 0, 1 + 2 ^ 32, 1]) [(0x40, 8, 0x4000000000000000), (0x80, 8, 0x4008000000000000)]

def eRand : State := eRun 40 (dw 7 0 0 [0, 0x100, 0, 0, 0, 4, 0]) []

/-- The key 0 of domain 1 in slot 3. -/
def eCrypt (op : Nat) (l : List (Nat × Nat × Nat)) : State :=
  (eRun 42 (dw 8 op 0 [0, 0x40, 0x100, 0, 0, 16 + 3 * 2 ^ 44, 0]) l).setCryptoKey .A 3 (1, 1)

/-- A reserved bit of the header. -/
def eBad : State := eRun 0 ⟨[1 + 0x300 + 2 ^ 13 + 0xFF000000, 0, 0, 0x100, 10, 0, 0, 0], 5, 0, 0⟩ []

theorem witness_DescriptorsRunOrFail_1 :
    hMem.engReady .A 0 1 3 = none ∧ idle (.moveFill .A 0) hMem = true := by
  decide +kernel

theorem witness_DescriptorsRunOrFail_2 :
    eGood 0 1 3 eFill (fun d r => r.fill d) = true ∧ eMade (.moveFill .A 0) 0 eFill 0x100 11 0x0201_0807060504030201 = true := by
  decide +kernel

theorem witness_DescriptorsRunOrFail_3 :
    eGood 0 1 0 eCopy (fun d r => r.copy d) = true ∧ eMade (.moveCopy .A 0) 0 eCopy 0x100 5 0x04030201 = true := by
  decide +kernel

theorem witness_DescriptorsRunOrFail_4 :
    eGood 0 1 1 eTrans (fun d r => r.transpose d) = true ∧ eMade (.moveTranspose .A 0) 0 eTrans 0x100 5 0x04020301 = true := by
  decide +kernel

theorem witness_DescriptorsRunOrFail_5 :
    eGood 16 2 0 eConv (fun d r => (r.convertRows d).1) = true ∧ eMade (.codecConvert .A 16) 16 eConv 0x100 5 0xC1003C00 = true := by
  decide +kernel

theorem witness_DescriptorsRunOrFail_6 :
    eGood 16 2 3 eDecomp (fun d r => r.decompress d) = true ∧ eMade (.decompress .A 16) 16 eDecomp 0x100 7 0xBBAA = true ∧
      eMade (.decompress .A 16) 16 eDecomp 0x200 8 6 = true := by
  decide +kernel

theorem witness_DescriptorsRunOrFail_7 :
    eGood 20 3 0 (eGs 0 0) (fun d r => r.gs d) = true ∧ eMade (.gather .A 20) 20 (eGs 0 0) 0x100 8 0x4000000040400000 = true := by
  decide +kernel

theorem witness_DescriptorsRunOrFail_8 :
    eGood 20 3 1 (eGs 1 0) (fun d r => r.gs d) = true ∧ eMade (.scatter .A 20) 20 (eGs 1 0) 0x40 12 0x40800000_3F800000_3F800000 = true := by
  decide +kernel

theorem witness_DescriptorsRunOrFail_9 :
    eGood 20 3 2 (eGs 2 0) (fun d r => r.gs d) = true ∧
      eMade (.scatterAdd .A 20) 20 (eGs 2 0) 0x40 12 0x40E00000_3F800000_40400000 = true := by
  decide +kernel

theorem witness_DescriptorsRunOrFail_10 :
    eGood 28 4 0 (eSort (2 ^ 25)) (fun d r => r.sort d) = true := by
  decide +kernel

theorem witness_DescriptorsRunOrFail_11 :
    eGood 28 4 0 (eSort (2 ^ 34 + 3 * 2 ^ 30)) (fun d r => r.sort d) = true ∧
      eMade (.sort .A 28) 28 (eSort (2 ^ 34 + 3 * 2 ^ 30)) 0x140 12 0x00000001_00000000_00000002 = true := by
  decide +kernel

theorem witness_DescriptorsRunOrFail_12 :
    eGood 28 4 1 eTopk (fun d r => r.topk d) = true ∧ eMade (.topk .A 28) 28 eTopk 0x100 8 0x00000000_3F800000 = true ∧
      eMade (.topk .A 28) 28 eTopk 0x140 8 0x00000002_00000001 = true := by
  decide +kernel

theorem witness_DescriptorsRunOrFail_13 :
    eGood 28 4 2 eHist (fun d r => r.hist d) = true ∧ eMade (.hist .A 28) 28 eHist 0x100 20 0x00000000_00000001_00000001_00000000_00000001 = true := by
  decide +kernel

theorem witness_DescriptorsRunOrFail_14 :
    eGood 30 5 0 eSten (fun d r => (r.stencil d).1) = true ∧ eMade (.stencilApply .A 30) 30 eSten 0x100 4 0x40C00000 = true := by
  decide +kernel

theorem witness_DescriptorsRunOrFail_15 :
    eGood 32 6 0 eGemm (fun d r => (r.gemm d).1) = true ∧ eMade (.gemm .A 32) 32 eGemm 0x100 8 0x4018000000000000 = true := by
  decide +kernel

theorem witness_DescriptorsRunOrFail_16 :
    eGood 40 7 0 eRand (fun d r => r.generate d) = true ∧ eMade (.generate .A 40) 40 eRand 0x100 16 0x9B00DBD8_BC57AC4C_E169C58D_6627E8D5 = true := by
  decide +kernel

theorem witness_DescriptorsRunOrFail_17 :
    gives (.encrypt .A 42) (eCrypt 0 []) (fun t => (t.eng .A 42).done == some 0 &&
      t.bytesAt 0x100 16 == 0x189DF3BAD3C54E076E6B604D3D40A7CE && t.bytesAt 0x110 16 == 0x19B98AD4B5985B26F06B9999A7C8D1D0) = true := by
  decide +kernel

theorem witness_DescriptorsRunOrFail_18 :
    eBad.engReady .A 0 1 3 ≠ none ∧ gives (.moveFill .A 0) eBad (fun t => t.mem == [] && (t.eng .A 0).running == none) = true := by
  decide +kernel

/-- A FILL beyond the domain's window; a COPY from module 3, which the domain may read. -/
def eOut : State := eRun 0 (dw 1 3 0 [0, 7, 0x100000, 10, 0, 0, 0]) []

def eFar : State := (eRun 0 (dw 1 0 0 [0, 3 * 2 ^ 44, 0x100, 4, 0, 0, 0]) []).setDom 1 (⟨⟨false, [], []⟩,
  ⟨true, [(1, 3 * 2 ^ 44)], [(0, 2 ^ 63 + 2 ^ 39 + 2 ^ 38 + 256), (1, 2 ^ 63 + 2 ^ 38 + 256)]⟩, 0⟩)

theorem witness_DescriptorsRunOrFail_19 :
    (match eOut.engReady .A 0 1 3 with
      | some d => headerGood d && d.op == 3 && ((eOf eOut 0 d).fill d).fail == some (2, 0x100000) && !((eOf eOut 0 d).fill d).wait
      | none => false) = true ∧
      gives (.moveFill .A 0) eOut (fun t => t.mem == [] && (t.eng .A 0).running == none && t.rd (ef F.ENG_LAST_ERR_CODE .A 0) == 2) = true := by
  decide +kernel

theorem witness_DescriptorsRunOrFail_20 :
    (match eFar.engReady .A 0 1 0 with
      | some d => headerGood d && d.op == 0 && ((eOf eFar 0 d).copy d).wait && ((eOf eFar 0 d).copy d).asks == [(3 * 2 ^ 44, 4)]
      | none => false) = true ∧ gives (.moveCopy .A 0) eFar (fun t => t.mem == []) = true := by
  decide +kernel

/-- Engine 0 of frond A has made its writes. -/
def eDone : State := eFill.setEng .A 0 ⟨[], some (dw 1 3 0 [0, 0, 0, 0, 0, 0, 0]), some 0, []⟩

def eHeld : State := let s := eDone.wr F.PROT_EPOCH_STATUS_PENDING 1
  { s with work := { s.work with changed := [1] } }

def eKey : State := base [(rgf F.CRYPTO_KEY_SEL_SLOT .A, 31), (rgf F.CRYPTO_KEY_SEL_DOMAIN .A, 9),
  ((rgf F.CRYPTO_KEY_W_KEY .A).i 3, 7)]

theorem witness_EnginesCompleteKeysAndCoresAct_1 :
    (State.reset.eng .B 43).running = none ∧ idle (.descriptorComplete .B 43) State.reset = true ∧
      idle (.engWatchdogExpire .B 43) State.reset = true := by
  decide +kernel

theorem witness_EnginesCompleteKeysAndCoresAct_2 :
    (eDone.eng .A 0).done = some 0 ∧ (eDone.eng .A 0).running ≠ none ∧ eDone.heldDom (eDone.ctxDom 5) = false ∧
      eDone.groupCount .A (.engine 0) = 0 ∧
      gives (.descriptorComplete .A 0) eDone (fun t => t.rd (ef F.ENG_DONE_COUNT .A 0) == 1 && (t.eng .A 0).running == none) = true := by
  decide +kernel

theorem witness_EnginesCompleteKeysAndCoresAct_3 :
    (eHeld.eng .A 0).done = some 0 ∧ eHeld.ctxDom 5 = 1 ∧ eHeld.heldDom 1 = true ∧ idle (.descriptorComplete .A 0) eHeld = true := by
  decide +kernel

theorem witness_EnginesCompleteKeysAndCoresAct_4 :
    (eFill.eng .A 0).running ≠ none ∧ gives (.engWatchdogExpire .A 0) eFill (fun t =>
      (t.eng .A 0).running == none && t.rd (ef F.ENG_LAST_ERR_CODE .A 0) == 0xA && bitOf (t.rd (errStatus (engPage .A 0))) 2) = true := by
  decide +kernel

theorem witness_EnginesCompleteKeysAndCoresAct_5 :
    eKey.mayWrite su (rgf F.CRYPTO_KEY_CMD_COMMIT .A) ∧ eKey.rd (rgf F.CRYPTO_KEY_SEL_SLOT .A) = 31 ∧
      gives (.cryptoKeyCommit su .A) eKey (fun t => t.cryptoKey .A 31 == some (7 * 2 ^ 192, 9) &&
        bitOf (t.rd (rgf F.CRYPTO_KEY_VALID_VALID .A)) 31 && t.rd ((rgf F.CRYPTO_KEY_W_KEY .A).i 3) == 0 && t.cryptoKey .A 0 == none) = true := by
  decide +kernel

theorem witness_EnginesCompleteKeysAndCoresAct_6 :
    gives (.cryptoKeyClear su .A) (eKey.setCryptoKey .A 31 (8, 9)) (fun t => t.cryptoKey .A 31 == none &&
      !bitOf (t.rd (rgf F.CRYPTO_KEY_VALID_VALID .A)) 31) = true := by
  decide +kernel

theorem witness_EnginesCompleteKeysAndCoresAct_7 :
    State.reset.mayWrite su (F.CORE_CTRL_RESET.pg (corePage .B 7)) ∧
      idle (.coreReset su .B 7) (base [(F.CORE_STATUS_STATE.pg (corePage .B 7), 4)]) = true ∧
      (∀ e ∈ State.reset.irqStack (.fic .B) 7, e.1 < 1024) ∧
      State.reset.rd (F.CORE_STATUS_STATE.pg (corePage .B 7)) ≠ 4 ∧
      gives (.coreReset su .B 7) (base [(F.BLK_CTRL_ENABLE.pg (corePage .B 7), 1), (F.CORE_CTRL_HALT.pg (corePage .B 7), 1)]) (fun t =>
        t.rd (F.CORE_STATUS_STATE.pg (corePage .B 7)) == 3) = true ∧
      gives (.coreReset su .B 7) (base [(F.BLK_CTRL_ENABLE.pg (corePage .B 7), 0)]) (fun t =>
        t.rd (F.CORE_STATUS_STATE.pg (corePage .B 7)) == 0) = true := by
  decide +kernel

theorem witness_EnginesCompleteKeysAndCoresAct_8 :
    gives (.coreLoadPoison .A 0 0x3FFFFFFFFFFFF true true) State.reset (fun t => t.rd (F.CORE_ERR_POISON.pg (corePage .A 0)) == 1 &&
      t.rd (F.CORE_ERR_ADDR.pg (corePage .A 0)) == 2 ^ 50 - 1 && t.outbox == [.answer false false []]) = true := by
  decide +kernel

theorem witness_EnginesCompleteKeysAndCoresAct_9 :
    gives (.coreLoadPoison .A 0 0x100000000000 false true) State.reset (fun t => bitOf (t.rd (errStatus (corePage .A 0))) 1 &&
      t.mem == [] && t.poison == []) = true ∧ (0x100000000000 : BitVec 50).toNat / 2 ^ 44 ≠ State.reset.modIdx := by
  decide +kernel

/-! ### Contexts, partitions and epochs -/

/-- Context 5 of partition 1, which holds tiles 0 and 1 of frond A and is built; its domain 1 may reach the first megabyte, the counters
and the code of tile 0; the words of `w` are its one submitted item. -/
def cAt (w : List Nat) : State :=
  let s := put hMem [(F.PART_STATUS_STATE.i 1, 2), (F.PART_CFG_DOMAIN.i 1, 1), (F.PART_CFG_WIDTH.i 1, 2), (F.PART_CFG_HEIGHT.i 1, 1),
    (F.SCHED_CTRL_EN.pg (frondPg .A 0x106), 1)]
  let s := s.updCtx 5 (fun x => { x with alloc := true, part := 1, ringBase := 0x1000, ringLog := 6, tail := 1 })
  let s := s.setDom 1 (⟨⟨false, [], []⟩, ⟨true, [(1, 0xE0000000000), (2, 0xC0000000000)],
    [(0, 2 ^ 63 + 2 ^ 39 + 2 ^ 38 + 256), (1, 2 ^ 63 + 2 ^ 39 + 2 ^ 38 + 1024), (2, 2 ^ 63 + 2 ^ 40 + 1)]⟩, 0⟩)
  w.zipIdx.foldl (fun s e => s.setBytes (0x1000 + 8 * e.2) 8 e.1) s

def cSt (g : Ctx → Ctx) (w : List Nat) : State := (cAt w).updCtx 5 g

def cBlock (k : Nat) (w : List Nat) : State := cSt (fun x => { x with wait := some ⟨k, 0, 0, false⟩ }) w

/-- Context 5 is selected by the steward. -/
def cSel (g : Ctx → Ctx) : State := (cSt g []).setSel su F.CTX_SEL_ID.key 5

def cFree : State := cSel (fun x => { x with alloc := false, gen := 255, head := 3 })

def cIdle : State := cSel (fun x => { x with tail := 0 })

def cBusy : State := cSel (fun x => { x with outstanding := [⟨9, [0x80], [0]⟩] })

def cStop : State := cSel (fun x => { x with stopped := true })

def cCfg : BitVec 64 := F.CTX_CFG_PRIO.put (F.CTX_CFG_PART.put 0 3) 6

theorem witness_ContextCommandsAndCounters_1 :
    cFree.mayWrite su F.CTX_CMD_CMD ∧ cFree.selCtx su = 5 ∧ (cFree.ctx 5).alloc = false ∧ cFree.ringValid 5 = true ∧
      cFree.partState (cFree.ctx 5).part = 2 ∧
      gives (.ctxAlloc su) cFree (fun t => (t.ctx 5).alloc && (t.ctx 5).gen == 0 && (t.ctx 5).head == 0) = true := by
  decide +kernel

theorem witness_ContextCommandsAndCounters_2 :
    (cIdle.ctx 5).alloc = true ∧ gives (.ctxAlloc su) cIdle (fun t => bitOf (t.rd (errStatus 0x20)) 2) = true := by
  decide +kernel

theorem witness_ContextCommandsAndCounters_3 :
    cIdle.ctxState 5 = 1 ∧ (cIdle.ctx 5).outstanding = [] ∧ gives (.ctxFree su) cIdle (fun t => !(t.ctx 5).alloc && (t.ctx 5).gen == 1) = true := by
  decide +kernel

theorem witness_ContextCommandsAndCounters_4 :
    (cBusy.ctx 5).outstanding ≠ [] ∧ gives (.ctxFree su) cBusy (fun t => (t.ctx 5).alloc) = true := by
  decide +kernel

theorem witness_ContextCommandsAndCounters_5 :
    cIdle.ctxState 5 ≠ 0 ∧ cIdle.ctxState 5 ≠ 7 ∧ gives (.ctxStop su) cIdle (fun t => (t.ctx 5).stopped) = true := by
  decide +kernel

theorem witness_ContextCommandsAndCounters_6 :
    cFree.ctxState 5 = 0 ∧ gives (.ctxStop su) cFree (fun t => !(t.ctx 5).stopped) = true := by
  decide +kernel

theorem witness_ContextCommandsAndCounters_7 :
    cStop.ctxState 5 = 6 ∧ gives (.ctxStart su) cStop (fun t => !(t.ctx 5).stopped) = true := by
  decide +kernel

theorem witness_ContextCommandsAndCounters_8 :
    cIdle.ctxState 5 ≠ 6 ∧ gives (.ctxStart su) cIdle (fun t => bitOf (t.rd (errStatus 0x20)) 2) = true := by
  decide +kernel

theorem witness_ContextCommandsAndCounters_9 :
    cIdle.mayWrite su F.CTX_CFG_PART ∧ cIdle.partMovable 5 = true ∧
      gives (.ctxCfgWrite su cCfg) cIdle (fun t => (t.ctx 5).part == 3 && (t.ctx 5).prio == 6) = true := by
  decide +kernel

theorem witness_ContextCommandsAndCounters_10 :
    cBusy.partMovable 5 = false ∧ F.CTX_CFG_PART.get cCfg ≠ (cBusy.ctx 5).part ∧
      gives (.ctxCfgWrite su cCfg) cBusy (fun t => (t.ctx 5).part == 1 && (t.ctx 5).prio == 6) = true := by
  decide +kernel

theorem witness_ContextCommandsAndCounters_11 :
    (∀ l < 8, cIdle.levelReady .A l = []) ∧ idle (.dispatchDecision .A) cIdle = true := by
  decide +kernel

theorem witness_ContextCommandsAndCounters_12 :
    (∀ k < 8, 0 < k → (cAt []).levelReady .A k = []) ∧ (cAt []).levelReady .A 0 ≠ [] ∧ (cAt []).levelPick .A 0 = some 5 ∧
      gives (.dispatchDecision .A) (cAt [0x83]) (fun t => (t.ctx 5).head == 1) = true := by
  decide +kernel

theorem witness_ContextCommandsAndCounters_13 :
    (cAt []).accHeld cpu = false ∧ (∀ k < 64, cpu ≠ .host k) ∧ (cAt []).mayAccess cpu rightW (0xE0000000000 + 8 * 131071) 8 = true ∧
      gives (.signalCounterAdd cpu 131071 (2 ^ 32 + 3)) ((cAt []).counterSet 131071 (2 ^ 32 - 1)) (fun t => t.counter 131071 == 2) = true := by
  decide +kernel

theorem witness_ContextCommandsAndCounters_14 :
    (cAt []).mayAccess cpu rightW (0xE0000000000 + 0x100000 + 8 * 131071) 8 = true ∧
      gives (.signalCounterSet cpu 131071 (2 ^ 32 + 3)) (cAt []) (fun t => t.counter 131071 == 3) = true := by
  decide +kernel

theorem witness_ContextCommandsAndCounters_15 :
    (cAt []).mayAccess cpu rightW (0xE0000000000 + 2 * 0x100000) 8 = true ∧
      gives (.signalCounterExternal cpu 0 1) ((cAt []).counterSet 0 9) (fun t => t.counter 0 == 9 && t.counterExt 0) = true := by
  decide +kernel

theorem witness_ContextCommandsAndCounters_16 :
    (cIdle.accHeld cpu) = false ∧ cIdle.mayAccess cpu rightW (0xE1000000000 + 5 * 64) 64 = true ∧ cIdle.subRefusal 5 1 = none ∧
      gives (.submissionWindowWrite cpu 0x140 (List.replicate 64 0)) cIdle (fun t => (t.ctx 5).tail == 1 &&
        t.outbox == [.answer true false []]) = true := by
  decide +kernel

theorem witness_ContextCommandsAndCounters_17 :
    gives (.submissionWindowWrite cpu 0x3FFFFF []) (cAt []) (fun t => t.rd F.SUB_LAST_REJECT_CTX == 65535 &&
      t.rd F.SUB_LAST_REJECT_REASON == 1 && bitOf (t.rd (errStatus 0x23)) 0) = true := by
  decide +kernel

def iLaunch : List Nat := [0x80 + 0x10 * 256, 0, 1, 0, 11, 12, 13, 14]

def iWait : List Nat := [0x81, 0, 131071, 2 + 2 ^ 32]

/-- SIGNAL items of a mode: counter 7, value 3. -/
def iSig (mode : Nat) : List Nat := [0x82 + mode * 2 ^ 56, 7 + 2 ^ 30 + 3 * 2 ^ 32]

/-- A MOVE COPY item. -/
def iEng : List Nat := [1 + 0xFF000000, 0, 0x40, 0x100, 4, 0, 0, 0]

def eight (w : List Nat) : List Nat := w ++ List.replicate (8 - w.length) 0

def cCount (n : Nat) (s : State) : State := s.counterSet 131071 n

def cTile (s : State) : State := put s [(tf F.TSEQ_STATUS_STATE .A 0, 1)]

def cOut (w : List Nat) : State := cSt (fun x => { x with outstanding := [⟨9, [0x80], [0]⟩] }) w

def cProd : State := cSt (fun x => { x with prods := [(7, prodWord 7)] }) (iSig 3)

def cPhase : State :=
  let s := cAt [0x85 + 2 ^ 56]
  { s with phase := { s.phase with copyA := { s.phase.copyA with valid := true } } }

def cEng (l : List Desc) : State :=
  let s := put (cAt iEng) [(ef F.ENG_STATUS_PART_VALID .A 15, 1), (ef F.ENG_STATUS_PART .A 15, 1), (ef F.BLK_CTRL_ENABLE .A 15, 1)]
  s.setEng .A 15 ⟨l, none, none, []⟩

theorem witness_ItemsAtTheHead_1 :
    (cAt iLaunch).atHead 5 (eight iLaunch) ∧ signalGood 0 = true ∧ (cAt iLaunch).launchFault 5 (eight iLaunch) = none ∧
      (cAt iLaunch).blockKind 5 = 0 ∧ (cAt iLaunch).launchReady 5 (eight iLaunch) = true ∧
      gives (.launch 5) (cAt iLaunch) (fun t => t.pc .A 0 == 16 && (t.tile .A 0).sreg 4 == 14 && t.runCtx .A 0 == 5 &&
        (t.ctx 5).outstanding.map (·.tiles) == [[0]]) = true := by
  decide +kernel

theorem witness_ItemsAtTheHead_2 :
    (cBlock 6 iLaunch).atHead 5 (eight iLaunch) ∧ (cBlock 6 iLaunch).blockKind 5 = 6 ∧ (cBlock 6 iLaunch).launchFault 5 (eight iLaunch) = none ∧
      (cBlock 6 iLaunch).launchReady 5 (eight iLaunch) = true ∧ gives (.launchStart 5) (cBlock 6 iLaunch) (fun t => t.seqState .A 0 == 1) = true := by
  decide +kernel

theorem witness_ItemsAtTheHead_3 :
    (cTile (cAt iLaunch)).launchFault 5 (eight iLaunch) = none ∧ (cTile (cAt iLaunch)).launchReady 5 (eight iLaunch) = false ∧
      gives (.launch 5) (cTile (cAt iLaunch)) (fun t => t.blockKind 5 == 6 && (t.ctx 5).head == 0) = true := by
  decide +kernel

theorem witness_ItemsAtTheHead_4 :
    (cAt iWait).atHead 5 (eight iWait) ∧ headerBad (eight iWait) 1 = false ∧ wd (eight iWait) 2 < 2 ^ 17 ∧ restZero (eight iWait) 4 = true ∧
      (cAt iWait).domMay ((cAt iWait).ctxDom 5) rightR ((cAt iWait).globalOf (0xE0000000000 + 8 * 131071)) 8 = true ∧
      (cAt iWait).waitMet (eight iWait) = false ∧ gives (.wait 5) (cAt iWait) (fun t => t.blockKind 5 == 1) = true := by
  decide +kernel

theorem witness_ItemsAtTheHead_5 :
    (cCount 2 (cAt iWait)).waitMet (eight iWait) = true ∧ gives (.wait 5) (cCount 2 (cAt iWait)) (fun t => (t.ctx 5).head == 1) = true := by
  decide +kernel

theorem witness_ItemsAtTheHead_6 :
    (cCount 2 (cBlock 1 iWait)).waitMet (eight iWait) = true ∧ (cCount 2 (cBlock 1 iWait)).waitBehind 5 = false ∧
      (cCount 2 (cBlock 1 iWait)).atHead 5 (eight iWait) ∧
      gives (.waitItemMet 5) (cCount 2 (cBlock 1 iWait)) (fun t => (t.ctx 5).head == 1 && (t.ctx 5).wait == none) = true := by
  decide +kernel

theorem witness_ItemsAtTheHead_7 :
    (cBlock 1 iWait).blockKind 5 = 1 ∧ wd (eight iWait) 3 / 2 ^ 32 ≠ 0 ∧
      gives (.waitTimeout 5) (cBlock 1 iWait) (fun t => (t.ctx 5).faulted && t.ctxState 5 == 5) = true := by
  decide +kernel

theorem witness_ItemsAtTheHead_8 :
    (cAt (iSig 0)).atHead 5 (eight (iSig 0)) ∧ signalGood (wd (iSig 0) 1) = true ∧ restZero (eight (iSig 0)) 2 = true ∧
      (cAt (iSig 0)).signalRemote (wd (iSig 0) 1) = false ∧
      (cAt (iSig 0)).domMay ((cAt (iSig 0)).ctxDom 5) rightW ((cAt (iSig 0)).signalAddr (wd (iSig 0) 1)) 8 = true ∧
      gives (.signalItemAdd 5) (cAt (iSig 0)) (fun t => t.counter 7 == 3 && (t.ctx 5).head == 1) = true := by
  decide +kernel

theorem witness_ItemsAtTheHead_9 :
    (cAt (iSig 1)).atHead 5 (eight (iSig 1)) ∧ ((cAt (iSig 1)).ctx 5).outstanding = [] ∧
      gives (.signalItemAddAfter 5) (cAt (iSig 1)) (fun t => t.counter 7 == 3) = true := by
  decide +kernel

theorem witness_ItemsAtTheHead_10 :
    (cOut (iSig 1)).atHead 5 (eight (iSig 1)) ∧ ((cOut (iSig 1)).ctx 5).outstanding ≠ [] ∧
      gives (.signalItemAddAfter 5) (cOut (iSig 1)) (fun t => t.counter 7 == 0 && t.blockKind 5 == 1) = true := by
  decide +kernel

theorem witness_ItemsAtTheHead_11 :
    (cAt (iSig 2)).atHead 5 (eight (iSig 2)) ∧ ((cAt (iSig 2)).ctx 5).freeSlots ≠ [] ∧
      gives (.signalItemRegister 5) (cAt (iSig 2)) (fun t => (t.ctx 5).prods.map (·.2) == [prodWord 7]) = true := by
  decide +kernel

theorem witness_ItemsAtTheHead_12 :
    cProd.atHead 5 (eight (iSig 3)) ∧ gives (.signalItemUnregister 5) cProd (fun t => (t.ctx 5).prods == []) = true := by
  decide +kernel

theorem witness_ItemsAtTheHead_13 :
    (cAt [0x83]).atHead 5 (eight [0x83]) ∧ gives (.fenceContext 5) (cAt [0x83]) (fun t => (t.ctx 5).head == 1) = true ∧
      (cBlock 4 [0x83]).atHead 5 (eight [0x83]) ∧ gives (.itemConditionMet 5) (cBlock 4 [0x83]) (fun t => (t.ctx 5).head == 1) = true := by
  decide +kernel

theorem witness_ItemsAtTheHead_14 :
    (cOut [0x83]).atHead 5 (eight [0x83]) ∧ gives (.fenceContext 5) (cOut [0x83]) (fun t => t.blockKind 5 == 4) = true := by
  decide +kernel

theorem witness_ItemsAtTheHead_15 :
    (cAt [0x83 + 2 ^ 56]).atHead 5 (eight [0x83 + 2 ^ 56]) ∧ headerBad (eight [0x83 + 2 ^ 56]) 1 = false ∧
      gives (.fenceEpoch 5) (cAt [0x83 + 2 ^ 56]) (fun t => (t.ctx 5).head == 1) = true := by
  decide +kernel

theorem witness_ItemsAtTheHead_16 :
    (cAt [0x84]).atHead 5 (eight [0x84]) ∧ gives (.markItem 5) (cAt [0x84]) (fun t => (t.ctx 5).head == 1) = true := by
  decide +kernel

theorem witness_ItemsAtTheHead_17 :
    cPhase.atHead 5 (eight [0x85 + 2 ^ 56]) ∧ headerBad (eight [0x85 + 2 ^ 56]) 1 = false ∧
      cPhase.phaseMet (cPhase.partFrond (cPhase.ctx 5).part) true 0 0 (cPhase.ctx 5).wait = true ∧
      gives (.phaseWait 5) cPhase (fun t => (t.ctx 5).head == 1) = true := by
  decide +kernel

theorem witness_ItemsAtTheHead_18 :
    (cEng []).atHead 5 iEng ∧ (cEng []).engPick ((cEng []).ctx 5).part (wd iEng 0) = some 15 ∧
      gives (.engineItem 5) (cEng []) (fun t => (t.ctx 5).head == 1 && (t.eng .A 15).running.isSome) = true := by
  decide +kernel

theorem witness_ItemsAtTheHead_19 :
    (cEng (List.replicate 4 ⟨iEng, 5, 0, 0⟩)).atHead 5 iEng ∧
      (cEng (List.replicate 4 ⟨iEng, 5, 0, 0⟩)).engPick ((cEng []).ctx 5).part (wd iEng 0) = some 15 ∧
      gives (.engineItem 5) (cEng (List.replicate 4 ⟨iEng, 5, 0, 0⟩)) (fun t => t.blockKind 5 == 7) = true := by
  decide +kernel

def pFree (l : List (Field × Nat)) : State := put (cAt []) ([(F.PART_STATUS_STATE.i 1, 0), (mapField F.TMAP_ENTRY_VALID .A 1, 1),
  (mapField F.TMAP_ENTRY_PHYS .A 1, 131), (tf F.TILE_STATUS_STATE .A 131, 2)] ++ l)

/-- The partition is built and no context lies in it. -/
def pBuilt : State := put (cSt (fun x => { x with part := 2 }) []) [(ef F.ENG_STATUS_PART_VALID .A 15, 1), (ef F.ENG_STATUS_PART .A 15, 1)]

def pAdv : State := (cAt []).setDom 1 { ((cAt []).dom 1) with staged := ⟨true, [], []⟩ }

def pPend : State :=
  let s := put (cAt []) [(F.PROT_EPOCH_STATUS_PENDING, 1)]
  { s with work := { s.work with changed := [1] } }

def pWork (st : Nat) : State :=
  let s := put (cAt []) [(F.PART_STATUS_STATE.i 1, st)]
  { s with work := { s.work with building := [(1, 1)] } }

/-- The same, with tile 0 of the partition in recalibration. -/
def pSpare (st : Nat) : State := (pWork st).updTile .A 0 (fun u => { u with recal := true })

def pOld : State := { pPend with work := { pPend.work with held := [], changed := [1] } }

def cEnded : State := cSt (fun x => { x with outstanding := [⟨9, iLaunch, []⟩] }) []

theorem witness_PartitionsAndEpochs_1 :
    ((cAt []).ctx 5).launchEnded = none ∧ idle (.launchComplete 5) (cAt []) = true := by
  decide +kernel

theorem witness_PartitionsAndEpochs_2 :
    (cEnded.ctx 5).launchEnded = some ⟨9, iLaunch, []⟩ ∧ gives (.launchComplete 5) cEnded (fun t => (t.ctx 5).outstanding == []) = true := by
  decide +kernel

theorem witness_PartitionsAndEpochs_3 :
    (cAt []).mayWrite su (F.PART_CMD_CMD.i 1) ∧ (cAt []).partState 1 ≠ 0 ∧
      gives (.partBuild su 1) (cAt []) (fun t => bitOf (t.rd (errStatus 0x22)) 0 && t.partState 1 == 2) = true := by
  decide +kernel

theorem witness_PartitionsAndEpochs_4 :
    (pFree [(F.PART_CFG_COL0.i 1, 15)]).partCheck 1 = some 1 ∧ (pFree [(F.PART_CFG_DOMAIN.i 1, 0)]).partCheck 1 = some 5 ∧
      gives (.partBuild su 1) (pFree [(F.PART_CFG_DOMAIN.i 1, 0)]) (fun t => t.rd (F.PART_STATUS_FAIL.i 1) == 5 && t.partState 1 == 0) = true := by
  decide +kernel

theorem witness_PartitionsAndEpochs_5 :
    (pFree []).partState 1 = 0 ∧ (pFree []).partCheck 1 = none ∧ (pFree []).partTiles 1 = [0, 1] ∧
      (pFree []).physOf .A 1 = some 131 ∧ (pFree []).tileState .A 131 = 2 ∧ ((pFree []).tile .A 131).recal = false ∧
      (pFree []).physOf .A 0 = some 0 ∧ (pFree []).tileState .A 0 = 2 ∧ ((pFree []).tile .A 0).recal = false ∧
      (pFree []).heldDom ((pFree []).partDomain 1) = false ∧ (∀ c ∈ (pFree []).partCtxs 1, ((pFree []).ctx c).resetting = false) ∧
      gives (.partBuild su 1) (pFree []) (fun t => t.partState 1 == 2 && t.rd (F.PART_STATUS_GEN.i 1) == 1) = true := by
  decide +kernel

theorem witness_PartitionsAndEpochs_6 :
    (pFree []).partState 1 ≠ 2 ∧ gives (.partRebuild su 1) (pFree []) (fun t => t.rd (F.PART_STATUS_FAIL.i 1) == 8) = true := by
  decide +kernel

theorem witness_PartitionsAndEpochs_7 :
    pBuilt.partState 1 = 2 ∧ pBuilt.rebuildOk 1 = true ∧ pBuilt.partCtxs 1 = [] ∧ 15 ∈ pBuilt.partEngs 1 ∧
      gives (.partFree su 1) pBuilt (fun t => t.partState 1 == 0 && t.rd (ef F.ENG_STATUS_PART_VALID .A 15) == 0) = true := by
  decide +kernel

theorem witness_PartitionsAndEpochs_8 :
    (cAt []).partCtxs 1 ≠ [] ∧ gives (.partFree su 1) (cAt []) (fun t => t.rd (F.PART_STATUS_FAIL.i 1) == 8 && t.partState 1 == 2) = true := by
  decide +kernel

theorem witness_PartitionsAndEpochs_9 :
    Sparse.get (fun _ => 0) (cAt []).work.building 1 = 0 ∧ idle (.partBuildComplete 1 true) (cAt []) = true := by
  decide +kernel

theorem witness_PartitionsAndEpochs_10 :
    Sparse.get (fun _ => 0) (pSpare 1).work.building 1 ≠ 0 ∧ (pSpare 1).partRecal 1 = true ∧
      gives (.partBuildComplete 1 false) (pSpare 1) (fun t => t.partState 1 == 0 && t.rd (F.PART_STATUS_FAIL.i 1) == 7) = true ∧
      gives (.partBuildComplete 1 false) (pSpare 3) (fun t => t.partState 1 == 2) = true := by
  decide +kernel

theorem witness_PartitionsAndEpochs_11 :
    Sparse.get (fun _ => 0) (pWork 1).work.building 1 ≠ 0 ∧ (pWork 1).partRecal 1 = false ∧
      idle (.partBuildComplete 1 false) (pWork 1) = true := by
  decide +kernel

theorem witness_PartitionsAndEpochs_12 :
    (cEnded.ctx 5).launchEnded = some ⟨9, iLaunch, []⟩ ∧ (cEnded.wr F.PROT_EPOCH_STATUS_PENDING 1).ctxDom 5 = 1 ∧
      idle (.launchComplete 5) (let s := cEnded.wr F.PROT_EPOCH_STATUS_PENDING 1
        { s with work := { s.work with changed := [1] } }) = true := by
  decide +kernel

theorem witness_PartitionsAndEpochs_13 :
    pBuilt.partState 1 = 2 ∧ pBuilt.rebuildOk 1 = true ∧ gives (.partRebuild su 1) pBuilt (fun t => t.partState 1 == 2 || t.partState 1 == 3) = true := by
  decide +kernel

theorem witness_PartitionsAndEpochs_14 :
    (pFree []).mayWrite su (F.PART_ENG_MASK.i 1) ∧
      gives (.partCfgWrite su 1 true 0x5) (pFree []) (fun t => t.reg (F.PART_ENG_MASK.i 1).key == 0x5) = true ∧
      gives (.partCfgWrite su 1 true 0x5) (cAt []) (fun t => bitOf (t.rd (errStatus 0x22)) 0) = true := by
  decide +kernel

theorem witness_PartitionsAndEpochs_15 :
    (pFree []).mayWrite su (F.PART_CFG_DOMAIN.i 1) ∧
      gives (.partCfgWrite su 1 false 0x2) (pFree []) (fun t => t.reg (F.PART_CFG_DOMAIN.i 1).key != (pFree []).reg (F.PART_CFG_DOMAIN.i 1).key) = true ∧
      gives (.partCfgWrite su 1 false 0x2) (cAt []) (fun t => t.reg (F.PART_CFG_DOMAIN.i 1).key == (cAt []).reg (F.PART_CFG_DOMAIN.i 1).key) = true := by
  decide +kernel

theorem witness_PartitionsAndEpochs_16 :
    pAdv.mayWrite su F.PROT_EPOCH_CTRL_ADVANCE ∧ pAdv.rd F.PROT_EPOCH_STATUS_PENDING = 0 ∧ pAdv.changedDoms = [1] ∧
      gives (.protEpochAdvance su) pAdv (fun t => t.rd F.PROT_EPOCH_STATUS_EPOCH == 1 && (t.dom 1).active == ⟨true, [], []⟩) = true := by
  decide +kernel

theorem witness_PartitionsAndEpochs_17 :
    pPend.rd F.PROT_EPOCH_STATUS_PENDING = 1 ∧ idle (.protEpochAdvance su) pPend = true := by
  decide +kernel

theorem witness_PartitionsAndEpochs_18 :
    idle .epochFenceComplete (cAt []) = true ∧ pPend.work.held = [] ∧ pPend.work.building = [] ∧
      gives .epochFenceComplete pPend (fun t => t.rd F.PROT_EPOCH_STATUS_PENDING == 0 && t.work.changed == []) = true := by
  decide +kernel

/-! ### Links -/

/-- Port 3 is up; module 5 may reach HBM here; module 9 is reached by port 3 alone. -/
def lUp : State := put hMem [(pf F.LPORT_STATUS_STATE 3, 2), (pf F.LPORT_CFG_EN 3, 1), (pf F.BLK_CTRL_ENABLE 3, 1),
  (F.LINK_ADMIT_ALLOW.i 5, 1), (F.LINK_ADMIT_REGIONS.i 5, 1), (F.LINK_CTRL_ROUTE_EN, 1), (F.LINK_ROUTE_VALID.i 9, 1),
  (F.LINK_ROUTE_MASK.i 9, 8), (F.LINK_ROUTE_ESC.i 9, 8)]

def lPort (g : PortUnit → PortUnit) (s : State) : State := s.setPort 3 (g (s.port 3))

def lState (n : Nat) : State := put lUp [(pf F.LPORT_STATUS_STATE 3, n)]

/-- A flit of a type with a sequence number and an empty body, as it is on the wire. -/
def fFlit (typ seq : Nat) : Flit := ⟨0, true, (flitBytes typ 0 seq 0 []).map (BitVec.ofNat 8)⟩

def fData (seq : Nat) : Flit := fFlit 1 seq

def lSeq (n : Nat) : State := lPort (fun u => { u with rxSeq := n }) lUp

def lSent : State := lPort (fun u => { u with txSeq := 10, unacked := 3, nakSeq := 7, replays := 15 }) lUp

/-- A transaction from module 5. -/
def txn (opc : BitVec 8) (dest : BitVec 6) (addr : BitVec 44) (data : List (BitVec 8)) : Txn :=
  ⟨opc, dest, 5, .A, 0, 0, 0, 8, 0, addr, false, false, 0, 0, 0, 0, 0, 0, data⟩

def lTest : State := put (lPort (fun u => { u with test := true, queue := [(4, txn 0x10 9 0 [], 0)] }) lUp) [(F.LINK_CTRL_TEST_GATE, 0)]

def lWait : State := { lUp with link := { lUp.link with waiting := [(.A, txn 0x10 9 0 [], 0)] } }

theorem witness_PortsReceiveTrainAndForward_1 :
    hMem.portUp 3 = false ∧ idle (.flitReceive 3 (fData 0)) hMem = true := by
  decide +kernel

theorem witness_PortsReceiveTrainAndForward_2 :
    (lSeq 4095).portUp 3 = true ∧ (lSeq 4095).armed (portPage 3) 0 = false ∧ (lSeq 4095).armed (portPage 3) 1 = false ∧
      ((lSeq 4095).port 3).unacked = 0 ∧ ((lSeq 4095).port 3).rxSeq = 4095 ∧
      gives (.flitReceive 3 (fData 4095)) (lSeq 4095) (fun t => (t.port 3).rxSeq == 0 && t.rd (pf F.LPORT_RX_FLITS_COUNT 3) == 1 && t.outbox == []) = true ∧
      flitCrcOk (fData 4095) = true ∧ ((lSeq 4095).port 3).tagBad (fData 4095) = false ∧ flitType (fData 4095) = 1 ∧ flitSeq (fData 4095) = 4095 := by
  decide +kernel

theorem witness_PortsReceiveTrainAndForward_3 :
    2048 < (0 + 4096 - 7) % 4096 ∧ ((lSeq 0).port 3).naked = false ∧
      gives (.flitReceive 3 (fData 7)) (lSeq 0) (fun t => (t.port 3).naked && t.outbox.length == 1) = true := by
  decide +kernel

theorem witness_PortsReceiveTrainAndForward_4 :
    5 ≤ flitType (fFlit 15 0) ∧ flitCrcOk (fFlit 15 0) = true ∧ idle (.flitReceive 3 (fFlit 15 0)) (lSeq 0) = true := by
  decide +kernel

theorem witness_PortsReceiveTrainAndForward_5 :
    gives (.flitReceive 3 { (fData 0) with fecOk := false }) (lSeq 0) (fun t => bitOf (t.rd (errStatus (portPage 3))) 0) = true := by
  decide +kernel

theorem witness_PortsReceiveTrainAndForward_6 :
    idle (.nakReceive 3 7) lUp = true ∧ lSent.portUp 3 = true ∧ (lSent.port 3).nakSeq = 7 ∧ (lSent.port 3).replays = 15 ∧
      gives (.nakReceive 3 7) lSent (fun t => t.portState 3 == 4 && (t.port 3).unacked == 0) = true := by
  decide +kernel

theorem witness_PortsReceiveTrainAndForward_7 :
    (lState 2).portState 3 ≤ 3 ∧ (lState 2).portMay 3 = true ∧ gives (.peerTrainingStart 3) (lState 2) (fun t => t.portState 3 == 4) = true ∧
      idle (.peerTrainingStart 3) (lState 6) = true ∧
      (lState 0).portMay 3 = true ∧ gives (.portTrainingRetry 3) (lState 0) (fun t => t.portState 3 == 1) = true := by
  decide +kernel

theorem witness_PortsReceiveTrainAndForward_8 :
    (lState 1).portState 3 = 1 ∧ gives (.portTrainingDone 3 15 9 23 true) (lState 1) (fun t => t.portState 3 == 2 &&
        t.rd (pf F.LPORT_STATUS_PEER_PORT 3) == 23 && t.rd (pf F.LPORT_STATUS_REJOIN_WAIT 3) == 1) = true ∧
      gives (.portTrainingDone 3 0 9 23 true) (lState 1) (fun t => t.portState 3 == 0) = true := by
  decide +kernel

theorem witness_PortsReceiveTrainAndForward_9 :
    lUp.mayWrite su (pf F.LPORT_CMD_CMD 3) ∧ gives (.lportCmdRetrain su 3) lUp (fun t => t.portState 3 == 4) = true ∧
      gives (.lportCmdTest su 3) lUp (fun t => (t.port 3).test) = true := by
  decide +kernel

theorem witness_PortsReceiveTrainAndForward_10 :
    idle (.portTestStart 3) lUp = true ∧ (lTest.port 3).test = true ∧ lTest.portUp 3 = true ∧ lTest.testGate 3 = true ∧
      gives (.portTestStart 3) lTest (fun t => t.portState 3 == 5 && (t.port 3).queue == [] && t.outbox.contains (.portTest 3)) = true := by
  decide +kernel

theorem witness_PortsReceiveTrainAndForward_11 :
    (lState 5).portState 3 = 5 ∧ gives (.portTestDone 3 7 false) (lState 5) (fun t => t.portState 3 == 6 &&
        t.rd (pf F.LPORT_TEST_ERRORS 3) == 7) = true ∧
      gives (.portTestDone 3 0 true) (lState 5) (fun t => t.portState 3 == 4) = true := by
  decide +kernel

theorem witness_PortsReceiveTrainAndForward_12 :
    idle (.routerForward 3 (txn 1 0 0 [])) lUp = true ∧ lUp.aged { (txn 1 9 0 []) with age := 255 } = true ∧
      gives (.routerForward 3 { (txn 1 9 0 []) with age := 255 }) lUp (fun t => t.rd (lf F.TRK_COUNTS_AGED .A) == 1) = true ∧ opcKnown 1 = true ∧ opcKnown 0 = false ∧
      gives (.routerForward 3 (txn 0 0 0 [])) lUp (fun t => t.mem == [] && t.regs != lUp.regs) = true ∧ opcKnown 0x7F = false ∧
      idle (.routerForward 3 (txn 0x7F 0 0 [])) lUp = true := by
  decide +kernel

theorem witness_PortsReceiveTrainAndForward_13 :
    lUp.aged (txn 1 9 0 []) = false ∧ lUp.hop .A (txn 1 9 0 []) false = .port 3 1 ∧
      gives (.routerForward 3 (txn 1 9 0 [])) lUp (fun t => t.rd (pf F.LPORT_TX_FLITS_COUNT 3) == 1) = true := by
  decide +kernel

theorem witness_PortsReceiveTrainAndForward_14 :
    lUp.aged (txn 1 8 0 []) = false ∧ lUp.hop .A (txn 1 8 0 []) false = .none ∧
      gives (.routerForward 3 (txn 1 8 0 [])) lUp (fun t => t.rd (lf F.TRK_COUNTS_NOROUTE .A) == 1) = true := by
  decide +kernel

theorem witness_PortsReceiveTrainAndForward_15 :
    idle (.escapeVcTimeout 1) lWait = true ∧ lWait.link.waiting[0]? = some (.A, txn 0x10 9 0 [], 0) ∧ lWait.aged (lWait.ageBy (txn 0x10 9 0 []) 0) = false ∧
      lWait.hop .A (txn 0x10 9 0 []) true = .port 3 4 ∧
      gives (.escapeVcTimeout 0) lWait (fun t => t.link.waiting == [] && t.rd (pf F.LPORT_TX_FLITS_COUNT 3) == 1) = true := by
  decide +kernel

theorem witness_PortsReceiveTrainAndForward_16 :
    lUp.portState 3 = 2 ∧ gives (.lprsntChange 3 false) lUp (fun t => t.portState 3 == 0 && bitOf t.link.absent 3) = true := by
  decide +kernel

def lLive (u : LinkUser) (opc : Nat) : State := { lUp with link := { lUp.link with live := [⟨.A, 0, 0, 0, 0, u, opc, 9 * 2 ^ 44⟩] } }

def lGroup (n : Nat) : State := { lUp with link := { lUp.link with groups := [⟨.A, 7, 0, .core 2, n, 0, 2, 9 * 2 ^ 44⟩] } }

/-- WDONE of group 7. -/
def tDone : Txn := { (txn 0x12 0 0 []) with trk := 7 }

def four : List (BitVec 8) := [0, 0, 0x80, 0x3F]

theorem witness_RemoteRequestsAndResponses_1 :
    gives (.coreRemoteAccess .A 0 (9 * 2 ^ 44) .reserve) lUp (fun t => t.outbox == [.answer false false []]) = true ∧
      inPage 0xFF8 16 = false ∧ gives (.coreRemoteAccess .A 0 0xFF8 (.load 16)) lUp (fun t => t.outbox == [.answer false false []]) = true ∧
      inPage 0xFF8 8 = true ∧ gives (.coreRemoteAccess .A 0 0xFF8 (.load 8)) lUp (fun t =>
        t.outbox == [.answer true false [0, 0, 0, 0, 0, 0, 0, 0]]) = true := by
  decide +kernel

theorem witness_RemoteRequestsAndResponses_2 :
    inPage (9 * 2 ^ 44) 8 = true ∧ lUp.link.live = [] ∧
      lUp.hop .A { lUp.txnOf .A 0x01 (9 * 2 ^ 44) with
        len := 8, trk := 0, gen := BitVec.ofNat 12 (Sparse.get genDefault lUp.link.gens 0) } false = .port 3 1 ∧
      gives (.coreRemoteAccess .A 0 (9 * 2 ^ 44) (.load 8)) lUp (fun t => t.link.live.map (·.user) == [.core 0]) = true := by
  decide +kernel

theorem witness_RemoteRequestsAndResponses_3 :
    lUp.admits 5 (0xE0000000000) = false ∧ gives (.write 3 (txn 2 0 0xE0000000000 [1])) lUp (fun t => t.mem == [] &&
      bitOf (t.rd (errStatus 0x28)) 1) = true ∧ gives (.read 3 (txn 1 0 0xE0000000000 [])) lUp (fun t => t.mem == []) = true := by
  decide +kernel

theorem witness_RemoteRequestsAndResponses_4 :
    lUp.aged (txn 2 0 0x7C four) = false ∧ lUp.admits 5 0x7C = true ∧ lUp.placeOf (portFrm 3) 0x7C = .hbm 0 0x7C ∧
      lUp.pcBit F.HBMF_FENCE_PC 0 (lUp.pcOf 0 0x7C) = false ∧ lUp.col.inverted = [] ∧ 0x7C % 64 + four.length ≤ 64 ∧
      gives (.write 3 (txn 2 0 0x7C four)) lUp (fun t => t.bytesAt 0x7C 4 == 0x3F800000 && t.byte 0x80 == 0) = true := by
  decide +kernel

theorem witness_RemoteRequestsAndResponses_5 :
    gives (.atomic 3 { (txn 3 0 0x78 []) with aop := 0, h3 := 3 }) (lUp.setBytes 0x78 8 (2 ^ 64 - 1)) (fun t => t.bytesAt 0x78 8 == 2) = true := by
  decide +kernel

theorem witness_RemoteRequestsAndResponses_6 :
    inPage 0x7C 4 = true ∧ gives (.reduceWrite 3 { (txn 4 0 0x7C four) with afmt := 3 }) lUp (fun t => t.mem == []) = true := by
  decide +kernel

theorem witness_RemoteRequestsAndResponses_7 :
    gives (.reduceWrite 3 (txn 4 0 0x7C four)) (lUp.setBytes 0x7C 4 0x3F800000) (fun t => t.bytesAt 0x7C 4 == 0x40000000) = true := by
  decide +kernel

theorem witness_RemoteRequestsAndResponses_8 :
    lUp.blockPoison 0 0x78 = false ∧ gives (.read 3 (txn 1 0 0x78 [])) (lUp.setByte 0x7F 9) (fun t => t.byte 0x7F == 9) = true := by
  decide +kernel

theorem witness_RemoteRequestsAndResponses_9 :
    lUp.trkMatch .A (txn 0x10 0 0 []) 1 = none ∧
      gives (.readResp .A (txn 0x10 0 0 [])) lUp (fun t => t.rd (lf F.TRK_COUNTS_LATE_DROP .A) == 1) = true := by
  decide +kernel

theorem witness_RemoteRequestsAndResponses_10 :
    (lLive (.core 0) 1).trkMatch .A (txn 0x10 0 0 four) 1 ≠ none ∧
      gives (.readResp .A (txn 0x10 0 0 four)) (lLive (.core 0) 1) (fun t => t.link.live == [] &&
        t.outbox == [.answer true false [0, 0, 0x80, 0x3F]]) = true := by
  decide +kernel

theorem witness_RemoteRequestsAndResponses_11 :
    (lLive (.core 0) 3).trkMatch .A (txn 0x11 0 0 four) 3 ≠ none ∧
      gives (.atomicResp .A (txn 0x11 0 0 four)) (lLive (.core 0) 3) (fun t => t.outbox == [.answer true false [0, 0, 0x80, 0x3F]]) = true := by
  decide +kernel

theorem witness_RemoteRequestsAndResponses_12 :
    (lLive (.relay 3 7) 0x21).trkMatch .A (txn 0x22 0 0 []) 0x21 ≠ none ∧
      gives (.relayResp .A (txn 0x22 0 0 [])) (lLive (.relay 3 7) 0x21) (fun t => t.link.live == []) = true := by
  decide +kernel

/-- Engine 0 waits for four bytes of module 9. -/
def lEngRead : State := (lLive (.engine 0) 1).setEng .A 0 ⟨[], none, none, [⟨9 * 2 ^ 44, 4, some 0, [], 0⟩]⟩

theorem witness_RemoteRequestsAndResponses_13 :
    lEngRead.trkMatch .A (txn 0x10 0 0 four) 1 ≠ none ∧ (lEngRead.eng .A 0).reads = [⟨9 * 2 ^ 44, 4, some 0, [], 0⟩] ∧
      gives (.readResp .A { (txn 0x10 0 0 four) with h3 := 1 }) lEngRead (fun t => t.link.live == [] &&
        (t.eng .A 0).reads == [⟨9 * 2 ^ 44, 4, none, [0, 0, 0x80, 0x3F], 1⟩]) = true := by
  decide +kernel

theorem witness_RemoteRequestsAndResponses_14 :
    (lLive .ping 0x23).trkMatch .A (txn 0x24 0 0 []) 0x23 ≠ none ∧
      gives (.pingResp .A (txn 0x24 0 0 [])) (lLive .ping 0x23) (fun t => t.rd F.LINK_PING_DONE == 1 && t.link.live == []) = true := by
  decide +kernel

theorem witness_RemoteRequestsAndResponses_15 :
    lUp.link.groups = [] ∧ idle (.writeGroupTimeout .A 7) lUp = true ∧
      gives (.wdone .A tDone) lUp (fun t => t.rd (lf F.TRK_COUNTS_LATE_DROP .A) == 1) = true := by
  decide +kernel

theorem witness_RemoteRequestsAndResponses_16 :
    gives (.writeGroupTimeout .A 7) (lGroup 2) (fun t => t.link.groups == [] && t.rd (lf F.LINK_CORE_ERR_CAUSE .A) == 1) = true := by
  decide +kernel

theorem witness_RemoteRequestsAndResponses_17 :
    gives (.wdone .A tDone) (lGroup 1) (fun t => t.link.groups == []) = true ∧
      gives (.wdone .A tDone) (lGroup 2) (fun t => t.link.groups.map (·.count) == [1]) = true := by
  decide +kernel

theorem witness_RemoteRequestsAndResponses_18 :
    lUp.rd (F.LINK_ADMIT_ALLOW.i 6) = 0 ∧ idle (.linkMarkReceive 6 0 0) lUp = true ∧ lUp.rd (F.LINK_ADMIT_ALLOW.i 5) = 1 := by
  decide +kernel

theorem witness_RemoteRequestsAndResponses_19 :
    gives (.ping 3 (txn 0x23 0 0 [])) lUp (fun t => t.mem == []) = true ∧ lUp.mayWrite su F.LINK_PING_START ∧
      gives (.linkPingStart su 9) lUp (fun t => t.rd F.LINK_PING_TARGET == 9 && t.rd F.LINK_PING_DONE == 0) = true := by
  decide +kernel

theorem witness_RemoteRequestsAndResponses_20 :
    lUp.mayWrite su F.LINK_RELAY_KEY_CMD_COMMIT ∧
      gives (.linkRelayKeyCommit su) (put lUp [(F.LINK_RELAY_KEY_KEY.i 3, 5)]) (fun t => t.link.relayKey == 5 * 2 ^ 192 + 1 &&
        t.rd (F.LINK_RELAY_KEY_KEY.i 3) == 0) = true := by
  decide +kernel

/-- RELAY from the steward, module 5. -/
def tRelay : Txn := { (txn 0x20 0 0 (List.replicate 24 0)) with aux := 0 }

def lRelay (last : Option Nat) : State :=
  let s := put lUp [(F.LINK_CTRL_RELAY_EN, 1), (F.LINK_STEWARD_VALID, 1), (F.LINK_STEWARD_INDEX, 5)]
  { s with link := { s.link with relayKey := 1, relaySeq := last } }

/-- Slot 2: module 0 and 1, one element, in HBM; its context 5 may reach it. -/
def cSlot (st : Nat) : State :=
  let s := put (cAt []) [(cf F.COLL_MEMBERS_MASK 2, 3), (cf F.COLL_COUNT_N 2, 1), (cf F.COLL_CTRL_CTX 2, 5), (cf F.COLL_DST_ADDR 2, 0x100),
    (cf F.COLL_CTRL_OP 2, 1), (cf F.COLL_CTRL_STATE 2, st), (cf F.COLL_CTRL_COLL_ID 2, 77)]
  if st = 1 then { s with link := { s.link with armed := [2] } } else s

def sSeg : Seg := ⟨1, 77, false, 1, 0, 1, 0, 1, 3, 0, 0, [0x3F800000], []⟩

/-- The slot's state with port 3 up. -/
def cUp (st : Nat) : State := put (cSlot st) [(pf F.LPORT_STATUS_STATE 3, 2), (pf F.BLK_CTRL_ENABLE 3, 1)]

theorem witness_RelaysTimeoutsAndCollectives_1 :
    (lRelay (some 8)).relayOk tRelay true 8 = false ∧ (lRelay (some 8)).aged tRelay = false ∧
      gives (.relay 3 tRelay true 8) (lRelay (some 8)) (fun t => t.rd F.LINK_RELAY_COUNT_DROPPED == 1) = true := by
  decide +kernel

theorem witness_RelaysTimeoutsAndCollectives_2 :
    idle (.relay 3 { tRelay with dest := 9 } true 9) (lRelay none) = true := by
  decide +kernel

theorem witness_RelaysTimeoutsAndCollectives_3 :
    (lRelay (some 8)).relayOk tRelay true 9 = true ∧ (carriedOf (tRelay.data.map BitVec.toNat)).bad = true ∧
      (lRelay (some 8)).carriedHeld (carriedOf (tRelay.data.map BitVec.toNat)) 0 = false ∧
      gives (.relay 3 tRelay true 9) (lRelay (some 8)) (fun t => t.link.relaySeq == some 9 && t.rd F.LINK_RELAY_COUNT_RELAYED == 1) = true := by
  decide +kernel

/-- A relayed SUBMIT of a key whose domain 1 an epoch fence holds. -/
def tHold : Txn := { tRelay with data := [6, 4] ++ List.replicate 22 0, aux := 0x20000 }

def lHold : State :=
  let s := put (lRelay none) [(F.HKEY_CFG_DOMAIN.i 4, 1), (F.PROT_EPOCH_STATUS_PENDING, 1)]
  { s with work := { s.work with changed := [1] } }

theorem witness_RelaysTimeoutsAndCollectives_4 :
    lHold.portUp 3 = true ∧ lHold.aged tHold = false ∧ lHold.relayOk tHold true 1 = true ∧
      lHold.carriedHeld (carriedOf (tHold.data.map BitVec.toNat)) tHold.aux.toNat = true ∧
      gives (.relay 3 tHold true 1) lHold (fun t => t.link.relaySeq == some 1 && t.work.heldRelays == [(3, tHold)] &&
        t.outbox == []) = true := by
  decide +kernel

theorem witness_RelaysTimeoutsAndCollectives_5 :
    idle (.trackerTimeout .B 0) (lLive (.core 0) 1) = true ∧
      gives (.trackerTimeout .A 0) (lLive (.core 0) 1) (fun t => t.link.live == [] && t.rd (lf F.TRK_LAST_CAUSE .A) == 1) = true := by
  decide +kernel

theorem witness_RelaysTimeoutsAndCollectives_6 :
    idle (.relayTimeout 3 7) (lLive (.core 0) 1) = true ∧
      gives (.relayTimeout 3 7) (lLive (.relay 3 7) 0x20) (fun t => t.link.live == []) = true := by
  decide +kernel

theorem witness_RelaysTimeoutsAndCollectives_7 :
    (cSlot 0).mayWrite su (cf F.COLL_CTRL_ARM 2) ∧ (cSlot 0).armIgnored 2 = false ∧ (cSlot 0).collMay 2 = true ∧
      gives (.collArm su 2) (cSlot 0) (fun t => t.collState 2 == 1 && t.link.armed == [2]) = true := by
  decide +kernel

theorem witness_RelaysTimeoutsAndCollectives_8 :
    (put (cSlot 0) [(cf F.COLL_CTRL_OP 2, 3)]).armIgnored 2 = true ∧ idle (.collArm su 2) (put (cSlot 0) [(cf F.COLL_CTRL_OP 2, 3)]) = true := by
  decide +kernel

theorem witness_RelaysTimeoutsAndCollectives_9 :
    (cSlot 1).collState 2 = 1 ∧ (cSlot 1).rd (cf F.COLL_CTRL_SIG_ON_ERR 2) = 0 ∧
      gives (.collAbort su 2) (cSlot 1) (fun t => t.collState 2 == 4 && t.link.armed == []) = true ∧
      idle (.collAbort su 2) (cSlot 3) = true := by
  decide +kernel

theorem witness_RelaysTimeoutsAndCollectives_10 :
    (cSlot 0).link.armed.find? (fun m => (cSlot 0).collReady m) ≠ some 2 ∧ idle (.collSlotStart 2) (cSlot 0) = true := by
  decide +kernel

theorem witness_RelaysTimeoutsAndCollectives_11 :
    4 ≤ (put (cSlot 1) ([3, 4, 5, 6].map (fun n => (cf F.COLL_CTRL_STATE n, 2)))).collRunning ∧
      idle (.collSlotStart 2) (put (cSlot 1) ([3, 4, 5, 6].map (fun n => (cf F.COLL_CTRL_STATE n, 2)))) = true := by
  decide +kernel

theorem witness_RelaysTimeoutsAndCollectives_12 :
    (cSlot 1).link.armed = [2] ∧ (cSlot 1).collReady 2 = true ∧ (cSlot 1).collRunning < 4 ∧ 2 ≤ (cSlot 1).collP 2 ∧ (cSlot 1).collPos 2 = 0 ∧
      (cSlot 1).rd (cf F.COLL_CTRL_DIRS 2) = 0 ∧ ((cSlot 1).collSlot 2).inbox = [] ∧ ((cSlot 1).collSlot 2).sendq = [] ∧
      gives (.collSlotStart 2) (cSlot 1) (fun t => t.collState 2 == 2 && t.link.armed == []) = true := by
  decide +kernel

theorem witness_RelaysTimeoutsAndCollectives_13 :
    (cUp 0).portUp 3 = true ∧ (cUp 0).collFind 77 = none ∧ idle (.collSeg 3 sSeg) (cUp 0) = true := by
  decide +kernel

theorem witness_RelaysTimeoutsAndCollectives_14 :
    (cUp 1).portUp 3 = true ∧ (cUp 1).collFind 77 = some 2 ∧ (cUp 1).segSame 2 { sSeg with op := 0 } = false ∧
      sSeg.age.toNat < (cUp 1).ageLimit ∧
      gives (.collSeg 3 { sSeg with op := 0 }) (cUp 1) (fun t => t.collState 2 == 4 && t.rd (cf F.COLL_CTRL_ERR 2) == 3) = true := by
  decide +kernel

theorem witness_RelaysTimeoutsAndCollectives_15 :
    (cUp 1).ageLimit ≤ ({ sSeg with age := 255 } : Seg).age.toNat ∧
      gives (.collSeg 3 { sSeg with age := 255 }) (cUp 1) (fun t => t.rd (lf F.TRK_COUNTS_AGED .A) == 1) = true := by
  decide +kernel

theorem witness_RelaysTimeoutsAndCollectives_16 :
    (cUp 1).segSame 2 sSeg = true ∧ 1 = (cUp 1).collPrev 2 false ∧ ((cUp 1).collRuns 2).contains false = true ∧ 1 ≤ (cUp 1).collSteps 2 ∧
      gives (.collSeg 3 sSeg) (cUp 1) (fun t => (t.collSlot 2).inbox == [sSeg]) = true := by
  decide +kernel

theorem witness_RelaysTimeoutsAndCollectives_17 :
    idle (.collCredit 2 false 9) (cSlot 0) = true ∧
      gives (.collCredit 2 true 9) (cSlot 1) (fun t => Sparse.get (fun _ => 0) (t.collSlot 2).credits 1 == 9) = true := by
  decide +kernel

theorem witness_RelaysTimeoutsAndCollectives_18 :
    (put (cSlot 2) [(cf F.COLL_PROG_STEP 2, 1)]).collSteps 2 = 1 ∧
      gives (.collSlotDone 2) (put (cSlot 2) [(cf F.COLL_PROG_STEP 2, 1)]) (fun t => t.collState 2 == 3) = true ∧
      gives (.collSlotTimeout 2) (cSlot 2) (fun t => t.collState 2 == 4 && t.rd (cf F.COLL_CTRL_ERR 2) == 1) = true := by
  decide +kernel

/-! ### The host port -/

/-- The link is up, start-up has ended and both transports are on. -/
def nUp : State := put hMem [(F.SYS_BOOT_STATE, 2), (F.HOSTP_STATUS_STATE, 2), (F.HOSTP_CFG_L2_EN, 1), (F.HOSTP_CFG_MTU, 9000),
  (F.HOSTP_PFC_RX_EN, 8), (F.HOSTP_IP6_LO_ADDR, 7), (F.PTP_CFG_EN, 1), (F.PTP_STATUS_STATE, 1), (F.BRYN_CTRL_EN, 1)]

def nSt (st : Nat) : State := put nUp [(F.HOSTP_STATUS_STATE, st)]

def nQ : State := { nUp with host := { nUp.host with rxq := [(3, 64)] } }

def nPtp (st good : Nat) : State :=
  let s := put nUp [(F.PTP_STATUS_STATE, st)]
  { s with host := { s.host with ptpGood := good } }

theorem witness_HostPortLinkFlowAndTime_1 :
    (nSt 0).hostOn = true ∧ (nSt 0).rd F.HOSTP_STATUS_STATE = 0 ∧
      gives (.hostPrsntChange true) (nSt 0) (fun t => t.rd F.HOSTP_STATUS_STATE == 1 && t.host.present) = true := by
  decide +kernel

theorem witness_HostPortLinkFlowAndTime_2 :
    nUp.rd F.HOSTP_STATUS_STATE = 2 ∧
      gives (.hostPrsntChange false) nUp (fun t => t.rd F.HOSTP_STATUS_STATE == 0 && bitOf (t.rd (errStatus 0xA8)) 0) = true ∧
      gives .hostLinkDrop nUp (fun t => t.rd F.HOSTP_STATUS_MODE == 3 && t.rd F.HOSTP_STATUS_STATE == 0) = true ∧
      idle .hostLinkDrop (nSt 1) = true := by
  decide +kernel

theorem witness_HostPortLinkFlowAndTime_3 :
    (nSt 1).rd F.HOSTP_STATUS_STATE = 1 ∧ (nSt 1).hostModeMax ≤ 2 ∧
      gives (.hostLinkTrainingDone 2 0xFF) (nSt 1) (fun t => t.rd F.HOSTP_STATUS_STATE == 2 && t.rd F.HOSTP_STATUS_MODE == 2 &&
        t.rd F.HOSTP_STATUS_LANES_GOOD == 0xFF) = true ∧ idle (.hostLinkTrainingDone 2 0xFF) nUp = true := by
  decide +kernel

theorem witness_HostPortLinkFlowAndTime_4 :
    gives (.ethFrameReceive 9000 3 false none 0x86DD .other 2) nUp (fun t => t.rd F.HOSTP_ERR_COUNT_FCS == 1 &&
      t.rd F.HOSTP_ERR_COUNT_FEC_UNCORR == 2) = true := by
  decide +kernel

theorem witness_HostPortLinkFlowAndTime_5 :
    9000 ≤ nUp.rd F.HOSTP_CFG_MTU ∧ nUp.etypeServed 0x86DD = true ∧ nUp.rxBytes + 9000 ≤ 4194304 ∧
      nUp.ip6 ≠ 0 ∧ nUp.ip6Served (.icmp 128) = true ∧ nUp.ip6Served .other = false ∧
      gives (.ethFrameReceive 64 3 true none 0x86DD .other 0) nUp (fun t => t.host == nUp.host) = true ∧
      gives (.ethFrameReceive 9000 3 true none 0x86DD (.icmp 128) 0) nUp (fun t => t.host.rxq == [(3, 9000)] && t.rd F.HOSTP_RX_FRAMES_COUNT == 1) = true := by
  decide +kernel

theorem witness_HostPortLinkFlowAndTime_6 :
    gives (.pfcPauseReceive 3 true) nUp (fun t => bitOf t.host.paused 3) = true ∧
      gives (.pfcPauseReceive 3 false) { nUp with host := { nUp.host with paused := 8 } } (fun t => t.host.paused == 0) = true := by
  decide +kernel

theorem witness_HostPortLinkFlowAndTime_7 :
    (8 : BitVec 128).toNat ≠ nQ.ip6 ∧ gives (.icmpv6Request true 8 []) nQ (fun t => t.host.rxq == [] && t.outbox == []) = true ∧
      nQ.hostServes = true ∧ nQ.ip6 = 7 ∧ gives (.icmpv6Request true 7 [1]) nQ (fun t => t.outbox.length == 1) = true := by
  decide +kernel

theorem witness_HostPortLinkFlowAndTime_8 :
    gives (.ptpEventMessage true false 0 0 0) (put nUp [(F.PTP_TIME_TAI_NS, 77)]) (fun t => t.host.ptpOut == 77) = true ∧
      gives (.ptpEventMessage false false 0 0 0) (put nUp [(F.PTP_TIME_TAI_NS, 77)]) (fun t => t.host.ptpIn == 77) = true ∧
      gives (.ptpEventMessage false false 0 0 0) nQ (fun t => t.host.rxq == []) = true ∧ nUp.on F.PTP_CFG_EN = true ∧
      0 = nUp.rd F.PTP_CFG_DOMAIN ∧ 100 ≤ (-100 : BitVec 32).toInt.natAbs ∧
      gives (.ptpEventMessage false true 0 (-100) 0) nUp (fun t => t.rd F.PTP_STATUS_STATE == 2 && t.host.ptpGood == 0) = true := by
  decide +kernel

theorem witness_HostPortLinkFlowAndTime_9 :
    (nPtp 2 15).host.ptpGood = 15 ∧ (-99 : BitVec 32).toInt.natAbs < 100 ∧
      gives (.ptpEventMessage false true 0 (-99) 0) (nPtp 2 15) (fun t => t.rd F.PTP_STATUS_STATE == 3) = true := by
  decide +kernel

theorem witness_HostPortLinkFlowAndTime_10 :
    (nPtp 3 0).rd F.PTP_STATUS_STATE = 3 ∧
      gives .ptpSyncTimeout (nPtp 3 0) (fun t => t.rd F.PTP_STATUS_STATE == 4 && bitOf (t.rd (errStatus 0xA8)) 2) = true := by
  decide +kernel

/-- An INIT at L0, and a host key table whose entry 2 holds its key. -/
def qInit : InitReq := ⟨5, false, 0, 0, List.replicate 3401 0, []⟩

/-- Entry 2 of the host key table is in use, for L0, and its domain 6. -/
def nKeyB : State := base [(F.SYS_BOOT_STATE, 2), (F.HOSTP_STATUS_STATE, 2), (F.HOSTP_CFG_L2_EN, 1), (F.BRYN_CTRL_EN, 1), (F.HKEY_CFG_VALID.i 2, 1), (F.HKEY_CFG_DOMAIN.i 2, 6)]

/-- The same with the digest of its key. -/
def nKey (a b c d : Word) : State :=
  (((nKeyB.setReg (F.HKEY_HASH_HASH.ij 2 0).key a).setReg (F.HKEY_HASH_HASH.ij 2 1).key b).setReg
    (F.HKEY_HASH_HASH.ij 2 2).key c).setReg (F.HKEY_HASH_HASH.ij 2 3).key d

theorem nKey_reg (a b c d : Word) (k : Nat) (h : ∀ w < 4, k ≠ (F.HKEY_HASH_HASH.ij 2 w).key) : (nKey a b c d).reg k = nKeyB.reg k := by
  simp only [nKey]
  rw [State.reg_setReg_ne _ _ _ _ (h 3 (by decide)), State.reg_setReg_ne _ _ _ _ (h 2 (by decide)),
    State.reg_setReg_ne _ _ _ _ (h 1 (by decide)), State.reg_setReg_ne _ _ _ _ (h 0 (by decide))]

theorem nKey_rd (a b c d : Word) (f : Field) (h : ∀ w < 4, f.key ≠ (F.HKEY_HASH_HASH.ij 2 w).key) : (nKey a b c d).rd f = nKeyB.rd f := by
  simp only [State.rd, nKey_reg a b c d _ h]

theorem nKey_hash (a b c d : Word) : (List.range 4).map (fun w => (nKey a b c d).rd (F.HKEY_HASH_HASH.ij 2 w)) =
    [a.toNat, b.toNat, c.toNat, d.toNat] := by
  have e : ∀ (w : Nat) (x : Word), (F.HKEY_HASH_HASH.ij 2 w).get x = x.toNat := by
    intro w x; simp [Field.get, Field.ij, F.HKEY_HASH_HASH, Field.width]
  have r : (List.range 4) = [0, 1, 2, 3] := rfl
  simp only [r, List.map, State.rd, e]
  simp [nKey, State.reg_setReg, Field.key, Field.ij, F.HKEY_HASH_HASH]

theorem nKey_admits (p : List Nat) (a b c d : Word) (hp : byteAt p 0 % 4 = 0)
    (h : digestWords (keyDigest (imgBytes p 40 1793)) = [a.toNat, b.toNat, c.toNat, d.toNat]) :
    (nKey a b c d).admission p = .inr (2, 6) := by
  have v : ∀ k < 16, (nKey a b c d).hkeyValid k = nKeyB.hkeyValid k := by
    intro k hk
    simp only [State.hkeyValid, State.on]
    rw [nKey_rd, nKey_rd]
    · revert k; decide +kernel
    · revert k; decide +kernel
  have all : (List.range 16).all (fun k => !(nKey a b c d).hkeyValid k) = false := by
    rw [List.all_eq_false]
    refine ⟨2, by decide, ?_⟩
    rw [v 2 (by decide)]; decide
  have key : (nKey a b c d).hkeyOf (keyDigest (imgBytes p 40 1793)) = some 2 := by
    have r : List.range 16 = [0, 1, 2] ++ [3, 4, 5, 6, 7, 8, 9, 10, 11, 12, 13, 14, 15] := rfl
    have z0 : nKeyB.hkeyValid 0 = false := by decide +kernel
    have z1 : nKeyB.hkeyValid 1 = false := by decide +kernel
    have z2 : nKeyB.hkeyValid 2 = true := by decide +kernel
    simp [State.hkeyOf, r, v, z0, z1, z2, h, nKey_hash, List.find?]
  have m : (nKey a b c d).rd (F.HKEY_CFG_MAX_LEVEL.i 2) = 0 := by rw [nKey_rd]; decide +kernel; decide
  have dm : (nKey a b c d).rd (F.HKEY_CFG_DOMAIN.i 2) = 6 := by rw [nKey_rd]; decide +kernel; decide
  simp [State.admission, all, key, m, dm, hp]

theorem qInit_digest : ∃ a b c d : Word, digestWords (keyDigest (imgBytes (qInit.payload.map BitVec.toNat) 40 1793)) =
    [a.toNat, b.toNat, c.toNat, d.toNat] :=
  ⟨_, _, _, _, rfl⟩

/-- A Falcon-1024 public key whose polynomial is the constant 113. -/
def weakKey : List Nat := [0x0A, 0x01, 0xC4] ++ List.replicate 1790 0

/-- Under that key, for 64 zeros: salt 0, each s2 the rounded quotient of the point by 113. -/
def sigT : List Nat := leBytes 1193 0x55138608d3b2e18e0e0da3aecdd83364961721871c5c3bf565c79611aaa62cbaa14b93317da2ee5c32a0e0cca1591a0e6c3aa56b80b01f73acc97aa56a8db65f4b0ce85165e196360be3845cb1a3c1d2a61bfe3e2d59a0668ba903ee963c52e5408a1e15b7aeb839364180ae092b2e98b92066cd923f53be9c72b46195995956a65db1b266cc872d676cadd2b3678b8e537334bd52f54b803455077c5d9272e597a52b337c2d19a6ecda936f97f698337464d1862907bedcd1a1e193317942cccc1171ccd0af2d6f3e98f2e445cd8a5573c6497124c6882b598ff678f9b562d62c6dbe8408fb61eb8f2e0baf161c72f36c983021920e5839674fc69137be56e993a6648ca069c60ea892a5e8c10759463c68baa4609113173fd42d72f1c9911d279ade5858b5c5d1b42522ec18f93645c82b4d4f4cec9ab6c1c83039d23e4838f66e8d0b070f460813a644dd0101a266481aa5ebca2363e68ec91ae54ae01e4ff276acf932c5c69825878658dae16ece84759b6e5999a764850127e21c7811a74981a1419f6eb852e247d20a0b974eb91a77e08c2535330679512366d90805c36c281b33e196983587343d53714acf98238a161c7920ce8b180fa784885164ee97b84d672498d8a0ec8594136236d87234e7c2837b4f1e89d97045c41a618f2ed853b4e7803b138b7e4dd9a2caca9c1357740810f447c137131606f970b4e0cd28155e3eb8f1b2488cb70543943c3a3743870a53979c3959b5e4d084693f9c193273eccf28273776c8b0b3c18e9451563c8ddbb3c3d7121d4f7e9c78e74bd28a4d8ab49c38a66b8ab83b6afc9cfb264bc88c2bdece3d31e1e6ca1f2f5a3c1c1bf2e386904d6a26c851e34bd2933d4e8ed839e665cd15218f147c1831ced6a52bee1e485075479ab637266e5cd872e0d1b649930c6df071c28210652f5c8d98a1e882072fd2242d39a4448d964993fc0c33a6c08c274d0a2e8c71734982a309b26e1cb126458396572e54ccd271e78ab215a366bddb704584853187c4383020c6d49819c3a688b9b2458e266f82962d326169d50539be3e99d936638d0b1ba384b890f142ca27171a0eae1373408b183f1bbc38183142c307356326a9d2e5c0d92e197faeb93370cbc60c377a3c191af160da23530624c932e6e486992b86a4a8d1a0e390ab23a37c78b222e494b949d2c4e959a040d8a13b1284983a61ed8d851d6efed852e3cdc32b252eb6b89264429b32615f76c83121c8850207b3d4e850226bcc9b0d37b4cc5aa066931e1b67c6385263ec879f3da6462df97244d9ae5593b6ec39e1c4cb9649da26ad5924638f190f4624c97874478819619bdeb8bb33c38a8b615796cc9861cc88ad4f7a9c38f0f5e894372d124cfd51e4ed81175536b66810f565ca3733964c2cb3a54b89953723cc9950e3c48bb72f2aee98b02269da2b49af54bd7072e38b890b6ecc9db2f244cb8d53be4e699824c4830901f234e990e2c2cf144d96cc08faf5c18d841d1f3c49517048c3972f2b6c8d30736685b455e7047970e4edcf04077a6c3df8e042d109339e4e6d93e0e89c8e777f7e58793249cca5519a66a9b2e4468d1c019e1cec32b1eb9a8d17a7be1d5975e185a1000000000000000000000000000000000000000000000000000000000000000000000000000000003a

/-- The payload of a CONFIRM with a signature. -/
def confirmOf (sig : List Nat) : List (BitVec 8) := (sigField 1193 sig).map (BitVec.ofNat 8)

def nShake : Shake := ⟨1, 3, .L1, 0, 0, 5, false, 0, weakKey, List.replicate 64 0, [], 0⟩

def nHand : State := { nUp with host := { nUp.host with shake := some nShake } }

/-- Session 4 is open, its generation 3; one frame of its own waits for an ACK, and one of the host's for its ACK. -/
def nSess (g : Session → Session) : State := nUp.setSess 4 (g { Session.init with
  open_ := true, state := 2, gen := 3, level := .L0, keys := List.replicate 72 0 })

/-- A frame of SESSION 0x304 as the host sends it over Ethernet, under session keys of zeros. -/
def bFrame (typ sub : Nat) (unseq : Bool) (ack : Nat) (payload : List Nat) : BFrame :=
  ⟨false, 0, (brynSeal (List.replicate 72 0) 0 ⟨0x304, typ, sub, false, unseq, 0, ack, 0, 0, 7⟩ payload).map (BitVec.ofNat 8)⟩

def bFr : BFrame := bFrame 3 0 false 0 (List.replicate 16 0)

def bAck : BFrame := bFrame 1 5 true 8 []

/-- The same frame with VER 2. -/
def bVer : BFrame := ⟨false, 0, bFr.bytes.set 3 0x20⟩

def txF (seq tries : Nat) : TxFrame := ⟨seq, 3, 0, [], tries, 0, false⟩

def rClose : HRec := ⟨1, 0, 0, 0, [], false, 0, true⟩

theorem witness_SessionsOpenAckAndClose_1 :
    nUp.rd F.HOSTP_STATUS_STATE = 2 ∧ nUp.transportOn false 0 = true ∧ nUp.rxTake.initRefused { qInit with payload := [] } = some 6 ∧
      gives (.init { qInit with payload := [] }) nUp (fun t => t.host.refused.length == 1 && t.host.shake == none) = true := by
  decide +kernel

theorem witness_SessionsOpenAckAndClose_init : ∃ s : State, s.rd F.HOSTP_STATUS_STATE = 2 ∧ s.transportOn false 0 = true ∧
    s.host.shake = none ∧ s.admission (qInit.payload.map BitVec.toNat) = .inr (2, 6) := by
  obtain ⟨a, b, c, d, h⟩ := qInit_digest
  refine ⟨nKey a b c d, ?_, ?_, rfl, nKey_admits _ a b c d (by decide +kernel) h⟩
  · rw [nKey_rd _ _ _ _ _ (by decide +kernel)]; decide +kernel
  · simp only [State.transportOn, State.on]
    rw [if_neg (by decide), nKey_rd _ _ _ _ _ (by decide +kernel)]; decide +kernel

theorem witness_SessionsOpenAckAndClose_2 :
    nKeyB.rxTake.initRefused qInit = none ∧ nKeyB.freeSlot = some 0 := by
  decide +kernel

theorem witness_SessionsOpenAckAndClose_3 :
    idle (.confirm 0x301 []) nUp = true ∧ (0x301 : BitVec 16).toNat = nShake.gen * 256 + nShake.slot ∧ nHand.host.queue = [] ∧
      confirmFormatOk ((confirmOf sigT).map BitVec.toNat) = true ∧
      gives (.confirm 0x301 []) nHand (fun t => !(t.sess 1).open_ && t.host.shake == none) = true := by
  decide +kernel

theorem witness_SessionsOpenAckAndClose_4 :
    nShake.confirmed ((confirmOf sigT).map BitVec.toNat) = true := by
  decide +kernel

theorem witness_SessionsOpenAckAndClose_5 :
    gives (.confirm 0x301 (confirmOf sigT)) nHand (fun t => (t.sess 1).open_ && (t.sess 1).level == .L1 && t.host.shake == none) = true := by
  decide +kernel

theorem witness_SessionsOpenAckAndClose_6 :
    idle .handshakeTimeout nUp = true ∧ gives .handshakeTimeout nHand (fun t => t.host.shake == none) = true := by
  decide +kernel

theorem witness_SessionsOpenAckAndClose_7 :
    frameBad (rawOf bVer) = true ∧ frameBad (rawOf bFr) = false ∧ gives (.brynirFrameReceive bVer) nUp (fun t => t.rd F.BRYN_COUNTS_AUTH_FAIL == 1) = true := by
  decide +kernel

theorem witness_SessionsOpenAckAndClose_8 :
    headOf (rawOf bFr) = ⟨0x304, 3, 0, false, false, 0, 0, 0, 0, 7⟩ ∧ ((nSess id).sess 4).tagOk (rawOf bFr) = true ∧ (nSess id).sessOf 0x304 = some 4 ∧ ((nSess id).sess 4).txcOld 7 = false ∧ ((nSess id).sess 4).rxAck = 0 ∧
      ((nSess id).sess 4).rxHeld = [] ∧ ((nSess id).sess 4).unacked = [] ∧ ((nSess id).sess 4).sendq = [] ∧ ((nSess id).sess 4).ackDue < 15 ∧
      gives (.brynirFrameReceive bFr) (nSess id) (fun t => (t.sess 4).rxAck == 1 && (t.sess 4).recs.length == 1) = true := by
  decide +kernel

theorem witness_SessionsOpenAckAndClose_9 :
    frameBad (rawOf bAck) = false ∧ headOf (rawOf bAck) = ⟨0x304, 1, 5, false, true, 0, 8, 0, 0, 7⟩ ∧ 8 ≤ ((nSess (fun x => { x with txSeq := 9, unacked := [txF 7 0, txF 8 0] })).sess 4).txSeq ∧
      gives (.sessionAck bAck) (nSess (fun x => { x with txSeq := 9, unacked := [txF 7 0, txF 8 0] })) (fun t =>
        (t.sess 4).unacked.map (·.seq) == [8]) = true := by
  decide +kernel

theorem witness_SessionsOpenAckAndClose_10 :
    gives (.ackDelayExpire 4) (nSess (fun x => { x with ackDue := 1 })) (fun t => (t.sess 4).ackDue == 0 && (t.sess 4).txc == 1) = true ∧
      idle (.ackDelayExpire 4) (nSess id) = true := by
  decide +kernel

theorem witness_SessionsOpenAckAndClose_11 :
    0 < (nSess id).retries ∧ gives (.retransmitTimeout 4 7) (nSess (fun x => { x with unacked := [txF 7 0] })) (fun t =>
        (t.sess 4).unacked.map (·.tries) == [1]) = true ∧
      (nSess id).retries ≤ 15 ∧ gives (.retransmitTimeout 4 7) (nSess (fun x => { x with unacked := [txF 7 15] })) (fun t =>
        (t.sess 4).state == 4) = true := by
  decide +kernel

theorem witness_SessionsOpenAckAndClose_12 :
    gives (.sessionIdleTimeout 4) (nSess id) (fun t => !(t.sess 4).open_ && (t.sess 4).state == 0) = true ∧
      idle (.sessionIdleTimeout 4) nUp = true := by
  decide +kernel

theorem witness_SessionsOpenAckAndClose_13 :
    (nSess id).frontRec 4 1 = none ∧ idle (.sessionClose 4) (nSess id) = true ∧
      (nSess (fun x => { x with recs := [rClose] })).frontRec 4 1 = some rClose ∧
      gives (.sessionClose 4) (nSess (fun x => { x with recs := [rClose] })) (fun t => !(t.sess 4).open_) = true := by
  decide +kernel

theorem witness_SessionsOpenAckAndClose_14 :
    (nSess id).mayWrite su F.HSESS_CMD_CMD ∧ (((nSess id).setSel su F.HSESS_SEL_SLOT.key 4).sess
        (((nSess id).setSel su F.HSESS_SEL_SLOT.key 4).selSess su)).open_ = true ∧
      gives (.hsessCmdClose su) ((nSess id).setSel su F.HSESS_SEL_SLOT.key 4) (fun t => (t.sess 4).state == 4) = true := by
  decide +kernel

/-- Session 4 with a record in front. -/
def nRec (typ w0 w1 : Nat) (data : List Nat) : State := nSess (fun x => { x with recs := [⟨typ, w0, w1, 0, data, false, 0, true⟩] })

def rcd (typ w0 w1 : Nat) (data : List Nat) : HRec := ⟨typ, w0, w1, 0, data, false, 0, true⟩

/-- A record of one register word, and of eight bytes at 0x78. -/
def w0Reg : Nat := 5 + 2 ^ 24

def w0Dat : Nat := 5 + 7 * 2 ^ 16

theorem witness_SessionRecordsRun_1 :
    (nSess id).frontRec 4 3 = none ∧ idle (.regRead 4) (nSess id) = true ∧ idle (.dataWrite 4) (nSess id) = true := by
  decide +kernel

theorem witness_SessionRecordsRun_2 :
    (nSess (fun x => { x with recs := [{ (rcd 3 0 0 []) with bad := true }] })).frontRec 4 3 ≠ none ∧
      gives (.regRead 4) (nSess (fun x => { x with recs := [{ (rcd 3 0 0 []) with bad := true }] })) (fun t => (t.sess 4).recs == [] &&
        (t.sess 4).unacked.length == 1) = true := by
  decide +kernel

theorem witness_SessionRecordsRun_3 :
    (nRec 4 w0Reg 0xF0000020100 [5, 0, 0, 0, 0, 0, 0, 0]).recReady 4 4 (rcd 4 w0Reg 0xF0000020100 [5, 0, 0, 0, 0, 0, 0, 0]) ∧
      leavesPage 4 w0Reg 0xF0000020100 = false ∧ nUp.relayed w0Reg = false ∧ ((nSess id).sess 4).tags = [] ∧
      gives (.regWrite 4) (nRec 4 w0Reg 0xF0000020100 [5, 0, 0, 0, 0, 0, 0, 0]) (fun t =>
        t.sel ⟨.host 4, .L0⟩ F.CTX_SEL_ID.key == 5 && (t.sess 4).recs == []) = true := by
  decide +kernel

theorem witness_SessionRecordsRun_4 :
    (nRec 7 w0Dat (9 * 2 ^ 44) [1, 2, 3, 4, 5, 6, 7, 8]).recReady 4 7 (rcd 7 w0Dat (9 * 2 ^ 44) [1, 2, 3, 4, 5, 6, 7, 8]) ∧
      (nRec 7 w0Dat (9 * 2 ^ 44) []).dataStatus 4 rightW (9 * 2 ^ 44) 8 ≠ 0 ∧
      (nRec 8 w0Dat (9 * 2 ^ 44) []).dataStatus 4 rightR (9 * 2 ^ 44) 8 ≠ 0 ∧
      gives (.dataWrite 4) (nRec 7 w0Dat (9 * 2 ^ 44) [1, 2, 3, 4, 5, 6, 7, 8]) (fun t => t.mem == [] && (t.sess 4).recs == []) = true := by
  decide +kernel

theorem witness_SessionRecordsRun_5 :
    (nRec 7 w0Dat 0x78 [1, 2, 3, 4, 5, 6, 7, 8]).recReady 4 7 (rcd 7 w0Dat 0x78 [1, 2, 3, 4, 5, 6, 7, 8]) ∧
      (nRec 7 w0Dat 0x78 [1, 2, 3, 4, 5, 6, 7, 8]).dataStatus 4 rightW 0x78 8 = 0 ∧ nUp.accHeld (.host 4) = false ∧
      gives (.dataWrite 4) (nRec 7 w0Dat 0x78 [1, 2, 3, 4, 5, 6, 7, 8]) (fun t => t.bytesAt 0x78 16 == 0x0807060504030201) = true := by
  decide +kernel

theorem witness_SessionRecordsRun_6 :
    (nRec 7 w0Dat 0xE1000000008 [1, 2, 3, 4, 5, 6, 7, 8]).recReady 4 7 (rcd 7 w0Dat 0xE1000000008 [1, 2, 3, 4, 5, 6, 7, 8]) ∧
      (nRec 7 w0Dat 0 []).dataReject 0xE1000000008 8 ((nRec 7 w0Dat 0 []).dataStatus 4 rightW 0xE1000000008 8) = some 1 ∧
      gives (.dataWrite 4) (nRec 7 w0Dat 0xE1000000008 [1, 2, 3, 4, 5, 6, 7, 8]) (fun t => t.rd F.SUB_LAST_REJECT_REASON == 1 &&
        t.mem == []) = true := by
  decide +kernel

theorem witness_SessionRecordsRun_7 :
    (nRec 8 w0Dat 0x78 []).respFits 4 8 = true ∧ (nRec 8 w0Dat 0x78 []).recReady 4 8 (rcd 8 w0Dat 0x78 []) ∧ w0Dat / 2 ^ 16 % 2 ^ 14 + 1 = 8 ∧
      (nRec 8 w0Dat 0x78 []).dataStatus 4 rightR 0x78 8 = 0 ∧ nUp.blockPoison 0 0x78 = false ∧
      gives (.dataRead 4) (nRec 8 w0Dat 0x78 []) (fun t => (t.sess 4).recs == [] && (t.sess 4).unacked.length == 1) = true := by
  decide +kernel

theorem witness_SessionRecordsRun_8 :
    (nRec 2 (5 + 2 ^ 16) 0 (List.replicate 32 0)).recReady 4 2 (rcd 2 (5 + 2 ^ 16) 0 (List.replicate 32 0)) ∧
      bitOf (5 + 2 ^ 16) 16 = true ∧ ¬ (nUp.rd F.FW_STATUS_STATE = 5 ∧ nUp.fw.unit = 0) ∧ bitOf 5 16 = false ∧
      (nRec 2 5 0 (List.replicate 32 0)).recReady 4 2 (rcd 2 5 0 (List.replicate 32 0)) ∧
      gives (.attest 4 [] 1) (nRec 2 (5 + 2 ^ 16) 0 (List.replicate 32 0)) (fun t => (t.sess 4).unacked.map (·.typ) == [2]) = true := by
  decide +kernel

def nMark (l : Level) (e : HRec) : State := nSess (fun x => { x with level := l, recs := [e] })

def rMark : HRec := rcd 0x0B 9 0 []

theorem witness_MarkFramesReachThePhaseUnit_1 :
    (nMark .L1 rMark).frontRec 4 0x0B = some rMark ∧ ((nMark .L1 rMark).sess 4).level ≠ .L2 ∧
      gives (.markFrame 4) (nMark .L1 rMark) (fun t => (t.sess 4).recs == [] && t.rd F.PHASE_COUNTS_DUP == 0) = true := by
  decide +kernel

theorem witness_MarkFramesReachThePhaseUnit_2 :
    (nMark .L2 rMark).frontRec 4 0x0B = some rMark ∧
      gives (.markFrame 4) (nMark .L2 rMark) (fun t => t.rd F.PHASE_COUNTS_DUP == 1) = true ∧
      gives (.markFrame 4) (nMark .L0 { rMark with inOrder := false }) (fun t => t.rd F.PHASE_COUNTS_DUP == 1) = true := by
  decide +kernel

/-! ### The power path -/

/-- A power mode with the FC running. -/
def wMode (n : Nat) : State := put State.reset [(F.PWR_STATUS_MODE, n), (F.FC_STATUS_STATE, 3), (F.BC_STATUS_STATE, 3)]

/-- Every condition of R24. -/
def wReady : State := put (wMode 1) [(F.PWR_CTRL_BUF_EN, 1), (F.PACK_STATUS_PRSNT, 1), (F.PACK_STATUS_HVIL, 1), (F.CHAIN_STATUS_RING, 1),
  (F.CHAIN_STATUS_UNITS, (wMode 1).units), (F.EST_STATUS_HELD, 1), (F.PACK_MEAS_SUM_V, 3000), (F.PACK_STATUS_STATE, 5),
  (F.PACK_STATUS_CONTACTOR, 2)]

def wHvil (m : Nat) : State := { wMode m with power := { (wMode m).power with hvilA := true, hvilB := true } }

def wDrain : State := { wMode 2 with power := { (wMode 2).power with stopPhase := 1 } }

theorem witness_BusLossReturnAndStops_1 :
    wReady.mode = 1 ∧ wReady.mayBuffer = true ∧ wReady.power.stopPhase = 0 ∧
      gives .enterBuffered wReady (fun t => t.rd F.PWR_STATUS_MODE == 2) = true ∧
      (wMode 1).mayBuffer = false ∧ idle .enterBuffered (wMode 1) = true := by
  decide +kernel

theorem witness_BusLossReturnAndStops_2 :
    (wMode 2).drawMode = true ∧ (wMode 2).mode ≠ 1 ∧ gives (.busOutOfRange true) (wMode 2) (fun t => t.mode == 4) = true := by
  decide +kernel

theorem witness_BusLossReturnAndStops_3 :
    (wMode 1).drawMode = false ∧ gives (.busOutOfRange true) (wMode 1) (fun t => t.power.stopPhase != 0) = true ∧
      gives (.busOutOfRange false) (put (wMode 1) [(rf F.RAIL_STATUS_STATE 0, 2)]) (fun t => t.power.stopPhase != 0 && t.railState 0 == 0) = true ∧
      idle (.busOutOfRange true) (wMode 0) = true := by
  decide +kernel

theorem witness_BusLossReturnAndStops_4 :
    (wHvil 2).drawMode = true ∧ gives (.hvilLoopOpen false) (wHvil 2) (fun t => t.mode == 4 && !t.power.hvilA) = true ∧
      (wHvil 1).mode = 1 ∧ gives (.hvilLoopOpen false) (wHvil 1) (fun t => t.power.stopPhase != 0) = true := by
  decide +kernel

theorem witness_BusLossReturnAndStops_5 :
    (wMode 0).mode = 0 ∧ gives (.hvilLoopOpen true) (wHvil 0) (fun t => !t.power.hvilB && t.power.hvilA) = true ∧
      gives (.hvilLoopClose false) (wMode 0) (fun t => t.power.hvilA) = true := by
  decide +kernel

theorem witness_BusLossReturnAndStops_6 :
    (wHvil 4).mode = 4 ∧ (wHvil 4).power.hvilA = true ∧ (wHvil 4).power.hvilB = true ∧ (wHvil 4).power.stopPhase = 0 ∧
      (wHvil 4).rd F.GR_CTRL_EN = 0 ∧ gives .busReturn (wHvil 4) (fun t => t.mode == 2 && t.power.pset == 0) = true ∧
      idle .busReturn (wMode 4) = true ∧ (put (wHvil 4) [(F.PWR_CTRL_FORCE_BUS_ONLY, 1)]).busOnlyDue = true ∧
      gives .busReturn (put (wHvil 4) [(F.PWR_CTRL_FORCE_BUS_ONLY, 1)]) (fun t => t.mode == 1) = true := by
  decide +kernel

theorem witness_BusLossReturnAndStops_7 :
    (wMode 2).mayWrite su F.PWR_CTRL_STOP ∧ gives (.pwrCtrlStop su) (wMode 2) (fun t => t.power.stopPhase == 1) = true := by
  decide +kernel

theorem witness_BusLossReturnAndStops_8 :
    wDrain.power.stopPhase = 1 ∧ gives .stopDrainEnd wDrain (fun t => t.power.stopPhase == 2) = true ∧ idle .stopDrainEnd (wMode 1) = true := by
  decide +kernel

theorem witness_BusLossReturnAndStops_9 :
    (wMode 0).rd F.FC_STATUS_STATE ≠ 2 ∧ idle .ibOutOfRange (wMode 0) = true ∧
      gives .ibOutOfRange (put (wMode 0) [(F.FC_STATUS_STATE, 2)]) (fun t => bitOf (t.rd (errStatus 0x40)) 3) = true ∧
      (wMode 1).mode ≠ 0 ∧ gives .ibOutOfRange (wMode 1) (fun t => t.rd F.FC_STATUS_STATE == 0 && bitOf (t.rd (errStatus 0x40)) 3) = true := by
  decide +kernel

def pSample : PowerSample := ⟨9500, 64000, 8000, 125, 0, 0, 0, 0, 0, 0⟩

/-- Draw control with a slew of 2 W and P_set at 5 W. -/
def wDraw (l : List (Field × Nat)) : State :=
  let s := put (wMode 2) ([(F.PWR_LIMITS_SLEW, 2000), (F.PWR_LIMITS_P_MAX, 1000)] ++ l)
  { s with power := { s.power with pset := 20000 } }

def wBack : State :=
  let s := put (wMode 2) [(F.PWR_STATUS_FALLBACK, 1)]
  { s with power := { s.power with fbPass := 10 } }

theorem witness_DrawSetPointMovesWithinTheSlew_1 :
    (wDraw []).mode ≠ 0 ∧ (wDraw []).drawMode = true ∧
      (((((wDraw []).measure pSample).avgStep pSample).grDevStep (busDraw pSample)).fbTest.trimHold).ptgtNow * 1000 ≠ 20000 ∧
      gives (.drawSetpointUpdate pSample) (wDraw []) (fun t => decide ((t.power.pset - 20000).natAbs ≤ 8000) && t.power.pset != 20000) = true := by
  decide +kernel

theorem witness_DrawSetPointMovesWithinTheSlew_2 :
    (wMode 1).drawMode = false ∧ gives (.drawSetpointUpdate pSample) (wMode 1) (fun t => t.power.pset == (wMode 1).power.pset) = true ∧
      (wMode 0).mode = 0 ∧ gives (.drawSetpointUpdate pSample) (wMode 0) (fun t => t.power.pset == 0) = true := by
  decide +kernel

theorem witness_DrawSetPointMovesWithinTheSlew_3 :
    (wMode 2).drawMode = true ∧ (wMode 2).subState = false ∧ gives .fallbackEntry (wMode 2) (fun t => t.rd F.PWR_STATUS_FALLBACK == 1) = true := by
  decide +kernel

theorem witness_DrawSetPointMovesWithinTheSlew_4 :
    wBack.rd F.PWR_STATUS_FALLBACK = 1 ∧ 10 ≤ wBack.power.fbPass ∧ gives .fallbackExit wBack (fun t => t.rd F.PWR_STATUS_FALLBACK == 0) = true := by
  decide +kernel

theorem witness_DrawSetPointMovesWithinTheSlew_5 :
    (wDraw [(F.PWR_STATUS_EXPORT, 1)]).rd F.PWR_STATUS_EXPORT = 1 ∧
      gives .exportStop (wDraw [(F.PWR_STATUS_EXPORT, 1)]) (fun t => t.power.pset == 0 && t.power.exportHeld) = true ∧
      gives .exportResume (wMode 2) (fun t => !t.power.exportHeld) = true := by
  decide +kernel

theorem witness_DrawSetPointMovesWithinTheSlew_6 :
    (wMode 0).drawMode = false ∧ (wMode 0).mode ≠ 1 ∧
      gives (.fcFault .switch) (wMode 0) (fun t => t.rd F.FC_STATUS_STATE == 5 && bitOf (t.rd (errStatus 0x41)) 3) = true ∧
      gives (.fcFault .oc) (wMode 1) (fun t => t.rd F.FC_STATUS_STATE == 5 && t.power.stopPhase != 0) = true ∧
      gives (.bcFault .oc) (wMode 1) (fun t => t.rd F.BC_STATUS_STATE == 5 && bitOf (t.rd (errStatus 0x42)) 0) = true := by
  decide +kernel

theorem witness_DrawSetPointMovesWithinTheSlew_7 :
    (wMode 2).drawMode = true ∧ ((wMode 2).leaveSub).drawMode = true ∧
      gives (.fcFault .ot) (wMode 2) (fun t => t.rd F.FC_STATUS_STATE == 5 && t.power.stopPhase == 1) = true ∧
      gives (.bcFault .switch) (wMode 4) (fun t => t.power.stopPhase == 2 && bitOf (t.rd (errStatus 0x42)) 3) = true ∧
      gives (.bcFault .ot) (wMode 2) (fun t => t.mode == 1 && t.rd F.BC_STATUS_STATE == 5) = true := by
  decide +kernel

theorem witness_DrawSetPointMovesWithinTheSlew_8 :
    bitOf ((put (wMode 1) [(F.BC_STATUS_PHASES_OK, 0xFFF)]).rd F.BC_STATUS_PHASES_OK) 11 = true ∧
      gives (.bcPhaseFence 11) (put (wMode 1) [(F.BC_STATUS_PHASES_OK, 0xFFF), (F.BC_CFG_P_DIS_MAX, 4800), (F.BC_CFG_I_CHG_MAX, 1800)]) (fun t =>
        t.rd F.BC_STATUS_PHASES_OK == 0x7FF && t.rd F.BC_CFG_P_DIS_MAX == 4400 && t.rd F.BC_CFG_I_CHG_MAX == 1650) = true := by
  decide +kernel

def wRamp (st : Nat) : State :=
  let s := put (wMode 2) [(F.PWR_STATUS_FF_STATE, st), (F.PWR_FF_GAIN, 32768)]
  { s with power := { s.power with ffK := 5 } }

theorem witness_FeedForwardAndPowerControl_1 :
    ((wMode 2).scaleStep).gainRamp.power.ffHeld = none ∧ ((wMode 2).scaleStep).gainRamp.power.ffK = 0 ∧
      gives (.feedForwardUpdate 0 64000) (wMode 2) (fun t => t.rdS F.PWR_FF_IREF_FF == 0) = true := by
  decide +kernel

theorem witness_FeedForwardAndPowerControl_2 :
    ((wRamp 2).scaleStep).gainRamp.power.ffK ≠ 0 ∧ (64000 : Nat) ≠ 0 := by
  decide +kernel

theorem witness_FeedForwardAndPowerControl_3 :
    (wRamp 1).rd F.PWR_STATUS_FF_STATE = 1 ∧ gives .ffRampEnd (wRamp 1) (fun t => t.power.ffK == 32768 * 2 ^ 48) = true ∧
      (wRamp 3).rd F.PWR_STATUS_FF_STATE = 3 ∧ gives .ffRampEnd (wRamp 3) (fun t => t.power.ffK == 0 && t.rd F.PWR_STATUS_FF_STATE == 0) = true := by
  decide +kernel

theorem witness_FeedForwardAndPowerControl_4 :
    (wMode 1).mayWrite su F.PWR_CTRL_STOP ∧ (wMode 1).drawMode = false ∧ F.PWR_CTRL_STOP.get 0 = 0 ∧ F.PWR_CTRL_REVERSE_EN.get 0 = 0 ∧
      F.PWR_CTRL_SOC_EN.get 0 = 0 ∧ (wMode 2).drawMode = true ∧
      F.PWR_CTRL_FORCE_BUS_ONLY.get ((wMode 2).mergeWord true F.PWR_CTRL_STOP.key (F.PWR_CTRL_FORCE_BUS_ONLY.put 0 1)).1 = 1 ∧
      F.PWR_CTRL_STOP.get (F.PWR_CTRL_FORCE_BUS_ONLY.put 0 1) = 0 ∧
      gives (.pwrCtrlWrite su (F.PWR_CTRL_FORCE_BUS_ONLY.put 0 1)) (wMode 2) (fun t => t.mode == 1) = true ∧
      gives (.pwrCtrlWrite su 0) (wMode 1) (fun t => t.rd F.PWR_LIMITS_P_MIN == 0 && t.rd F.PWR_SRC_TRIM == 0) = true := by
  decide +kernel

/-- A schedule of two entries, 5 ms apart, and of one whose entries do not rise. -/
def wSched (m t : Nat) (l : List (Field × Nat)) : State := put (wMode m) ([(F.GR_ENTRY_VALID.i 0, 1), (F.GR_ENTRY_VALID.i 1, 1),
  (F.GR_ENTRY_LAST.i 1, 1), (F.GR_ENTRY_T_MS.i 1, t)] ++ l)

theorem witness_DrawSchedulesRun_1 :
    (wSched 1 5 []).mayWrite su F.GR_CTRL_EN ∧ (wSched 1 5 []).grWellFormed = true ∧ (wSched 1 5 []).mode ≠ 2 ∧
      gives (.grEnable su false) (wSched 1 5 []) (fun t => t.rd F.GR_CTRL_EN == 1 && t.power.grDev == 0) = true := by
  decide +kernel

theorem witness_DrawSchedulesRun_2 :
    (wSched 1 0 []).grWellFormed = false ∧
      gives (.grEnable su false) (wSched 1 0 []) (fun t => t.rd F.GR_CTRL_EN == 0 && bitOf (t.rd (errStatus 0x43)) 0) = true := by
  decide +kernel

theorem witness_DrawSchedulesRun_3 :
    (wSched 1 5 [(F.GR_CTRL_EN, 1)]).rd F.GR_CTRL_TIMEBASE = b2n (!true) ∧
      gives (.grEnable su true) (wSched 1 5 [(F.GR_CTRL_EN, 1)]) (fun t => t.rd F.GR_STATUS_BAD == 1) = true ∧
      gives (.grCancel su) (wSched 1 5 [(F.GR_CTRL_EN, 1)]) (fun t => t.rd F.GR_CTRL_EN == 0 && t.rd F.GR_STATUS_ENTRY == 0xFF) = true := by
  decide +kernel

theorem witness_DrawSchedulesRun_4 :
    (wMode 1).mayWrite su (F.GR_ENTRY_T_MS.i 63) ∧ gives (.grEntryWrite su (.entry 63) 9) (wMode 1) (fun t =>
        t.reg (F.GR_ENTRY_T_MS.i 63).key != (wMode 1).reg (F.GR_ENTRY_T_MS.i 63).key) = true ∧
      gives (.grEntryWrite su (.entry 63) 9) (put (wMode 1) [(F.GR_CTRL_EN, 1)]) (fun t => t.rd F.GR_STATUS_BAD == 1) = true := by
  decide +kernel

theorem witness_DrawSchedulesRun_5 :
    (wSched 2 5 [(F.GR_CTRL_EN, 1)]).mode = 2 ∧ gives .gridResponseEntry (wSched 2 5 [(F.GR_CTRL_EN, 1)]) (fun t => t.mode == 3) = true ∧
      (wSched 1 5 [(F.GR_CTRL_EN, 1)]).mode ≠ 2 ∧ gives .gridResponseEntry (wSched 1 5 [(F.GR_CTRL_EN, 1)]) (fun t => t.mode == 1) = true := by
  decide +kernel

theorem witness_DrawSchedulesRun_6 :
    (wSched 1 5 [(F.GR_CTRL_EN, 1)]).rd (F.GR_ENTRY_VALID.i 0) = 1 ∧ (wSched 1 5 [(F.GR_CTRL_EN, 1)]).rd (F.GR_ENTRY_LAST.i 0) = 0 ∧
      gives (.grEntryInForce 0) (wSched 1 5 [(F.GR_CTRL_EN, 1), (F.GR_STATUS_ENTRY, 0xFF)]) (fun t => t.rd F.GR_STATUS_ENTRY == 0) = true := by
  decide +kernel

theorem witness_DrawSchedulesRun_7 :
    gives .grScheduleEnd (wSched 1 5 [(F.GR_CTRL_EN, 1)]) (fun t => t.rd F.GR_STATUS_DONE == 1 && t.rd F.GR_CTRL_EN == 0) = true ∧
      gives .grScheduleEnd (wSched 3 5 [(F.GR_CTRL_EN, 1)]) (fun t => t.mode == 2) = true ∧
      gives (.grCancel su) (wSched 3 5 [(F.GR_CTRL_EN, 1)]) (fun t => t.mode == 2 && t.rd F.GR_STATUS_ENTRY == 0xFF) = true := by
  decide +kernel

def pLoop (i m : Nat) : State := put (wMode 1) [(F.LS_STATE_MODE.i i, m), (F.LS_SP_MAN.i i, 100), (F.LS_OUTLIM_OUT_MAX.i i, 60)]

theorem witness_LoopSlotsComputeAndReject_1 :
    (pLoop 9 3).lsMode 9 = 3 ∧ gives (.loopSlotPeriod 9 0) (pLoop 9 3) (fun t => t.rdS (F.LS_KFF_OUT.i 9) == 60) = true := by
  decide +kernel

theorem witness_LoopSlotsComputeAndReject_2 :
    (pLoop 9 0).lsMode 9 = 0 ∧ idle (.loopSlotPeriod 9 0) (pLoop 9 0) = true ∧ idle (.loopSlotPeriod 9 0) (pLoop 9 2) = true := by
  decide +kernel

theorem witness_LoopSlotsComputeAndReject_3 :
    (pLoop 9 1).lsMode 9 = 1 ∧ ((pLoop 9 1).lsSample 9 0).lsRuns 9 = true ∧ gives (.loopSlotPeriod 9 0) (pLoop 9 1) (fun _ => true) = true := by
  decide +kernel

theorem witness_LoopSlotsComputeAndReject_4 :
    (pLoop 9 0).mayWrite su (F.LS_STATE_MODE.i 9) ∧ (pLoop 9 0).lsMode 9 ≠ 3 ∧
      gives (.lsModeWrite su 9 3) (pLoop 9 0) (fun t => t.lsMode 9 == 3 && bitOf (t.rd F.LOOP_STATUS_OPEN) 9) = true := by
  decide +kernel

theorem witness_LoopSlotsComputeAndReject_5 :
    (pLoop 4 1).lsMode 4 ≠ 0 ∧ (pLoop 4 1).mode ≠ 0 ∧ gives (.lsModeWrite su 4 0) (pLoop 4 1) (fun t => t.lsMode 4 == 1) = true := by
  decide +kernel

theorem witness_LoopSlotsComputeAndReject_6 :
    gives (.lsCoefWrite su 9 .kpi 7) (pLoop 9 1) (fun t => t.rd (F.LS_STATE_COEF_REJECT.i 9) == 1 && t.rd (F.LS_KPI_KP.i 9) == 0) = true ∧
      gives (.lsCoefWrite su 9 .kpi 7) (pLoop 9 0) (fun t => t.rd (F.LS_STATE_COEF_REJECT.i 9) == 0) = true := by
  decide +kernel

theorem witness_LoopSlotsComputeAndReject_7 :
    gives (.lsCascWrite su 2 1) (pLoop 2 1) (fun t => t.rd (F.LS_STATE_COEF_REJECT.i 2) == 1) = true ∧
      idle (.lsCascWrite su 1 1) (pLoop 1 0) = true ∧
      (pLoop 9 0).lsTaken 9 = false ∧ ((pLoop 9 0).lsClose 9).rd (F.LS_CFG_MEAS_SRC.i 9) < 0x0B ∧
      gives (.lsModeWrite su 9 1) (pLoop 9 0) (fun t => t.lsMode 9 == 1) = true ∧
      gives (.lsCascWrite su 15 0) (pLoop 15 0) (fun t => t.rd (F.LS_CASC_EN.i 15) == 0) = true ∧
      F.LS_CASC_EN.get ((pLoop 15 0).mergeWord true (F.LS_CASC_EN.i 15).key 0).1 = 0 ∧ (pLoop 15 0).lsMode 15 ≠ 1 := by
  decide +kernel

/-! ### Rails -/

/-- Rail 11 in a state, its first four phases on. -/
def rSt (st : Nat) (l : List (Field × Nat)) : State := put State.reset ([(rf F.RAIL_STATUS_STATE 11, st), (rf F.RAIL_CFG_CMD_SRC 11, 0),
  (phf F.RAIL_PH_STATE 11 0, 1), (phf F.RAIL_PH_STATE 11 1, 1), (phf F.RAIL_PH_STATE 11 2, 1), (phf F.RAIL_PH_STATE 11 3, 1)] ++ l)

def rU (g : RailUnit → RailUnit) (s : State) : State := s.setRail 11 (g (s.rail 11))

def fCmd : Field := rf F.RAIL_CMD_TARGET 11

def rTest : State := put (rSt 2 [(rf F.RAIL_CFG_MIN_PH 11, 1), (phf F.RAIL_PH_I 11 3, 200)]) [(F.RAIL_SYS_TEST_PERIOD_S, 60),
  (F.RAIL_SYS_CTRL_TEST_GATE, 0)]

/-- The guard band before a segment that starts at angle 1; phase 4 is off. -/
def rGuard : State :=
  let s := put (rSt 2 [(rf F.RAIL_CTRL_GUARD_EN 11, 1), (rf F.RAIL_CTRL_PREADD_EN 11, 1), (phf F.RAIL_PH_STATE 11 3, 0),
    (F.RAIL_SYS_GUARD_ANGLE, 9)]) [(F.PHASE_STATUS_LOCK_STATE, 2)]
  { s with phase := { s.phase with seg := [(0, F.PHASE_SEG_START.put (F.PHASE_SEG_VALID.put 0 1) 1)] } }

theorem witness_RailCommandsAndPhases_1 :
    (rSt 2 []).mayWrite su fCmd ∧ (rSt 2 []).rd (rf F.RAIL_CFG_CMD_SRC 11) = 0 ∧ (rSt 2 []).railState 11 = 2 ∧
      gives (.railCmdWrite su 11 5 2000) (rSt 2 []) (fun t => (t.rail 11).cmd == some (2000, 5)) = true ∧
      gives (.railCmdWrite su 11 5 2000) (rSt 1 []) (fun t => (t.rail 11).held == some (2000, 5)) = true ∧
      gives (.railCmdWrite su 11 5 2000) (rSt 2 [(rf F.RAIL_CFG_CMD_SRC 11, 1)]) (fun t => bitOf (t.rd (errStatus (railPage 11))) 0) = true := by
  decide +kernel

theorem witness_RailCommandsAndPhases_2 :
    gives (.railPwmPeriod 11 1800 (-1) 40) (rSt 0 []) (fun t => (t.rail 11).lastV == 1800 && (t.rail 11).lastI == -1) = true := by
  decide +kernel

theorem witness_RailCommandsAndPhases_3 :
    (rSt 2 []).mayWrite su (rf F.RAIL_COMP1_KPI_KP 11) ∧ (rSt 2 []).compActive 11 ≠ true ∧ (rSt 2 []).rd (rf F.RAIL_CTRL_SWAP 11) = 0 ∧
      gives (.railCompWrite su 11 true false 9) (rSt 2 []) (fun t => t.reg (rf F.RAIL_COMP1_KPI_KP 11).key == 9) = true ∧
      gives (.railCompWrite su 11 false false 9) (rSt 2 []) (fun t => bitOf (t.rd (errStatus (railPage 11))) 0) = true := by
  decide +kernel

theorem witness_RailCommandsAndPhases_4 :
    ((rSt 2 [(rf F.RAIL_COMP1_KPI_KP 11, 9)]).compCoef 11 true).kp ≠ 0 ∧
      gives (.railSwap su 11) (rSt 2 [(rf F.RAIL_COMP1_KPI_KP 11, 9)]) (fun t => t.rd (rf F.RAIL_CTRL_SWAP 11) == 1) = true ∧
      gives (.railSenseRetry su 11) (rSt 2 []) (fun t => t.rd (rf F.RAIL_CTRL_SENSE_RETRY 11) == 1) = true := by
  decide +kernel

theorem witness_RailCommandsAndPhases_5 :
    gives (.phaseBalance 11 [100, 200] []) (rSt 2 []) (fun t => t.rd (phf F.RAIL_PH_I 11 1) == 200 && t.rd (phf F.RAIL_PH_I 11 3) == 0) = true := by
  decide +kernel

theorem witness_RailCommandsAndPhases_6 :
    ((rU (fun u => { u with shed := some 3 }) (rSt 2 [])).rail 11).shed = some 3 ∧ (rSt 2 []).rd (rf F.RAIL_STATUS_BRAKING 11) = 0 ∧
      gives (.shedComplete 11) (rU (fun u => { u with shed := some 3 }) (rSt 2 [])) (fun t => t.phState 11 3 == 0 && (t.rail 11).shed == none &&
        (t.rail 11).shedEnd == some (0, 3)) = true := by
  decide +kernel

theorem witness_RailCommandsAndPhases_7 :
    gives (.shedInhibitEnd 11) (rSt 2 [(rf F.RAIL_STATUS_SHED_INH 11, 1)]) (fun t => t.rd (rf F.RAIL_STATUS_SHED_INH 11) == 0) = true ∧
      rGuard.railState 11 = 2 ∧ rGuard.railGuarded 11 = true ∧ rGuard.rd (rf F.RAIL_CTRL_PREADD_EN 11) = 1 ∧
      gives (.guardPreadd 11) rGuard (fun t => t.phState 11 3 == 3) = true ∧
      idle (.guardPreadd 11) (put rGuard [(rf F.RAIL_CTRL_PREADD_EN 11, 0)]) = true ∧ idle (.guardPreadd 11) (rSt 1 []) = true := by
  decide +kernel

theorem witness_RailCommandsAndPhases_8 :
    gives (.brakeEnd 11) (rSt 2 [(rf F.RAIL_STATUS_BRAKING 11, 1)]) (fun t => t.rd (rf F.RAIL_STATUS_BRAKING 11) == 0) = true ∧
      gives (.brakeRearm 11) (rU (fun u => { u with armed := false }) (rSt 2 [])) (fun t => (t.rail 11).armed) = true ∧
      gives (.senseRetryResult 11 true) (rSt 2 [(rf F.RAIL_CTRL_SENSE_RETRY 11, 1), (rf F.RAIL_STATUS_SENSE_LOCAL 11, 1)]) (fun t =>
        t.rd (rf F.RAIL_STATUS_SENSE_LOCAL 11) == 0) = true ∧
      gives (.senseRetryResult 11 false) (rSt 2 [(rf F.RAIL_CTRL_SENSE_RETRY 11, 1), (rf F.RAIL_STATUS_SENSE_LOCAL 11, 1)]) (fun t =>
        t.rd (rf F.RAIL_CTRL_SENSE_RETRY 11) == 0 && t.rd (rf F.RAIL_STATUS_SENSE_LOCAL 11) == 1) = true := by
  decide +kernel

theorem witness_RailCommandsAndPhases_9 :
    3 < railPhases 11 ∧ (rSt 2 []).mayWrite su (phf F.RAIL_PH_FENCE 11 3) ∧
      gives (.railPhFenceWrite su 11 3 true) (rSt 2 []) (fun t => t.rd (phf F.RAIL_PH_FENCE 11 3) == 1 && bitOf (t.rd (errStatus (railPage 11))) 2) = true ∧
      gives (.railPhFenceWrite su 11 3 false) (rSt 2 [(phf F.RAIL_PH_FENCE 11 3, 1)]) (fun t => t.rd (phf F.RAIL_PH_FENCE 11 3) == 0) = true := by
  decide +kernel

theorem witness_RailCommandsAndPhases_10 :
    (rSt 2 []).mayWrite su F.RAIL_SYS_CTRL_PEAK_CLR ∧ gives (.railPeakClr su) (rU (fun u => { u with peakOn := true }) (rSt 2 [])) (fun t =>
      !(t.rail 11).peakOn) = true := by
  decide +kernel

def rSeq (n : Nat) (l : List (Field × Nat)) : State :=
  let s := put State.reset l
  { s with railSys := { s.railSys with seq := n } }

def rPg : State := rSeq 1 [(F.RAIL_SYS_STATUS_PGOOD, 4095)]

def rDirty : State := { State.reset with railSys := { State.reset.railSys with lfDirty := true } }

theorem witness_RailsProtectStartAndStop_1 :
    (rSt 2 []).railUp 11 = true ∧ (rSt 2 []).rd (rf F.RAIL_STATUS_SENSE_LOCAL 11) = 0 ∧
      gives (.senseLost 11) (rSt 2 []) (fun t => t.rd (rf F.RAIL_STATUS_SENSE_LOCAL 11) == 1 && bitOf (t.rd (errStatus (railPage 11))) 3) = true := by
  decide +kernel

theorem witness_RailsProtectStartAndStop_2 :
    (rSt 3 []).railUp 11 = true ∧ gives (.railOv 11) (rSt 3 []) (fun t => bitOf (t.rd (errStatus (railPage 11))) 7 && t.rd F.RAIL_LF_0_CODE == 1) = true ∧
      gives (.railUv 11) (rSt 2 []) (fun t => bitOf (t.rd (errStatus (railPage 11))) 6 && t.rd F.RAIL_LF_0_RAIL == 11) = true ∧
      gives (.railOc 11) (rSt 2 []) (fun t => bitOf (t.rd (errStatus (railPage 11))) 5 && t.rd F.RAIL_LF_0_CODE == 3) = true := by
  decide +kernel

theorem witness_RailsProtectStartAndStop_3 :
    (rSt 2 []).rd (phf F.RAIL_PH_FENCE 11 0) = 0 ∧
      gives (.phasePeakLimit 11 0 true) (rU (fun u => { u with peaks := [(0, 15)] }) (rSt 2 [])) (fun t => t.rd (phf F.RAIL_PH_FENCE 11 0) == 1) = true ∧
      gives (.phasePeakLimit 11 0 true) (rU (fun u => { u with peaks := [(0, 14)] }) (rSt 2 [])) (fun t => t.rd (phf F.RAIL_PH_FENCE 11 0) == 0) = true ∧
      gives (.phasePeakLimit 11 0 false) (rU (fun u => { u with peaks := [(0, 15)] }) (rSt 2 [])) (fun t => t.rd (phf F.RAIL_PH_FENCE 11 0) == 0 &&
        (t.rail 11).peaks == [(0, 1)]) = true ∧
      gives (.phaseOtFence 11 0) (rSt 2 []) (fun t => t.rd (phf F.RAIL_PH_FENCE 11 0) == 1 && t.rd F.RAIL_LF_0_CODE == 6) = true := by
  decide +kernel

theorem witness_RailsProtectStartAndStop_4 :
    rTest.checkGate = true ∧ rTest.shedFree 11 = true ∧ (∀ x < 12, (rTest.rail x).test = none) ∧ rTest.phState 11 3 = 1 ∧
      200 ≤ rTest.rdS (phf F.RAIL_PH_I 11 3) ∧ rTest.rd (rf F.RAIL_CFG_MIN_PH 11) < (rTest.phIn 11 1).length ∧
      gives (.senseCheckStart 11 3) rTest (fun t => (t.rail 11).test == some (3, 200) && t.rd F.RAIL_SYS_TEST_RAIL == 11) = true := by
  decide +kernel

theorem witness_RailsProtectStartAndStop_5 :
    (200 : Int) + 2000 < 20 * (((400 : BitVec 16).toInt - 200).natAbs : Int) ∧
      gives (.senseCheckResult 11 400) (rU (fun u => { u with test := some (3, 200) }) rTest) (fun t => (t.rail 11).test == none &&
        bitOf (t.rd (errStatus (railPage 11))) 4) = true := by
  decide +kernel

theorem witness_RailsProtectStartAndStop_6 :
    (rSeq 0 [(F.SYS_BOOT_STEP, 5)]).railSys.seq = 0 ∧
      gives (.railStartStage 0) (rSeq 0 [(F.SYS_BOOT_STEP, 5)]) (fun t => t.rd F.RAIL_SYS_STATUS_SEQ_BUSY == 1) = true ∧
      gives (.railStopStage 3) (rSeq 2 []) (fun t => t.rd F.RAIL_SYS_STATUS_STAGE == 3) = true ∧ idle (.railStopStage 3) (rSeq 1 []) = true := by
  decide +kernel

theorem witness_RailsProtectStartAndStop_7 :
    rPg.railSys.seq = 1 ∧ rPg.rd F.RAIL_SYS_STATUS_STAGE = 0 ∧ (∀ r ∈ rPg.stageRails 0, rPg.pgood r = true) ∧
      gives (.railStartStage 1) rPg (fun t => t.rd F.RAIL_SYS_STATUS_STAGE == 1 && t.rd F.RAIL_SYS_STATUS_SEQ_BUSY == 1) = true ∧
      (rSeq 2 [(F.RAIL_SYS_STATUS_STAGE, 3)]).stageLow 3 = true ∧
      gives (.railStopStage 2) (rSeq 2 [(F.RAIL_SYS_STATUS_STAGE, 3)]) (fun t => t.rd F.RAIL_SYS_STATUS_STAGE == 2) = true := by
  decide +kernel

theorem witness_RailsProtectStartAndStop_8 :
    (rU (fun u => { u with ref := (rSt 1 []).railTarget 11 }) (rSt 1 [(rf F.RAIL_MEAS_V 11, 6000)])).railState 11 = 1 ∧
      95 * (rSt 1 []).railTarget 11 ≤ 500 * 6000 ∧
      gives (.pgoodSet 11) (rU (fun u => { u with ref := (rSt 1 []).railTarget 11 }) (rSt 1 [(rf F.RAIL_MEAS_V 11, 6000)])) (fun t =>
        t.railState 11 == 2 && t.pgood 11) = true := by
  decide +kernel

theorem witness_RailsProtectStartAndStop_9 :
    rDirty.railSys.lfDirty = true ∧ gives .lastFaultFlashWrite rDirty (fun t => !t.railSys.lfDirty) = true ∧
      State.reset.mayWrite su F.RAIL_LF_CMD_CLEAR ∧
      gives (.railLfClear su) (put State.reset [(F.RAIL_LF_0_CODE, 3)]) (fun t => t.rd F.RAIL_LF_0_CODE == 0) = true := by
  decide +kernel

/-! ### The power budget -/

def gRaise : State := put (wMode 2) [(gf F.OP_GRANT_RAISING .A, 1), (gf F.OP_GRANT_CLOCK_OP .A, 3)]

/-- The power cores hand over (R421): frond A is granted point 2, frond B's clock is at 3. -/
def gHand : State :=
  let s := put (wMode 2) [(F.FW_STATUS_STATE, 5), (gf F.OP_GRANT_GRANT_OP .A, 2), (gf F.OP_GRANT_CLOCK_OP .B, 3), (gf F.OP_GRANT_GRANT_OP .B, 5),
    (F.SYS_BOOT_STATE, 2)]
  { s with fw := { s.fw with unit := 1 } }

/-- Attribution is on, 7 nJ were measured and nothing counted. -/
def gAttr : State := { (put (wMode 1) [(F.ATTR_CTRL_EN, 1)]) with power := { (wMode 1).power with eInt := 7 } }

def gFast (k n : Nat) : State := (wMode 2).setFast k n

theorem witness_GrantsThrottlesAndAttribution_1 :
    (wMode 2).budget.stuckA = false ∧ gives .arbiterEvaluation (wMode 2) (fun t =>
      t.rd (gf F.OP_GRANT_GRANT_OP .A) == (opLowest ((wMode 2).opLimits .A)).2) = true := by
  decide +kernel

theorem witness_GrantsThrottlesAndAttribution_2 :
    gRaise.rd (gf F.OP_GRANT_RAISING .A) = 1 ∧ gives (.raiseTimeout .A) gRaise (fun t => t.rd (gf F.OP_GRANT_TARGET_OP .A) == 3 &&
        t.rd (gf F.OP_GRANT_GRANT_OP .A) == 3 && t.budget.stuck .A && bitOf (t.rd (errStatus 0x61)) 0) = true ∧
      gives (.fastHoldEnd .A) (wMode 2) (fun t => t.budget.hold .A == none) = true := by
  decide +kernel

theorem witness_GrantsThrottlesAndAttribution_3 :
    (((wMode 2).wr (F.CAP_RAIL_I_AVG.i 11) 32767).railLimit 11 : Int) < (32767 : BitVec 16).toInt ∧
      gives (.railFastThrottle 11 32767) (wMode 2) (fun t => bitOf (t.rd F.CAP_FT_FT_ACTIVE) 11 && bitOf (t.rd (errStatus 0x60)) 1) = true := by
  decide +kernel

theorem witness_GrantsThrottlesAndAttribution_4 :
    min ((wMode 1).rd F.CAP_MODULE_PEAK_W * 1000) (wMode 1).sourceMw < 10000000 ∧
      gives (.moduleFastLimit 10000000) (wMode 1) (fun t => t.rd F.CAP_FT_MOD_ACTIVE == 1) = true := by
  decide +kernel

theorem witness_GrantsThrottlesAndAttribution_5 :
    gives (.fastThrottleRelease (some 11)) (gFast 11 2) (fun t => t.fastLvl 11 == 1) = true ∧
      gives (.fastThrottleRelease none) (put (gFast 12 1) [(F.CAP_FT_MOD_ACTIVE, 1)]) (fun t => t.rd F.CAP_FT_MOD_ACTIVE == 0) = true := by
  decide +kernel

theorem witness_GrantsThrottlesAndAttribution_6 :
    (wMode 1).coresHand = false ∧ gHand.coresHand = true ∧ idle (.budgetAllocation 1000) gHand = true ∧
      gives .arbiterEvaluation { gHand with budget := { gHand.budget with stuckB := true } } (fun t => t.rd (gf F.OP_GRANT_GRANT_OP .A) == 2 &&
        t.rd (gf F.OP_GRANT_GRANT_OP .B) == 3) = true ∧
      gives (.budgetAllocation 1000) (wMode 1) (fun t => t.rd F.CAP_STATUS_SOURCE_W == 4200) = true := by
  decide +kernel

theorem witness_GrantsThrottlesAndAttribution_7 :
    (95 : Int) ≤ (95 : BitVec 8).toInt ∧ gives (.tempMaxThrottle .B true 95) (wMode 1) (fun t => bitOf t.budget.tempMax 3 &&
      bitOf (t.rd (errStatus 0x60)) 3) = true := by
  decide +kernel

theorem witness_GrantsThrottlesAndAttribution_8 :
    (wMode 1).mayWrite su F.ATTR_CTRL_FIT_REQ ∧ (wMode 1).rd F.ATTR_FIT_STATE ≠ 1 ∧
      gives (.attrFitReq su) (wMode 1) (fun t => t.rd F.ATTR_FIT_STATE == 1 && t.rd F.ATTR_CTRL_FIT_REQ == 1) = true := by
  decide +kernel

theorem witness_GrantsThrottlesAndAttribution_9 :
    (put (wMode 1) [(F.ATTR_CTRL_EN, 0)]).rd F.ATTR_CTRL_EN = 0 ∧
      gives .energyReconcile { (put (wMode 1) [(F.ATTR_CTRL_EN, 0)]) with power := { (wMode 1).power with eInt := 7 } } (fun t =>
        t.budget.unattr == 7000 && t.power.eInt == 0) = true := by
  decide +kernel

theorem witness_GrantsThrottlesAndAttribution_10 :
    gAttr.rd F.ATTR_CTRL_EN = 1 ∧ ((priceSum (scaleBy (gAttr.attrScale (gAttr.power.eInt * 1000) (priceSum gAttr.priced)) 65536 (gAttr.priced.filter isCharged)) : Nat) : Int) ≤
        gAttr.power.eInt * 1000 ∧
      gives .energyReconcile gAttr (fun t => t.budget.unattr == 7000 && t.power.eInt == 0) = true := by
  decide +kernel

/-! ### The buffer pack -/

/-- The ring is whole and its units are awake. -/
def kUp (l : List (Field × Nat)) : State := put State.reset ([(F.CHAIN_CFG_EN, 1), (F.CHAIN_STATUS_RING, 1), (F.CHAIN_STATUS_UNITS, 6),
  (F.PACK_STATUS_PRSNT, 1)] ++ l)

def kWith (g : ChainUnit → ChainUnit) (s : State) : State := { s with chain := g s.chain }

def kSweep (b : Bool) (s : State) : State := kWith (fun c => { c with sweep := some ⟨7, 0, 50000, b⟩ }) s

/-- Locked, and a SWEEP firing waits. -/
def kLock : State := kWith (fun c => { c with sweepAsks := 1 }) (kUp [(F.PHASE_STATUS_LOCK_STATE, 2), (F.CHAIN_SWEEP_SEQ, 255)])

def kRead : State := kWith (fun c => { c with reading := true }) (kSweep true (kUp []))

/-- An insertion at ENUM. -/
def kEnum : State := kWith (fun c => { c with inserting := true }) (kUp [(F.CHAIN_STATUS_RING, 4), (F.PACK_STATUS_STATE, 2), (F.PACK_CFG_CELLS, 96)])

theorem witness_SweepsReadTheRing_1 :
    (kUp []).chainUp = true ∧ (kUp []).chain.sweep = none ∧ (kUp []).rd F.CHAIN_STATUS_OW_BUSY = 0 ∧ kLock.sourceOk .table = true ∧
      kLock.sweepDue .table = true ∧ kLock.instantBad .table 50000 = false ∧
      gives (.sweepSampleSend .table) kLock (fun t => t.rd F.CHAIN_SWEEP_SEQ == 0 && t.outbox == [.sample 0 50000]) = true := by
  decide +kernel

theorem witness_SweepsReadTheRing_2 :
    (put kLock [(F.CHAIN_SWEEP_IN_STEP, 8)]).sweepDue .table = true ∧ (put kLock [(F.CHAIN_SWEEP_IN_STEP, 8)]).instantBad .table 50000 = true ∧
      (kWith (fun c => { c with sweepAsks := 0 }) kLock).sweepDue .late = false ∧
      idle (.sweepSampleSend .late) (kWith (fun c => { c with sweepAsks := 0 }) kLock) = true ∧
      gives (.sweepSampleSend .table) (put kLock [(F.CHAIN_SWEEP_IN_STEP, 8)]) (fun t => t.rd F.CHAIN_SWEEP_REJECTED == 1 && t.outbox == []) = true := by
  decide +kernel

theorem witness_SweepsReadTheRing_3 :
    gives (.sweepSampleInstant (-5)) (kSweep false (kUp [(F.BAL_STATUS_PAUSED, 1)])) (fun t => t.chain.bcAt == -5 &&
        t.rd F.BAL_STATUS_PAUSED == 0) = true ∧
      gives .sweepReadSend (kSweep true (kUp [])) (fun t => t.chain.reading && t.outbox == [.chain 2]) = true := by
  decide +kernel

theorem witness_SweepsReadTheRing_4 :
    (kWith (fun c => { c with reading := true }) (kSweep true (kUp []))).chain.reading = true ∧
      gives (.sweepReadReturn [] 300000) (kWith (fun c => { c with reading := true }) (kSweep true (kUp []))) (fun t => t.chain.sweep == none) = true := by
  decide +kernel

theorem witness_SweepsReadTheRing_5 :
    idle (.chainFrameResend false true) (kUp []) = true ∧
      gives (.chainFrameResend false false) (kUp []) (fun t => t.rd F.CHAIN_ERR_COUNT_RETRY == 1) = true ∧
      gives (.chainFrameResend true false) (kUp []) (fun t => bitOf (t.rd (errStatus 0x68)) 1) = true := by
  decide +kernel

theorem witness_SweepsReadTheRing_6 :
    kRead.chain.reading = true ∧ kRead.rd F.CHAIN_STATUS_RING = 1 ∧
      gives (.chainAlert 2 false) kRead (fun t => t.rd F.CHAIN_STATUS_RING == 2 && !t.chain.reading) = true := by
  decide +kernel

theorem witness_SweepsReadTheRing_7 :
    2 ≤ (kUp []).units ∧ (kUp []).chain.reading = false ∧
      gives (.chainAlert 2 true) (kUp []) (fun t => t.rd F.CHAIN_STATUS_RING == 2 && t.rd F.CHAIN_STATUS_BREAK_A == 2) = true ∧
      idle (.chainAlert 2 true) (kUp [(F.CHAIN_STATUS_RING, 2), (F.CHAIN_STATUS_BREAK_A, 2)]) = true ∧
      gives (.chainAlert 4 true) (kUp [(F.CHAIN_STATUS_RING, 2), (F.CHAIN_STATUS_BREAK_A, 2)]) (fun t => t.rd F.CHAIN_STATUS_RING == 3) = true := by
  decide +kernel

theorem witness_SweepsReadTheRing_8 :
    (kUp [(F.CHAIN_STATUS_RING, 3)]).twoBreaks = true ∧ gives .monitoringTimeout (kUp [(F.CHAIN_STATUS_RING, 3)]) (fun _ => true) = true := by
  decide +kernel

theorem witness_SweepsReadTheRing_9 :
    (kUp [(F.CHAIN_STATUS_RING, 2)]).serialsNow = List.replicate 6 0 ∧ (6 : BitVec 8).toNat = (kUp []).units ∧
      gives (.carrierReturn 6 (List.replicate 6 0)) (kUp [(F.CHAIN_STATUS_RING, 2)]) (fun t => t.rd F.CHAIN_STATUS_RING == 1) = true ∧
      (5 : BitVec 8).toNat ≠ (kUp [(F.CHAIN_STATUS_RING, 2)]).units ∧
      gives (.carrierReturn 5 (List.replicate 5 0)) (kUp [(F.CHAIN_STATUS_RING, 2)]) (fun t => t.packState == 8) = true := by
  decide +kernel

theorem witness_SweepsReadTheRing_10 :
    gives (.enum 8 true 0 []) (kUp []) (fun t => t.rd F.CHAIN_STATUS_RING == 0 && bitOf (t.rd (errStatus 0x68)) 0) = true ∧
      (kUp []).chain.inserting = false ∧ gives (.enum 6 true 300000 (List.replicate 6 9)) (kUp [(F.CHAIN_STATUS_RING, 4)]) (fun t =>
        t.rd F.CHAIN_STATUS_RING == 1 && t.rd (F.GCS_SERIAL_SERIAL.i 5) == 9) = true := by
  decide +kernel

theorem witness_SweepsReadTheRing_11 :
    (kEnum.enumSet 6 []).chain.inserting = true ∧ (kEnum.enumSet 6 []).packState = 2 ∧ (kEnum.enumSet 6 []).cellsLegal = true ∧
      (6 : BitVec 8).toNat = (kEnum.enumSet 6 []).units ∧
      gives (.enum 6 true 300000 []) kEnum (fun t => t.packState == 3) = true ∧ gives (.enum 6 true 139999 []) kEnum (fun t => t.packState == 8) = true := by
  decide +kernel

theorem witness_SweepsReadTheRing_12 :
    (kWith (fun c => { c with asleep := false }) (kUp [(F.CHAIN_STATUS_RING, 0)])).chain.asleep = false ∧
      gives .enumRetry (kWith (fun c => { c with asleep := false }) (kUp [(F.CHAIN_STATUS_RING, 0)])) (fun t =>
        t.rd F.CHAIN_STATUS_RING == 4 && t.outbox == [.chain 0]) = true := by
  decide +kernel

theorem witness_SweepsReadTheRing_13 :
    gives .balanceGroupChange (kUp []) (fun t => t.rd F.BAL_STATUS_GROUP == 1 && t.outbox == [.chain 3]) = true ∧
      gives (.balSetTimeout 6) (kUp []) (fun t => t.chain.balLapsed == [6]) = true := by
  decide +kernel

theorem witness_SweepsReadTheRing_14 :
    (kUp []).mayWrite su F.CHAIN_CFG_OW_REQ ∧ gives (.owReq su) (kUp []) (fun t => t.rd F.CHAIN_CFG_OW_REQ == 1) = true ∧
      (kUp [(F.CHAIN_CFG_OW_REQ, 1), (F.CHAIN_CFG_OW_GATE, 0)]).owDue = true ∧ (kUp [(F.CHAIN_CFG_OW_REQ, 1), (F.CHAIN_CFG_OW_GATE, 0)]).owGate = true ∧
      gives .openWireTest (kUp [(F.CHAIN_CFG_OW_REQ, 1), (F.CHAIN_CFG_OW_GATE, 0)]) (fun t => t.rd F.CHAIN_STATUS_OW_BUSY == 1) = true ∧
      gives (.openWireResult []) (kUp [(F.CHAIN_STATUS_OW_BUSY, 1)]) (fun t => t.rd F.CHAIN_STATUS_OW_BUSY == 0) = true := by
  decide +kernel

def kPack (st : Nat) (l : List (Field × Nat)) : State := kUp ((F.PACK_STATUS_STATE, st) :: l)

def kSleep : State := kWith (fun c => { c with asleep := true }) (kUp [(F.PACK_LIM_V_OV, 2800), (F.PACK_LIM_V_UV, 1500), (F.PACK_LIM_V_UV_WARN, 1600),
  (F.PACK_LIM_T_OT, 60)])

def kIns (s : State) : State := kWith (fun c => { c with inserting := true }) s

def kFw (l : List (Field × Nat)) : State := kWith (fun c => { c with fwReady := true }) (kUp ((F.CHAIN_STATUS_FW_BUSY, 1) :: l))

theorem witness_PackSleepsInsertsAndReleases_1 :
    gives (.wake 6 9) (kUp []) (fun t => t.chain.wakeN && t.rd F.CHAIN_WAKE_UNIT == 6 && t.rd F.CHAIN_WAKE_CAUSE == 9) = true := by
  decide +kernel

theorem witness_PackSleepsInsertsAndReleases_2 :
    kSleep.chain.asleep = true ∧ kSleep.rd F.PACK_LIM_V_OV = 2800 ∧ kSleep.rd F.PACK_LIM_V_UV_WARN = 1600 ∧
      gives (.sleepCheck 6 2000 2800 0 20 false) kSleep (fun t => t.chain.wakeN && t.rd F.CHAIN_WAKE_CAUSE == 1) = true ∧
      (20 : Int) < kSleep.rdS F.PACK_LIM_T_OT ∧ kSleep.rdS F.PACK_LIM_T_UT < 10 ∧
      idle (.sleepCheck 6 2000 2799 10 20 false) kSleep = true := by
  decide +kernel

theorem witness_PackSleepsInsertsAndReleases_3 :
    gives (.sleepCheck 6 1500 2799 10 20 false) kSleep (fun t => t.rd F.CHAIN_WAKE_CAUSE == 2) = true ∧
      gives (.sleepCheck 6 1501 2799 10 60 false) kSleep (fun t => t.rd F.CHAIN_WAKE_CAUSE == 3) = true ∧
      (0 : Int) - 100 ≤ kSleep.rdS F.PACK_LIM_T_UT ∧
      gives (.sleepCheck 6 1501 2799 (-100) 59 false) kSleep (fun t => t.rd F.CHAIN_WAKE_CAUSE == 4) = true ∧
      gives (.sleepCheck 6 1501 2799 10 59 true) kSleep (fun t => t.rd F.CHAIN_WAKE_CAUSE == 5) = true := by
  decide +kernel

theorem witness_PackSleepsInsertsAndReleases_4 :
    kSleep.mayWrite su F.PACK_CMD_WAKE_CLR ∧ gives (.packCmdWakeClr su) (kWith (fun c => { c with wakeN := true }) kSleep) (fun t =>
      !t.chain.wakeN) = true := by
  decide +kernel

theorem witness_PackSleepsInsertsAndReleases_5 :
    (kPack 4 [(F.PACK_STATUS_CONTACTOR, 1)]).packState = 4 ∧
      gives (.prechargeDone false) (kPack 4 [(F.PACK_STATUS_CONTACTOR, 1)]) (fun t => t.contactClosed) = true ∧
      idle (.prechargeDone false) (kWith (fun c => { c with openTo := some 8 }) (kPack 4 [(F.PACK_STATUS_CONTACTOR, 1)])) = true ∧
      gives (.prechargeDone true) (kPack 4 [(F.PACK_STATUS_CONTACTOR, 1)]) (fun t => t.packState == 8 && bitOf (t.rd (errStatus 0x69)) 1) = true ∧
      gives .prechargeTimeout (kPack 4 [(F.PACK_STATUS_CONTACTOR, 1)]) (fun t => t.packState == 8) = true := by
  decide +kernel

theorem witness_PackSleepsInsertsAndReleases_6 :
    (kPack 4 [(F.PACK_STATUS_CONTACTOR, 2)]).contactClosed = true ∧
      gives .prechargePathOpen (kPack 4 [(F.PACK_STATUS_CONTACTOR, 2)]) (fun t => t.packState == 5) = true := by
  decide +kernel

theorem witness_PackSleepsInsertsAndReleases_7 :
    (kWith (fun c => { c with openTo := some 8 }) (kPack 5 [])).chain.openTo = some 8 ∧
      gives .contactorOpen (kWith (fun c => { c with openTo := some 8 }) (kPack 5 [(F.PACK_STATUS_CONTACTOR, 2)])) (fun t =>
        t.rd F.PACK_STATUS_CONTACTOR == 0) = true := by
  decide +kernel

theorem witness_PackSleepsInsertsAndReleases_8 :
    gives (.weldCheck 60000) (kPack 8 []) (fun t => t.rd F.PACK_STATUS_CONTACTOR == 3 && bitOf (t.rd (errStatus 0x69)) 5) = true ∧
      idle (.weldCheck 59999) (kPack 8 []) = true := by
  decide +kernel

theorem witness_PackSleepsInsertsAndReleases_9 :
    (kPack 5 [(F.PACK_STATUS_CONTACTOR, 2), (F.PACK_STATUS_HVIL, 1)]).chain.inserting = false ∧
      gives .packHvilOpen (kPack 5 [(F.PACK_STATUS_CONTACTOR, 2), (F.PACK_STATUS_HVIL, 1)]) (fun t => t.rd F.PACK_STATUS_HVIL == 0) = true ∧
      gives .packHvilClose (kPack 5 []) (fun t => t.rd F.PACK_STATUS_HVIL == 1) = true := by
  decide +kernel

theorem witness_PackSleepsInsertsAndReleases_10 :
    gives .prsntNRise (kSweep true (kPack 5 [])) (fun t => t.packState == 0 && t.rd F.PACK_STATUS_PRSNT == 0 && t.chain.sweep == none) = true ∧
      gives .prsntNFall (kPack 0 []) (fun t => t.packState == 1 && t.chain.inserting) = true := by
  decide +kernel

theorem witness_PackSleepsInsertsAndReleases_11 :
    gives .packHvilOpen (kPack 5 [(F.PACK_STATUS_HVIL, 1)]) (fun t => t.rd F.PACK_STATUS_HVIL == 0 && t.packState == 5) = true ∧
      gives .packHvilOpen (kIns (kPack 1 [(F.PACK_STATUS_HVIL, 1)])) (fun t => t.packState == 1) = true ∧
      gives .packHvilOpen (kIns (kPack 3 [(F.PACK_STATUS_HVIL, 1)])) (fun t => t.packState == 8) = true ∧
      gives .packHvilClose (kWith (fun c => { c with debounced := true }) (kIns (kPack 1 []))) (fun t => t.packState == 2) = true ∧
      gives .insertionDebounceEnd (kIns (kPack 1 [])) (fun t => t.packState == 1 && t.chain.debounced) = true := by
  decide +kernel

theorem witness_PackSleepsInsertsAndReleases_12 :
    (kPack 8 []).rd F.PACK_STATUS_LIMIT = 0 ∧ (kPack 8 []).chain.openTo = none ∧
      gives (.packCmdAccept su) (kPack 8 []) (fun t => t.packState == 1 && t.chain.inserting) = true := by
  decide +kernel

theorem witness_PackSleepsInsertsAndReleases_13 :
    (kIns (kPack 1 [(F.PACK_STATUS_HVIL, 1)])).chain.inserting = true ∧
      gives .insertionDebounceEnd (kIns (kPack 1 [(F.PACK_STATUS_HVIL, 1)])) (fun t => t.packState == 2) = true := by
  decide +kernel

theorem witness_PackSleepsInsertsAndReleases_14 :
    (kPack 5 []).mayWrite su F.PACK_CMD_RELEASE ∧ (put (kPack 5 []) [(F.PWR_STATUS_MODE, 4)]).mode = 4 ∧
      idle (.packCmdRelease su) (put (kPack 5 []) [(F.PWR_STATUS_MODE, 4)]) = true ∧ (kPack 5 []).mode ≠ 4 ∧
      gives (.packCmdRelease su) (kPack 5 [(F.PACK_STATUS_CONTACTOR, 2)]) (fun t => t.packState == 6) = true := by
  decide +kernel

theorem witness_PackSleepsInsertsAndReleases_15 :
    (kPack 7 []).mayWrite su F.PACK_CMD_ACCEPT ∧ gives (.packCmdAccept su) (kPack 7 []) (fun t => t.packState == 2 && t.chain.inserting) = true := by
  decide +kernel

theorem witness_PackSleepsInsertsAndReleases_16 :
    (kPack 5 []).mayWrite su F.PACK_CMD_CLR_LIMIT ∧ (put State.reset [(F.PACK_CFG_CELLS, 0)]).warnAt 0 0 = 0 ∧
      gives (.packCmdClrLimit su) (put State.reset [(F.PACK_CFG_CELLS, 0), (F.PACK_STATUS_LIMIT, 1)]) (fun t => t.rd F.PACK_STATUS_LIMIT == 0) = true := by
  decide +kernel

theorem witness_PackSleepsInsertsAndReleases_17 :
    (kUp [(F.PACK_STATUS_LIMIT, 1), (F.PACK_LIM_V_UV_WARN, 1600), (cellField 0, 100)]).warnAt 0 0 ≠ 0 ∧
      idle (.packCmdClrLimit su) (kUp [(F.PACK_STATUS_LIMIT, 1), (F.PACK_LIM_V_UV_WARN, 1600), (cellField 0, 100)]) = true := by
  decide +kernel

theorem witness_PackSleepsInsertsAndReleases_18 :
    (kUp []).mayWrite su F.CHAIN_FW_START ∧ (kUp []).rd F.CHAIN_FW_START = 0 ∧
      gives (.chainFwStart su) (kUp []) (fun t => t.rd F.CHAIN_STATUS_FW_BUSY == 1 && t.rd (F.GCS_STATUS_STATE.i 0) == 3) = true := by
  decide +kernel

theorem witness_PackSleepsInsertsAndReleases_19 :
    (kUp [(F.CHAIN_STATUS_FW_BUSY, 1)]).chain.fwReady = false ∧
      gives (.gcsFwSwitch 3500) (kUp [(F.CHAIN_STATUS_FW_BUSY, 1)]) (fun t => t.chain.fwReady && t.rd F.CHAIN_FW_PROGRESS == 100) = true := by
  decide +kernel

theorem witness_PackSleepsInsertsAndReleases_20 :
    (kFw [(F.CHAIN_FW_UNIT, 5)]).chain.fwReady = true ∧ (kFw [(F.CHAIN_FW_UNIT, 5)]).rd F.CHAIN_FW_UNIT < 7 ∧
      gives (.gcsFwRestartDone true 9) (kFw [(F.CHAIN_FW_UNIT, 5)]) (fun t => t.rd (F.GCS_STATUS_FW_VERSION.i 5) == 9 &&
        t.rd (F.GCS_STATUS_BANK.i 5) == 1) = true ∧
      gives (.gcsFwRestartDone false 9) (kFw [(F.CHAIN_FW_UNIT, 5)]) (fun t => t.rd F.CHAIN_FW_RESULT == 2 && bitOf (t.rd (errStatus 0x68)) 4) = true := by
  decide +kernel

/-! ### The estimator -/

def cellE (q : Int) : CellEst := ⟨q, 500, 0, true, none⟩

def eWith (g : EstUnit → EstUnit) (s : State) : State := { s with est := g s.est }

/-- The contactors are closed and two cells have an estimate. -/
def eCells : State := eWith (fun x => { x with cells := [(0, cellE 100), (1, cellE 200)] }) (put State.reset [(F.PACK_STATUS_CONTACTOR, 2),
  (F.PWR_STATUS_MODE, 2), (F.EST_SHUNT_BC_GAIN, 65536)])

def eRest (l : List (Field × Nat)) : State := put eCells l

/-- A shadow table whose rows and temperatures rise. -/
def eTable : State := put eCells ([(F.OCV_TEMP_T0, 1), (F.OCV_TEMP_T1, 2), (F.OCV_TEMP_T2, 3), (F.OCV_TEMP_T3, 4)] ++
  (List.range 132).map (fun e => ((if e % 2 = 0 then F.OCV_ENTRY_OCV_A else F.OCV_ENTRY_OCV_B).i (e / 2), e % 33 + 1)))

/-- Two short of another 1 % of the capacity counted. -/
def eStep : State := eWith (fun x => { x with counted := eCells.rd F.PACK_CFG_CAP_MAH * 72000000000 - 2 }) eCells

def eRetry : State := eWith (fun x => { x with retryAt := some 3 }) (eRest [(F.EST_CTRL_POLICY, 0)])

def eForced : State := eWith (fun x => { x with forcedAt := some 5, forcedKind := 3 }) (eRest [(F.EST_CTRL_POLICY, 0)])

theorem crcBit_lt (c : Nat) (h : c < 2 ^ 32) : crcBit c < 2 ^ 32 := by
  unfold crcBit
  split
  · exact Nat.xor_lt_two_pow (by omega) (by norm_num)
  · omega

theorem crc32c_lt (l : List Nat) (h : ∀ b ∈ l, b < 2 ^ 32) : crc32c l < 2 ^ 32 := by
  have bits : ∀ (n : List Nat) (c : Nat), c < 2 ^ 32 → n.foldl (fun c _ => crcBit c) c < 2 ^ 32 := by
    intro n
    induction n with
    | nil => exact fun c hc => hc
    | cons _ t ih => exact fun c hc => ih _ (crcBit_lt c hc)
  have all : ∀ (l : List Nat) (c : Nat), (∀ b ∈ l, b < 2 ^ 32) → c < 2 ^ 32 → l.foldl crcByte c < 2 ^ 32 := by
    intro l
    induction l with
    | nil => exact fun c _ hc => hc
    | cons b t ih =>
      exact fun c hl hc => ih _ (fun x hx => hl x (by simp [hx])) (bits _ _ (Nat.xor_lt_two_pow hc (hl b (by simp))))
  exact Nat.xor_lt_two_pow (all l _ h (by norm_num)) (by norm_num)

theorem leBytes_lt (n v : Nat) : ∀ b ∈ leBytes n v, b < 2 ^ 32 := by
  induction n generalizing v with
  | zero => simp [leBytes]
  | succ n ih =>
    intro b hb
    rcases List.mem_cons.1 hb with rfl | hb
    · omega
    · exact ih _ b hb

theorem key_i_ne (f : Field) (h : 0 < f.stride) {m n : Nat} (hmn : m < n) : (f.i m).key ≠ (f.i n).key := by
  have := Nat.mul_lt_mul_of_pos_left hmn h
  simp only [Field.key, Field.i]
  omega

theorem rbWord_wr (s : State) (v w : Nat) (hw : w < 33) : (s.wr (F.EST_RB_WORD.i 33) v).rbWord w = s.rbWord w :=
  State.rd_wr_ne _ _ _ _ (key_i_ne _ (by decide) hw)

theorem rbCheck_wr (s : State) (v : Nat) : (s.wr (F.EST_RB_WORD.i 33) v).rbCheck = s.rbCheck :=
  congrArg crc32c (List.flatMap_congr fun w hw => by rw [rbWord_wr s v w (List.mem_range.1 hw)])

theorem rbCheck_lt (s : State) : s.rbCheck < 2 ^ 32 :=
  crc32c_lt _ fun b hb => by
    obtain ⟨w, _, hw⟩ := List.mem_flatMap.1 hb
    exact leBytes_lt _ _ _ hw

/-- A block that matches: its check word is the one of its other words. -/
theorem rbMatches_of (s t : State) (ht : t = s.wr (F.EST_RB_WORD.i 33) s.rbCheck)
    (h0 : s.rbWord 0 = 0x4D4C4553 * 2 ^ 32 + 1 * 2 ^ 16 + 272)
    (h2 : s.rbWord 2 / 2 ^ 8 % 2 ^ 8 = s.rd F.PACK_CFG_CELLS) (h1 : s.rbWord 1 = s.rd (F.GCS_SERIAL_SERIAL.i 0)) :
    t.rbMatches = true := by
  have last : t.rbWord 33 = s.rbCheck % 2 ^ 64 := ht ▸ State.rd_wr_same _ _ _ (by decide)
  have cells : t.rd F.PACK_CFG_CELLS = s.rd F.PACK_CFG_CELLS := ht ▸ State.rd_wr_ne _ _ _ _ (by decide)
  have serial : t.rd (F.GCS_SERIAL_SERIAL.i 0) = s.rd (F.GCS_SERIAL_SERIAL.i 0) := ht ▸ State.rd_wr_ne _ _ _ _ (by decide)
  have check : t.rbCheck = s.rbCheck := ht ▸ rbCheck_wr _ _
  have other : ∀ w < 33, t.rbWord w = s.rbWord w := fun w hw => ht ▸ rbWord_wr _ _ _ hw
  have small := rbCheck_lt s
  clear ht
  simp only [State.rbMatches, check, last, other 0 (by omega), other 1 (by omega), other 2 (by omega), cells, serial, h0, h1, h2,
    Bool.and_eq_true, beq_iff_eq, and_true, true_and]
  omega

/-- The first words of a block for this pack. -/
def eBlock : State := put (eRest []) [(F.EST_RB_WORD.i 0, 0x4D4C4553 * 2 ^ 32 + 1 * 2 ^ 16 + 272),
  (F.EST_RB_WORD.i 2, (eRest []).rd F.PACK_CFG_CELLS * 2 ^ 8)]

/-- The steward at L0 may write the module's pages. -/
theorem su_mayWrite (s : State) (f : Field) (i : PageInfo) (h : pageInfo f.page = some i) (hf : 2 ≤ i.frond) : s.mayWrite su f := by
  simp [State.mayWrite, State.pageFault, h, State.classOk, State.recoveryShut, State.bridgeCuts, Level.num, Nat.not_lt.2 hf]

theorem witness_restoreMatches : ∃ s : State, s.rbMatches = true ∧ s.mayWrite su F.EST_CMD_RESTORE :=
  ⟨eBlock.wr (F.EST_RB_WORD.i 33) eBlock.rbCheck, rbMatches_of eBlock _ rfl (by decide +kernel) (by decide +kernel) (by decide +kernel),
    su_mayWrite _ _ _ rfl (by decide)⟩

theorem witness_ChargeIsCountedAndRestWindowsRun_1 :
    eCells.est.counted + (10 * eCells.countedUa 7 0).natAbs < eCells.rd F.PACK_CFG_CAP_MAH * 72000000000 ∧ eCells.bleeds 0 = false ∧
      gives (.chargeIntegrate 7 0) eCells (fun t => t.est.second == 70 && t.est.cells.map (fun e => e.2.q) == [30, 130]) = true := by
  decide +kernel

theorem witness_ChargeIsCountedAndRestWindowsRun_2 :
    gives .uncertaintyGrowth (eWith (fun x => { x with second := 9 }) eCells) (fun t => t.est.second == 0 && t.est.cells.length == 2) = true ∧
      gives .packFiguresUpdate eCells (fun _ => true) = true := by
  decide +kernel

theorem witness_ChargeIsCountedAndRestWindowsRun_3 :
    (eWith (fun x => { x with stillSince := some 0 }) eCells).est.stillSince ≠ none ∧ eCells.mode ≠ 0 ∧
      gives .restRecognised (eWith (fun x => { x with stillSince := some 0 }) eCells) (fun t => t.est.atRest && t.rd F.EST_STATUS_REST_STATE == 3) = true := by
  decide +kernel

theorem witness_ChargeIsCountedAndRestWindowsRun_4 :
    (eRest [(F.EST_CTRL_POLICY, 2)]).restPolicy = 2 ∧ idle .restWindowDue (eRest [(F.EST_CTRL_POLICY, 2)]) = true ∧
      (eRest [(F.EST_CTRL_POLICY, 0)]).restPolicy ≠ 2 ∧ (eRest [(F.EST_CTRL_POLICY, 0)]).restComing = [] ∧
      idle .restWindowDue (eRest [(F.EST_CTRL_POLICY, 0)]) = true := by
  decide +kernel

theorem witness_ChargeIsCountedAndRestWindowsRun_5 :
    leastFirst (eWith (fun x => { x with sched := some 3 }) (eRest [(F.EST_CTRL_POLICY, 0)])).restComing ≠ none ∧
      gives .restWindowDue (eWith (fun x => { x with sched := some 3 }) (eRest [(F.EST_CTRL_POLICY, 0)])) (fun t => t.est.sched == none) = true := by
  decide +kernel

theorem witness_ChargeIsCountedAndRestWindowsRun_6 :
    (eRest []).rd F.PWR_STATUS_REST = 0 ∧ idle .restWindowTimeout (eRest []) = true ∧
      gives .restWindowTimeout (eRest [(F.PWR_STATUS_REST, 1)]) (fun t => t.rd F.PWR_STATUS_REST == 0) = true := by
  decide +kernel

theorem witness_ChargeIsCountedAndRestWindowsRun_7 :
    (eRest []).mayWrite su F.EST_CMD_ABORT_REST ∧ gives (.estCmdAbortRest su) (eRest [(F.PWR_STATUS_REST, 1)]) (fun t =>
        t.rd F.PWR_STATUS_REST == 0) = true ∧
      idle (.estCmdRestNow su) (eRest [(F.PWR_STATUS_REST, 1)]) = true ∧ (eRest [(F.EST_CTRL_POLICY, 0)]).forcedDue = false ∧
      gives (.estCmdRestNow su) (eRest [(F.EST_CTRL_POLICY, 0)]) (fun t => t.forcedDue) = true := by
  decide +kernel

theorem witness_ChargeIsCountedAndRestWindowsRun_8 :
    (eRest []).mayWrite su F.EST_CTRL_POLICY ∧ gives (.estCtrlWrite su 2) (eRest []) (fun t => t.rd F.EST_CTRL_POLICY == 2) = true := by
  decide +kernel

theorem witness_ChargeIsCountedAndRestWindowsRun_9 :
    (eRest []).mayWrite su F.OCV_CMD_COMMIT ∧ (eRest []).shadowGood = false ∧
      gives (.ocvCommit su) (eRest []) (fun t => t.rd F.OCV_STATUS_TABLE_BAD == 1 && bitOf (t.rd (errStatus 0x71)) 0) = true := by
  decide +kernel

theorem witness_ChargeIsCountedAndRestWindowsRun_10 :
    eTable.shadowGood = true ∧ gives (.ocvCommit su) eTable (fun t => t.est.temps == [1, 2, 3, 4] && t.rd F.OCV_STATUS_ROM == 0) = true := by
  decide +kernel

theorem witness_ChargeIsCountedAndRestWindowsRun_11 :
    (eRest []).mayWrite su F.EST_CMD_CAPTURE ∧ (eRest []).mayWrite su F.EST_CMD_RESTORE ∧ (eRest []).rbMatches = false ∧
      gives (.estCmdRestore su) (eRest []) (fun t => bitOf (t.rd (errStatus 0x70)) 3) = true := by
  decide +kernel

theorem witness_ChargeIsCountedAndRestWindowsRun_12 :
    (eRest []).rd F.PACK_CFG_CAP_MAH * 72000000000 ≠ 0 ∧ eStep.countedUa 10 0 = 10 ∧
      (eRest []).rd F.PACK_CFG_CAP_MAH * 72000000000 ≤ eStep.est.counted + (10 * eStep.countedUa 10 0).natAbs ∧
      gives (.chargeIntegrate 10 0) eStep (fun t => t.est.counted == 98 && t.rd F.EST_CAP_N_EFC == 2500001) = true := by
  decide +kernel

theorem witness_ChargeIsCountedAndRestWindowsRun_13 :
    leastFirst eRetry.restComing = some (3, 4) ∧ gives .restWindowDue eRetry (fun t => t.est.retryAt == none && t.est.due.contains 4) = true ∧
      leastFirst eForced.restComing = some (5, 3) ∧ gives .restWindowDue eForced (fun t => t.est.forcedAt == none && t.est.due.contains 3) = true ∧
      idle (.estCmdRestNow su) (eRest [(F.EST_CTRL_POLICY, 2)]) = true := by
  decide +kernel

/-! ### Collectors and recovery -/

/-- An unfenced module page or frond page with a latch on its way; ERR_ACTION is 0. -/
def xLatch (p : Nat) : State :=
  let s := State.reset.setReg (F.ERR_ACTION_ACTION.pg p).key 0
  { s with latches := [(p, 1, false)] }

theorem witness_LatchesReachTheirCollectors_1 :
    (pageInfo 0x28).map (·.frond) = some 15 ∧ (xLatch 0x28).reacts 0x28 1 false 2 = false ∧ (xLatch 0x28).reacts 0x28 1 false 3 = false ∧
      (xLatch 0x28).reacts 0x28 1 false 4 = false ∧ (xLatch 0x28).rd F.MFS_SRC = 0 ∧
      gives .collectorLatch (xLatch 0x28) (fun t => t.latches == [] && bitOf (t.rd F.MFS_SRC) (colBit 0x28) && t.rd F.MCOL_FIRST_PAGE == 0x28 &&
        t.rd F.MCOL_FIRST_BIT == 1) = true := by
  decide +kernel

theorem witness_LatchesReachTheirCollectors_2 :
    (pageInfo (tilePage .B 131)).map (·.frond) = some 1 ∧ (xLatch (tilePage .B 131)).reacts (tilePage .B 131) 1 false 2 = false ∧
      (xLatch (tilePage .B 131)).reacts (tilePage .B 131) 1 false 3 = false ∧ (xLatch (tilePage .B 131)).reacts (tilePage .B 131) 1 false 4 = false ∧
      gives .collectorLatch (xLatch (tilePage .B 131)) (fun t => bitOf (t.rd (ffs .B)) (colBit (tilePage .B 131)) && bitOf (t.rd F.MFS_SRC) 1) = true := by
  decide +kernel

theorem witness_LatchesReachTheirCollectors_3 :
    State.reset.latches = [] ∧ idle .collectorLatch State.reset = true := by
  decide +kernel

def xFfs (l : List (Field × Nat)) : State := put State.reset l

theorem witness_CollectorBitsClearAndAliveToggles_1 :
    (xFfs [(F.MFS_SRC, 2 ^ 26)]).mayWrite su F.MFS_SRC ∧ (xFfs [(F.MFS_SRC, 2 ^ 26)]).mfsPin 26 = false ∧
      gives (.mfsWrite su (2 ^ 26)) (xFfs [(F.MFS_SRC, 2 ^ 26)]) (fun t => t.rd F.MFS_SRC == 0) = true := by
  decide +kernel

theorem witness_CollectorBitsClearAndAliveToggles_2 :
    gives (.mfsWrite su (2 ^ 26 + 1)) (xFfs [(F.MFS_SRC, 2 ^ 26 + 2 ^ 25 + 1), (ffs .A, 1)]) (fun t => t.rd F.MFS_SRC == 2 ^ 25 + 1) = true := by
  decide +kernel

theorem witness_CollectorBitsClearAndAliveToggles_3 :
    (xFfs [(F.MFS_SRC, 1), (ffs .A, 1)]).mfsPin 0 = true ∧ idle (.mfsWrite su 1) (xFfs [(F.MFS_SRC, 1), (ffs .A, 1)]) = true := by
  decide +kernel

theorem witness_CollectorBitsClearAndAliveToggles_4 :
    (xFfs [(ffs .B, 2 ^ 14)]).mayWrite su (ffs .B) ∧ (xFfs [(ffs .B, 2 ^ 14)]).ffsPin .B 14 = false ∧
      gives (.ffsWrite su .B (2 ^ 14)) (xFfs [(ffs .B, 2 ^ 14)]) (fun t => t.rd (ffs .B) == 0) = true := by
  decide +kernel

theorem witness_CollectorBitsClearAndAliveToggles_5 :
    (xFfs [(F.MCOL_STATUS_SELF_OK, 1)]).feHeld = false ∧ gives .aliveToggle (xFfs [(F.MCOL_STATUS_SELF_OK, 1)]) (fun t =>
        t.col.alive == !State.reset.col.alive && t.rd F.MCOL_STATUS_ALIVE_RUN == 1) = true ∧
      gives .aliveToggle (xFfs [(F.MCOL_STATUS_SELF_OK, 0)]) (fun t => t.col.alive == State.reset.col.alive) = true ∧
      gives .aliveToggle (xFfs [(F.MCOL_STATUS_SELF_OK, 0), (F.MCOL_STATUS_ALIVE_RUN, 1)]) (fun t => t.rd F.MCOL_STATUS_ALIVE_RUN == 0 &&
        t.recorder.ring.length == 1) = true ∧
      gives (.collectorSelfCheck false) (xFfs [(F.MCOL_STATUS_SELF_OK, 1)]) (fun t => bitOf (t.rd (errStatus 0x80)) 0) = true := by
  decide +kernel

def xPulse (l : List (Field × Nat)) : State :=
  let s := put State.reset l
  { s with col := { s.col with pulse := true } }

theorem witness_FaultPinPulsesHoldsAndReleases_1 :
    State.reset.mayWrite su F.MCOL_PIN_ASSERT ∧ State.reset.col.pulse = false ∧ State.reset.rd F.MCOL_STATUS_FAULT_N_OUT = 0 ∧
      gives (.mcolPinAssert su) State.reset (fun t => t.col.pulse && t.rd F.MCOL_STATUS_FAULT_N_OUT == 1) = true ∧
      gives (.mcolPinAssert su) (xPulse []) (fun t => t.col.pulse) = true ∧
      idle (.mcolPinAssert su) (xFfs [(F.MCOL_STATUS_FAULT_N_OUT, 1)]) = true := by
  decide +kernel

theorem witness_FaultPinPulsesHoldsAndReleases_2 :
    gives .faultNPulseEnd (xPulse [(F.MCOL_PIN_HOLD, 1), (F.MCOL_STATUS_FAULT_N_OUT, 1)]) (fun t => t.rd F.MCOL_STATUS_FAULT_N_OUT == 1 && !t.col.pulse) = true ∧
      gives .faultNPulseEnd (xPulse [(F.MCOL_PIN_HOLD, 0), (F.MCOL_STATUS_FAULT_N_OUT, 1)]) (fun t => t.rd F.MCOL_STATUS_FAULT_N_OUT == 0) = true := by
  decide +kernel

theorem witness_FaultPinPulsesHoldsAndReleases_3 :
    State.reset.mayWrite su F.MCOL_PIN_RELEASE ∧
      gives (.mcolPinRelease su) (xFfs [(F.MCOL_STATUS_FAULT_N_OUT, 1)]) (fun t => t.rd F.MCOL_STATUS_FAULT_N_OUT == 0) = true ∧
      idle (.mcolPinRelease su) (xPulse [(F.MCOL_STATUS_FAULT_N_OUT, 1)]) = true ∧ idle .faultNPulseEnd State.reset = true ∧
      gives (.fcolSelfCheckLost .B) (xFfs [(F.MCOL_STATUS_FROND_B_FENCED, 1)]) (fun t => bitOf (t.rd (errStatus 0x80)) 2) = true ∧
      idle (.frondTempFence .A) (xFfs [(F.MCOL_STATUS_FROND_A_FENCED, 1)]) = true := by
  decide +kernel

/-- Context 5 is in reset. -/
def xCtx (st : Nat) : State := put (cSel (fun x => { x with resetting := true })) [(F.PART_STATUS_STATE.i 1, st)]

def xStep (step target : Nat) (s : State) : State := { s with rst := { s.rst with steps := [⟨step, target, 0, 0⟩] } }

def xChip (ph : Nat) (l : List (Field × Nat)) : State := put State.reset ([(F.RST_STATUS_STEP, 4), (F.RST_STATUS_PHASE, ph),
  (acf F.ACAL_STATUS_FULL_CAL_BUSY .A, 0), (acf F.ACAL_STATUS_FULL_CAL_BUSY .B, 0)] ++ l)

def xEng : State := put State.reset [(ef F.ENG_STATUS_STATE .A 43, 3)]

def xWait : State :=
  let s := cSel (fun x => { x with wait := some ⟨3, 0, 0, false⟩ })
  { s with phase := { s.phase with copyA := { s.phase.copyA with valid := false } } }

theorem witness_RecoveryStepsRunAndEscalate_1 :
    cIdle.mayWrite su F.CTX_CMD_CMD ∧ (cIdle.ctx (cIdle.sel su F.CTX_SEL_ID.key % 65536)).alloc = true ∧
      gives (.ctxReset su) cIdle (fun t => (t.ctx 5).resetting) = true ∧
      (cFree.ctx (cFree.sel su F.CTX_SEL_ID.key % 65536)).alloc = false ∧
      gives (.ctxReset su) cFree (fun t => bitOf (t.rd (errStatus 0x20)) 2) = true := by
  decide +kernel

theorem witness_RecoveryStepsRunAndEscalate_2 :
    State.reset.mayWrite su F.RST_CMD_CMD ∧ State.reset.rd F.RST_STATUS_STEP ≤ 3 ∧ (43 : BitVec 16).toNat % 64 < 44 ∧
      gives (.rstCmdEngine su 43) State.reset (fun t => t.rd (ef F.ENG_STATUS_STATE .A 43) == 3) = true ∧
      gives (.rstCmdPartition su 1) (cAt []) (fun t => t.partState 1 == 4) = true ∧
      idle (.rstCmdEngine su 44) State.reset = true ∧ idle (.rstCmdEngine su 43) (xChip 0 []) = true ∧ idle (.rstCmdPartition su 64) (cAt []) = true := by
  decide +kernel

theorem witness_RecoveryStepsRunAndEscalate_3 :
    ((xCtx 2).ctx 5).resetting = true ∧ (xCtx 2).ctxReleased 5 = true ∧ (xCtx 2).partState ((xCtx 2).ctx 5).part ≠ 4 ∧
      gives (.contextResetComplete 5) (xCtx 2) (fun t => !(t.ctx 5).resetting) = true ∧ idle (.contextResetComplete 5) (xCtx 4) = true ∧
      idle (.contextResetComplete 5) (cSel (fun x => x)) = true ∧ idle (.contextResetTileTimeout 5) (xCtx 2) = true := by
  decide +kernel

theorem witness_RecoveryStepsRunAndEscalate_4 :
    (put (xCtx 2) [(tf F.TSEQ_STATUS_STATE .A 0, 4), (tf F.TSEQ_STATUS_CTX .A 0, 5)]).ctxReleased 5 = false ∧
      gives (.contextResetTileTimeout 5) (put (xCtx 2) [(tf F.TSEQ_STATUS_STATE .A 0, 4), (tf F.TSEQ_STATUS_CTX .A 0, 5)]) (fun t =>
        t.rd F.RST_LAST_FAILED == 1 && t.partState 1 == 4) = true := by
  decide +kernel

theorem witness_RecoveryStepsRunAndEscalate_5 :
    xEng.rd (ef F.ENG_STATUS_STATE .A 43) = 3 ∧ xEng.engInPartReset .A 43 = false ∧
      gives (.engineResetComplete .A 43) xEng (fun t => t.rd (ef F.ENG_STATUS_STATE .A 43) == 0 && t.rd (ef F.ENG_STATUS_GEN .A 43) == 1) = true ∧
      gives (.engineResetTimeout .A 43) xEng (fun t => t.rd (ef F.ENG_STATUS_STATE .A 43) == 2) = true ∧
      idle (.engineResetComplete .A 42) xEng = true ∧ idle (.engineResetTimeout .A 42) xEng = true := by
  decide +kernel

theorem witness_RecoveryStepsRunAndEscalate_6 :
    (xStep 3 1 (cAt [])).partState 1 = 2 ∧ ((xStep 3 1 (cAt [])).stepOf 3 1).isSome = true ∧
      gives (.partitionResetComplete 1) (xStep 3 1 (cAt [])) (fun t => t.rst.steps == []) = true ∧ idle (.partitionResetComplete 1) (cAt []) = true ∧
      idle (.partitionResetComplete 2) (cAt []) = true := by
  decide +kernel

theorem witness_RecoveryStepsRunAndEscalate_7 :
    (xCtx 4).partState 1 = 4 ∧ Sparse.get (fun _ => 0) (xCtx 4).work.building 1 = 0 ∧
      gives (.partitionResetComplete 1) (xCtx 4) (fun t => t.partState 1 != 4) = true := by
  decide +kernel

theorem witness_RecoveryStepsRunAndEscalate_8 :
    (State.reset.stepOf 4 0).isNone = true ∧ idle (.recoveryStepOverrun 4 0) State.reset = true ∧
      ((xStep 4 0 State.reset).stepOf 4 0).isSome = true ∧ ((xStep 1 5 cIdle).stepOf 1 5).isSome = true ∧
      gives (.recoveryStepOverrun 1 5) (xStep 1 5 cIdle) (fun t => t.rd F.RST_LAST_FAILED == 1) = true ∧
      gives (.recoveryStepOverrun 2 43) (xStep 2 43 xEng) (fun t => t.rd F.RST_LAST_FAILED == 1 && t.rd (ef F.ENG_STATUS_STATE .A 43) == 2) = true ∧
      idle (.recoveryStepOverrun 5 0) (xStep 5 0 State.reset) = true := by
  decide +kernel

theorem witness_RecoveryStepsRunAndEscalate_9 :
    (xWait.ctx 5).alloc = true ∧ (xWait.ctx 5).wait = some ⟨3, 0, 0, false⟩ ∧ (xWait.copyOf (xWait.partFrond (xWait.ctx 5).part)).valid = false ∧
      gives (.phaseInvalidTimeout 5) xWait (fun t => (t.ctx 5).faulted) = true := by
  decide +kernel

/-- A phase that finds everything good. -/
def tGood : Training := ⟨true, [], [], true⟩

theorem witness_ChipResetPhasesAndPowerCycleRequest_1 :
    (wMode 1).mayWrite su F.RST_CMD_CMD ∧ (wMode 1).rd F.RST_STATUS_STEP < 4 ∧ (wMode 1).power.stopPhase = 0 ∧ (wMode 1).mode ≠ 0 ∧
      (wMode 1).chipsHour.length < max 1 ((wMode 1).rd F.RST_CTRL_CHIP_MAX) ∧ (wMode 1).rd F.MCOL_STATUS_PC_REQ = 0 ∧
      gives (.rstCmdPowerCycle su) (wMode 1) (fun t => t.rd F.MCOL_STATUS_PC_REQ == 1) = true := by
  decide +kernel

theorem witness_ChipResetPhasesAndPowerCycleRequest_2 :
    4 ≤ (xChip 3 []).rd F.RST_STATUS_STEP ∧ idle (.rstCmdChip su) (xChip 3 []) = true ∧
      idle (.rstCmdPowerCycle su) (put (wMode 0) [(F.MCOL_STATUS_PC_REQ, 1)]) = true := by
  decide +kernel

theorem witness_ChipResetPhasesAndPowerCycleRequest_3 :
    (xChip 1 [(F.RST_CTRL_LBIST, 1), (F.MCOL_STATUS_FROND_A_FENCED, 1), (F.MCOL_STATUS_FROND_B_FENCED, 1)]).rd F.RST_STATUS_PHASE = 1 ∧
      gives (.chipResetPhaseDone tGood) (xChip 1 [(F.RST_CTRL_LBIST, 1), (F.MCOL_STATUS_FROND_A_FENCED, 1), (F.MCOL_STATUS_FROND_B_FENCED, 1)]) (fun t => t.rd F.RST_STATUS_PHASE == 2) = true ∧
      gives (.chipResetPhaseDone tGood) (xChip 1 [(F.RST_CTRL_LBIST, 0), (F.MCOL_STATUS_FROND_A_FENCED, 1), (F.MCOL_STATUS_FROND_B_FENCED, 1)]) (fun t => t.rd F.RST_STATUS_PHASE == 3) = true := by
  decide +kernel

theorem witness_ChipResetPhasesAndPowerCycleRequest_4 :
    (xChip 3 []).calDone = true ∧ gives (.chipResetPhaseDone tGood) (xChip 3 []) (fun t => t.rd F.RST_STATUS_PHASE == 4) = true ∧
      (xChip 5 []).portsDone = true ∧
      (xChip 3 [(acf F.ACAL_STATUS_FULL_CAL_BUSY .B, 1)]).calDone = false ∧ idle (.chipResetPhaseDone tGood) (xChip 3 [(acf F.ACAL_STATUS_FULL_CAL_BUSY .B, 1)]) = true ∧
      idle (.chipResetPhaseDone tGood) State.reset = true ∧ (xChip 0 []).rd F.RST_STATUS_PHASE = 0 ∧
      gives (.chipResetPhaseDone tGood) (xStep 4 0 (xChip 6 [])) (fun t => t.rd F.RST_STATUS_STEP == 0) = true := by
  decide +kernel

theorem witness_ChipResetPhasesAndPowerCycleRequest_5 :
    (put (wMode 0) [(F.MCOL_STATUS_PC_REQ, 1)]).power.stopPhase = 0 ∧ (put (wMode 0) [(F.MCOL_STATUS_PC_REQ, 1)]).rst.pcTold = false ∧
      (put (wMode 0) [(F.MCOL_STATUS_PC_REQ, 1)]).rd F.RST_TRAY_PC_ACKED = 0 ∧
      gives .powerCycleIbi (put (wMode 0) [(F.MCOL_STATUS_PC_REQ, 1)]) (fun t => t.rst.pcTold) = true ∧
      idle .powerCycleIbi (wMode 0) = true ∧ idle .powerCycleIbi (put (wMode 0) [(F.MCOL_STATUS_PC_REQ, 1), (F.RST_TRAY_PC_ACKED, 1)]) = true := by
  decide +kernel

theorem witness_TrayCommandsAct_1 :
    gives .trayPcAck (xFfs [(F.MCOL_STATUS_PC_REQ, 1)]) (fun t => t.rd F.RST_TRAY_PC_ACKED == 1 && t.rd F.RST_TRAY_LAST_CMD == 0x12) = true := by
  decide +kernel

theorem witness_TrayCommandsAct_2 :
    gives .trayFaultRelease (xFfs [(F.MCOL_STATUS_FAULT_N_OUT, 1)]) (fun t => t.rd F.MCOL_STATUS_FAULT_N_OUT == 0) = true ∧
      gives .trayFaultRelease (xPulse [(F.MCOL_STATUS_FAULT_N_OUT, 1)]) (fun t => t.rd F.MCOL_STATUS_FAULT_N_OUT == 1) = true ∧
      gives .trayPcAck (xFfs []) (fun t => t.rd F.RST_TRAY_PC_ACKED == 0 && t.rd F.RST_TRAY_LAST_CMD == 0x12) = true := by
  decide +kernel

theorem witness_TrayCommandsAct_3 :
    gives .trayReadStatus (wMode 4) (fun t => match t.outbox with | [.answer true false [_]] => true | _ => false) = true ∧
      gives .trayReadMfs (xFfs [(F.MFS_SRC, 0x04000201)]) (fun t => t.outbox == [.answer true false [1, 2, 0, 4]]) = true := by
  decide +kernel

def xDump (l : List (Field × Nat)) (g : DumpUnit → DumpUnit) : State :=
  let s := put State.reset l
  { s with dump := g s.dump }

theorem witness_CrashDumpAndHangScan_1 :
    State.reset.mayWrite su F.DUMP_CMD_CAPTURE ∧ State.reset.rd F.DUMP_STATUS_BUSY = 0 ∧ State.reset.rd F.DUMP_STATUS_FLUSHING = 0 ∧
      idle (.dumpCapture su) (xFfs [(F.DUMP_STATUS_FLUSHING, 1)]) = true ∧ idle (.dumpFlush su) (xFfs [(F.DUMP_STATUS_FLUSHING, 1), (F.DUMP_STATUS_SRAM_VALID, 1)]) = true ∧
      idle (.dumpFlush su) State.reset = true ∧ idle .dumpCaptureDone State.reset = true ∧ idle (.dumpFlashWriteDone true) State.reset = true ∧
      gives (.dumpFlush su) (xFfs [(F.DUMP_STATUS_SRAM_VALID, 1)]) (fun t => t.rd F.DUMP_STATUS_FLUSHING == 1) = true ∧
      gives (.dumpErase su) (xDump [(F.DUMP_STATUS_FLASH_VALID, 1)] (fun d => { d with slots := [(1, some ⟨7, []⟩)] })) (fun t =>
        t.dumpSlot 1 == none && t.rd F.DUMP_STATUS_FLASH_VALID == 0) = true := by
  decide +kernel

theorem witness_CrashDumpAndHangScan_2 :
    gives .dumpCaptureDone (xDump [(F.DUMP_STATUS_BUSY, 1)] (fun d => { d with taking := some ⟨7, []⟩ })) (fun t => t.dump.sram == some ⟨7, []⟩ &&
      t.rd F.DUMP_STATUS_FLUSHING == 1) = true := by
  decide +kernel

theorem witness_CrashDumpAndHangScan_3 :
    gives (.dumpFlashWriteDone true) (xDump [(F.DUMP_STATUS_FLUSHING, 1)] (fun d => { d with sram := some ⟨7, []⟩ })) (fun t =>
        t.dumpSlot 1 == some ⟨7, []⟩) = true ∧
      gives (.dumpFlashWriteDone false) (xDump [(F.DUMP_STATUS_FLUSHING, 1)] (fun d => { d with sram := some ⟨7, []⟩ })) (fun t =>
        t.dumpSlot 1 == none && bitOf (t.rd (errStatus 0x84)) 0) = true := by
  decide +kernel

theorem witness_CrashDumpAndHangScan_4 :
    idle .hangScan (xFfs [(F.HANG_CFG_EN, 0)]) = true ∧ (xFfs [(F.HANG_CFG_EN, 1)]).chipReset = false ∧
      gives .hangScan (xFfs [(F.HANG_CFG_EN, 1)]) (fun t => t.rd F.HANG_STATUS_SCANS == 1) = true := by
  decide +kernel

/-! ### Interrupts and the recorder -/

/-- Source 255 of the PIC: wired, level-sensitive, enabled at priority 9 for target 1. -/
def iSrc (l : List (Field × Nat)) : State := put State.reset ([(srcField .pic F.SRC_WIRED 255, 1), (srcField .pic F.SRC_SENSE 255, 0),
  (srcField .pic F.SRC_FILT 255, 1), (srcField .pic F.SRC_ENABLE 255, 1), (srcField .pic F.SRC_PRIO 255, 9), (srcField .pic F.SRC_TARGET 255, 1),
  (srcField .pic F.SRC_MOD_EN 255, 0), (F.FIC_CTRL_EN.pg (ctlPage .pic), 1)] ++ l)

def iPend (l : List (Field × Nat)) : State := iSrc (((F.FIC_PEND_SET_PEND.pg (ctlPage .pic)).i 3, 2 ^ 63) :: l)

def iHigh : State := iPend [((F.FIC_LINE_LINE.pg (ctlPage .pic)).i 3, 2 ^ 63)]

def iStack (l : List (Nat × Nat)) (s : State) : State := s.setCtl .pic { s.ctl .pic with claims := [(1, l)] }

theorem witness_LinesAndPendingWritesSetSources_1 :
    irqExists .pic 255 = true ∧ (iSrc []).on (srcField .pic F.SRC_WIRED 255) = true ∧ (iSrc []).irqLine .pic 255 = false ∧
      gives (.irqLineChange .pic 255 true) (iSrc []) (fun t => t.irqPending .pic 255 && t.irqLine .pic 255) = true := by
  decide +kernel

theorem witness_LinesAndPendingWritesSetSources_2 :
    (iSrc []).mayWrite su ((F.FIC_PEND_SET_PEND.pg (ctlPage .pic)).i 3) ∧ irqNamed .pic 3 (2 ^ 63) = [255] ∧
      gives (.ficPendSet su .pic 3 (2 ^ 63)) (iSrc []) (fun t => t.irqPending .pic 255) = true := by
  decide +kernel

theorem witness_LinesAndPendingWritesSetSources_3 :
    (iSrc []).mayWrite su ((F.FIC_PEND_CLR_PEND.pg (ctlPage .pic)).i 3) ∧
      gives (.ficPendClr su .pic 3 (2 ^ 63)) (iPend []) (fun t => !t.irqPending .pic 255) = true ∧
      gives (.ficPendClr su .pic 3 (2 ^ 63)) iHigh (fun t => t.irqPending .pic 255) = true := by
  decide +kernel

theorem witness_ClaimsAndEndsOfInterruptKeepTheStack_1 :
    irqTargetExists .pic 1 = true ∧ (iPend []).irqPresented .pic 1 = some 255 ∧
      gives (.irqClaim .pic 1) (iPend []) (fun t => t.irqActive .pic 255 && t.irqStack .pic 1 == [(255, 9)] && !t.irqPending .pic 255) = true := by
  decide +kernel

theorem witness_ClaimsAndEndsOfInterruptKeepTheStack_2 :
    (iSrc []).irqPresented .pic 1 = none ∧ gives (.irqClaim .pic 1) (iSrc []) (fun t => t.rd (F.FIC_STATS_SPURIOUS.pg (ctlPage .pic)) == 1) = true := by
  decide +kernel

theorem witness_ClaimsAndEndsOfInterruptKeepTheStack_3 :
    (iSrc []).mayWrite su ((F.FIC_EOI_ID.pg (ctlPage .pic)).i 1) ∧ (iStack [(255, 9)] iHigh).irqStack .pic 1 = [(255, 9)] ∧
      gives (.ficEoi su .pic 1 255) (iStack [(255, 9)] iHigh) (fun t => t.irqStack .pic 1 == [] && t.irqPending .pic 255) = true ∧
      idle (.ficEoi su .pic 1 1023) (iStack [(255, 9)] iHigh) = true := by
  decide +kernel

theorem witness_ClaimsAndEndsOfInterruptKeepTheStack_4 :
    ((iSrc []).irqStack .pic 1).head?.map Prod.fst ≠ some 254 ∧
      gives (.ficEoi su .pic 1 254) (iSrc []) (fun t => bitOf (t.rd (errStatus (ctlPage .pic))) 0) = true := by
  decide +kernel

def iMod (l : List (Field × Nat)) : State := iPend ((srcField .pic F.SRC_MOD_EN 255, 1) :: (srcField .pic F.SRC_MOD_GRP 255, 31) :: l)

/-- Source 1000 of frond A's controller, moderated, for core 7, which runs. -/
def iCore : State := put State.reset [(srcField (.fic .A) F.SRC_MOD_EN 1000, 1), (srcField (.fic .A) F.SRC_TARGET 1000, 7),
  ((F.FIC_PEND_SET_PEND.pg (ctlPage (.fic .A))).i 15, 2 ^ 40), (F.CORE_STATUS_STATE.pg (corePage .A 7), 1)]

theorem witness_ModerationReleasesHeldSources_1 :
    (iMod [((F.FIC_MOD_TIME_US.pg (ctlPage .pic)).i 31, 5)]).on ((F.FIC_MOD_TIME_US.pg (ctlPage .pic)).i 31) = true ∧
      255 ∈ (iMod [((F.FIC_MOD_TIME_US.pg (ctlPage .pic)).i 31, 5)]).irqGroupIds .pic 31 ∧
      gives (.modGroupRelease .pic 31) (iMod [((F.FIC_MOD_TIME_US.pg (ctlPage .pic)).i 31, 5)]) (fun t => (t.ctl .pic).released == [255]) = true := by
  decide +kernel

theorem witness_ModerationReleasesHeldSources_2 :
    iCore.rd (F.CORE_STATUS_STATE.pg (corePage .A 7)) = 1 ∧ iCore.irqPending (.fic .A) 1000 = true ∧ iCore.irqTarget (.fic .A) 1000 = 7 ∧
      gives (.wfiRelease (.fic .A) 7) iCore (fun t => (t.ctl (.fic .A)).released == [1000] && t.rd (F.CORE_STATUS_STATE.pg (corePage .A 7)) == 2) = true := by
  decide +kernel

theorem witness_ModerationReleasesHeldSources_3 :
    (iMod []).irqTarget .pic 255 = 1 ∧ gives (.wfiRelease .pic 1) (iMod []) (fun t => (t.ctl .pic).released == [255] && t.pic.wfi == [1]) = true := by
  decide +kernel

def zRec (i : Nat) : Rec := ⟨i, true, 1, 2, 3, BitVec.ofNat 64 i⟩

def zWith (g : Recorder → Recorder) (l : List (Field × Nat)) : State :=
  let s := put State.reset l
  { s with recorder := g s.recorder }

theorem witness_FreezeHoldsAndMirrorWrites_1 :
    State.reset.mayWrite su F.REC_CTRL_FREEZE ∧ State.reset.rd F.REC_CTRL_FREEZE = 0 ∧
      gives (.recFreeze su false) State.reset (fun t => t.rd F.REC_CTRL_FREEZE == 1 && t.recorder.held == []) = true := by
  decide +kernel

theorem witness_FreezeHoldsAndMirrorWrites_2 :
    (zWith (fun x => { x with held := [zRec 0] }) [(F.REC_CTRL_FREEZE, 1)]).rd F.REC_CTRL_FREEZE = 1 ∧
      gives (.recUnfreeze su) (zWith (fun x => { x with held := [zRec 0] }) [(F.REC_CTRL_FREEZE, 1)]) (fun t => t.rd F.REC_CTRL_FREEZE == 0 &&
        t.recorder.ring.length == 2) = true ∧
      gives .freezeTimeout (zWith (fun x => { x with held := [zRec 0] }) [(F.REC_CTRL_FREEZE, 1)]) (fun t => t.recorder.held == []) = true := by
  decide +kernel

theorem witness_FreezeHoldsAndMirrorWrites_3 :
    (zWith (fun x => { x with ring := [zRec 6, zRec 5] }) []).recWaiting.take 128 = [zRec 5] ++ [zRec 6] ∧
      gives (.mirrorBlockWrite true) (zWith (fun x => { x with ring := [zRec 6, zRec 5] }) []) (fun t => t.rd F.REC_MIRRORED_INDEX == 7 &&
        t.recorder.flash == [zRec 6, zRec 5]) = true := by
  decide +kernel

theorem witness_FreezeHoldsAndMirrorWrites_4 :
    (zWith (fun x => { x with ring := [zRec 6] }) []).recWaiting ≠ [] ∧
      gives (.mirrorBlockWrite false) (zWith (fun x => { x with ring := [zRec 6] }) []) (fun t => t.recorder.flashRetry) = true ∧
      gives (.mirrorBlockWrite false) (zWith (fun x => { x with ring := [zRec 6], flashRetry := true }) []) (fun t =>
        bitOf (t.rd (errStatus 0x88)) 0) = true := by
  decide +kernel

def zSel (i : Nat) : State := ((zWith (fun x => { x with flash := [zRec 6] }) []).setSel su F.REC_RD_SEL_INDEX.key (2 ^ 63 + i)).setSel su
  F.REC_RD_STATUS_BUSY.key 1

theorem witness_RecordsAreReadByIndex_1 :
    State.reset.mayWrite user F.REC_RD_SEL_INDEX ∧
      gives (.recRdSelWrite user true 6) State.reset (fun t => t.sel user F.REC_RD_SEL_INDEX.key == 2 ^ 63 + 6) = true := by
  decide +kernel

theorem witness_RecordsAreReadByIndex_2 :
    bitOf ((zSel 6).sel su F.REC_RD_STATUS_BUSY.key) 0 = true ∧ (zSel 6).recAt true 6 = some (zRec 6) ∧
      gives (.recRdLoadDone su) (zSel 6) (fun t => t.sel su (F.REC_RD_W_WORD.i 3).key == 6 && t.sel su F.REC_RD_STATUS_BUSY.key == 0) = true := by
  decide +kernel

theorem witness_RecordsAreReadByIndex_3 :
    (zSel 7).recAt true 7 = none ∧ gives (.recRdLoadDone su) (zSel 7) (fun t => t.sel su F.REC_RD_STATUS_BUSY.key == 2) = true := by
  decide +kernel

/-- Root hash slot 0 holds four words. -/
def withRoot (s : State) (a b c d : Word) : State :=
  (((s.setReg (F.ROOT_HASH_HASH.ij 0 0).key a).setReg (F.ROOT_HASH_HASH.ij 0 1).key b).setReg
    (F.ROOT_HASH_HASH.ij 0 2).key c).setReg (F.ROOT_HASH_HASH.ij 0 3).key d

theorem withRoot_rd (s : State) (a b c d : Word) (f : Field) (h : ∀ w < 4, f.key ≠ (F.ROOT_HASH_HASH.ij 0 w).key) :
    (withRoot s a b c d).rd f = s.rd f := by
  simp only [State.rd, withRoot]
  rw [State.reg_setReg_ne _ _ _ _ (h 3 (by decide)), State.reg_setReg_ne _ _ _ _ (h 2 (by decide)),
    State.reg_setReg_ne _ _ _ _ (h 1 (by decide)), State.reg_setReg_ne _ _ _ _ (h 0 (by decide))]

theorem withRoot_known (s : State) (a b c d : Word) (x : List Nat) (h : digestWords x = [a.toNat, b.toNat, c.toNat, d.toNat])
    (hr : bitOf (s.rd F.FUSE_STATE_ROOT_REVOKED) 0 = false) : (withRoot s a b c d).rootKnown x = true := by
  have e : ∀ (w : Nat) (x : Word), (F.ROOT_HASH_HASH.ij 0 w).get x = x.toNat := by
    intro w x; simp [Field.get, Field.ij, F.ROOT_HASH_HASH, Field.width]
  have r : (List.range 4) = [0, 1, 2, 3] := rfl
  have k : (withRoot s a b c d).fusedHash F.ROOT_HASH_HASH 0 = [a.toNat, b.toNat, c.toNat, d.toNat] := by
    simp only [State.fusedHash, r, List.map, State.rd, e]
    simp [withRoot, State.reg_setReg, Field.key, Field.ij, F.ROOT_HASH_HASH]
  have v : (withRoot s a b c d).rd F.FUSE_STATE_ROOT_REVOKED = s.rd F.FUSE_STATE_ROOT_REVOKED := withRoot_rd _ _ _ _ _ _ (by decide +kernel)
  rw [State.rootKnown, List.any_eq_true]
  exact ⟨0, by decide, by simp [k, v, hr, h]⟩

/-- The four words of a digest. -/
theorem digest_words (key : List Nat) : ∃ a b c d : Word, digestWords (keyDigest key) = [a.toNat, b.toNat, c.toNat, d.toNat] :=
  ⟨_, _, _, _, rfl⟩

/-- The signature under `weakKey` of the digest of the block's first 48 bytes. -/
def sigR : List Nat := leBytes 1193 0x5127e4a8b1736b93ad254e6e5df2254d81882f6b3cfdf124678820019614fc98f1ef80b23f4a6c3891a26792214b7a4c683922e28917032f1619da26efceb523af4c5d3ae2e095bd47b7eeb813a24a950e67730c09716562831c494f2e48d8a142c4930d53268dd9e4c6c51f478fe4681a774b852b037f3e48b1b2c88f26314f2e5851b1e7810c4f2ed679f874c597173d1f965d332765891c6f163cc8ba6368879a27bf8e8dd03242cf962db3a65cfb72448b2d55c25e29996062c29e17470c9d99a56d881a47cf24edb9606495091f930ea998e3c7ca035fabbe1833616a8d824f7e0478fb31c8c18c0b7e3e7c98b4ca892d0316f6bd5a2445c8b9370f34bcb923e58a935d7b0e48d12167cda1518f4e48ba614c8bb553caa6b831316d952e19230ced78f6498a0b53afb628fa66c2cd346d97b6387b3562dc033f032cc831b6e9c593470fb6989862c1852657de8cfc7ae0e383b123779c9891a2e683233d3a2e2c72f14189356333cc8810616092153d8e76689972e1858e615b244d5bb167d68125921cec192342c719094e1c7c5170458c3e138284edb03547950f1fa7061d9361c98a813fe3fe5c906367cf8f67be2699d923c6998f2daac6d819e64c829535cbf668d8b4cd8b303f17369979a1e18e924d2e5cf8507262961f31bb9c9d79a0c9969b2b77d40c7ab668909d677ed4ac10f54ddd9e5337aefc98f46992b36347a41d9a64c2888f25223e9c1875edc10c573f3efd1a764acc91310b86dd91636586ad5bbf8408f071c391124f674678fbf043829b072f1e7d7221c6c1a06fa3661d7234e7c28d1f4676391334e5c889112bd61cb061e1d0101d635cf8fa304b9515699b7409503644dea74dd72ea9d2a6c592ab3d6e4ee932b3ebc08d0533c6bc9a23ee850e33438ec8f330eaca8c459314bdb1e5c4c60b0f73beadd8b3e7870e4fcf7e09f1f1e2c2985b8aec58f0344ac29f1fe23e3c18314c8a11276a8cb872a1cb842b5b2fe6b8d170c48c265d4b0609d2f04ac5bf5f1ece5c72e660948d11978e2998f4e099a71d5ee49c923362cc865932262c7235eb8126398204997a6061d5a51373b6787173ed8b9e5d86ee68392042cb2153337679d1e042d60919061ec83af562c60d3f0fd44838216ac32e0da32c1d9b366396080d1eac2c1972e19d8345177e2d70b3c088344542ccd811f1e8c2081356cca8b025cbc69a158e44bc902368952a51371efc1126e7961c63035c7cb8a44484b93b7fcc885aa4edc93b51a36e0cda7246958541b6ac1939726dc59413472c7d92704dd5a931be8eccf835c4c206376b141c5aa7e7d70613ca6e0c703067c2b91d4e9eccb8b0e6d0980f7fe64c7b224fce8e67be4c2d31b36392af27879ef959e266d4115b86dc7c5a32e2c23637ff945c3ab1e49e383d63c478fba465c11e5b0e0ea9b9f042c99d3f1e6cbcf371c8ceb14fd2b46c59f0e8cea429b7e4f851e3e38620395b8ecd5a3363c6ad05bad4cc7231eb8c902183247d383065898921636cd853326e8204737a3689db2168c9284936aeb9dab0cbcf216f4aa499da7465cf1b2d5ea448332248ca9f21524e1c3a25ebd5863d8fac9c5963428a115b1f6c683935e5c421000000000000000000000000000000000000000000000000000000000000000000000000000000003a

/-- A block of the right format over both rings, with a nonce of zeros, newest word first. -/
def zBlock : List Word :=
  (wordsOf 424 (leBytes 48 0x34D4C5243 ++ weakKey ++ zeros 7 ++ leBytes 8 1193 ++ sigR ++ zeros 343)).reverse

def zVerifyOf (l : List Word) : State := zWith (fun x => { x with verifying := true, nonceLive := true, authWords := l }) []

theorem zVerifyOf_words (l : List Word) (a b c d : Word) : (withRoot (zVerifyOf l) a b c d).recorder.authWords = l := rfl

def zVerify : State := zVerifyOf zBlock

def zErase : State := zWith (fun x => { x with erasing := some (3, 6), ring := [zRec 6, zRec 5], flash := [zRec 5] }) []

theorem witness_AuthorisedClearErasesOlderRecords_ok : ∃ s : State, s.recorder.verifying = true ∧ s.recClrResult = 2 := by
  obtain ⟨a, b, c, d, h⟩ := digest_words (imgBytes (authBytes zBlock) 48 1793)
  refine ⟨withRoot zVerify a b c d, rfl, ?_⟩
  have k : (withRoot zVerify a b c d).rootKnown (authDigest zBlock) = true := withRoot_known _ _ _ _ _ _ h (by decide +kernel)
  have f : authFormatOk zBlock false = true := by decide +kernel
  have n : (withRoot zVerify a b c d).authNonceOk zBlock = true := by
    have z : ∀ w < 4, (withRoot zVerify a b c d).rd (F.REC_NONCE_NONCE.i w) = authWord zBlock (2 + w) := by
      intro w hw; rw [withRoot_rd]
      · revert w; decide +kernel
      · revert w; decide +kernel
    simp only [State.authNonceOk, Bool.and_eq_true, List.all_eq_true, List.mem_range, beq_iff_eq]
    exact ⟨rfl, fun w hw => (z w hw).symm⟩
  have m : (withRoot zVerify a b c d).rd F.HOSTP_MAC_MAC = authWord zBlock 1 % 2 ^ 48 := by
    rw [withRoot_rd _ _ _ _ _ _ (by decide +kernel)]; decide +kernel
  have w : (withRoot zVerify a b c d).recorder.authWords = zBlock := zVerifyOf_words zBlock a b c d
  have o : (withRoot zVerify a b c d).recorder.authOver = false := rfl
  have g : sigAt (authBytes zBlock) (shake256 64 (imgBytes (authBytes zBlock) 0 48)) 48 1848 1856 = true := by decide +kernel
  simp [State.recClrResult, w, o, k, f, n, m, g]

theorem witness_AuthorisedClearErasesOlderRecords_1 :
    State.reset.mayWrite su F.REC_CLR_CMD_NONCE_REQ ∧ State.reset.recorder.authWords.length < 424 ∧
      gives (.recAuthDataWrite su 7) State.reset (fun t => t.recorder.authWords == [7] && t.rd F.REC_CLR_STATUS_WORDS == 1) = true ∧
      gives (.recAuthDataWrite su 7) zVerify (fun t => t.recorder.authOver && t.recorder.authWords.length == 424) = true ∧
      gives (.recClrPtrReset su) zVerify (fun t => t.recorder.authWords == []) = true := by
  decide +kernel

theorem witness_AuthorisedClearErasesOlderRecords_2 :
    State.reset.rd F.REC_CTRL_FREEZE = 0 ∧ State.reset.recorder.verifying = false ∧ State.reset.recorder.erasing = none ∧
      gives (.recClrVerify su) State.reset (fun t => t.recorder.verifying) = true ∧
      gives (.recClrVerify su) zVerify (fun t => t.rd F.REC_CLR_STATUS_RESULT == 1) = true := by
  decide +kernel

theorem witness_AuthorisedClearErasesOlderRecords_3 :
    (zWith (fun x => { x with verifying := true }) []).recClrResult = 3 ∧
      gives .recClrResult (zWith (fun x => { x with verifying := true }) []) (fun t => t.rd F.REC_CLR_STATUS_RESULT == 3 &&
        !t.recorder.verifying) = true := by
  decide +kernel

theorem witness_AuthorisedClearErasesOlderRecords_4 :
    zErase.recorder.erasing = some (3, 6) ∧
      gives .recClearEraseDone zErase (fun t => t.recorder.ring == [zRec 6] && t.recorder.flash == [] && t.recorder.erasing == none) = true := by
  decide +kernel

/-! ### Start-up, configuration, fuses, firmware, the tray interface -/

/-- The module is up, with fields set. -/
def bUp (l : List (Field × Nat)) : State :=
  let s := put State.reset l
  { s with boot := { s.boot with up := true } }

def bBus (l : List (Field × Nat)) : State := { bUp l with power := { (bUp l).power with hvilA := true, hvilB := true } }

def bStop (l : List (Field × Nat)) : State := { bUp l with power := { (bUp l).power with stopPhase := 2 } }

def bMem (l : List (Field × Nat)) : State := { (bUp l).setByte 5 7 with pending := [.rstNLow] }

theorem witness_SupplyResetsAndComesUp_1 :
    State.reset.boot.up = false ∧
      gives (.alwaysOnComeUp 63 true true) State.reset (fun t => t.boot.up && t.rd F.SYS_BOOT_STEP == 1 && t.rd F.LINK_ID_MOD_INDEX == 63 &&
        t.mem == [] && t.rd F.SYS_UPTIME_POWER_CYCLES == 1) = true := by
  decide +kernel

theorem witness_SupplyResetsAndComesUp_2 :
    (bUp []).boot.up = true ∧ idle (.alwaysOnComeUp 63 true true) (bUp []) = true := by
  decide +kernel

theorem witness_SupplyResetsAndComesUp_3 :
    gives .rstNLow (bMem []) (fun t => !t.boot.up && t.byte 5 == 0 && t.pending == [.rstNLow]) = true ∧
      gives .alwaysOnPowerLoss (bMem []) (fun t => !t.boot.up && t.byte 5 == 0 && t.dump.sram == none) = true := by
  decide +kernel

theorem witness_SupplyResetsAndComesUp_4 :
    (bStop []).power.stopPhase = 2 ∧ (bStop []).railsDown = true ∧
      gives .stopComplete (bStop []) (fun t => t.power.stopPhase == 0 && t.rd F.SYS_BOOT_STEP == 0 && t.mem == []) = true := by
  decide +kernel

theorem witness_SupplyResetsAndComesUp_5 :
    (bUp [(F.SYS_BOOT_STATE, 2)]).mode = 0 ∧ (bUp [(F.SYS_BOOT_STATE, 2)]).rd F.SYS_BOOT_STEP = 0 ∧
      (bUp [(F.SYS_BOOT_STATE, 2)]).rd F.MCOL_STATUS_PC_REQ = 0 ∧
      gives .standbyBusReturn (bUp [(F.SYS_BOOT_STATE, 2)]) (fun t => t.rd F.SYS_BOOT_STEP == 4 && t.rd F.SYS_BOOT_STATE == 1) = true ∧
      idle .standbyBusReturn (bUp [(F.SYS_BOOT_STATE, 3)]) = true ∧ idle .standbyBusReturn (bUp [(F.SYS_BOOT_STEP, 1)]) = true ∧
      idle .stopComplete (bUp []) = true := by
  decide +kernel

def bRail : State :=
  let s := bUp [(F.RAIL_STATUS_STATE.pg (railPage 11), 1)]
  { s with railSys := { s.railSys with seq := 1 } }

theorem witness_StartupStepsFollowOrFail_1 :
    gives (.startupStepComplete tGood) (bUp [(F.SYS_BOOT_STEP, 1)]) (fun t => t.rd F.SYS_BOOT_STEP == 2) = true ∧
      gives (.startupStepComplete { tGood with ok := false }) (bUp [(F.SYS_BOOT_STEP, 1)]) (fun t => t.rd F.SYS_BOOT_STATE == 4 &&
        t.rd F.SYS_BOOT_FAIL_STEP == 1 && t.rd F.SYS_BOOT_FAIL_CODE == 1 && t.rd F.MCOL_STATUS_FAULT_N_OUT == 1) = true := by
  decide +kernel

theorem witness_StartupStepsFollowOrFail_2 :
    (bUp [(F.SYS_BOOT_STEP, 2)]).rd F.SYS_BOOT_STEP = 2 ∧ gives (.startupStepComplete { tGood with ok := false }) (bUp [(F.SYS_BOOT_STEP, 2)]) (fun t => t.rd F.SYS_BOOT_FAIL_CODE == 2) = true ∧
      (bUp [(F.SYS_BOOT_STEP, 6), (F.RST_CTRL_LBIST, 0), (F.MCOL_STATUS_FROND_A_FENCED, 1), (F.MCOL_STATUS_FROND_B_FENCED, 1)]).rd F.RST_CTRL_LBIST = 0 ∧
      gives (.startupStepComplete tGood) (bUp [(F.SYS_BOOT_STEP, 6), (F.RST_CTRL_LBIST, 0), (F.MCOL_STATUS_FROND_A_FENCED, 1), (F.MCOL_STATUS_FROND_B_FENCED, 1)]) (fun t => t.rd F.SYS_BOOT_STEP == 7) = true := by
  decide +kernel

theorem witness_StartupStepsFollowOrFail_3 :
    (bUp [(F.SYS_BOOT_STEP, 4), (F.FC_STATUS_STATE, 1)]).rd F.PACK_STATUS_PRSNT = 0 ∧
      gives (.startupStepComplete tGood) (bUp [(F.SYS_BOOT_STEP, 4), (F.FC_STATUS_STATE, 1)]) (fun t => t.rd F.SYS_BOOT_STEP == 5 && t.rd F.FC_STATUS_STATE == 2) = true ∧
      gives (.startupStepComplete tGood) (bUp [(F.SYS_BOOT_STEP, 4), (F.FC_STATUS_STATE, 1), (F.PACK_STATUS_PRSNT, 1)]) (fun t => t.packState == 1) = true ∧
      gives (.startupStepComplete { tGood with ok := false }) (bUp [(F.SYS_BOOT_STEP, 4), (F.FC_STATUS_STATE, 1)]) (fun t => t.rd F.SYS_BOOT_FAIL_CODE == 7) = true ∧
      idle (.startupStepComplete tGood) (bUp [(F.SYS_BOOT_STEP, 4)]) = true ∧ idle (.startupStepComplete tGood) (bUp [(F.SYS_BOOT_STEP, 5)]) = true ∧
      idle (.startupStepComplete tGood) (bUp [(F.SYS_BOOT_STATE, 2)]) = true ∧ idle (.startupStepComplete tGood) State.reset = true := by
  decide +kernel

theorem witness_StartupStepsFollowOrFail_4 :
    (bUp [(F.SYS_BOOT_STEP, 9)]).portsDone = true ∧
      gives (.startupStepComplete tGood) (bUp [(F.SYS_BOOT_STEP, 9)]) (fun t => t.rd F.SYS_BOOT_STEP == 10) = true ∧
      gives (.startupStepComplete tGood) (bUp [(F.SYS_BOOT_STEP, 10)]) (fun t => t.rd F.SYS_BOOT_STEP == 11) = true := by
  decide +kernel

theorem witness_StartupStepsFollowOrFail_5 :
    (bBus [(F.SYS_BOOT_STEP, 4), (F.SYS_BOOT_STATE, 1)]).mode = 0 ∧ (bBus [(F.SYS_BOOT_STEP, 4), (F.SYS_BOOT_STATE, 1)]).rd F.FC_STATUS_STATE = 0 ∧
      gives .startupBusWaitEnd (bBus [(F.SYS_BOOT_STEP, 4), (F.SYS_BOOT_STATE, 1)]) (fun t => t.rd F.FC_STATUS_STATE == 1 &&
        t.rd F.SYS_BOOT_STATE == 0) = true ∧
      gives .startupBusWaitEnd (bBus [(F.SYS_BOOT_STATE, 3)]) (fun t => t.rd F.FC_STATUS_STATE == 1 && t.rd F.SYS_BOOT_STATE == 3) = true ∧
      idle .startupBusWaitEnd (bUp [(F.SYS_BOOT_STATE, 3)]) = true ∧ idle .startupBusWaitEnd State.reset = true ∧ idle .runtimeReadyTimeout State.reset = true := by
  decide +kernel

theorem witness_StartupStepsFollowOrFail_6 :
    (bUp [(F.SYS_BOOT_RT_STATE, 1)]).fw.unit ≠ 2 ∧
      gives .runtimeReadyTimeout (bUp [(F.SYS_BOOT_RT_STATE, 1)]) (fun t => t.rd F.SYS_BOOT_RT_STATE == 3 && t.rd F.SYS_BOOT_FAIL_STEP == 11 &&
        t.rd F.SYS_BOOT_FAIL_CODE == 10) = true := by
  decide +kernel

theorem witness_StartupStepsFollowOrFail_7 :
    bRail.railSys.seq = 1 ∧ bRail.railState 11 = 1 ∧ bRail.boot.retried = false ∧
      gives (.railStartFail 11) bRail (fun t => t.boot.retried && t.rd F.SYS_BOOT_FAIL_STEP == 5 && t.rd F.SYS_BOOT_FAIL_CODE == 8) = true ∧
      gives (.railStartFail 11) { bRail with boot := { bRail.boot with retried := true } } (fun t => t.rd F.SYS_BOOT_FAIL_STEP == 5) = true ∧
      idle (.railStartFail 10) bRail = true := by
  decide +kernel

/-- The buffer holds a block of ID 1 without entries (its CRC-32C is the standard's), or words that are no block. -/
def gBuf (good : Bool) (l : List (Field × Nat)) : State :=
  let s := put State.reset ([(F.CFG_SEL_ID, 1)] ++ l)
  { s with cfg := { s.cfg with buf := if good then [(0, 0x4D4C564301010000), (1, 0xDD3083B200000010)] else [(0, 1)] } }

def gWriting : State := { State.reset with cfg := { State.reset.cfg with writing := some (1, [5]) } }

theorem witness_ConfigurationBufferCommandsAct_1 :
    State.reset.mayWrite su F.CFG_CMD_PTR_RESET ∧
      gives (.cfgPtrReset su) (gBuf true [(F.CFG_PTR_WORD, 8191)]) (fun t => t.rd F.CFG_PTR_WORD == 0) = true ∧
      gives (.cfgRead su) { gBuf false [] with cfg := { (gBuf false []).cfg with stored := [(1, some [5, 6])] } }
        (fun t => t.cfgBuf 0 == 5 && t.cfgBuf 1 == 6 && t.cfgBuf 2 == 0) = true ∧
      gives (.cfgErase su) { gBuf false [] with cfg := { (gBuf false []).cfg with stored := [(1, some [5, 6])] } }
        (fun t => t.cfgStored 1 == none) = true := by
  decide +kernel

theorem witness_ConfigurationBufferCommandsAct_2 :
    (gBuf true []).mayWrite su F.CFG_CMD_PTR_RESET ∧ (cfgCheck ((gBuf true []).rd F.CFG_SEL_ID) (some (gBuf true []).cfgBufBlock)).1 = 0 ∧
      gives (.cfgCommit su) (gBuf true []) (fun t => t.rd F.CFG_WR_STATUS_RESULT == 1 && t.cfg.writing != none) = true := by
  decide +kernel

theorem witness_ConfigurationBufferCommandsAct_3 :
    (cfgCheck ((gBuf false []).rd F.CFG_SEL_ID) (some (gBuf false []).cfgBufBlock)).1 = 2 ∧
      gives (.cfgCommit su) (gBuf false []) (fun t => t.rd F.CFG_WR_STATUS_RESULT == 3 && t.rd F.CFG_WR_STATUS_REASON == 2 &&
        t.cfg.writing == none) = true := by
  decide +kernel

theorem witness_ConfigurationBufferCommandsAct_4 :
    (gBuf true [(F.CFG_PTR_WORD, 8191)]).mayWrite su F.CFG_DATA_WORD ∧
      gives (.cfgDataAccess su (some 9)) (gBuf true [(F.CFG_PTR_WORD, 8191)]) (fun t => t.cfgBuf 8191 == 9 && t.rd F.CFG_PTR_WORD == 0) = true ∧
      (gBuf true [(F.CFG_PTR_WORD, 1)]).pageFault su F.CFG_DATA_WORD.page false = none ∧
      gives (.cfgDataAccess su none) (gBuf true [(F.CFG_PTR_WORD, 1)]) (fun t => t.rd F.CFG_PTR_WORD == 2 &&
        t.outbox.head? == some (.answer true false [0x10, 0, 0, 0, 0xB2, 0x83, 0x30, 0xDD])) = true := by
  decide +kernel

theorem witness_ConfigurationBufferCommandsAct_5 :
    gives (.cfgFlashWriteDone true) gWriting (fun t => t.cfgStored 1 == some [5] && t.rd F.CFG_WR_STATUS_RESULT == 2 && t.cfg.writing == none) = true ∧
      gives (.cfgFlashWriteDone false) gWriting (fun t => t.cfgStored 1 == none && t.rd F.CFG_WR_STATUS_RESULT == 3 &&
        bitOf (t.rd (errStatus 0)) 3) = true := by
  decide +kernel

theorem witness_ConfigurationBufferCommandsAct_6 :
    idle (.cfgFlashWriteDone true) State.reset = true ∧ gWriting.cfg.writing.isSome = true ∧ idle (.cfgCommit su) gWriting = true := by
  decide +kernel

theorem witness_ConfigurationBufferCommandsAct_7 :
    State.reset.pageFault su F.DUMP_DATA_WORD.page false = none ∧
      gives (.dumpDataRead su) State.reset (fun t => t.rd F.DUMP_SEL_OFFSET == 1) = true := by
  decide +kernel

/-- The signature under `weakKey` of the digest of the block's first 80 bytes. -/
def sigF : List Nat := leBytes 1193 0x59a04fd39f4439ba7499f345852f463da23216ec4ac73724bcea251364ea91271e1d78f5baf24fd7bf766c70f07d77e6810f1e983264b776c9971b0e7c72347c68ec8b2f446d08e1b7fcc0c99736a9a066157a458da24c4d4a31f821ed99a2246cc0e6397f67c31314ad6311d6fd6bcf8f1ccc4382f1bae2d796368c5823f37ce98f9726dd30d53c2869c33e142d6a6518f74e8d0a141d28d075a0e8899754ad1864f1f7e29f3e167cc331993f49cd1e564960647067c6c32a2659610117b9e9918f7e3970c6f4abe1819746d899b190e343853e361de8f796fc4f93823cdcfa0278f5e5d10e7c3d183154776a9d2b649961921767c0870206bd42027336eed7a7365d98b5783c6d8b065ca862277a3ae793230e9d9142d5b4cb858b040ccae051a661d5b34c0cd9503cf54fd92a1c5850d03ca9c381b756392af3f9f1ca83270ecd5046562162878e342d7103946763c72f0ccd48b0f6bfcf8d8716987043fafaebcb8e2c48eba1757941c127347949b398b44acd8b0c8c5ac6322363c797561c825118a8e785a34ea90a44b9a2eecda23ecc397619fc4bd38b4ec8733513a04983830e685175d6e0439312441830835176cccf172c988846da7be99d0a0648b3b75db4e483aa4c8c72a4717a6a970a545c10703b3044d3225c8c428375f9eac58314999225796468931a1e993ad1552acd9f2f046c8bc290bde689b25c6cf291d27045d99a3eac518115a46cdb3f068859a5f42840d1025c9cc2f4b6786a9f22248cbae4fb26cf999e34ac89d094bd4981965e5d8141b9b14585330c69704271b8ed839e3499ab0693f16683ba3e9d90e21a2e63830f3e8948e31df365df9a1cfcb0e2d5a3c2d50e06bc9104f2a3ccd79a0c4cea179064cdc98a04cdb9d679b7608d1a34d80024bab7e2d1921cbd0205102fff9fab5c5ce34477f66dd713163dd393b968ed85277e0c4835712740db973c4c0334b32fce83a3342908327bbb41cdaa0c2c3102b439e4c5b654a81b4358f5459b831c3d8320d16a63dbb2541cb1e738b6479d026e389122f867e4c5224c1c2a44db3ecec93e5e688316db70c09fbf0eaa0250d7f3ee91a23e78d8a25cfcc98f3f368d5361973168830f54dd2133bd32c9c72726acc1b2ddb949892266d949f3fcb5e1c5260c29ba90f7b1cccfa24e7821e2967248df862c7851d69cafe3cf034ec871931bee48dd3204a8f0f639734d97b22428818455aa41d1a2167d00867c21cdd1272e8d4321357466cf820e9d58c43fa36d8fa63449b076967ee4cb2f3ce9515297a0489b3214087831ba3eee83af147ccbd4132d4093277c9de8d411e1e28faa465c8231597961dd274ceca11333f64dc11a4c3870d5fc284d870f5c9cdad473a54fc717147dd2b6b0f0c7998b146c7a16b5f2c28bb31e29a884f5ad42971a6edc5a30766b4e83974c7c629396e64a9516543db27379386a91125ccd41647be748d90f5c4c70c5dae06e832a3c889af4d3b9ebc7a2269969c079b1eccd123e2d52f213b3e18193363da3645de64583bf3e9970a0d93e498d262e9908b21a624dd1163e590391fb2463970764687ad39e7145d73a04389ac599a9ced7937ea94984f1b1e5d52f549909a000000000000000000000000000000000000000000000000000000000000000000000000000000003a

/-- A fuse block that closes debug, of a nonce of zeros for a module of MAC 0. -/
def uBlock : List Word :=
  wordsOf 428 (leBytes 80 0x14D4C4655 ++ weakKey ++ zeros 7 ++ leBytes 8 1193 ++ sigF ++ zeros 343)

def uFuse (w : List Word) (l : List (Field × Nat)) : State :=
  { put State.reset l with fuse := { State.reset.fuse with running := true, nonceLive := true, words := w } }

theorem uFuse_block (a b c d : Word) (w : List Word) : (withRoot (uFuse w.reverse []) a b c d).fuseBlock = bytesOf w := by
  have e : (withRoot (uFuse w.reverse []) a b c d).fuse.words = w.reverse := rfl
  rw [State.fuseBlock, e, List.reverse_reverse]

theorem witness_FuseCommandsBlowOnlyWhatIsAccepted_ok : ∃ s : State, s.fuse.running = true ∧ s.fuseResult = 2 := by
  obtain ⟨a, b, c, d, h⟩ := digest_words (imgBytes (bytesOf uBlock) 80 1793)
  refine ⟨withRoot (uFuse uBlock.reverse []) a b c d, rfl, ?_⟩
  have e : (withRoot (uFuse uBlock.reverse []) a b c d).fuseBlock = bytesOf uBlock :=
    uFuse_block a b c d uBlock
  have k : (withRoot (uFuse uBlock.reverse []) a b c d).fuseSignerOk (bytesOf uBlock) = true := by
    rw [State.fuseSignerOk, Bool.or_eq_true]
    exact .inl (withRoot_known _ _ _ _ _ _ h (by decide +kernel))
  have f : fuseFormatOk (bytesOf uBlock) = true := by decide +kernel
  have n : ∀ w < 4, leAt (bytesOf uBlock) (16 + 8 * w) 8 = 0 := by decide +kernel
  have z : ∀ w < 4, (withRoot (uFuse uBlock.reverse []) a b c d).rd (F.FUSE_NONCE_NONCE.i w) = 0 := by
    intro w hw; rw [withRoot_rd]
    · revert w; decide +kernel
    · revert w; decide +kernel
  have m : (withRoot (uFuse uBlock.reverse []) a b c d).rd F.HOSTP_MAC_MAC = leAt (bytesOf uBlock) 8 6 := by
    rw [withRoot_rd _ _ _ _ _ _ (by decide +kernel)]; decide +kernel
  have o : byteAt (bytesOf uBlock) 4 = 1 := by decide +kernel
  have u : (withRoot (uFuse uBlock.reverse []) a b c d).fuse.overrun = false := rfl
  have v : (withRoot (uFuse uBlock.reverse []) a b c d).fuse.nonceLive = true := rfl
  have q : (List.range 4).all (fun w => leAt (bytesOf uBlock) (16 + 8 * w) 8 ==
      (withRoot (uFuse uBlock.reverse []) a b c d).rd (F.FUSE_NONCE_NONCE.i w)) = true := by
    rw [List.all_eq_true]; intro w hw; rw [List.mem_range] at hw; rw [n w hw, z w hw]; rfl
  have g : sigAt (bytesOf uBlock) (shake256 64 (imgBytes (bytesOf uBlock) 0 80)) 80 1880 1888 = true := by decide +kernel
  simp only [State.fuseResult, e, k, f, u, v, q, m, o, g, State.fuseRefuses]
  simp

theorem witness_FuseCommandsBlowOnlyWhatIsAccepted_1 :
    State.reset.mayWrite su F.FUSE_CMD_NONCE_REQ ∧ gives (.fuseNonceReq su) State.reset (fun t => t.fuse.nonceLive && t.draws == 4) = true ∧
      gives (.fusePtrReset su) (uFuse [5] []) (fun t => t.fuse.words == []) = true ∧
      gives (.fuseAuthDataWrite su 7) (uFuse [5] []) (fun t => t.fuse.words == [7, 5] && t.rd F.FUSE_RESULT_WORDS == 2) = true ∧
      gives (.fuseAuthDataWrite su 7) (uFuse uBlock []) (fun t => t.fuse.words.length == 428 && t.fuse.overrun) = true ∧
      gives (.fuseExecute su) State.reset (fun t => t.fuse.running && t.rd F.FUSE_RESULT_RESULT == 1) = true := by
  decide +kernel

theorem witness_FuseCommandsBlowOnlyWhatIsAccepted_2 :
    byteAt [0, 0, 0, 0, 1] 4 = 1 ∧ ((put State.reset [(F.DBG_CTRL_UNLOCK, 1)]).fuseBlow [0, 0, 0, 0, 1]).rd F.DBG_CTRL_UNLOCK = 0 ∧
      (State.reset.fuseBlow ([0, 0, 0, 0, 2, 3] ++ List.replicate 74 9)).rd F.FUSE_STATE_OWNER_VALID = 8 ∧
      (State.reset.fuseBlow ([0, 0, 0, 0, 2, 3] ++ List.replicate 74 9)).rd (F.OWNER_HASH_HASH.ij 3 3) = 0x0909090909090909 ∧
      (State.reset.fuseBlow [0, 0, 0, 0, 3, 3]).rd F.FUSE_STATE_ROOT_REVOKED = 8 ∧ (State.reset.fuseBlow [0, 0, 0, 0, 4, 0]).rd F.FUSE_STATE_OWNER_REVOKED = 1 ∧
      (State.reset.fuseBlow [0, 0, 0, 0, 5, 3]).rd F.FUSE_STATE_ROLLBACK = 3 ∧ (State.reset.fuseBlow [0, 0, 0, 0, 6, 0]).rd F.FUSE_STATE_OWNER_REQ = 1 := by
  decide +kernel

theorem witness_FuseCommandsBlowOnlyWhatIsAccepted_3 :
    idle (.fuseOpDone true) State.reset = true ∧ idle (.fuseExecute su) (uFuse [5] []) = true ∧
      State.reset.mayWrite user F.DBG_CTRL_UNLOCK ∧ gives (.dbgUnlockWrite user true) State.reset (fun t => t.rd F.DBG_CTRL_UNLOCK == 0) = true := by
  decide +kernel

theorem witness_FuseCommandsBlowOnlyWhatIsAccepted_4 :
    (uFuse [5] []).fuse.running = true ∧ (uFuse [5] []).fuseResult = 3 ∧
      gives (.fuseOpDone true) (uFuse [5] []) (fun t => t.rd F.FUSE_RESULT_RESULT == 3 && !t.fuse.running && !t.fuse.nonceLive &&
        bitOf (t.rd (errStatus 1)) 0) = true := by
  decide +kernel

theorem witness_FuseCommandsBlowOnlyWhatIsAccepted_5 :
    gives (.nonceExpire true) (uFuse [] []) (fun t => !t.fuse.nonceLive) = true ∧
      State.reset.mayWrite su F.DBG_CTRL_UNLOCK ∧ State.reset.rd F.FUSE_STATE_DEBUG_CLOSED = 0 ∧
      gives (.dbgUnlockWrite su true) State.reset (fun t => t.rd F.DBG_CTRL_UNLOCK == 1) = true ∧
      idle (.dbgUnlockWrite su true) (put State.reset [(F.FUSE_STATE_DEBUG_CLOSED, 1)]) = true := by
  decide +kernel

/-- The digest of an empty payload, as FIPS 202 gives it. -/
def iEmpty : List Nat := [70, 185, 221, 43, 11, 168, 141, 19, 35, 59, 63, 235, 116, 62, 235, 36, 63, 205, 82, 234, 98, 184, 27, 130, 181,
  12, 39, 100, 110, 213, 118, 47, 215, 93, 196, 221, 216, 192, 242, 0, 203, 5, 1, 157, 103, 181, 146, 246, 252, 130, 28, 73, 71, 154,
  180, 134, 64, 41, 46, 172, 179, 183, 196, 190]

theorem iEmpty_digest : shake256 64 [] = iEmpty := by decide +kernel

/-- The 96 bytes at the front of an image of unit 1 without a payload: MAGIC, the unit, SVN 0, LENGTH 0 and the digest. -/
def iFront : List Nat := [0x4D, 0x49, 0x4C, 0x4D, 1] ++ List.replicate 27 0 ++ iEmpty

/-- The signature under `weakKey` of the image digest. -/
def sigI : List Nat := leBytes 1193 0x514f16ed31e1ead01559129619f06269c6b323abf4f811a16480914116b688d9e169852f455b2c7cb2646b8d8505b764a9d2e4e39608559a146c3ab5e682aa35af567892f0c2d3811713b45c18b14b9a895bbb7cacda6569982d7dbe8e8c7023e4c91c6b77840d5131468f3135aa36f8daa24dd42a07bf7ec8b0366d85a21ddeb6781167608c1f39c2469810216f8f105dc63698baf3468baa65ae74d93a234a8123579b5e58f1f0e98607134f74dcb121c4c82c79a60e1d11716b81915162e6e87066e79fb227ef04cdb8b363d49e5d73442d582662cf122b6fc4ec58656a9598113e06d95263688b303323dc5d93726d93160de7d4b9f1e4c38e01697eae5c30f14ac50253960408ba3465d19751b34c9cd331cc8726594f9e199b25c78683635ec4ac1321c7c62747eecc7870746890a5693a744d13a0648a9b2b636ca93ab04a92a51d17660c51e7459a951b97260cf06361d2b3352a5499d1766b97a54de794fd31f368d4aa2383c66858a4c9c3393b4e5ebdf1e1e9d6362d320cb85a2042d22575760ec9f1b5458f17093bd6b9586164cb8e3136f418f3a0c697883b56a46c79a2e694ab2bd6462873b4e787894ff26c699370e79a3b57c304f870a562c1a63d0746dc313248da40414b0e0859b0cacaaf05621ee831f1448d185fab1c1972714197374ba23eb83825e7c91e614e56ccb975648a9d1f72e6683af7c3c61d49c2eea87ae3e9c63369435c28ba76e2873d0f930e68b8666a802e555bb44c38e3c58a204d1b5449db74c3d6207567ce7cd272c787870b9e144930a3c3c02d43e35e6dd2f543928819838edd9271cbce9e23129c9859b4c0dba177de6cd839e3e99a961fa394e8d0b56795290b9e14edf0216ed19517d6147890b4c1c9aa3b262e5d53b4eec2021b2adeac792764988b2563be8d53e1e8d0294b52768938b163830b51577c48b2f3ecc1a80b23467c59b340cf32077eeea9d8e062cf221586064d313640c8905937448c79e5e1d0a62fa2766c1161cb84a52f523e9d3ae2c98f0b556bd4bcb9b1488b9445e3be8832e66a800837f2ec8c70b4c0810b43e33e8cdaa144849d47672c3df973cac6973dea1c0d7a654180a74b4b5c597376cad21203a6f6ac533744989f1b6f369d1a72cccb990fd26c6d9025c19fb9495614b9d132c6db26090694e9f0e26bce92297276b931b26b92814d82d6dd5a3440d408577f0e8d32e5438e95599e9459d236e68a24359336f91832cb8f2d3f87d6a832a16a8a01595754a9d9b16bc28505a7346c3ae6c08f2555828e4c1a61688aa35b7afc981263e2cdb01366042d78f2c782ad393e6699f925e48021417e5c9cb170c5c1005b23ce6c5025c79008434aa4bcd0f2498e002512fe98dab1ed829807631c38f075e3939551567e4c7123f0901643a28e0c7b22e7d22d25aff46910e260832421bac4889876c7811d179a368c7bf5ec92150b4e3cdc1ab46bd729216654799b624b939f5d33fc183a2348d435394b54083a73e285211d7ff6dc727448929d319bb40879a3c4c7226d7a644dd3b544cf2b2d6b5cbc3930c4c22c59230e2890b2ca8b8c17923ea9b222e4982129334cc99ae049871e4153a4d810f5e3cf97000000000000000000000000000000000000000000000000000000000000000000000000000000003a

/-- The image: the front, the root key and its signature, then zeros. -/
def iImage : List Nat :=
  iFront ++ zeros 32 ++ weakKey ++ zeros 7 ++ leBytes 8 1193 ++ sigI ++ zeros 343 ++ zeros 4720

/-- Unit 1 has been staged into its slot B; slots 0 and 1 hold what was written. -/
def vFw (st : Nat) (g : FwUnit → FwUnit) (l : List (Field × Nat)) : State :=
  let s := put State.reset ((F.FW_STATUS_STATE, st) :: l)
  { s with fw := g { s.fw with slots := [(0, some []), (1, some []), (3, some iImage)], unit := 1 } }

theorem witness_FirmwareStagingCommandsAct_ok : ∃ s : State, s.rd F.FW_STATUS_STATE = 2 ∧
    (s.imageVerify s.fw.unit (1 - s.fwActive s.fw.unit)).2 = 0 := by
  obtain ⟨a, b, c, d, h⟩ := digest_words (imgBytes iImage 128 1793)
  refine ⟨withRoot (vFw 2 id []) a b c d, by rw [withRoot_rd _ _ _ _ _ _ (by decide +kernel)]; decide +kernel, ?_⟩
  have u : (withRoot (vFw 2 id []) a b c d).fw.unit = 1 := rfl
  have r : (withRoot (vFw 2 id []) a b c d).fwActive 1 = 0 := by
    rw [State.fwActive, withRoot_rd _ _ _ _ _ _ (by decide +kernel)]; decide +kernel
  have i : (withRoot (vFw 2 id []) a b c d).slotImage 1 1 = iImage := rfl
  have k : (withRoot (vFw 2 id []) a b c d).rootKnown (keyDigest (imgBytes iImage 128 1793)) = true :=
    withRoot_known _ _ _ _ _ _ h (by decide +kernel)
  have mg : imageMagic iImage = true := by decide +kernel
  have len : leAt iImage 16 8 = 0 := by decide +kernel
  have svn : leAt iImage 12 4 = 0 := by decide +kernel
  have b4 : byteAt iImage 4 = 1 := by decide +kernel
  have b5 : byteAt iImage 5 = 0 := by decide +kernel
  have dig : shake256 64 (imgBytes iImage 8192 0) = imgBytes iImage 32 64 := by decide +kernel
  have g : sigAt iImage (imageDigest iImage) 128 1928 1936 = true := by decide +kernel
  have rb : (withRoot (vFw 2 id []) a b c d).rd F.FUSE_STATE_ROLLBACK = 0 := by
    rw [withRoot_rd _ _ _ _ _ _ (by decide +kernel)]; decide +kernel
  have oq : (withRoot (vFw 2 id []) a b c d).on F.FUSE_STATE_OWNER_REQ = false := by
    rw [State.on, withRoot_rd _ _ _ _ _ _ (by decide +kernel)]; decide +kernel
  simp only [State.imageVerify, u, r, i, State.imageCheck, mg, g, b4, b5, len, svn, dig, rb, oq, k]
  simp [slotSize]

theorem witness_FirmwareStagingCommandsAct_1 :
    (vFw 0 id []).mayWrite su F.FW_CMD_CMD ∧ (vFw 0 id [(F.FW_SEL_UNIT, 5)]).fwIdle = true ∧ (vFw 0 id [(F.FW_SEL_UNIT, 5)]).rd F.FW_SEL_UNIT ≤ 5 ∧
      gives (.fwOpen su) (vFw 0 id [(F.FW_SEL_UNIT, 5)]) (fun t => t.rd F.FW_STATUS_STATE == 1 && t.fw.unit == 5 && t.fw.opened) = true ∧
      gives (.fwLoad su) (vFw 0 id [(F.FW_SEL_UNIT, 5)]) (fun t => t.rd F.FW_STATUS_STATE == 2 && t.fw.unit == 5) = true := by
  decide +kernel

theorem witness_FirmwareStagingCommandsAct_2 :
    (vFw 0 id [(F.FW_SEL_UNIT, 6)]).fwIdle = true ∧ gives (.fwOpen su) (vFw 0 id [(F.FW_SEL_UNIT, 6)]) (fun t => t.rd F.FW_STATUS_STATE == 8 && t.rd F.FW_STATUS_RESULT == 2) = true ∧
      idle (.fwAppend su) (vFw 0 (fun x => { x with slots := [] }) []) = true ∧ idle (.fwClose su) (vFw 0 (fun x => { x with slots := [] }) []) = true ∧ idle (.fwStagingDone true) (vFw 0 (fun x => { x with slots := [] }) []) = true ∧
      gives (.fwClose su) (vFw 4 id []) (fun t => t.rd F.FW_STATUS_RESULT == 0x0B) = true ∧ (vFw 0 id []).mayWrite user F.FW_CMD_CMD ∧
      gives (.fwOpen user) (vFw 0 id []) (fun t => t.rd F.FW_STATUS_STATE == 0) = true ∧
      idle (.fwAppend su) (vFw 1 (fun x => { x with slots := [], opened := true }) [(F.FW_BUF_CNT_BYTES, 513)]) = true := by
  decide +kernel

theorem witness_FirmwareStagingCommandsAct_3 :
    (vFw 4 id []).fwIdle = false ∧ gives (.fwLoad su) (vFw 4 id []) (fun t => t.rd F.FW_STATUS_RESULT == 0x0B) = true ∧
      gives (.fwConfirm su) (vFw 4 id []) (fun t => t.rd F.FW_STATUS_RESULT == 0x0B) = true := by
  decide +kernel

theorem witness_FirmwareStagingCommandsAct_4 :
    (vFw 1 (fun x => { x with opened := true, slots := [(3, some [9])] }) [(F.FW_BUF_CNT_BYTES, 2)]).fw.opened = true ∧
      gives (.fwAppend su) (vFw 1 (fun x => { x with opened := true, slots := [(3, some [9])] }) [(F.FW_BUF_CNT_BYTES, 2), (F.FW_BUF_DATA.i 0, 0x0807)])
        (fun t => t.slotImage 1 1 == [9, 7, 8] && t.rd F.FW_STATUS_PROGRESS == 3) = true ∧
      gives (.fwClose su) (vFw 1 (fun x => { x with opened := true, slots := [(3, some [9])] }) []) (fun t => t.rd F.FW_STATUS_STATE == 2 && !t.fw.opened) = true := by
  decide +kernel

theorem witness_FirmwareStagingCommandsAct_5 :
    gives (.fwAbort su) (vFw 2 id []) (fun t => t.rd F.FW_STATUS_STATE == 0 && t.rd F.FW_STATUS_RESULT == 0x0D) = true ∧
      gives (.fwAbort su) (vFw 5 id []) (fun t => t.rd F.FW_STATUS_STATE == 5 && t.rd F.FW_STATUS_RESULT == 0x0B) = true ∧
      gives (.fwStagingDone false) (vFw 2 id []) (fun t => t.rd F.FW_STATUS_STATE == 8 && t.rd F.FW_STATUS_RESULT == 0x0A &&
        bitOf (t.rd (errStatus 0)) 3) = true := by
  decide +kernel

theorem witness_FirmwareStagingCommandsAct_6 :
    ((vFw 2 (fun x => { x with slots := [(3, some [9])] }) []).imageVerify 1 1).2 = 1 ∧
      gives (.fwStagingDone true) (vFw 2 (fun x => { x with slots := [(3, some [9])] }) []) (fun t => t.rd F.FW_STATUS_STATE == 8 &&
        t.rd F.FW_STATUS_RESULT == 1) = true := by
  decide +kernel

theorem witness_FirmwareActivationHandsOverOrReverts_1 :
    (vFw 3 id [(F.FW_SEL_UNIT, 1)]).mayWrite su F.FW_CMD_CMD ∧ (vFw 3 id [(F.FW_SEL_UNIT, 1)]).rd F.SYS_BOOT_STATE ≠ 3 ∧
      (vFw 3 id [(F.FW_SEL_UNIT, 1)]).fw.unit = 1 ∧
      gives (.fwActivate su) (vFw 3 id [(F.FW_SEL_UNIT, 1)]) (fun t => t.rd F.FW_STATUS_STATE == 4 && t.fwPrefer 1 == 1 && bitOf t.fw.trial 1) = true := by
  decide +kernel

theorem witness_FirmwareActivationHandsOverOrReverts_2 :
    (vFw 6 (fun x => { x with trial := 2 }) [(F.FW_SEL_UNIT, 1)]).fwIdle = true ∧
      gives (.fwConfirm su) (vFw 6 (fun x => { x with trial := 2 }) [(F.FW_SEL_UNIT, 1)]) (fun t => t.rd F.FW_STATUS_STATE == 7 && t.fw.trial == 0) = true := by
  decide +kernel

theorem witness_FirmwareActivationHandsOverOrReverts_3 :
    (vFw 4 (fun x => { x with unit := 0 }) []).rd F.RST_STATUS_STEP ≠ 4 ∧ (vFw 4 (fun x => { x with unit := 0 }) []).stewardSafe = true ∧
      gives .fwSafePoint (vFw 4 (fun x => { x with unit := 0 }) []) (fun t => t.rd F.FW_STATUS_STATE == 5) = true := by
  decide +kernel

theorem witness_FirmwareActivationHandsOverOrReverts_4 :
    gives (.fwActivate su) (vFw 3 (fun x => { x with unit := 4 }) [(F.FW_SEL_UNIT, 4)]) (fun t => t.rd F.FW_STATUS_STATE == 6) = true ∧
      idle (.fwActivate su) (vFw 3 (fun x => { x with slots := [] }) [(F.FW_SEL_UNIT, 2)]) = true ∧ idle (.fwConfirm su) (vFw 6 (fun x => { x with slots := [] }) [(F.FW_SEL_UNIT, 1)]) = true ∧
      (vFw 4 id []).power.stopPhase = 0 ∧
      (vFw 4 (fun x => { x with unit := 5 }) []).rd F.RST_STATUS_STEP ≠ 4 ∧
      gives .fwSafePoint (vFw 5 (fun x => { x with unit := 5 }) [(F.CHAIN_FW_RESULT, 1)]) (fun t => t.rd F.FW_STATUS_STATE == 6) = true ∧
      idle .fwSafePoint (vFw 4 (fun x => { x with slots := [], unit := 2 }) []) = true ∧ idle .fwSafePoint (vFw 5 (fun x => { x with slots := [], unit := 3 }) []) = true ∧
      idle .fwSafePoint (vFw 0 (fun x => { x with slots := [] }) []) = true ∧ idle .fwReadyTimeout (vFw 4 (fun x => { x with slots := [] }) []) = true := by
  decide +kernel

theorem witness_FirmwareActivationHandsOverOrReverts_5 :
    (vFw 5 (fun x => { x with unit := 0 }) []).fw.unit = 0 ∧ gives .fwSafePoint (vFw 5 (fun x => { x with unit := 0 }) []) (fun t => t.rd F.FW_STATUS_STATE == 6) = true ∧
      gives .fwReadyTimeout (vFw 5 (fun x => { x with unit := 0, prefer := [(0, 1)] }) []) (fun t => t.rd F.FW_STATUS_STATE == 8 && t.fwPrefer 0 == 0) = true := by
  decide +kernel

theorem witness_FirmwareActivationHandsOverOrReverts_6 :
    (vFw 0 id [(F.SYS_BOOT_RT_STATE, 1)]).mayWrite su F.FW_RT_READY ∧ (vFw 0 id [(F.SYS_BOOT_RT_STATE, 1)]).fw.unit ≠ 2 ∧
      gives (.fwRtReady su) (vFw 0 id [(F.SYS_BOOT_RT_STATE, 1)]) (fun t => t.rd F.SYS_BOOT_RT_STATE == 2 && t.rd F.FW_RT_READY == 1) = true ∧
      gives (.fwRtReady su) (vFw 5 (fun x => { x with unit := 2 }) [(F.SYS_BOOT_RT_STATE, 1)]) (fun t => t.rd F.FW_STATUS_STATE == 6) = true ∧
      (vFw 4 (fun x => { x with unit := 2 }) [(F.SYS_BOOT_RT_STATE, 2)]).rd F.RST_STATUS_STEP ≠ 4 := by
  decide +kernel

def yUp (a : Option Nat) (l : List (Field × Nat)) : State := { bUp l with tray := { (bUp l).tray with address := a, events := 1 } }

theorem witness_CommonCommandCodesAct_1 :
    (yUp none []).i3cUp = true ∧ gives (.i3cSetdasa 127) (yUp none []) (fun t => t.tray.address == some 127) = true ∧
      gives (.i3cEntdaa 0) (yUp none []) (fun t => t.tray.address == some 0) = true ∧
      gives .i3cRstdaa (yUp (some 0) []) (fun t => t.tray.address == none) = true ∧ idle (.i3cSetdasa 127) (yUp (some 0) []) = true ∧
      idle .i3cGetpid (yUp none []) = true ∧ idle .i3cRstdaa State.reset = true := by
  decide +kernel

theorem witness_CommonCommandCodesAct_2 :
    (yUp (some 0) []).i3cOn = true ∧ (yUp (some 0) []).tray.events < 256 ∧
      gives (.i3cEnec 0x80) (yUp (some 0) []) (fun t => t.tray.events == 0x81) = true ∧
      gives (.i3cDisec 0x81) (yUp (some 0) []) (fun t => t.tray.events == 0) = true := by
  decide +kernel

theorem witness_CommonCommandCodesAct_3 :
    gives .i3cGetpid (yUp (some 0) [(F.LINK_ID_MOD_INDEX, 63)]) (fun t => match t.outbox with | .answer true false l :: _ => l.length == 6 | _ => false) = true ∧
      gives .i3cGetbcr (yUp (some 0) []) (fun t => match t.outbox with | .answer true false l :: _ => l.length == 1 | _ => false) = true ∧
      gives .i3cGetdcr (yUp (some 0) []) (fun t => match t.outbox with | .answer true false l :: _ => l.length == 1 | _ => false) = true ∧
      gives .i3cGetstatus (yUp (some 0) []) (fun t => t.draws == 1) = true := by
  decide +kernel

/-! ### Register accesses -/

theorem witness_RegisterAccessesAreAligned_1 :
    gives (.registerWrite su 0xF0000000105 8 1) State.reset (fun t => t.outbox.head? == some (.answer false false []) && t.mem == []) = true ∧
      gives (.registerWrite su 0xF0000000100 4 1) State.reset (fun t => t.outbox.head? == some (.answer false false [])) = true ∧
      gives (.registerWrite su 0xEFFFFFFFFF8 8 1) State.reset (fun t => t.outbox.head? == some (.answer false false [])) = true ∧
      gives (.registerWrite su 0xF0010000000 8 1) State.reset (fun t => t.outbox.head? == some (.answer false false [])) = true := by
  decide +kernel

theorem witness_RegisterAccessesAreAligned_2 :
    (State.reset.regRead su 0xF0000000104 8).2.1 ≠ 0 ∧ (State.reset.regRead su 0xF0000000100 7).2.1 ≠ 0 := by
  decide +kernel

theorem witness_RegisterAccessesAreAligned_3 :
    (pageInfo 0x60).isSome = true ∧ F.CAP_FAST_RELEASE_US.off < 4096 ∧ F.CAP_FAST_RELEASE_US.off % 8 = 0 ∧
      State.reset.pageFault su 0x60 true = none ∧
      gives (.registerWrite su (BitVec.ofNat 44 (0xF0000000000 + 0x60 * 4096 + F.CAP_FAST_RELEASE_US.off)) 8 (BitVec.ofNat 64 (20 * 2 ^ F.CAP_FAST_RELEASE_US.lo)))
        State.reset (fun t => t.rd F.CAP_FAST_RELEASE_US == 20) = true := by
  decide +kernel

theorem witness_RegisterAccessesAreAligned_4 :
    State.reset.pageFault ⟨.core .A 0, .L2⟩ 0x60 true = some 3 ∧
      gives (.registerWrite ⟨.core .A 0, .L2⟩ (BitVec.ofNat 44 (0xF0000000000 + 0x60 * 4096 + F.CAP_FAST_RELEASE_US.off)) 8 (BitVec.ofNat 64 (20 * 2 ^ F.CAP_FAST_RELEASE_US.lo)))
        State.reset (fun t => t.rd F.CAP_FAST_RELEASE_US == 10) = true := by
  decide +kernel

/-! ### The page header -/

def eTile : BitVec 16 := BitVec.ofNat 16 (tilePage .B 131)

def eMap : State := put (cSel id) [(F.TILE_STATUS_LOGICAL.pg (tilePage .A 0), 0)]

theorem witness_HeaderCommandsAct_1 :
    (pageInfo eTile.toNat).map (·.kind) = some .tile ∧ State.reset.pageFault su eTile.toNat false = none ∧ capOf eTile.toNat 0 = true ∧
      gives (.blkCtrlCfgLock su eTile) State.reset (fun t => t.rd (F.BLK_CTRL_CFG_LOCK.pg eTile.toNat) == 1) = true ∧
      gives (.blkCtrlFenceSet su eTile) State.reset (fun t => t.tileState .B 131 == 4) = true ∧
      gives (.blkCtrlFenceClear su eTile) (base [(tf F.TILE_STATUS_STATE .B 131, 4)]) (fun t => (t.tile .B 131).recal) = true := by
  decide +kernel

theorem witness_HeaderCommandsAct_2 :
    capOf (corePage .A 7) 2 = true ∧ State.reset.rd (F.BLK_CTRL_ENABLE.pg (corePage .A 7)) ≠ b2n false ∧
      gives (.blkCtrlEnable su (BitVec.ofNat 16 (corePage .A 7)) false) (base [(F.CORE_STATUS_STATE.pg (corePage .A 7), 1)])
        (fun t => t.rd (F.CORE_STATUS_STATE.pg (corePage .A 7)) == 0) = true := by
  decide +kernel

theorem witness_HeaderCommandsAct_3 :
    State.reset.on (F.ACCESS_CLASS_FIXED.pg eTile.toNat) = false ∧
      gives (.accessClassWrite su eTile 0xF) State.reset (fun t => t.rd (F.ACCESS_CLASS_READ.pg eTile.toNat) == 3 &&
        t.rd (F.ACCESS_CLASS_WRITE.pg eTile.toNat) == 3 && t.rd (F.ACCESS_CLASS_FIXED.pg eTile.toNat) == 0) = true ∧
      State.reset.on (F.ACCESS_CLASS_FIXED.pg 0x01) = true ∧ idle (.accessClassWrite su 0x01 0xF) State.reset = true := by
  decide +kernel

theorem witness_HeaderCommandsAct_4 :
    bitOf (errImplAt eTile.toNat) 0 = true ∧ gives (.errInjectWrite su eTile 1) State.reset (fun t => t.armed eTile.toNat 0) = true ∧
      gives (.errMaskWrite su eTile 0xFFF) State.reset (fun t => t.rd (F.ERR_MASK_MASK.pg eTile.toNat) == maskOf eTile.toNat 0xFFF) = true := by
  decide +kernel

theorem witness_HeaderCommandsAct_5 :
    (pageInfo (engPage .A 3)).map (·.kind) = some .eng ∧ State.reset.rd F.RST_STATUS_STEP ≤ 3 ∧ State.reset.pageFault su (engPage .A 3) true = none ∧
      gives (.blkCtrlResetReq su (BitVec.ofNat 16 (engPage .A 3))) State.reset (fun t => t.rd (ef F.ENG_STATUS_STATE .A 3) == 3) = true ∧
      idle (.blkCtrlResetReq ⟨.core .A 0, .L2⟩ (BitVec.ofNat 16 (engPage .A 3))) (base [(F.ACCESS_CLASS_READ.pg (engPage .A 3), 2), (F.ACCESS_CLASS_WRITE.pg (engPage .A 3), 2)]) = true := by
  decide +kernel

theorem witness_HeaderCommandsAct_6 :
    (pageInfo (corePage .A 7)).map (·.kind) = some .core ∧ State.reset.pageFault su (corePage .A 7) true = none ∧
      gives (.blkCtrlResetReq su (BitVec.ofNat 16 (corePage .A 7))) (base [(F.CORE_STATUS_STATE.pg (corePage .A 7), 3)])
        (fun t => t.rd (F.CORE_STATUS_STATE.pg (corePage .A 7)) == 1) = true ∧
      (pageInfo (portPage 3)).map (·.kind) = some .lport ∧
      gives (.blkCtrlResetReq su (BitVec.ofNat 16 (portPage 3))) lUp (fun t => t.portState 3 == 4) = true := by
  decide +kernel

theorem witness_HeaderCommandsAct_7 :
    eMap.partOfTile .A (eMap.logicalOf .A 0) = some 1 ∧ eMap.pageFault su (tilePage .A 0) true = none ∧
      gives (.blkCtrlResetReq su (BitVec.ofNat 16 (tilePage .A 0))) eMap (fun t => t.rd (F.PART_STATUS_STATE.i 1) == 4) = true := by
  decide +kernel

theorem witness_HeaderCommandsAct_8 :
    (user : Req).level ≠ .L0 ∧ State.reset.pageFault user eTile.toNat false = none ∧ State.reset.pageFault user eTile.toNat true = none ∧
      gives (.blkCtrlCfgLock user eTile) State.reset (fun t => t.rd (F.BLK_CTRL_CFG_LOCK.pg eTile.toNat) == 0) = true ∧
      State.reset.blkFenced eTile.toNat = false ∧ gives (.blkCtrlFenceSet user eTile) State.reset (fun t => t.tileState .B 131 != 4) = true ∧
      (base [(tf F.TILE_STATUS_STATE .B 131, 4)]).blkFenced eTile.toNat = true ∧
      gives (.errInjectWrite user eTile 1) State.reset (fun t => !t.armed eTile.toNat 0) = true := by
  decide +kernel

theorem witness_HeaderCommandsAct_9 :
    capOf 0x60 0 = false ∧ idle (.blkCtrlFenceSet su 0x60) State.reset = true ∧ idle (.blkCtrlFenceClear su eTile) State.reset = true ∧
      capOf eTile.toNat 2 = false ∧ idle (.blkCtrlEnable su eTile false) State.reset = true ∧ capOf 0x60 1 = false ∧
      idle (.blkCtrlResetReq su 0x60) State.reset = true ∧
      State.reset.partOfTile .B (State.reset.logicalOf .B 131) = none ∧ idle (.blkCtrlResetReq su eTile) State.reset = true ∧
      idle (.blkCtrlResetReq user (BitVec.ofNat 16 (corePage .A 7))) (base [(F.ACCESS_CLASS_READ.pg (corePage .A 7), 1), (F.ACCESS_CLASS_WRITE.pg (corePage .A 7), 1)]) = true := by
  decide +kernel

theorem witness_HeaderCommandsAct_10 :
    State.reset.pageFault ⟨.core .A 0, .L2⟩ 0x60 true = some 3 ∧
      gives (.blkCtrlCfgLock ⟨.core .A 0, .L2⟩ 0x60) State.reset (fun t => t.rd (F.BLK_CTRL_CFG_LOCK.pg 0x60) == 0) = true := by
  decide +kernel

/-! ### The queue, and the canonical form -/

def qTwo : State := { State.reset with pending := [.startupBusWaitEnd, .rstNLow] }

theorem witness_StepRunsTheFrontCommand_1 :
    qTwo.pending = .startupBusWaitEnd :: [.rstNLow] ∧ (match step qTwo with | .next t => t.pending == [.rstNLow] | _ => false) = true ∧
      State.reset.pending = [] ∧ (match step State.reset with | .next t => t.pending == [] | _ => false) = true := by
  decide +kernel

theorem witness_StepKeepsCanonical_1 :
    State.reset.canonical ∧ (match step { hMem with pending := [.hbmWriteRequest cpu 0xFFFC0 [7, 0] false .clean] } with
        | .next t => decide t.canonical && t.mem == [(0xFFFC0, 7)] | _ => false) = true := by
  decide +kernel

/-! ### Ill-formed commands -/

/-- A training result with the rates of three stacks. -/
abbrev illTraining : Training := { tGood with rates := [1, 2, 3] }

/-- A transaction of length 0. -/
abbrev illTxn : Txn := { (txn 0 9 0 []) with len := 0 }

theorem smoke_training : (Instr.startupStepComplete illTraining).wf = false ∧ (Instr.chipResetPhaseDone illTraining).wf = false := by decide

theorem smoke_levels : (Instr.blkCtrlFenceSet ⟨.steward, .L1⟩ 0x60).wf = false ∧ (Instr.blkCtrlFenceSet ⟨.power, .L2⟩ 0x60).wf = false ∧
    (Instr.errMaskWrite ⟨.core .A 0, .L0⟩ 0x60 0).wf = false ∧ (Instr.errMaskWrite user 0x60 0).wf = true := by decide

theorem smoke_register_write : (Instr.registerWrite su 0xF0000000000 0 0).wf = false := by decide

theorem smoke_memory : (Instr.tileWindowAccess cpu .A 0 0 (.read 0) .clean).wf = false ∧
    (Instr.tileWindowAccess cpu .A 0 0 (.write [] false) .clean).wf = false ∧ (Instr.hbmReadRequest cpu 0xA000000000 .clean).wf = false ∧
    (Instr.hbmWriteRequest cpu 0 [] false .clean).wf = false ∧ (Instr.coreRemoteAccess .A 0 0 (.load 65)).wf = false ∧
    (Instr.coreRemoteAccess .A 0 0 (.store [])).wf = false := by decide

theorem smoke_transactions : (Instr.read 3 illTxn).wf = false ∧ (Instr.write 3 (txn 1 9 0 [])).wf = false ∧
    (Instr.reduceWrite 3 { (txn 1 9 0 [1]) with len := 2 }).wf = false := by decide

theorem smoke_attest : (Instr.attest 1 [] 5).wf = false ∧ (Instr.pageRetireDone .A [(0, .clean)]).wf = false ∧ (Instr.flitReceive 3 ⟨0, true, []⟩).wf = false := by decide

theorem smoke_rails : (Instr.phaseBalance 4 [] []).wf = false ∧ (Instr.phaseOtFence 4 255).wf = false := by decide

theorem smoke_chain : (Instr.sweepReadReturn [⟨0, true, [], [], 0, 0⟩] 0).wf = false ∧ (Instr.carrierReturn 8 []).wf = false := by decide

theorem smoke_recovery : (Instr.recoveryStepOverrun 0 0).wf = false ∧ (Instr.recoveryStepOverrun 5 0).wf = false ∧
    (Instr.recoveryStepOverrun 4 0).wf = true := by decide

end Sys2Proof.Tests
end

section
/-! MARK frames of a session (R294). -/

namespace Sys2Proof.Machine

/-- The choice that `execMarkFrame` makes of the front record: a mark for the phase unit, or a count in PHASE_COUNTS.DUP. -/
theorem exec_markFrame_of_frontRec {slot : Fin 64} {e : HRec} {s : State} (hfront : s.frontRec slot.val 0x0B = some e) :
    exec (.markFrame slot) s = .next
      (if (s.sess slot.val).level ≠ .L2 ∧ e.inOrder = true ∧ e.bad = false then
        (s.recTake slot.val).markIn 3 e.at_ none (some (e.w0 % 2 ^ 32))
      else (s.recTake slot.val).incSat F.PHASE_COUNTS_DUP) := by
  have harm : exec (.markFrame slot) s = execMarkFrame slot s := rfl
  rw [harm, execMarkFrame, hfront]
  simp only [Bool.and_eq_true, bne_iff_ne, Bool.not_eq_true', and_assoc]

end Sys2Proof.Machine

namespace Sys2Proof
open Sys2Proof.Machine

/-- Settles O27: the two clauses are the two sides of one choice on the front record. That a malformed record (`bad`) falls on
the side of PHASE_COUNTS.DUP is the model's choice (DESIGN CHOICE, log 46); the rest is R294's. -/
theorem markFramesReachThePhaseUnit : Obligations.MarkFramesReachThePhaseUnit := by
  intro slot e s hfront
  have hexec := exec_markFrame_of_frontRec hfront
  constructor
  · intro hlevel horder hgood
    rw [hexec, if_pos ⟨hlevel, horder, hgood⟩]
  · intro hdropped
    have hnot : ¬ ((s.sess slot.val).level ≠ .L2 ∧ e.inOrder = true ∧ e.bad = false) := by
      rintro ⟨hlevel, horder, hgood⟩
      rcases hdropped with hL2 | hlate | hbad
      · exact hlevel hL2
      · simp [horder] at hlate
      · simp [hgood] at hbad
    rw [hexec, if_neg hnot]

end Sys2Proof
end

section
/-! Register accesses: when one fails, and what it does then (R530, R533, R539, R540). -/

namespace Sys2Proof.Machine

/-- What recording leaves alone is what `logsBut` asks for, whatever registers `p` excepts besides. -/
theorem Logged.logsBut {s t : State} (h : Logged s t) (p : Nat → Prop) : s.logsBut t p := by
  refine ⟨fun k hk => h.reg k ?_, ?_⟩
  · simpa using fun hevent => hk (.inl hevent)
  · cases t
    simp only [State.mk.injEq, true_and]
    exact ⟨h.sels, h.mem, h.poison, h.latches, h.frondReset, h.phase, h.power, h.rails, h.railSys, h.budget, h.chain, h.est,
      h.tiles, h.hbm, h.ring, h.work, h.rst, h.col, h.hang, h.dump, h.link, h.boot, h.cfg, h.fw, h.fuse, h.tray, h.draws,
      h.pending⟩

theorem Logged.denied (s : State) (r : Req) (p off reason : Nat) : Logged s (s.denied r p off reason) :=
  Logged.event s 0 0x0070 p off (reqCode r) reason

theorem Logged.accessError (s : State) (r : Req) (p off reason : Nat) : Logged s (s.accessError r p off reason) :=
  (Logged.denied s r p off reason).trans (Logged.put _ _)

theorem State.head?_outbox_accessError (s : State) (r : Req) (p off reason : Nat) :
    (s.accessError r p off reason).outbox.head? = some (.answer false false []) := rfl

/-! ### The reason for which an access fails -/

/-- The reasons of a refused page are UNMAPPED, PRIV, FENCED and RESET (R540): neither 0, which says done, nor 6, which says
that a field of the write was a privilege error. -/
theorem State.pageFault_reason {s : State} {r : Req} {p reason : Nat} {write : Bool}
    (h : s.pageFault r p write = some reason) : 1 ≤ reason ∧ reason ≤ 5 := by
  unfold State.pageFault at h
  split at h
  · cases h; decide
  · split_ifs at h <;> cases h <;> decide

theorem State.regFault_reason {s : State} {r : Req} {a bytes reason : Nat} {write : Bool}
    (h : s.regFault r a bytes write = some reason) : 1 ≤ reason ∧ reason ≤ 5 := by
  unfold State.regFault at h
  split at h
  · cases h; decide
  · split_ifs at h
    · cases h; decide
    · cases h; decide
    · exact State.pageFault_reason h

/-- R533 and R530: an access that is not one aligned 64-bit access inside the register space fails. -/
theorem State.exists_regFault (s : State) (r : Req) {a bytes : Nat} (write : Bool)
    (h : bytes ≠ 8 ∨ a % 8 ≠ 0 ∨ a < 0xF0000000000 ∨ 0xF0010000000 ≤ a) :
    ∃ reason, s.regFault r a bytes write = some reason := by
  unfold State.regFault keyOf
  by_cases hin : 0xF0000000000 ≤ a ∧ a < 0xF0010000000
  · have hwidth : bytes ≠ 8 ∨ (a - 0xF0000000000) % 8 ≠ 0 := by omega
    rw [if_pos hin]
    simp only [if_pos hwidth]
    split_ifs
    · exact ⟨1, rfl⟩
    · exact ⟨2, rfl⟩
  · rw [if_neg hin]
    exact ⟨1, rfl⟩

/-- The local address of a register (R530). -/
def regAddr (page off : Nat) : Nat := 0xF0000000000 + page * 4096 + off

theorem toNat_regAddr (page : BitVec 16) {off : Nat} (hoff : off < 4096) :
    (BitVec.ofNat 44 (regAddr page.toNat off)).toNat = regAddr page.toNat off := by
  have hpage := page.isLt
  exact (BitVec.toNat_ofNat _ _).trans (Nat.mod_eq_of_lt (by rw [regAddr]; omega))

theorem pageOf_regAddr (page : Nat) {off : Nat} (hoff : off < 4096) : pageOf (regAddr page off) = page := by
  rw [pageOf, regAddr]
  omega

theorem regAddr_mod (page : Nat) {off : Nat} (hoff : off < 4096) : regAddr page off % 4096 = off := by
  rw [regAddr]
  omega

theorem regAddr_sub_base (page off : Nat) : regAddr page off - 0xF0000000000 = page * 4096 + off := by
  rw [regAddr]
  omega

theorem keyOf_regAddr (page : BitVec 16) {off : Nat} (hoff : off < 4096) :
    keyOf (regAddr page.toNat off) = some (page.toNat * 4096 + off) := by
  have hpage := page.isLt
  have hin : 0xF0000000000 ≤ regAddr page.toNat off ∧ regAddr page.toNat off < 0xF0010000000 := by
    rw [regAddr]
    omega
  rw [keyOf, if_pos hin, regAddr_sub_base]

/-- At an aligned offset of a mapped page, an access of 8 bytes fails exactly as the page refuses it. -/
theorem State.regFault_regAddr (s : State) (r : Req) (page : BitVec 16) {off : Nat} (write : Bool) (hoff : off < 4096)
    (haligned : off % 8 = 0) (hmapped : (pageInfo page.toNat).isNone = false) :
    s.regFault r (regAddr page.toNat off) 8 write = s.pageFault r page.toNat write := by
  have hpage : (page.toNat * 4096 + off) / 4096 = page.toNat := by omega
  have hwidth : ¬ ((8 : Nat) ≠ 8 ∨ (page.toNat * 4096 + off) % 8 ≠ 0) := by omega
  simp only [State.regFault, keyOf_regAddr page hoff, hpage, hmapped, if_neg hwidth]
  rfl

/-! ### What an access does -/

theorem State.regRead_of_fault {s : State} {r : Req} {a bytes reason : Nat} (h : s.regFault r a bytes false = some reason) :
    s.regRead r a bytes = (s.denied r (pageOf a) (a % 4096) reason, reason, 0) := by
  rw [State.regRead, h]

theorem exec_registerWrite_of_fault {s : State} {r : Req} {addr : BitVec 44} {bytes : BitVec 7} {value : BitVec 64}
    {reason : Nat} (h : s.regFault r addr.toNat bytes.toNat true = some reason) :
    exec (.registerWrite r addr bytes value) s =
      .next (s.accessError r (pageOf addr.toNat) (addr.toNat % 4096) reason) := by
  have harm : exec (.registerWrite r addr bytes value) s = execRegisterWrite r addr bytes value s := rfl
  have hreason := State.regFault_reason h
  have hfails : ¬ (reason = 0 ∨ reason = 6) := by omega
  rw [harm, execRegisterWrite, State.regWrite, h]
  simp only [if_neg hfails, State.accessError]

theorem exec_registerWrite_of_no_fault {s : State} {r : Req} {addr : BitVec 44} {bytes : BitVec 7} {value : BitVec 64}
    (h : s.regFault r addr.toNat bytes.toNat true = none) :
    exec (.registerWrite r addr bytes value) s = .next
      (let m := s.regPut r (addr.toNat - 0xF0000000000) value
      if m.2 = 1 then m.1.fieldPriv r (pageOf addr.toNat) (addr.toNat % 4096) else m.1) := by
  have harm : exec (.registerWrite r addr bytes value) s = execRegisterWrite r addr bytes value s := rfl
  have hdone (n : Nat) : (if n = 0 then 0 else 6) = 0 ∨ (if n = 0 then 0 else 6) = 6 := by
    split_ifs <;> simp
  rw [harm, execRegisterWrite, State.regWrite, h]
  simp only [if_pos (hdone _)]

end Sys2Proof.Machine

namespace Sys2Proof
open Sys2Proof.Machine

/-- Settles O59: an access that breaks R533 or R530 has a reason to fail, and then only the denial is recorded; at an aligned
offset of a mapped page the access fails exactly as the page refuses it. The order in which the reasons are tried is the
model's choice (DESIGN CHOICE, log 70). -/
theorem registerAccessesAreAligned : Obligations.RegisterAccessesAreAligned := by
  refine ⟨fun r addr bytes value s hbad => ?_, fun r a bytes s hbad => ?_,
    fun r page off value i s hoff haligned hpage => ?_⟩
  · obtain ⟨reason, hfault⟩ := s.exists_regFault r true hbad
    exact ⟨_, exec_registerWrite_of_fault hfault, State.head?_outbox_accessError .., (Logged.accessError ..).logsBut _⟩
  · obtain ⟨reason, hfault⟩ := s.exists_regFault r false hbad
    have hreason : reason ≠ 0 := Nat.ne_of_gt (State.regFault_reason hfault).1
    rw [State.regRead_of_fault hfault]
    exact ⟨hreason, rfl, (Logged.denied ..).logsBut _⟩
  · have haddr := toNat_regAddr page hoff
    have hmapped : (pageInfo page.toNat).isNone = false := by simp [hpage]
    have hfault : s.regFault r (BitVec.ofNat 44 (regAddr page.toNat off)).toNat (8 : BitVec 7).toNat true
        = s.pageFault r page.toNat true := by
      rw [haddr]
      exact s.regFault_regAddr r page true hoff haligned hmapped
    constructor
    · intro hadmits
      exact (exec_registerWrite_of_no_fault (hfault.trans hadmits)).trans
        (by rw [haddr, pageOf_regAddr _ hoff, regAddr_mod _ hoff, regAddr_sub_base])
    · intro reason hrefused
      exact (exec_registerWrite_of_fault (hfault.trans hrefused)).trans
        (by rw [haddr, pageOf_regAddr _ hoff, regAddr_mod _ hoff])

end Sys2Proof
end
